-- ==== Sys2Proof/Word.lean ====
section
/-!
DEFINITION. The widths the manual gives its words (00_scope.md, 05, 11): a control-space word is 32 bits, a
memory cell is a byte, and a 64-bit word is what the kerf generator, a frame word and a global address are.
-/

namespace Sys2Proof

/-- A control-space word (00, register tables). -/
abbrev Word := BitVec 32

/-- One byte of memory. -/
abbrev Byte := BitVec 8

/-- A 64-bit word: a kerf output (02, R57), a frame word (16, R384), a global address (00, R16). -/
abbrev Word64 := BitVec 64

end Sys2Proof
end

