-- ==== Sys2Proof/Syntax.lean ====
section
/-!
DEFINITION. The commands of the block, one constructor for each row of spec/opcode_table.json, and the operand
types they use. A row is one whole, indivisible event of the machine (95_what_each_step_holds.md): a command from a
host, a packet, a link block or a pin, a step of an engine or of the management controller. What an event needs
from outside the machine (the words of a packet, a measured value, which ward a stage concerns) is an operand.
-/

namespace Sys2Proof

/-- A link block received on a port with a good CRC (12, R301): SEQ, ACK where ACK_VALID is 1, the transaction header, the
sideband word, the payload, and the units of 1,024 symbols that FEC corrected up to it (12, R300). Its TYPE is the row's. -/
structure RxBlock where
  port    : Nat
  seq     : Nat
  ack     : Option Nat
  dst     : Nat := 0
  src     : Nat := 0
  slice   : Nat := 0
  reason  : Nat := 0
  tid     : Nat := 0
  offset  : Nat := 0
  side    : Nat := 0
  payload : List Byte := []
  corrected : Nat := 0
deriving DecidableEq, Repr

/-- The page of Tier 3 that a finding of the media concerns (14, R338): a block of the host device, a section of an image, a journal record by
its STEP, or another. -/
inductive FlashPage where
  | none
  | host (lba : Nat)
  | image (step part : Nat)
  | record (step : Nat)
deriving DecidableEq, Repr

/-- A finding of the media of Tier 3 (14, R338 to R341): in a block of the SLC or the user region, a read (op 0), a program (1) or an erase (2).
`soft`: a codeword above a raw bit error rate of 3×10⁻³, or soft reads; `bad`: a page that its code cannot correct, or a failure reported;
`peers`: how many of the pages that would rebuild it (15 of its stripe, or the second copy) are bad too; `spare`: GiB of spare blocks of the
user region left after it. -/
structure FlashEvt where
  slc   : Bool
  block : Nat
  op    : Nat
  soft  : Bool := false
  bad   : Bool := false
  peers : Nat := 0
  spare : Nat := 1446
  page  : FlashPage := .none
deriving DecidableEq, Repr

/-- An activity count of a physical ward over a microsecond and the part of it that Class F commands executed (16, R392, R402): 0 to 3 ME slot
clocks at the wide, 8-bit, 4-bit and ternary rates (03, R63), 4 VE and 5 UE busy clocks, 6 ward-store accesses, 7 avenue hops, 8 Mover bytes. -/
structure Activity where
  ward   : Nat
  kind   : Nat
  total  : Nat
  classF : Nat := 0
deriving DecidableEq, Repr

/-- What a microsecond of the fast loop measures (16, R392, R399, R402): input power in W, VIN_CORE current in 0.1 A, activity counts, the
current monitors of V_HOST, V_STK, V_GDD, V_OPT, V_NAND, V_PCIE and V_AON in mW, the units of 1,024 withheld clocks that fill up in it (ward,
of Class F, of Class L), the wards that lift a bubble, and the clocks that the issue cap withholds (ward, clocks; 15, R371). -/
structure FastIn where
  meas     : Nat
  vin      : Nat
  acts     : List Activity := []
  rails    : List Nat := []
  withheld : List (Nat × Nat × Nat) := []
  lifted   : List Nat := []
  capped   : List (Nat × Nat) := []
deriving DecidableEq, Repr

/-- The raw samples of the thermal sensors (16, R404), 12-bit codes in 0.125 °C: A and B of each stack; of each district its four ward
sensors and its square; and whether COOLANT_FAIL_N is asserted (16, R412). -/
structure ThermIn where
  pairs : List (Nat × Nat)
  dies   : List (List Nat)
  coolant : Bool := false
deriving DecidableEq, Repr

/-- A finding of a ward self-test (20, R492, R493, R503): district, physical position or context bank, unit code (9 and 10: a context bank,
by its march test or its library digest), 1 repaired or 2 failed, and the place in the unit: of an ME column 128 × ME + 32 × group + physical
column, of an SRAM row 2^16 × array + row (a ward-store bank or an accumulator, or of a context bank a descriptor memory or kernel store), of a
slice its way, or 2^16 × (way + 1) + row. -/
structure Finding where
  district : Nat
  pos      : Nat
  unit     : Nat
  result   : Nat
  loc      : Nat := 0
deriving DecidableEq, Repr

/-- What the memories that an event reads or writes turn out to hold at an address (11, R280, R283, R287, R291, R293): nothing wrong; a sector
or word that is corrected; one beyond correction; a line of the shared cache beyond correction, by the Tier 1 address it holds; a block whose
eight transmissions fail; n blocks resent; a place of an ME's accumulator storage beyond correction. An address that the event does not
touch means nothing. -/
inductive MemErr where
  | none
  | corrected (a : Nat)
  | lost (a : Nat)
  | line (a : Nat)
  | failed (a : Nat)
  | resent (a n : Nat)
  | accum (off : Nat)
deriving DecidableEq, Repr

/-- An access of a host core or over PCIe that comes before a command (19, R474 to R479, R486, R487): loads and stores of n bytes, LR and SC (rd
takes what a load or SC gives, sign-extended where `sx` says so), a FENCE W,O or a stronger one; that store number k of a hart's waiting stores
becomes visible without a fence; that a line leaves a hart's caches, or is found uncorrectable there, at a load or not; and reads and
writes over PCIe: window 0 BAR0, 1 BAR2, 2 an access of a device in root-port mode, after translation by the IOMMU. -/
inductive HostOp where
  | load (hart rd addr n : Nat) (sx : Bool) (err : MemErr)
  | store (hart addr n v : Nat) (err : MemErr)
  | loadReserved (hart rd addr n : Nat) (err : MemErr)
  | storeConditional (hart rd addr n v : Nat) (err : MemErr)
  | fence (hart : Nat)
  | visible (hart k : Nat)
  | evict (hart addr : Nat)
  | cacheError (hart addr : Nat) (atLoad : Bool)
  | pcieRead (window addr n : Nat) (err : MemErr)
  | pcieWrite (window addr : Nat) (bytes : List Byte) (err : MemErr)
deriving DecidableEq, Repr

/-- The commands of the block: one constructor per row of spec/opcode_table.json, in its order; each docstring
names the row's rule. -/
inductive Instr where
  /-- COLD_START (R489). VBUS rising above 38 V starts the cold-start stages: boot bank selection, rail start-up, DRAM training and zero-fill, self-test and link bring-up. -/
  | coldStart (board loop : Nat)
  /-- BRINGUP_STAGE_DONE (R489). A cold-start or reset stage ends; READY is set once every stage has ended. -/
  | bringupStageDone (stage elapsed : Nat) (findings : List (Nat × Nat))
  /-- WARD_SELF_TEST_END (R493). At the end of ward self-test the MC records new repairs and failures and rebuilds the shim table and the logical ward counts. -/
  | wardSelfTestEnd (findings : List Finding)
  /-- WARM_RESET (R494). RESET_N held low for 10 µs stops issue and engines, writes back the shared cache, puts DRAM into self-refresh and starts bring-up. -/
  | warmReset
  /-- VBUS_STOP (R363). VBUS below 36 V, or above 62 V for 10 µs, stops the bus converter and every rail except V_AON falls. -/
  | vbusStop
  /-- VBUS_LOW (R364). VBUS below 40 V for 10 µs starts the power-fail sequence as if PFW_N had been asserted. -/
  | vbusLow (vbus : Nat)
  /-- PFW_ASSERT (R358). PFW_N asserted for 10 µs runs the power-fail sequence: journal and image refusals, flash quiesce and write protect within 5 ms. -/
  | pfwAssert (vbus : Nat)
  /-- PFW_RELEASE (R359). PFW_N deasserted for 16 frames with VBUS in range lifts every power-fail refusal and counts the warning. -/
  | pfwRelease
  /-- CORE_CURRENT_LIMIT (R366). VIN_CORE current above 600 A raises the fast power limit. -/
  | coreCurrentLimit
  /-- CORE_CONVERTER_SHUTDOWN (R366). VIN_CORE current above 720 A for 20 µs shuts the converter down; every stream faults with FLT_WARD_LOST and job assignment is refused. -/
  | coreConverterShutdown (current : Nat)
  /-- PHASE_FAIL (R370). A ward regulator phase fails; the spare phase replaces it or the ward's current limit is derated. -/
  | phaseFail (pw phase : Nat)
  /-- SPARE_PHASE_SWAP_END (R370). The 5 µs spare-phase swap completes and the ward's limit returns to its derated or full value. -/
  | sparePhaseSwapEnd (pw : Nat)
  /-- REGULATOR_FAIL (R372). A ward regulator fails, its clamps engage, and the ward goes dark. -/
  | regulatorFail (pw : Nat)
  /-- SQUARE_REGULATOR_FAIL (R373). A square regulator fails; the square runs single at 3/4 clock, or the district is lost if both regulators have failed. -/
  | squareRegulatorFail (district reg : Nat)
  /-- WARD_DARK (R376). A ward that goes dark faults its streams with FLT_WARD_LOST, is recorded, and a spare ward's wake is requested. -/
  | wardDark (ward cause : Nat)
  /-- REFCLK_LOSS (R434). Loss of REFCLK for 10 µs sets REFCLK_LOST, holds every generator's control word and refuses job assignment. -/
  | refclkLoss
  /-- REFCLK_RETURN (R434). Once REFCLK has been back for 1 s and every crossing has re-centred, job assignment is allowed again. -/
  | refclkReturn
  /-- DROOP_STRETCH (R435). A grid voltage below 94% of its set point lengthens the region's clock periods by steps of 1/8. -/
  | droopStretch (region units : Nat)
  /-- CROSSING_SLIP (R439). A word that misses its delivery cycle is delivered late, and a slip is counted and traced. -/
  | crossingSlip (region crossing short : Nat)
  /-- CROSSING_RECENTRE (R439). After a slip, the crossing waits for a cycle with no word in flight and restores its latency L. -/
  | crossingRecentre (crossing ok : Nat)
  /-- CROSSING_RECAL (R437). A crossing is recalibrated with 256 marker words and L is set to the largest observed delay plus 2. -/
  | crossingRecal (district crossing delay : Nat)
  /-- TIER1_REFRESH (R432). Tier 1 rows are refreshed every 32 ms, or every 16 ms above 85 °C. -/
  | tier1Refresh (stack : Nat)
  /-- FRAME_PULSE (R383). A frame pulse opens a frame: the grant takes effect, the slow loop runs, budgets refill and the energy record closes. -/
  | framePulse (since : Nat)
  /-- FRAME_WORD (R384). A complete 64-bit frame word is received and CRC-checked, and its grant is held for the next pulse. -/
  | frameWord (word : Nat)
  /-- FRAME_LOSS (R387). With no pulse accepted for 4 ms, FRAME_IN is lost: LOST is set and frame synthesis begins. -/
  | frameLoss
  /-- FRAME_SYNTH (R387). The MC synthesises a frame at the last measured period, and the grant steps towards the lost-frame grant. -/
  | frameSynth
  /-- FAST_LOOP (R392). Every 1 µs, the fast loop computes the estimated power and sets the Class F bubble fraction. -/
  | fastLoop (x : FastIn)
  /-- THERMAL_SAMPLE (R404). Every 250 µs the thermal sensors are sampled and control temperatures and rates are updated. -/
  | thermalSample (x : ThermIn)
  /-- COOLANT_STOP (R412). COOLANT_FAIL_N asserted, or a stack rate above 5 °C/s, bubbles all issue, puts every ward into RETAIN and runs the power-fail actions. -/
  | coolantStop
  /-- VOTE_CHANGE (R422). A vote that deepens, becomes shallower or is withdrawn moves the ward or module towards its new target state. -/
  | voteChange (domain client : Nat)
  /-- STREAM_VOTE_HOLD_EXPIRY (R424). A stream state unchanged for HOLD clocks lets its deeper vote take effect. -/
  | streamVoteHoldExpiry (m : Nat)
  /-- WARD_STATE_ENTRY (R421). A ward with no work present begins entry into its target state if the entry conditions hold, or the entry is refused. -/
  | wardStateEntry (pw : Nat)
  /-- ENTRY_CLAMPS_ENGAGED (R426). 1 µs into a RETAIN or OFF entry the clamps engage, after which the entry can no longer be aborted. -/
  | entryClampsEngaged (pw : Nat)
  /-- WAKE_ADMIT (R380). The district square admits a ward wake when the district and module current checks pass. -/
  | wakeAdmit (pw distCurrent coreCurrent : Nat)
  /-- WAKE_RETRY (R381). A deferred wake is retried every 10 µs. -/
  | wakeRetry (pw distCurrent coreCurrent : Nat)
  /-- WAKE_STAGE_END (R379). A power-switch stage of a wake ends; at stage 4 the grid is checked and the clamps are released. -/
  | wakeStageEnd (pw grid : Nat)
  /-- WAKE_ZERO_FILL_END (R427). The zero-fill of the unkept banks ends and the ward becomes ACTIVE. -/
  | wakeZeroFillEnd (pw : Nat)
  /-- STANDBY_ENTRY (R429). The module enters STANDBY: cache write-back, DRAM self-refresh, optics off and rails down; `event` is one that comes meanwhile: whether the DRAMs were in self-refresh by then, and its client. -/
  | standbyEntry (event : Option (Bool × Nat))
  /-- STANDBY_WAKE (R431). A vote for DOZE or RUN wakes the module from STANDBY in the fixed wake order; `findings` are the library copies that the reload's check finds wrong. -/
  | standbyWake (findings : List Finding)
  /-- COMMAND_LOAD (R132). The sequencer fetches an available command, copies its descriptor and makes the load checks. -/
  | commandLoad (m : Nat) (err : MemErr)
  /-- COMMAND_ISSUE (R132). A loaded command issues once its wait, fence, buffer and reservations allow, or takes a load or issue fault. -/
  | commandIssue (m : Nat)
  /-- COMMAND_COMPLETE (R134). A command completes when its tiles are visible and its writes have landed, and its signal is applied. -/
  | commandComplete (m num : Nat)
  /-- TILE_VISIBLE (R124). A pushed tile becomes visible once every lower sequence number is visible, and its slot header is written. -/
  | tileVisible (n : Nat)
  /-- WAIT_UNIT_BOUNDARY (R125). At each 1,024-clock boundary, producer and consumer waits in progress are counted in FULL and EMPTY. -/
  | waitUnitBoundary (ward : Nat) (charges : List (Nat × Nat))
  /-- SPILL_HANDOVER (R78). At a chunk boundary, an open tile's FP32 partials drain to the spill and fold unit, with the array waiting if the unit is busy. -/
  | spillHandover (ward me waited : Nat)
  /-- MOVE_IN (R157). Moves tiles from global addresses into a queue, converting format if asked. -/
  | moveIn (ward unit : Nat) (err : MemErr)
  /-- MOVE_OUT (R157). Moves tiles from a queue to global addresses, with an optional remote signal. -/
  | moveOut (ward unit : Nat) (err : MemErr)
  /-- MOVE_COPY (R157). Copies tiles from one global address range to another. -/
  | moveCopy (ward unit : Nat) (err : MemErr)
  /-- MMA (R69). Computes output tiles by sequential FP32 chunks with E48 spill over the descriptor's reduction. -/
  | mma (ward me : Nat) (err : MemErr)
  /-- MMA_WG (R206). Computes weight-gradient tiles and pushes them split at slice boundaries under the gradient bin. -/
  | mmaWg (ward me : Nat) (err : MemErr)
  /-- VOP (R179). Runs a VE microkernel from the kernel store once per iteration or per level-0 run. -/
  | vop (ward : Nat) (err : MemErr)
  /-- FACTORED_APPLY (R230). UPDATE rule 0 applies the factored optimiser rule to a slice in two passes and accumulates column statistics. -/
  | factoredApply (ward : Nat) (err : MemErr)
  /-- ELEMENTWISE_APPLY (R238). UPDATE rule 1 applies the elementwise rule tile by tile. -/
  | elementwiseApply (ward : Nat) (err : MemErr)
  /-- COLUMN_EMIT (R234). UPDATE rule 2 pushes the column accumulator as S and N tiles and clears it. -/
  | columnEmit (ward : Nat) (err : MemErr)
  /-- COLUMN_FINISH (R236). UPDATE rule 3 forms the new column statistics and ρ from the combined tiles. -/
  | columnFinish (ward : Nat) (err : MemErr)
  /-- FOLD (R80). Combines partials in E48 in rank order and converts to the output format. -/
  | fold (ward unit : Nat) (err : MemErr)
  /-- QUANT (R144). Quantises FP32 or BF16 tiles to a narrow format, with dynamic or static scaling and optional transpose. -/
  | quant (ward : Nat) (err : MemErr)
  /-- SEND (R321). Pops tiles and sends them as SEND_DATA blocks to a destination arrival queue, by rank and round. -/
  | send (ward unit : Nat) (err : MemErr)
  /-- SEND_TILE_TRANSMIT (R324). A tile held by its window goes out once its round lies within WINDOW of NEXT_REL. -/
  | sendTileTransmit (ward unit : Nat)
  /-- REDUCE (R330). Sums one round of arrival tiles in FP32 in ascending rank and pushes the sum. -/
  | reduce (ward : Nat) (err : MemErr)
  /-- PUBLISH (R285). Writes Tier 1 data into an open Tier 2 slot and completes after its fence. -/
  | publish (ward unit : Nat) (err : MemErr)
  /-- JOURNAL (R343). Builds the step journal record from its input tile and module state and hands it to the MC. -/
  | journal (ward unit : Nat) (err : MemErr)
  /-- JOURNAL_COMMIT (R344). Both copies of the record are programmed; the JOURNAL completes and opens a step boundary. -/
  | journalCommit (media : List FlashEvt)
  /-- JOURNAL_COMMIT_TIMEOUT (R344). Without two good copies after 2 ms, the JOURNAL faults with FLT_JOURNAL code 0x01. -/
  | journalCommitTimeout (media : List FlashEvt)
  /-- IMAGE_BEGIN (R350). Opens a new image in state WRITING. -/
  | imageBegin (ward unit : Nat)
  /-- IMAGE_RANGE (R350). Registers one Tier 1 section of the image. -/
  | imageRange (ward unit : Nat)
  /-- IMAGE_MODULE (R350). Copies the module section to Tier 1 and registers it. -/
  | imageModule (ward unit : Nat)
  /-- IMAGE_CLOSE (R350). Declares the image closed to further sections. -/
  | imageClose (ward unit : Nat)
  /-- IMAGE_TRIM (R353). Writes a trim record that retires older images and frees older journal records. -/
  | imageTrim (ward unit : Nat)
  /-- WAIT (R140). Holds the stream until its flag wait is satisfied. -/
  | wait (m : Nat)
  /-- SIGNAL (R140). Applies a flag signal at issue. -/
  | signal (m : Nat)
  /-- HINT (R396). Announces a phase level N frames ahead to the slow loop. -/
  | hint (m : Nat)
  /-- MARK (R140). Writes a trace mark and optionally opens a step boundary. -/
  | mark (m : Nat)
  /-- FADD (R183). VE FP32 add. -/
  | fadd (ward d a b : Nat)
  /-- FSUB (R183). VE FP32 subtract. -/
  | fsub (ward d a b : Nat)
  /-- FMUL (R183). VE FP32 multiply. -/
  | fmul (ward d a b : Nat)
  /-- FFMA (R183). VE FP32 fused multiply-add with one rounding. -/
  | ffma (ward d a b c : Nat)
  /-- FMIN (R183). VE FP32 minimum. -/
  | fmin (ward d a b : Nat)
  /-- FMAX (R183). VE FP32 maximum. -/
  | fmax (ward d a b : Nat)
  /-- FSQRT (R183). VE correctly rounded square root. -/
  | fsqrt (ward d a : Nat)
  /-- FCMP (R183). VE compare producing a lane mask. -/
  | fcmp (ward d a b m : Nat)
  /-- FSEL (R183). VE select by lane mask. -/
  | fsel (ward d a b c : Nat)
  /-- CVT (R183). VE format conversion selected by M. -/
  | cvt (ward d a m : Nat)
  /-- VINT (R183). VE integer lane operation selected by M. -/
  | vint (ward d a b m : Nat)
  /-- BADD (R183). VE BF16 add on 512 lanes. -/
  | badd (ward d a b : Nat)
  /-- BMUL (R183). VE BF16 multiply. -/
  | bmul (ward d a b : Nat)
  /-- BFMA (R183). VE BF16 fused multiply-add. -/
  | bfma (ward d a b c : Nat)
  /-- TLU (R183). VE table lookup of 32-bit words. -/
  | tlu (ward d a k : Nat)
  /-- SCALB (R183). VE scale by a power of two. -/
  | scalb (ward d a b : Nat)
  /-- FREXP (R183). VE split into fraction and exponent. -/
  | frexp (ward d a : Nat)
  /-- RSUM (R184). VE row sum by the fixed 7-level tree. -/
  | rsum (ward d a : Nat)
  /-- RMAX (R183). VE row maximum. -/
  | rmax (ward d a : Nat)
  /-- RIDX (R183). VE lowest lane index of the row maximum. -/
  | ridx (ward d a : Nat)
  /-- LDT (R183). VE load of two tile rows, decoded. -/
  | ldt (ward d a m k : Nat) (err : MemErr)
  /-- LDR (R183). VE load of two raw tile rows. -/
  | ldr (ward d a m k : Nat) (err : MemErr)
  /-- STT (R183). VE store of two rows into a staging tile. -/
  | stt (ward a b m : Nat)
  /-- PUSH (R181). VE narrowing and push of a staging tile to its output end. -/
  | push (ward m : Nat)
  /-- LDH (R183). VE load of a tile header field into a scalar register. -/
  | ldh (ward d b m k : Nat)
  /-- XALU (R183). VE scalar integer operation. -/
  | xalu (ward d a b m : Nat)
  /-- XLDP (R183). VE load of a parameter block word. -/
  | xldp (ward d k : Nat)
  /-- BR (R183). VE conditional branch. -/
  | br (ward a b m k : Nat)
  /-- END (R183). Ends a VE kernel invocation. -/
  | endKernel (ward : Nat)
  /-- KERF (R183). VE kerf draw per lane. -/
  | kerf (ward d a b c : Nat)
  /-- FAULT_SETTLE (R174). Once earlier commands have retired or stopped, the faulted stream reads FAULTED. -/
  | faultSettle (m : Nat)
  /-- WAIT_TIMEOUT (R164). A wait on an EXT flag reaching its TIMEOUTth frame pulse faults with FLT_WAIT_TIMEOUT. -/
  | waitTimeout (m : Nat)
  /-- QUIESCENCE_STALL (R166). A module quiescent for WINDOW frame pulses raises FLT_STALL and captures the blocked streams. -/
  | quiescenceStall
  /-- ABORT_ACCEPT (R170). An abort request is accepted at the sequencer, deciding ST_COMPLETE or entering ABORTING. -/
  | abortAccept (m : Nat)
  /-- ABORT_SETTLE (R170). After every transaction of the stopped commands is acknowledged, the stream reaches ABORTED or DISABLED and the reply is sent. -/
  | abortSettle (m : Nat)
  /-- ABORT_FORCE (R173). An abort not finished within 4 frames forces the stream to its final state. -/
  | abortForce (m : Nat)
  /-- SHADOW_SAMPLE (R108). A selected tile is recomputed on the free physical ward and histogrammed by deviation, raising WARN or ALERT. -/
  | shadowSample (slots energy err : Nat)
  /-- PATROL_SCRUB (R288). Patrol scrub reads and corrects locations under its frame budget. -/
  | patrolScrub (store unit loc bytes energy corrected uncorr : Nat)
  /-- T2_RETRAIN (R283). A Tier 2 device with over 64 link resends in a frame is retrained. -/
  | t2Retrain (device energy : Nat)
  /-- IMAGE_STREAMING (R351). Registered image sections are written to the image area under the streaming budget. -/
  | imageStreaming (bytes slots energy : Nat) (err : MemErr) (media : List FlashEvt)
  /-- IMAGE_COMMIT (R352). A closed image is read back, its commit record written, images rotated and NOTIFY_FLAG applied. -/
  | imageCommit (mismatch : Nat) (media : List FlashEvt)
  /-- FLASH_REFRESH (R341). Flash retention refresh reads pages and relocates blocks under its budget. -/
  | flashRefresh (bytes energy : Nat) (media : List FlashEvt)
  /-- WEAR_MANAGEMENT (R340). Relocation, reclamation and wear levelling run under their budget. -/
  | wearManagement (bytes energy : Nat) (media : List FlashEvt)
  /-- CONFIG_RECORD_COMMIT (R360). A configuration store record is programmed in two copies, compacting the store when a half is full. -/
  | configRecordCommit (good : Bool) (media : List FlashEvt)
  /-- FLAG_WATCH_FIRE (R481). An armed flag watch whose test is satisfied sends its message once and clears EN. -/
  | flagWatchFire (k : Nat)
  /-- DOORBELL_WRITE (R131). A WARD_SDBELL write makes commands available, subject to the doorbell checks. -/
  | doorbellWrite (m avail : Nat) (before : List HostOp)
  /-- FLAG_SIGNAL_WRITE (R162). A WARD_FSIG write adds its increment to a flag. -/
  | flagSignalWrite (n inc : Nat) (before : List HostOp)
  /-- STREAM_ENABLE (R129). A write of EN = 1 enables a stream after the job and ring checks. -/
  | streamEnable (m : Nat) (value : Word)
  /-- STREAM_DISABLE (R129). A write of EN = 0 disables an idle stream or requests an abort of a running one. -/
  | streamDisable (m : Nat) (value : Word)
  /-- QUEUE_ENABLE (R119). A write of EN = 1 enables a queue after the placement and pin checks. -/
  | queueEnable (n : Nat) (value : Word)
  /-- QUEUE_DISABLE (R120). A write of EN = 0 discards the queue's contents unless reservations are held. -/
  | queueDisable (n : Nat) (value : Word)
  /-- ALLOC (R257). Gives a sequence a page, evicting the oldest unpinned sequence if none is free. -/
  | alloc (seq : Nat)
  /-- TOUCH (R256). Stamps and pins a sequence. -/
  | touch (seq : Nat)
  /-- FREE (R256). Frees every page of a sequence and clears its pin and mark. -/
  | free (seq : Nat)
  /-- UNPIN_ALL (R256). Clears every pin. -/
  | unpinAll (seq : Nat)
  /-- POOL_ENABLE (R260). Enabling the page pool frees every page and resets USE, after size checks. -/
  | poolEnable (value : Word)
  /-- SLOT_OPEN (R251). A Tier 2 slot moves to OPEN under the range checks. -/
  | slotOpen (k : Nat) (value : Word)
  /-- SLOT_SEAL (R251). An OPEN slot moves to SEALED when no writers remain and it is not INVALID. -/
  | slotSeal (k : Nat) (value : Word)
  /-- SLOT_CLOSE (R251). A slot moves to CLOSED when no readers or writers remain. -/
  | slotClose (k : Nat) (value : Word)
  /-- KSTORE_DIGEST_REQ (R188). DIGEST_REQ computes the kernel store's CRC-32 digest. -/
  | kstoreDigestReq (w : Nat)
  /-- KSTORE_BROADCAST_WRITE (R187). A broadcast-window write updates every ward's kernel store if no stream is enabled. -/
  | kstoreBroadcastWrite (off : Nat) (value : Word)
  /-- COLL_CLEAR (R335). CLEAR invalidates straggler entries and zeroes the collective wait counters. -/
  | collClear
  /-- WARD_RESET (R498). START resets a ward through OFF and wake, optionally with self-test. -/
  | wardReset (ward : Nat) (value : Word)
  /-- HART_RELEASE (R483). A MOD_HOST_RELEASE bit starts a hart at the boot-stage entry. -/
  | hartRelease (value : Word)
  /-- HART_STOP (R484). The SBI hart-stop call halts and power-gates a hart. -/
  | hartStop (hart : Nat)
  /-- HOST_POINT_WRITE (R473). A MOD_HOST_CLK write changes the host V/F point within 50 µs. -/
  | hostPointWrite (value : Word)
  /-- MAILBOX_GO (R482). GO submits the request buffer to the MC packet queue. -/
  | mailboxGo (value : Word)
  /-- MAILBOX_RELEASE (R482). Writing 1 to DONE releases the reply buffer. -/
  | mailboxRelease
  /-- PCIE_MODE_WRITE (R485). A MODE write switches between endpoint and root-port modes when allowed. -/
  | pcieModeWrite (value : Word)
  /-- PERST_DEASSERT (R519). In endpoint mode, PERST_N deasserting starts PCIe link training. -/
  | perstDeassert
  /-- REGISTER_WRITE (R534). A write to a register with no row of its own applies its fields, or is refused and sets its refusal flag. -/
  | registerWrite (offset : Nat) (value : Word) (before : List HostOp)
  /-- ATOMIC_ADD (R275). Atomic add on a Tier 1 line in its home slice. -/
  | atomicAdd (src rd addr fmt v : Nat) (err : MemErr)
  /-- ATOMIC_MAX (R275). Atomic maximum. -/
  | atomicMax (src rd addr fmt v : Nat) (err : MemErr)
  /-- ATOMIC_MIN (R275). Atomic minimum. -/
  | atomicMin (src rd addr fmt v : Nat) (err : MemErr)
  /-- ATOMIC_SWAP (R275). Atomic swap. -/
  | atomicSwap (src rd addr fmt v : Nat) (err : MemErr)
  /-- ATOMIC_CAS (R275). Atomic compare-and-swap. -/
  | atomicCas (src rd addr fmt v cmp : Nat) (err : MemErr)
  /-- AMOFADD_S (R479). Host FP32 atomic add instruction. -/
  | amofaddS (hart rd addr v : Nat) (err : MemErr)
  /-- AMOFADD_B (R479). Host BF16 atomic add instruction. -/
  | amofaddB (hart rd addr v : Nat) (err : MemErr)
  /-- AMOFMAX (R479). Host FP32 or BF16 atomic maximum instruction. -/
  | amofmax (hart rd addr v half : Nat) (err : MemErr)
  /-- AMOFMIN (R479). Host FP32 or BF16 atomic minimum instruction. -/
  | amofmin (hart rd addr v half : Nat) (err : MemErr)
  /-- NVME_IDENTIFY (R488). NVMe Identify on the host block device. -/
  | nvmeIdentify (queue cns dest : Nat)
  /-- NVME_CREATE_IO_QUEUE (R488). NVMe Create I/O Queue. -/
  | nvmeCreateIoQueue (queue : Nat)
  /-- NVME_DELETE_IO_QUEUE (R488). NVMe Delete I/O Queue. -/
  | nvmeDeleteIoQueue (queue : Nat)
  /-- NVME_GET_LOG_PAGE (R488). NVMe Get Log Page (SMART). -/
  | nvmeGetLogPage (queue dest : Nat)
  /-- NVME_READ (R488). NVMe Read. -/
  | nvmeRead (queue lba blocks dest : Nat) (err : MemErr) (media : List FlashEvt)
  /-- NVME_WRITE (R488). NVMe Write, acknowledged only after it is programmed. -/
  | nvmeWrite (queue lba blocks src : Nat) (err : MemErr) (media : List FlashEvt)
  /-- NVME_FLUSH (R488). NVMe Flush, which completes at once. -/
  | nvmeFlush (queue : Nat)
  /-- NVME_DATASET_MANAGEMENT (R488). NVMe Dataset Management with deallocate. -/
  | nvmeDatasetManagement (queue lba blocks : Nat)
  /-- IDLE (R301). A received IDLE block advances ACK. -/
  | idle (b : RxBlock)
  /-- WRITE (R305). A received remote WRITE is checked at ingress, performed and acknowledged. -/
  | write (b : RxBlock) (err : MemErr)
  /-- READ_REQ (R305). A received read request is checked and answered with READ_DATA. -/
  | readReq (b : RxBlock) (len : Nat) (err : MemErr)
  /-- READ_DATA (R304). Received read data completes an outstanding read. -/
  | readData (b : RxBlock)
  /-- COMPLETION (R323). A received COMPLETION acknowledges a write or tile, or carries a refusal that faults the source. -/
  | completion (b : RxBlock)
  /-- RELEASE (R324). A received release advances the window entry's NEXT_REL. -/
  | release (b : RxBlock)
  /-- SIGNAL_BLOCK (R163). A received remote signal is applied to an EXT flag or refused. -/
  | signalBlock (b : RxBlock)
  /-- SEND_DATA (R326). A received SEND_DATA block is placed in its arrival region slot or refused. -/
  | sendData (b : RxBlock) (total : Nat)
  /-- ARRIVAL_DRAIN (R327). The complete tile at the drain point moves into its arrival queue and a release is sent. -/
  | arrivalDrain (n : Nat) (err : MemErr)
  /-- RETRY_REQ (R302). A received RETRY_REQ resends every unacknowledged block from the named number. -/
  | retryReq (b : RxBlock)
  /-- HELLO (R310). A received hello records the neighbour, checks wiring and may hold the port. -/
  | hello (b : RxBlock)
  /-- LANE_SWAP (R299). A received LANE_SWAP completes the substitution of the spare wavelength. -/
  | laneSwap (b : RxBlock) (wave : Nat)
  /-- SWITCH (R314). A received SWITCH moves the link to version 3 framing. -/
  | switch (b : RxBlock)
  /-- LINK_BLOCK_REJECT (R302). A block with a bad CRC, a marked byte, a wrong SEQ or a reserved type is discarded and a RETRY_REQ is sent. -/
  | linkBlockReject (p : Nat) (bytes : List Byte) (marked : Bool) (uncorr : Nat)
  /-- WAVELENGTH_FAIL (R299). A wavelength loses lock or exceeds 16 uncorrectable codewords; the spare takes over or the port degrades. -/
  | wavelengthFail (p wave uncorr : Nat)
  /-- ACK_TIMEOUT (R303). ACK making no progress for 64 µs takes the port DOWN. -/
  | ackTimeout (p : Nat)
  /-- PORT_RETRAIN (R303). A DOWN port retrains under the background budget, up to 8 attempts. -/
  | portRetrain (p energy : Nat)
  /-- E2E_TIMEOUT (R304). An unanswered transaction after E2E_TIMEOUT frames faults with FLT_LINK. -/
  | e2eTimeout (tid chip : Nat)
  /-- PORT_TRAINING_END (R312). Optical training ends with FEC lock, or the port becomes DARK. -/
  | portTrainingEnd (p lanes : Nat)
  /-- HELLO_TIMEOUT (R312). No hello by the end of step 2 makes the port DARK. -/
  | helloTimeout (p : Nat)
  /-- SWITCH_TIMEOUT (R314). An unanswered SWITCH after 1 ms leaves the link at version 2. -/
  | switchTimeout (p : Nat)
  /-- DARK_PORT_RETRY (R312). A DARK port repeats training and hello every 1,024 frames. -/
  | darkPortRetry (p energy : Nat)
  /-- PRESENCE_ASSERT (R458). PRESENCE_N asserted for 50 ms opens the presence window. -/
  | presenceAssert
  /-- PRESENCE_WINDOW_CLOSE (R458). The window closes 30 s after PRESENCE_N deasserts. -/
  | presenceWindowClose
  /-- SEAL_CHECK (R459). Every 1 ms the seal loop is sampled, and an armed seal trips after 10 open checks. -/
  | sealCheck (loop : Nat)
  /-- SET_ENDPOINT_ID (R442). MCTP control message Set Endpoint ID. -/
  | setEndpointId (transport peer operation eid : Nat)
  /-- GET_ENDPOINT_ID (R442). MCTP control message Get Endpoint ID. -/
  | getEndpointId (transport peer : Nat)
  /-- GET_MCTP_VERSION_SUPPORT (R442). MCTP control message Get MCTP Version Support. -/
  | getMctpVersionSupport (transport peer ty : Nat)
  /-- GET_MESSAGE_TYPE_SUPPORT (R442). MCTP control message Get Message Type Support. -/
  | getMessageTypeSupport (transport peer : Nat)
  /-- ARP_REQUEST (R443). The management Ethernet port answers ARP. -/
  | arpRequest (peer mac target : Nat)
  /-- ICMP_ECHO (R443). The management Ethernet port answers ICMP echo. -/
  | icmpEcho (peer target : Nat) (message : List Byte)
  /-- GET_IDENTITY (R449). Returns the identity record. -/
  | getIdentity (transport peer : Nat) (packet : List Byte)
  /-- GET_VERSIONS (R449). Returns the version record. -/
  | getVersions (transport peer : Nat) (packet : List Byte)
  /-- GET_STATUS (R449). Returns MC status and the last long-operation result. -/
  | getStatus (transport peer : Nat) (packet : List Byte)
  /-- CFG_READ (R454). Returns the configuration items of a target. -/
  | cfgRead (transport peer : Nat) (packet : List Byte)
  /-- CFG_WRITE (R454). Stores configuration items in the base or an overlay. -/
  | cfgWrite (transport peer : Nat) (packet : List Byte)
  /-- CFG_RESTORE (R455). Returns the standard overlays to their contents and empties the others. -/
  | cfgRestore (transport peer : Nat) (packet : List Byte)
  /-- OVL_APPLY (R455). Makes an overlay the one in effect, at the next frame pulse. -/
  | ovlApply (transport peer : Nat) (packet : List Byte)
  /-- PWR_READ (R449). Returns the power and thermal registers. -/
  | pwrRead (transport peer : Nat) (packet : List Byte)
  /-- PWR_CTRL_WRITE (R455). Writes PWR_CTRL directly. -/
  | pwrCtrlWrite (transport peer : Nat) (packet : List Byte)
  /-- BUDGET_WRITE (R414). Writes an activity's background budgets. -/
  | budgetWrite (transport peer : Nat) (packet : List Byte)
  /-- JOB_ASSIGN (R450). Checks and assigns a job, setting seed, chunk length, flags, overlay and job energy. -/
  | jobAssign (transport peer : Nat) (packet : List Byte)
  /-- JOB_UNASSIGN (R451). Aborts every stream, closes job energy and clears the job. -/
  | jobUnassign (transport peer : Nat) (packet : List Byte)
  /-- ENERGY_READ (R400). Returns the newest energy records. -/
  | energyRead (transport peer : Nat) (packet : List Byte)
  /-- EVENT_READ (R453). Returns event records. -/
  | eventRead (transport peer : Nat) (packet : List Byte)
  /-- EVENT_ACK (R453). Acknowledges events up to an EVSEQ. -/
  | eventAck (transport peer : Nat) (packet : List Byte)
  /-- COUNTERS_READ (R449). Returns the lifetime counters. -/
  | countersRead (transport peer : Nat) (packet : List Byte)
  /-- FAB_ASSIGN (R318). Assigns the chip number and slice identifier. -/
  | fabAssign (transport peer : Nat) (packet : List Byte)
  /-- ROUTE_WRITE (R318). Writes routing entries and releases held ports. -/
  | routeWrite (transport peer : Nat) (packet : List Byte)
  /-- ROUTE_READ (R449). Returns routing entries. -/
  | routeRead (transport peer : Nat) (packet : List Byte)
  /-- NBR_READ (R449). Returns the neighbour table. -/
  | nbrRead (transport peer : Nat) (packet : List Byte)
  /-- PORT_RESET (R303). Restarts a port that stayed DOWN. -/
  | portReset (transport peer : Nat) (packet : List Byte)
  /-- PORT_V2_SLICE (R315). Sets the slice taken for a version 2 link. -/
  | portV2Slice (transport peer : Nat) (packet : List Byte)
  /-- STREAM_ABORT (R169). Requests an abort of one stream and replies with its status. -/
  | streamAbort (transport peer : Nat) (packet : List Byte)
  /-- STREAM_READ (R449). Returns a stream's status and fault registers. -/
  | streamRead (transport peer : Nat) (packet : List Byte)
  /-- ABORT_ALL (R169). Aborts every stream and returns the status counts. -/
  | abortAll (transport peer : Nat) (packet : List Byte)
  /-- JNL_STATUS_READ (R449). Returns the journal status registers. -/
  | jnlStatusRead (transport peer : Nat) (packet : List Byte)
  /-- JNL_READ (R449). Returns a stored journal record. -/
  | jnlRead (transport peer : Nat) (packet : List Byte)
  /-- IMG_RESTORE (R355). Restores an image's sections after the compatibility checks, as a long operation. -/
  | imgRestore (transport peer : Nat) (packet : List Byte)
  /-- LONG_OP_COMPLETE (R447). A background long operation finishes and raises OP_DONE with its status. -/
  | longOpComplete (mismatch : Nat) (media : List FlashEvt)
  /-- FW_STAGE_BEGIN (R465). Erases the non-running bank for staging. -/
  | fwStageBegin (transport peer : Nat) (packet : List Byte)
  /-- FW_STAGE_DATA (R465). Writes staged image bytes. -/
  | fwStageData (transport peer : Nat) (packet : List Byte)
  /-- FW_STAGE_END (R465). Verifies the staged image. -/
  | fwStageEnd (transport peer : Nat) (packet : List Byte)
  /-- FW_ACTIVATE (R466). Marks the staged bank for activation at the next reset. -/
  | fwActivate (transport peer : Nat) (packet : List Byte)
  /-- FW_POLICY (R467). Verifies and stores a firmware policy record. -/
  | fwPolicy (transport peer : Nat) (packet : List Byte)
  /-- SEC_READ (R449). Returns security state and key digests. -/
  | secRead (transport peer : Nat) (packet : List Byte)
  /-- KEY_PROVISION (R460). Sets or clears a user key slot. -/
  | keyProvision (transport peer : Nat) (packet : List Byte)
  /-- SEAL_REARM (R459). Arms the seal. -/
  | sealRearm (transport peer : Nat) (packet : List Byte)
  /-- DEBUG_UNLOCK (R461). Opens host-core debug access until the next reset. -/
  | debugUnlock (transport peer : Nat) (packet : List Byte)
  /-- SECURE_ERASE (R462). Erases flash data areas, zero-fills the DRAM tiers and closes the slots. -/
  | secureErase (transport peer : Nat) (packet : List Byte)
  /-- MODULE_RESET (R469). Replies, then resets the module and runs bring-up. -/
  | moduleReset (transport peer : Nat) (packet : List Byte)
  /-- SELF_TEST (R499). Runs ward self-test on every ward and square, as a long operation. -/
  | selfTest (transport peer : Nat) (packet : List Byte)
  /-- FAIL_READ (R502). Returns failure-record entries. -/
  | failRead (transport peer : Nat) (packet : List Byte)
  /-- PREPARE_RETURN (R504). Seals the failure record, erases data, keys and configuration, and sets RETURN_READY. -/
  | prepareReturn (transport peer : Nat) (packet : List Byte)
  /-- REG_READ (R452). Returns control-space words. -/
  | regRead (transport peer : Nat) (packet : List Byte)
  /-- REG_WRITE (R452). Writes control-space words under each register's rules. -/
  | regWrite (transport peer : Nat) (packet : List Byte)
  /-- VF_SLEW_END (R391). The V_CORE set-point slew reaches its target, and on a raise the new core clock is then set at a broadcast REFCLK edge. -/
  | vfSlewEnd
  /-- HOST_POINT_CHANGE_END (R473). A host-point change completes within 50 µs, CHANGING clears, and any write kept during the change is applied. -/
  | hostPointChangeEnd
  /-- WARD_ENTRY_COMPLETE (R417). A ward's entry into NAP, RETAIN or OFF completes and the ward rests in the new state; a wake held since the clamps engaged then begins. -/
  | wardEntryComplete (pw : Nat)
  /-- NAP_EXIT_COMPLETE (R426). The body bias of a ward leaving NAP returns and the ward is ACTIVE within 2 µs. -/
  | napExitComplete (pw : Nat)
  /-- RESET_RELEASE (R494). RESET_N deasserts, and bring-up starts at the later of this moment and the end of the warm reset's write-back. -/
  | resetRelease
  /-- PRESENCE_DEASSERT (R458). PRESENCE_N deasserts and the presence window's 30 s countdown, shown in WINDOW_S, starts. -/
  | presenceDeassert
  /-- PERST_ASSERT (R485). In endpoint mode, PERST_N asserts, resetting the link and allowing MODE to be written. -/
  | perstAssert
  /-- PCIE_LINK_UP (R519). PCIe link training reaches L0 and LINK_UP is set. -/
  | pcieLinkUp
  /-- PACKET_REJECT (R445). A management packet with a bad CRC or size is discarded and counted; one with a reserved opcode, tier or version is refused with its status. -/
  | packetReject (transport peer : Nat) (packet : List Byte)
  /-- ALERT_RESPONSE_ADDRESS (R512). An SMBus read of the Alert Response Address is answered with the module's own address. -/
  | alertResponseAddress
  /-- MAKER_TEST_MODE_ENTRY (R506). A maker test mode is entered through the IEEE 1149.1 port during cold start: the erase runs if needed, an entry of kind 0x0016 is written and ATTEST_VALID is cleared permanently. -/
  | makerTestModeEntry
  /-- CALIBRATION (R415). The calibration background activity trims regulators, calibrates sensors, recalibrates the estimator coefficients and calibrates links under its frame budget. -/
  | calibration (kind unit value bytes slots energy : Nat) (err : MemErr)
  /-- TIER2_REFRESH (R432). Tier 2 devices are refreshed at the JESD239 interval for their temperature. -/
  | tier2Refresh (device : Nat)
  /-- KSTORE_DIGEST_DONE (R188). The kernel-store CRC-32 completes within 65,536 clocks; VE_KSDIGEST is written and DIGEST_DONE set. -/
  | kstoreDigestDone (w : Nat)
  /-- BUS_CONVERTER_LIMIT (R382). The bus converter reaches a limit of the conversion chain, such as 1,500 W in or 1,650 W for 10 ms, and BUS_LIMIT is set. -/
  | busConverterLimit
  /-- WARD_RESET_COMPLETE (R498). A ward reset, with its optional self-test, completes within 25 ms of admission; RESULT and DONE are set and repairs or a dark ward are recorded. -/
  | wardResetComplete (ward : Nat) (findings : List Finding)
deriving DecidableEq, Repr

end Sys2Proof
end

