-- ==== Sys2Proof/Config.lean ====
section
/-!
DEFINITION. What the manual leaves open, as constants without a body: no proof can see their values, so a claim
holds whatever they are (notes/assumptions). None of them is a number chosen by the model.
-/

namespace Sys2Proof

/-- A value the manual leaves undefined where the machine goes on: the n-th such value a run meets. State holds
the counter (State.free); every reader of a reserved or write-only field, and every unstated result, applies
this to it and advances it (DESIGN CHOICE, log 3). -/
opaque Config.freeValue : Nat → BitVec 64

/-- Result bits that the manual does not state for some operands of an operation, as a function of a case number
and the operands (DESIGN CHOICE, log 4). -/
opaque Config.unstated : Nat → Nat → Nat → Nat

/-- The bytes of the standard library of LIB_ID 0x0001, by kernel-store offset (07, R188): the manual names the
library and its bounds and does not print its bytes (DESIGN CHOICE, log 15). -/
opaque Config.libraryByte : Nat → BitVec 8

/-- Which of the results within the bound of R103 a library function gives for an operand (04, R103): function number, operand pattern; and what
a derivative kernel of the library gives for an element, of which the manual bounds nothing (07, R198): kernel number, the incoming
gradient, the saved output (DESIGN CHOICE, log 15). -/
opaque Config.libValue : Nat → Nat → Nat
opaque Config.libDerivative : Nat → Nat → Nat → Nat

/-- The estimator's coefficients fused at test, in pJ, by kind of activity; the manual gives that of an ME slot clock at the FP8 rate alone (16,
R402; DESIGN CHOICE, log 68). -/
opaque Config.coefficient : Nat → Nat

/-- The bytes of the host boot stage and of the devicetree that the MC copies into the top 32 MiB of Tier 1, by offset there (19, R483): the
manual does not print them (DESIGN CHOICE, log 16). -/
opaque Config.bootByte : Nat → BitVec 8

/-- SHA-384 and the check of an ECDSA P-384 signature (key, message, signature) of FIPS 186-5 (18, R460, R463, R467): the manual names
the standards and does not print the functions (DESIGN CHOICE, log 61). -/
opaque Config.sha384 : List (BitVec 8) → List (BitVec 8)
opaque Config.ecdsaP384 : List (BitVec 8) → List (BitVec 8) → List (BitVec 8) → Bool

/-- The fields of a format version 2 command, by field number and the command's 256 bits: their places are in the
Poldy command reference, which the manual does not hold (05, R148; DESIGN CHOICE, log 17). -/
opaque Config.poldyField : Nat → Nat → Nat

end Sys2Proof
end

