-- ==== Sys2Proof/Machine/Bits.lean ====
section
/-!
DEFINITION. Bit fields, byte order and small list helpers. Fields are numbered as the manual numbers them
(high:low); multi-byte values are little-endian (00_scope.md, R15).
-/

namespace Sys2Proof.Machine

/-- Bits hi:lo of a number. -/
def bits (n hi lo : Nat) : Nat := n / 2 ^ lo % 2 ^ (hi + 1 - lo)

/-- Bit i of a number. -/
def bit (n i : Nat) : Bool := n / 2 ^ i % 2 == 1

/-- Bits hi:lo of a register word, as a number. -/
def fieldOf (w : Word) (hi lo : Nat) : Nat := bits w.toNat hi lo

/-- A register word with bits hi:lo replaced by v (v taken modulo the field's size). -/
def withField (w : Word) (hi lo v : Nat) : Word :=
  let size := 2 ^ (hi + 1 - lo)
  let n := w.toNat
  BitVec.ofNat 32 (n - bits n hi lo * 2 ^ lo + v % size * 2 ^ lo)

/-- A flag as a number. -/
def b2n (b : Bool) : Nat := if b then 1 else 0

/-- Addition that stops at a top value (counters that "stop at" their all-ones value). -/
def satAdd (top a b : Nat) : Nat := if a + b < top then a + b else top

/-- The n bytes of a number, least significant first (00, R15). -/
def toBytesLE : Nat → Nat → List Byte
  | 0, _ => []
  | n + 1, v => BitVec.ofNat 8 v :: toBytesLE n (v / 256)

/-- The number that bytes spell, least significant first (00, R15). -/
def ofBytesLE : List Byte → Nat
  | [] => 0
  | b :: bs => b.toNat + 256 * ofBytesLE bs

/-- The numbers from start, n of them. -/
def rangeFrom (start : Nat) : Nat → List Nat
  | 0 => []
  | n + 1 => start :: rangeFrom (start + 1) n

/-- The numbers below n. -/
def below (n : Nat) : List Nat := rangeFrom 0 n

/-- A list's element, or a default beyond its end. -/
def nth {α : Type} (xs : List α) (i : Nat) (d : α) : α := (xs[i]?).getD d

/-- A list with element i replaced; unchanged beyond its end. -/
def setNth {α : Type} : List α → Nat → α → List α
  | [], _, _ => []
  | _ :: xs, 0, y => y :: xs
  | x :: xs, i + 1, y => x :: setNth xs i y

/-- The first n elements, filled up with d to exactly n. -/
def padTo {α : Type} (n : Nat) (d : α) (xs : List α) : List α :=
  xs.take n ++ List.replicate (n - xs.length) d

/-- Consecutive groups of k elements (fuel: at most the list's length of groups). -/
def chunksAux {α : Type} (k : Nat) : Nat → List α → List (List α)
  | 0, _ => []
  | f + 1, xs => if xs.isEmpty then [] else xs.take k :: chunksAux k f (xs.drop k)

/-- Consecutive groups of k elements; the last may be shorter. -/
def chunks {α : Type} (k : Nat) (xs : List α) : List (List α) := chunksAux k xs.length xs

/-- The sum of a list of numbers. -/
def sumNat (xs : List Nat) : Nat := xs.foldl (· + ·) 0

/-- The larger of the elements, 0 for none. -/
def maxNat (xs : List Nat) : Nat := xs.foldl max 0

/-- The elements of a list, each once, in the order in which they first stand. -/
def uniques (xs : List Nat) : List Nat := xs.foldl (fun a x => if a.contains x then a else a ++ [x]) []

/-- Division rounded up. -/
def ceilDiv (a b : Nat) : Nat := (a + b - 1) / b

end Sys2Proof.Machine
end

