-- ==== Sys2Proof/Machine/Num.lean ====
section
/-!
DEFINITION. Numbers (02_number_formats.md): exact values, the wide formats FP32, BF16 and E48, the narrow element
formats, rounding to nearest even and stochastic rounding, and the elementary operations with their counted
events. Patterns are numbers; every operation is computed exactly and rounded once.
-/

namespace Sys2Proof.Machine

/-- An exact value: NaN, or (-1)^neg · (num / den) · 2^e (den is 1 but for quotients). -/
inductive FV where
  | nan
  | fin (neg : Bool) (num den : Nat) (e : Int)
deriving DecidableEq, Repr

/-- CNT_OVERFLOW and CNT_NAN_CREATED events of an operation (02, R37 to R39). -/
structure Ev where
  ovf  : Nat := 0
  nanc : Nat := 0
deriving DecidableEq, Repr

def Ev.add (a b : Ev) : Ev := ⟨a.ovf + b.ovf, a.nanc + b.nanc⟩

/-- A binary format: exponent bits, fraction bits and bias (02, R35, R42). -/
structure BinFmt where
  ebits : Nat
  fbits : Nat
  bias  : Nat
deriving DecidableEq, Repr

def fp32F : BinFmt := ⟨8, 23, 127⟩
def bf16F : BinFmt := ⟨8, 7, 127⟩
def e48F : BinFmt := ⟨10, 37, 511⟩
def e4m3F : BinFmt := ⟨4, 3, 7⟩
def e5m2F : BinFmt := ⟨5, 2, 15⟩
def e2m3F : BinFmt := ⟨2, 3, 1⟩
def e3m2F : BinFmt := ⟨3, 2, 3⟩
def e2m1F : BinFmt := ⟨2, 1, 1⟩

/-- The exponent of the least quantum, that of the subnormals: 1 - bias - fbits. -/
def BinFmt.qmin (f : BinFmt) : Int := 1 - (f.bias : Int) - f.fbits

/-- The exact value of a magnitude code (no sign bit), by the usual rule (02, R42). -/
def BinFmt.magnitude (f : BinFmt) (code : Nat) : Nat × Int :=
  let ex := code / 2 ^ f.fbits
  let fr := code % 2 ^ f.fbits
  if ex = 0 then (fr, f.qmin) else (fr + 2 ^ f.fbits, f.qmin + (ex : Int) - 1)

/-- 2^k for k ≥ 0, else 1. -/
def pow2 (k : Int) : Nat := 2 ^ k.toNat

/-- floor(log2 (num/den)) for num, den > 0. -/
def floorLog2 (num den : Nat) : Int :=
  let k : Int := (Nat.log2 num : Int) - Nat.log2 den
  if num * pow2 (-k) ≥ den * pow2 k then k else k - 1

/-- How a value between two grid points is rounded: to nearest even, or stochastically by a 24-bit draw
(02, "Rounding to a narrower grid"). -/
inductive RMode where
  | rne
  | sr (r : Nat)
deriving DecidableEq, Repr

/-- Whether lo + rem/d goes up to lo + 1: under RNE to the nearer, ties to even; under SR when r < F with
F = floor(rem/d · 2^24). -/
def roundsUp (m : RMode) (lo rem d : Nat) : Bool :=
  match m with
  | .rne => decide (2 * rem > d) || (decide (2 * rem = d) && decide (lo % 2 = 1))
  | .sr r => decide (r < rem * 2 ^ 24 / d)

/-- A magnitude on the grid of quantum 2^q: the floor, the remainder and the divisor. -/
def toGrid (num den : Nat) (e q : Int) : Nat × Nat × Nat :=
  let n := num * pow2 (e - q)
  let d := den * pow2 (q - e)
  (n / d, n % d, d)

/-- A magnitude rounded to a format's grid: the magnitude code (unbounded above) and whether the exact
magnitude lies above the code `top`. -/
def BinFmt.encodeMag (f : BinFmt) (m : RMode) (top : Nat) (num den : Nat) (e : Int) : Nat × Bool :=
  if num = 0 then (0, false) else
  let q := max (floorLog2 num den + e - f.fbits) f.qmin
  let (lo, rem, d) := toGrid num den e q
  let base := (q - f.qmin).toNat * 2 ^ f.fbits
  let up := roundsUp m lo rem d
  (base + lo + b2n up, decide (base + lo > top) || (decide (base + lo = top) && decide (rem ≠ 0)))

/-- Canonical NaNs and largest finite codes (02, special values). -/
def nan32 : Nat := 0x7FC00000
def nan16 : Nat := 0x7FC0
def nan48 : Nat := 0x7FF000000000
def max32 : Nat := 0x7F7FFFFF
def max16 : Nat := 0x7F7F
def max48 : Nat := 0x7FDFFFFFFFFF

/-- The value of an FP32 or BF16 pattern: infinities read as the largest finite value of their sign, counted
(02, R38); every NaN alike (R39). -/
def ofBin (f : BinFmt) (w : Nat) : FV × Ev :=
  let neg := bit w (f.ebits + f.fbits)
  let code := w % 2 ^ (f.ebits + f.fbits)
  let infCode := (2 ^ f.ebits - 1) * 2 ^ f.fbits
  if code < infCode then
    let (m, e) := f.magnitude code
    (.fin neg m 1 e, {})
  else if code = infCode then
    let (m, e) := f.magnitude (infCode - 1)
    (.fin neg m 1 e, { ovf := 1 })
  else (.nan, {})

def ofFp32 (w : Nat) : FV × Ev := ofBin fp32F w
def ofBf16 (w : Nat) : FV × Ev := ofBin bf16F w

/-- The value of an E48 pattern: no infinities; a zero exponent field with a nonzero fraction is read as zero
of its sign; exponent 0x3FF is NaN only (02, R35 and its table). -/
def ofE48 (w : Nat) : FV :=
  let neg := bit w 47
  let ex := bits w 46 37
  if ex = 0x3FF then .nan
  else if ex = 0 then .fin neg 0 1 0
  else .fin neg (bits w 36 0 + 2 ^ 37) 1 ((ex : Int) - 548)

/-- An exact value rounded to nearest even in FP32 or BF16, saturating with a count (02, R36, R37). -/
def toBinRne (f : BinFmt) (nanCode top : Nat) (v : FV) : Nat × Ev :=
  match v with
  | .nan => (nanCode, {})
  | .fin neg num den e =>
    let (code, _) := f.encodeMag .rne top num den e
    let sign := b2n neg * 2 ^ (f.ebits + f.fbits)
    if code > top then (sign + top, { ovf := 1 }) else (sign + code, {})

def toFp32 (v : FV) : Nat × Ev := toBinRne fp32F nan32 max32 v
def toBf16 (v : FV) : Nat × Ev := toBinRne bf16F nan16 max16 v

/-- An exact value rounded to nearest even in E48. E48 has no subnormals: a magnitude below 2^-510 goes to the
nearer of 0 and 2^-510 (R36); which of the two a value exactly halfway takes the manual does not say, so it is
open (DESIGN CHOICE, log 4). -/
def toE48 (v : FV) : Nat × Ev :=
  match v with
  | .nan => (nan48, {})
  | .fin neg num den e =>
    let sign := b2n neg * 2 ^ 47
    if num = 0 then (sign, {})
    else if floorLog2 num den + e < -510 then
      let (_, rem, d) := toGrid num den e (-510)
      let up := if 2 * rem = d then decide (Config.unstated 1 (b2n neg) 0 % 2 = 1) else decide (2 * rem > d)
      (sign + b2n up * 2 ^ 37, {})
    else
      let (code, _) := e48F.encodeMag .rne max48 num den e
      if code > max48 then (sign + max48, { ovf := 1 }) else (sign + code, {})

/-- FP32 and BF16 patterns as E48: exact (02, R41). -/
def fp32ToE48 (w : Nat) : Nat × Ev := let (v, ev) := ofFp32 w; ((toE48 v).1, ev)
def bf16ToE48 (w : Nat) : Nat × Ev := let (v, ev) := ofBf16 w; ((toE48 v).1, ev)

/-- The exact operations. A zero sum of nonzero terms is +0; two zeros keep a common sign (02, R40). -/
def FV.neg : FV → FV
  | .nan => .nan
  | .fin s n d e => .fin (!s) n d e

def FV.abs : FV → FV
  | .nan => .nan
  | .fin _ n d e => .fin false n d e

def FV.mul : FV → FV → FV
  | .fin s n d e, .fin s' n' d' e' => .fin (s != s') (n * n') (d * d') (e + e')
  | _, _ => .nan

def FV.add : FV → FV → FV
  | .fin s n d e, .fin s' n' d' e' =>
    if n = 0 ∧ n' = 0 then .fin (s && s') 0 1 0
    else
      let lo := min e e'
      let a : Int := (n * d' * pow2 (e - lo) : Nat)
      let b : Int := (n' * d * pow2 (e' - lo) : Nat)
      let t : Int := (if s then -a else a) + (if s' then -b else b)
      .fin (decide (t < 0)) t.natAbs (d * d') lo
  | _, _ => .nan

def FV.isNan : FV → Bool
  | .nan => true
  | _ => false

def FV.isZero : FV → Bool
  | .fin _ 0 _ _ => true
  | _ => false

/-- a < b on values that are not NaN (-0 equals +0). -/
def FV.lt : FV → FV → Bool
  | .fin s n d e, .fin s' n' d' e' =>
    let lo := min e e'
    let a : Int := (n * d' * pow2 (e - lo) : Nat)
    let b : Int := (n' * d * pow2 (e' - lo) : Nat)
    decide ((if s then -a else a) < (if s' then -b else b))
  | _, _ => false

def FV.ofNat (n : Nat) : FV := .fin false n 1 0

/-- floor of the square root, bit by bit from bit k - 1 down. -/
def isqrtAux : Nat → Nat → Nat → Nat
  | 0, _, r => r
  | k + 1, n, r => let r' := r + 2 ^ k; isqrtAux k n (if r' * r' ≤ n then r' else r)

/-- floor of the square root of a number. -/
def isqrt (n : Nat) : Nat := isqrtAux (Nat.log2 n / 2 + 1) n 0

/-- The square root of a value that is zero or positive, to 63 or more significant bits with a sticky last bit,
so that one rounding of it in any format of the module is the correctly rounded root. -/
def FV.sqrt : FV → FV
  | .nan => .nan
  | .fin s 0 _ _ => .fin s 0 1 0
  | .fin _ (n + 1) d e =>
    let odd := e % 2
    let big := (n + 1) * 2 ^ (odd.toNat + 128 + 2 * Nat.log2 d) / d
    let exact := (n + 1) * 2 ^ (odd.toNat + 128 + 2 * Nat.log2 d) % d
    let r := isqrt big
    .fin false (2 * r + b2n (decide (r * r ≠ big ∨ exact ≠ 0))) 1 ((e - odd) / 2 - 64 - Nat.log2 d - 1)

/-- The exact quotient of two values, the divisor not zero. -/
def FV.div : FV → FV → FV
  | .fin s n d e, .fin s' n' d' e' => .fin (s != s') (n * d') (d * n') (e - e')
  | _, _ => .nan

/-- FP32 operations on patterns, each rounded once, with the events of R37 to R39. -/
def opFp32 (a b : Nat) (f : FV → FV → FV) : Nat × Ev :=
  let (x, ex) := ofFp32 a
  let (y, ey) := ofFp32 b
  let (r, er) := toFp32 (f x y)
  (r, ex.add (ey.add er))

def fadd32 (a b : Nat) : Nat × Ev := opFp32 a b FV.add
def fsub32 (a b : Nat) : Nat × Ev := opFp32 a b (fun x y => x.add y.neg)
def fmul32 (a b : Nat) : Nat × Ev := opFp32 a b FV.mul

/-- a · b + c with one rounding. -/
def ffma32 (a b c : Nat) : Nat × Ev :=
  let (x, ex) := ofFp32 a
  let (y, ey) := ofFp32 b
  let (z, ez) := ofFp32 c
  let (r, er) := toFp32 ((x.mul y).add z)
  (r, ex.add (ey.add (ez.add er)))

def opBf16 (a b : Nat) (f : FV → FV → FV) : Nat × Ev :=
  let (x, ex) := ofBf16 a
  let (y, ey) := ofBf16 b
  let (r, er) := toBf16 (f x y)
  (r, ex.add (ey.add er))

/-- The correctly rounded square root: of a negative number, NaN, created (02, R39). -/
def fsqrt32 (a : Nat) : Nat × Ev :=
  let (x, ex) := ofFp32 a
  match x with
  | .fin true (_ + 1) _ _ => (nan32, ex.add { nanc := 1 })
  | v => let (r, er) := toFp32 v.sqrt; (r, ex.add er)

/-- The correctly rounded quotient: 0/0 is NaN, created; another division by zero gives the largest finite value
of the quotient's sign, counted (02, R37, R39; 04, R103). -/
def fdiv32 (a b : Nat) : Nat × Ev :=
  let (x, ex) := ofFp32 a
  let (y, ey) := ofFp32 b
  match x, y with
  | .fin s n _ _, .fin s' 0 _ _ =>
    if n = 0 then (nan32, ex.add (ey.add { nanc := 1 }))
    else (b2n (s != s') * 2 ^ 31 + max32, ex.add (ey.add { ovf := 1 }))
  | v, w => let (r, er) := toFp32 (v.div w); (r, ex.add (ey.add er))

/-- An E48 addition (02, R41). -/
def addE48 (a b : Nat) : Nat × Ev := toE48 ((ofE48 a).add (ofE48 b))

/-- E48 to FP32 and BF16, one rounding (02, R41; 03, R70). -/
def e48ToFp32 (w : Nat) : Nat × Ev := toFp32 (ofE48 w)
def e48ToBf16 (w : Nat) : Nat × Ev := toBf16 (ofE48 w)

/-- FP32 narrowed to BF16 by a draw: stochastic rounding (02, R49). A magnitude above the largest finite value
counts as saturated; NaN gives the canonical NaN. -/
def narrowBf16 (m : RMode) (v : FV) : Nat × Bool :=
  match v with
  | .nan => (nan16, false)
  | .fin neg num den e =>
    let (code, above) := bf16F.encodeMag m max16 num den e
    (b2n neg * 2 ^ 15 + min code max16, above)

/-- A value with the events of forming it. -/
abbrev Ew := Nat × Ev

def pv (v : Nat) : Ew := (v, {})
def op1 (f : Nat → Ew) (x : Ew) : Ew := let r := f x.1; (r.1, x.2.add r.2)
def op2 (f : Nat → Nat → Ew) (x y : Ew) : Ew := let r := f x.1 y.1; (r.1, x.2.add (y.2.add r.2))
def eadd (x y : Ew) : Ew := op2 fadd32 x y
def esub (x y : Ew) : Ew := op2 fsub32 x y
def emul (x y : Ew) : Ew := op2 fmul32 x y

def one32 : Nat := 0x3F800000

end Sys2Proof.Machine
end

