-- ==== Sys2Proof/Machine/Kerf.lean ====
section
/-!
DEFINITION. The kerf generator (02_number_formats.md, R55 to R58): the one source of randomness, a function of its
five inputs and of nothing else.
-/

namespace Sys2Proof.Machine

def kerfW : Nat := 0x9e3779b97f4a7c15
def kerfK : List Nat := [0xa3c59ac2e8f14b27, 0xf1e35a6d3b29c8d5, 0xb7a164e95c3f2d8b, 0xe54f3b179d63a1c7]

/-- One round with constant k: from (x, b) to the next (02, R57). -/
def kerfRound (k : Nat) (xb : Nat × Nat) : Nat × Nat :=
  let b := (xb.2 + kerfW) % 2 ^ 64
  let x := (xb.1 ^^^ b) * k % 2 ^ 64
  (x ^^^ (x / 2 ^ 32), b)

/-- The kerf generator (02, R57): a 64-bit word. -/
def kerf (seed stream tensor element step : Nat) : Nat :=
  let a := step % 2 ^ 32 * 2 ^ 32 + tensor % 2 ^ 32
  let b := stream % 2 ^ 16 * 2 ^ 48 + element % 2 ^ 48
  (kerfK.foldl (fun xb k => kerfRound k xb) (seed % 2 ^ 64 ^^^ a, b)).1

/-- The 24-bit draw of a stochastic rounding decision (02, R58). -/
def kerfDraw (seed stream tensor element step : Nat) : Nat := kerf seed stream tensor element step / 2 ^ 40

/-- The uniform FP32 draw in [0, 1): the draw times 2^-24, exact (02, R58). -/
def kerfUniform (x : Nat) : Nat := (toFp32 (.fin false (x / 2 ^ 40) 1 (-24))).1

end Sys2Proof.Machine
end

