-- ==== Sys2Proof/Machine/Formats.lean ====
section
/-!
DEFINITION. Tile formats (02_number_formats.md, R42 to R47; 03_matrix_engines.md, R64, R65; 05, R138): the format codes,
narrow element codes and their decoding, and the engine-ready layouts of a tile.
-/

namespace Sys2Proof.Machine

/-- The format codes of a command or header (05, R138). -/
def fNone : Nat := 0
def fFp32 : Nat := 1
def fBf16 : Nat := 2
def fE48 : Nat := 3
def fE4m3 : Nat := 4
def fE5m2 : Nat := 5
def fE2m3 : Nat := 6
def fE3m2 : Nat := 7
def fMxfp4 : Nat := 8
def fCs4 : Nat := 9
def fInt8 : Nat := 10
def fInt4 : Nat := 11
def fT2 : Nat := 12

def isNarrow (f : Nat) : Bool := 4 ≤ f && f ≤ 12
def isWide (f : Nat) : Bool := 1 ≤ f && f ≤ 3
/-- MXINT8, INT4 and T2 (03, R73). -/
def isIntFmt (f : Nat) : Bool := 10 ≤ f && f ≤ 12

/-- Bits of one element (02, formats at a glance). -/
def elemBits (f : Nat) : Nat :=
  match f with
  | 1 => 32 | 2 => 16 | 3 => 48 | 4 => 8 | 5 => 8 | 6 => 6 | 7 => 6 | 8 => 4 | 9 => 4 | 10 => 8 | 11 => 4 | 12 => 2
  | _ => 0

/-- Bytes of a full engine-ready tile of 128 by 128 elements (03, R65). A format code with no tile has 0. -/
def tileBytes (f : Nat) : Nat :=
  if isWide f then 16384 * elemBits f / 8
  else if isNarrow f then 2048 * elemBits f + 512 + (if f = fCs4 then 512 else 0)
  else 0

/-- emax of an element format (02, R42). -/
def emaxOf (f : Nat) : Int :=
  match f with
  | 4 => 8 | 5 => 15 | 6 => 2 | 7 => 4 | 8 => 2 | 9 => 2 | 10 => 0 | 11 => 2 | _ => 0

/-- The binary element format of a floating narrow code. -/
def narrowBin (f : Nat) : Option BinFmt :=
  match f with
  | 4 => some e4m3F | 5 => some e5m2F | 6 => some e2m3F | 7 => some e3m2F | 8 => some e2m1F | 9 => some e2m1F
  | _ => none

/-- The largest finite magnitude code of a narrow format (02, R42). -/
def maxCode (f : Nat) : Nat :=
  match f with
  | 4 => 0x7E | 5 => 0x7B | 6 => 0x1F | 7 => 0x1F | 8 => 7 | 9 => 7 | 10 => 0x7F | 11 => 7 | _ => 1

/-- The exponent of an integer format's quantum: 2^-6 for MXINT8, 1 for INT4 and T2 (02, R42). -/
def intQuantum (f : Nat) : Int := if f = fInt8 then -6 else 0

/-- The signed integer code of an integer-format element: INT8 and INT4 in two's complement, T2 by its table with
the reserved code read as 0 (02, R43). -/
def intCode (f c : Nat) : Int :=
  match f with
  | 10 => if c < 128 then c else (c : Int) - 256
  | 11 => if c < 8 then c else (c : Int) - 16
  | _ => if c = 1 then 1 else if c = 3 then -1 else 0

/-- The value of a narrow element, before its block factor, with the events of reading it: NaN codes of E4M3 and
E5M2, E5M2 infinities read as the largest finite value and counted (02, R38, R42, R43). -/
def elemValue (f c : Nat) : FV × Ev :=
  match narrowBin f with
  | some b =>
    let neg := bit c (b.ebits + b.fbits)
    let mag := c % 2 ^ (b.ebits + b.fbits)
    if (f = fE4m3 ∧ mag = 0x7F) ∨ (f = fE5m2 ∧ mag > 0x7C) then (.nan, {})
    else if f = fE5m2 ∧ mag = 0x7C then
      let (m, e) := b.magnitude 0x7B
      (.fin neg m 1 e, { ovf := 1 })
    else
      let (m, e) := b.magnitude mag
      (.fin neg m 1 e, {})
  | none =>
    let v := intCode f c
    (.fin (decide (v < 0)) v.natAbs 1 (intQuantum f), {})

/-- The CS4 fine factor in quarters: 1, 1.25, 1.5, 1.75 (02, R45). -/
def fineQuarters (code : Nat) : Nat := 4 + code % 4

/-- A narrow element decoded to FP32: element value times block factor, NaN throughout under scale 0xFF, saturating
above the FP32 range (02, R44 to R46). -/
def decodeNarrow (f scale fine c : Nat) : Nat × Ev :=
  if scale = 0xFF then (nan32, {})
  else
    let (v, ev) := elemValue f c
    let fac : FV := if f = fCs4 then .fin false (fineQuarters fine) 1 ((scale : Int) - 129) else .fin false 1 1 ((scale : Int) - 127)
    let (r, er) := toFp32 (v.mul fac)
    (r, ev.add er)

/-- One block of 32: its element codes, scale and fine byte. -/
structure Block where
  codes : List Nat
  scale : Nat
  fine  : Nat
deriving DecidableEq, Repr

/-- A tile as its engine reads it: its format, and per line either the 128 wide patterns or the 4 blocks. -/
structure Tile where
  fmt    : Nat
  wide   : List (List Nat)
  blocks : List (List Block)
deriving DecidableEq, Repr

/-- The elements packed in a field, least significant bit first (02, R47). -/
def unpackElems (w n field : Nat) : List Nat := (below n).map (fun i => bits field (w * i + w - 1) (w * i))

def packElems (w : Nat) (cs : List Nat) : Nat :=
  cs.foldr (fun c acc => acc * 2 ^ w + c % 2 ^ w) 0

/-- The blocks of a narrow engine-ready tile: the field of line l, block b stands at position b·128 + l; then the
scale area and, for CS4, the fine area in the same order (03, R65). -/
def decodeNarrowTile (f : Nat) (bs : List Byte) : List (List Block) :=
  let w := elemBits f
  let fieldBytes := 4 * w
  (below 128).map (fun l => (below 4).map (fun b =>
    let p := b * 128 + l
    let field := ofBytesLE ((bs.drop (p * fieldBytes)).take fieldBytes)
    let sc := (nth bs (512 * fieldBytes + p) 0).toNat
    let fi := if f = fCs4 then (nth bs (512 * fieldBytes + 512 + p) 0).toNat else 0
    ⟨unpackElems w 32 field, sc, fi⟩))

/-- The rows of a wide tile, row-major, element by element (03, R65). -/
def decodeWideTile (f : Nat) (cols : Nat) (bs : List Byte) : List (List Nat) :=
  let k := elemBits f / 8
  chunks cols ((chunks k bs).map ofBytesLE)

/-- A tile read from its slot's bytes in the format its header names. -/
def decodeTile (f : Nat) (bs : List Byte) : Tile :=
  if isNarrow f then ⟨f, [], decodeNarrowTile f (padTo (tileBytes f) 0 bs)⟩
  else ⟨f, decodeWideTile f 128 (padTo (tileBytes f) 0 bs), []⟩

/-- Position p of the blocks of a tile: line p mod 128, block p / 128. -/
def blockAt (blocks : List (List Block)) (p : Nat) : Block :=
  nth (nth blocks (p % 128) []) (p / 128) ⟨[], 0, 0⟩

def encodeNarrowTile (f : Nat) (blocks : List (List Block)) : List Byte :=
  let w := elemBits f
  let ps := (below 512).map (blockAt blocks)
  ps.flatMap (fun b => toBytesLE (4 * w) (packElems w b.codes)) ++
  ps.map (fun b => BitVec.ofNat 8 b.scale) ++
  (if f = fCs4 then ps.map (fun b => BitVec.ofNat 8 b.fine) else [])

def encodeWideTile (f : Nat) (rows : List (List Nat)) : List Byte :=
  rows.flatMap (fun r => r.flatMap (toBytesLE (elemBits f / 8)))

/-- A tile's bytes. -/
def Tile.bytes (t : Tile) : List Byte :=
  if isNarrow t.fmt then encodeNarrowTile t.fmt t.blocks else encodeWideTile t.fmt t.wide

/-- Lane k of a line of blocks, decoded to FP32. -/
def blockElem (f : Nat) (line : List Block) (k : Nat) : Nat × Ev :=
  let b := nth line (k / 32) ⟨[], 0, 0⟩
  decodeNarrow f b.scale (bits b.fine (2 * (k % 32 / 8) + 1) (2 * (k % 32 / 8))) (nth b.codes (k % 32) 0)

/-- A wide element as an FP32 pattern with its read events: FP32 as it is, BF16 widened, its infinities as BF16's largest finite value
and its NaNs as the canonical NaN, E48 rounded (02, R38, R39, R41). -/
def wideElem (f w : Nat) : Nat × Ev :=
  match f with
  | 1 => (w, {})
  | 2 =>
    if w % 2 ^ 15 = 0x7F80 then ((w - 1) * 2 ^ 16, { ovf := 1 })
    else if w % 2 ^ 15 > 0x7F80 then (nan32, {}) else (w * 2 ^ 16, {})
  | _ => e48ToFp32 w

/-- A tile's element (i, j) as an FP32 pattern with its read events: narrow by R46, wide by R41. -/
def Tile.elem (t : Tile) (i j : Nat) : Nat × Ev :=
  if isNarrow t.fmt then blockElem t.fmt (nth t.blocks i []) j else wideElem t.fmt (nth (nth t.wide i []) j 0)

/-- A line of a tile as FP32 patterns. -/
def Tile.line (t : Tile) (i : Nat) : List (Nat × Ev) :=
  if isNarrow t.fmt then
    let l := nth t.blocks i []
    (below 128).map (blockElem t.fmt l)
  else (nth t.wide i []).map (wideElem t.fmt)

/-- T2 elements holding the reserved code 0b10 in a tile (02, R43). -/
def Tile.reservedCodes (t : Tile) : Nat :=
  if t.fmt = fT2 then
    sumNat (t.blocks.map (fun l => sumNat (l.map (fun b => (b.codes.filter (· == 2)).length))))
  else 0

/-- A block with its codes 0 from position n on; wholly outside it is a zero block (05, R122; 02, R51). -/
def maskBlock (b : Block) (n : Nat) : Block :=
  if n = 0 then ⟨List.replicate b.codes.length 0, 0, 0⟩
  else if n ≥ 32 then b else { b with codes := b.codes.take n ++ List.replicate (b.codes.length - n) 0 }

/-- A tile with every position outside its ROWS and COLS zero-filled (05, R122). -/
def Tile.mask (t : Tile) (rows cols : Nat) : Tile :=
  if rows ≥ 128 ∧ cols ≥ 128 then t
  else
    { t with
      wide := t.wide.mapIdx (fun i l => if i < rows then l.take cols ++ List.replicate (l.length - cols) 0 else l.map (fun _ => 0))
      blocks := t.blocks.mapIdx (fun i l => l.mapIdx (fun k b => maskBlock b (if i < rows then cols - 32 * k else 0))) }

/-- A tile's bytes as a producer leaves them: zero outside ROWS and COLS, where the format and a full tile's size say which bytes those are
(05, R122). -/
def zeroFill (f rows cols : Nat) (bs : List Byte) : List Byte :=
  if tileBytes f ≠ bs.length ∨ (rows ≥ 128 ∧ cols ≥ 128) then bs else ((decodeTile f bs).mask rows cols).bytes

def sumEv (es : List Ev) : Ev := es.foldl Ev.add {}

end Sys2Proof.Machine
end

