-- ==== Sys2Proof/Machine/Quant.lean ====
section
/-!
DEFINITION. Block quantisation (02_number_formats.md, R49 to R54) and its counted events (R51; 04, R114): the encoding
of 32 values in a narrow format, exactly as the manual's procedure, and of a whole tile.
-/

namespace Sys2Proof.Machine

/-- The narrow-format events of blocks and elements (02, R51; 04, R115). -/
structure NEv where
  flushed  : Nat := 0
  sat      : Nat := 0
  zeroed   : Nat := 0
  zblk     : Nat := 0
  rescue   : Nat := 0
  satblk   : Nat := 0
  nanblk   : Nat := 0
  codeRes  : Nat := 0
deriving DecidableEq, Repr

def NEv.add (a b : NEv) : NEv :=
  ⟨a.flushed + b.flushed, a.sat + b.sat, a.zeroed + b.zeroed, a.zblk + b.zblk, a.rescue + b.rescue,
   a.satblk + b.satblk, a.nanblk + b.nanblk, a.codeRes + b.codeRes⟩

def sumNEv (es : List NEv) : NEv := es.foldl NEv.add {}

/-- floor(log2 |x|) of a nonzero finite value (02, "Block scale selection"). -/
def exponentOf : FV → Int
  | .fin _ n d e => floorLog2 n d + e
  | .nan => 0

/-- The largest magnitude of values without NaN. -/
def amaxOf (xs : List FV) : FV :=
  xs.foldl (fun a x => if a.lt x.abs then x.abs else a) (.fin false 0 1 0)

/-- |x| ≤ 6 · (q/4) · 2^(s-127), for the fine-code choice. -/
def fitsFine (a : FV) (q s : Nat) : Bool :=
  !((FV.fin false (6 * q) 1 ((s : Int) - 129)).lt a)

/-- The fine code of a group: the smallest factor under which its largest element is within 6, else 1.75
(02, R50). -/
def fineCode (xs : List FV) (s : Nat) : Nat :=
  let a := amaxOf xs
  if fitsFine a 4 s then 0 else if fitsFine a 5 s then 1 else if fitsFine a 6 s then 2 else 3

/-- The exact scaled element v = x / (fine · 2^(s-127)). -/
def scaledElem (x : FV) (q s : Nat) : FV :=
  match x with
  | .nan => .nan
  | .fin neg n d e => .fin neg (4 * n) (q * d) (e - ((s : Int) - 127))

/-- One element's code and whether it counts as saturated: rounded to the grid, then saturated; a zero result has
sign bit 0; integer formats in two's complement (02, R40, R49, R54). -/
def encodeElem (f : Nat) (m : RMode) (v : FV) : Nat × Bool :=
  match v with
  | .nan => (0, false)
  | .fin neg n d e =>
    match narrowBin f with
    | some b =>
      let (code, above) := b.encodeMag m (maxCode f) n d e
      let c := min code (maxCode f)
      (if c = 0 then 0 else b2n neg * 2 ^ (b.ebits + b.fbits) + c, above)
    | none =>
      let (lo, rem, dd) := toGrid n d e (intQuantum f)
      let top := maxCode f
      let above := decide (lo > top) || (decide (lo = top) && decide (rem ≠ 0))
      let c := min (lo + b2n (roundsUp m lo rem dd)) top
      (if c = 0 then 0 else if neg then 2 ^ elemBits f - c else c, above)

/-- encode_elements of R50: fine codes and element codes under scale s, with each element's saturation. -/
def encodeElements (f : Nat) (modes : List RMode) (xs : List FV) (s : Nat) : List (Nat × Bool) × List Nat :=
  let fines := (below 4).map (fun g => if f = fCs4 then fineCode ((xs.drop (8 * g)).take 8) s else 0)
  let es := (below 32).map (fun i =>
    let q := if f = fCs4 then fineQuarters (nth fines (i / 8) 0) else 4
    encodeElem f (nth modes i .rne) (scaledElem (nth xs i (.fin false 0 1 0)) q s))
  (es, fines)

/-- The fine byte: group g in bits [2g+1:2g] (02, R47). -/
def fineByte (fines : List Nat) : Nat := packElems 2 fines

/-- How QUANT and the other narrowings are told to scale and to rescue (02, R50, R53). -/
structure QPolicy where
  static : Option Nat
  rescue : Bool
deriving DecidableEq, Repr

/-- quantise_block of R50, with its events (R51). -/
def quantiseBlock (f : Nat) (modes : List RMode) (p : QPolicy) (xs : List FV) : Block × NEv :=
  if xs.any FV.isNan then (⟨List.replicate 32 0, 0xFF, 0⟩, { nanblk := 1 })
  else
    let amax := amaxOf xs
    if amax.isZero then (⟨List.replicate 32 0, 0, 0⟩, { zblk := 1 })
    else
      let dyn := (max (exponentOf amax - emaxOf f + 127) 0).toNat
      let s0 := p.static.getD dyn
      let first := encodeElements f modes xs s0
      let allSat := p.static.isSome &&
        (below 32).all (fun i => (nth xs i .nan).isZero || (nth first.1 i (0, false)).2)
      let (s, enc) := if allSat && p.rescue then (dyn, encodeElements f modes xs dyn) else (s0, first)
      let codes := enc.1.map Prod.fst
      let allZero := codes.all (· == 0)
      let flushed := ((below 32).filter (fun i => !(nth xs i .nan).isZero && nth codes i 0 == 0)).length
      let sat := (enc.1.filter Prod.snd).length
      (⟨codes, s, if f = fCs4 then fineByte enc.2 else 0⟩,
       { flushed := flushed, sat := sat
         rescue := b2n (allSat && p.rescue)
         satblk := b2n (allSat && !p.rescue)
         zeroed := b2n (allZero && !allSat) })

/-- The draws of a block's elements: stochastic with the kerf word of each element's index, or nearest even. -/
def rmodeOf (sr : Bool) (draw : Nat → Nat) (idx : Nat) : RMode := if sr then .sr (draw idx) else .rne

/-- A tile of FP32 values (given as exact values) quantised line by line into blocks along the line. `valid`
says which positions lie inside the extent: a block with none is written as a zero block and counts nothing
(02, R51); `index` gives each element's kerf index. -/
def quantiseTile (f : Nat) (sr : Bool) (draw : Nat → Nat) (index : Nat → Nat → Nat) (rows cols : Nat) (p : QPolicy)
    (vals : Nat → Nat → FV) : List (List Block) × NEv :=
  let lines := (below 128).map (fun l => (below 4).map (fun b =>
    if l < rows ∧ 32 * b < cols then
      let js := rangeFrom (32 * b) 32
      quantiseBlock f (js.map (fun j => rmodeOf sr draw (index l j))) p (js.map (vals l))
    else (⟨List.replicate 32 0, 0, 0⟩, {})))
  (lines.map (fun l => l.map Prod.fst), sumNEv (lines.map (fun l => sumNEv (l.map Prod.snd))))

end Sys2Proof.Machine
end

