-- ==== Sys2Proof/Machine/SMap.lean ====
section
/-!
DEFINITION. Sparse data by key: a list of (key, value) pairs in ONE canonical form, keys strictly rising and no
entry equal to what an unlisted key reads as. It holds memory, the control-space registers and every table of
the machine that has one entry per stream, queue, port and so on. Equal contents are equal lists.
-/

namespace Sys2Proof.Machine

/-- A sparse map from numbers. -/
abbrev SMap (α : Type) := List (Nat × α)

/-- What key k reads as: its entry, else the default d. -/
def sget {α : Type} (d : α) : SMap α → Nat → α
  | [], _ => d
  | (k', v) :: m, k => if k = k' then v else sget d m k

/-- The map without an entry for k. -/
def serase {α : Type} (m : SMap α) (k : Nat) : SMap α := m.filter (fun p => p.1 != k)

/-- An entry (k, v) put before the first larger key. -/
def sput {α : Type} : SMap α → Nat → α → SMap α
  | [], k, v => [(k, v)]
  | (k', v') :: m, k, v => if k < k' then (k, v) :: (k', v') :: m else (k', v') :: sput m k v

/-- The map with key k reading v: writing the default removes the entry. -/
def sset {α : Type} [DecidableEq α] (d : α) (m : SMap α) (k : Nat) (v : α) : SMap α :=
  match m with
  | [] => if v = d then [] else [(k, v)]
  | p :: ps => if v = d then serase (p :: ps) k else sput (serase (p :: ps) k) k v

/-- Keys strictly rising from lo on, and no entry equal to its key's default. -/
def swfFrom {α : Type} [DecidableEq α] (d : Nat → α) : Nat → SMap α → Bool
  | _, [] => true
  | lo, (k, v) :: m => decide (lo ≤ k) && decide (v ≠ d k) && swfFrom d (k + 1) m

/-- The canonical form. -/
def swf {α : Type} [DecidableEq α] (d : Nat → α) (m : SMap α) : Bool := swfFrom d 0 m

/-- Keys without repeats. -/
def onceEach : List Nat → List Nat
  | [] => []
  | k :: ks => if (onceEach ks).contains k then onceEach ks else k :: onceEach ks

/-- The entries of some keys changed by f. -/
def smapKeys {α : Type} [DecidableEq α] (d : α) (f : Nat → α → α) (ks : List Nat) (m : SMap α) : SMap α :=
  ks.foldl (fun t k => sset d t k (f k (sget d t k))) m

/-- Every entry changed by f, once; one that becomes the default is no longer listed. -/
def smapVals {α : Type} [DecidableEq α] (d : α) (f : Nat → α → α) (m : SMap α) : SMap α :=
  smapKeys d f (onceEach (m.map Prod.fst)) m

/-- The listed keys at or above lo and below hi, dropped. -/
def sdropRange {α : Type} (lo hi : Nat) (m : SMap α) : SMap α := m.filter (fun p => !(lo ≤ p.1 && p.1 < hi))

end Sys2Proof.Machine
end

