-- ==== Sys2Proof/Machine/Regs.lean ====
section
/-!
DEFINITION. The registers of the control space: for each, its name, its first offset, its stride and number of
instances, and its fields with their bits, access code and reset value, as the manual's register tables give
them (00_scope.md, R12 to R14, R534, and the file named at each register). A reset of 0 stands also for the
entries "Fused value", "Stored value", "Base configuration", "Boot value" and the like: those fields are
views of other state or are written from it at reset (DESIGN CHOICE, log 1, log 2).
-/

namespace Sys2Proof.Machine

/-- Access codes (00, R12). -/
inductive Acc where
  | ro | rw | w1c | wo | rc
deriving DecidableEq, Repr

/-- A field of a register: bits hi:lo, access, reset value. -/
structure FDef where
  hi    : Nat
  lo    : Nat
  acc   : Acc
  reset : Nat
deriving DecidableEq, Repr

/-- A register table: number in this file, first offset, stride, instances, instances per logical ward (0 where
the register does not belong to a ward), fields. Bits no field covers are reserved. -/
structure Reg where
  no      : Nat
  base    : Nat
  stride  : Nat
  count   : Nat
  perWard : Nat
  fields  : List FDef
deriving DecidableEq, Repr

/-- A named field: its register and its bits. -/
structure Fld where
  reg : Reg
  hi  : Nat
  lo  : Nat
deriving DecidableEq, Repr

/-- The register's word after cold start (00, R14). -/
def Reg.resetWord (r : Reg) : Word := r.fields.foldl (fun w f => withField w f.hi f.lo f.reset) 0

/-- The key of instance i in the register map. -/
def Reg.key (r : Reg) (i : Nat) : Nat := r.no * 2 ^ 20 + i % 2 ^ 20

/-- The control-space offset of instance i. MOD_SHADOW_HIST[g] word k is instance 8g + k, at 0x40·g + 4k (04). -/
def Reg.offset (r : Reg) (i : Nat) : Nat :=
  if r.stride = 0 then r.base + 0x40 * (i / 8) + 4 * (i % 8) else r.base + r.stride * i


/-- MOD_KERF_SEED_LO (02). -/
def MOD_KERF_SEED_LO : Reg := ⟨0, 0x2000, 0x4, 1, 0, [⟨31, 0, .rw, 0⟩]⟩
def MOD_KERF_SEED_LO_SEED_LO : Fld := ⟨MOD_KERF_SEED_LO, 31, 0⟩

/-- MOD_KERF_SEED_HI (02). -/
def MOD_KERF_SEED_HI : Reg := ⟨1, 0x2004, 0x4, 1, 0, [⟨31, 0, .rw, 0⟩]⟩
def MOD_KERF_SEED_HI_SEED_HI : Fld := ⟨MOD_KERF_SEED_HI, 31, 0⟩

/-- MOD_KERF_STATUS (02). -/
def MOD_KERF_STATUS : Reg := ⟨2, 0x2008, 0x4, 1, 0, [⟨2, 2, .w1c, 0⟩, ⟨1, 1, .ro, 0⟩, ⟨0, 0, .ro, 0⟩]⟩
def MOD_KERF_STATUS_SEED_WRITE_REFUSED : Fld := ⟨MOD_KERF_STATUS, 2, 2⟩
def MOD_KERF_STATUS_SELFTEST_DONE : Fld := ⟨MOD_KERF_STATUS, 1, 1⟩
def MOD_KERF_STATUS_SELFTEST_PASS : Fld := ⟨MOD_KERF_STATUS, 0, 0⟩

/-- MOD_ACCUM_CFG (03). -/
def MOD_ACCUM_CFG : Reg := ⟨3, 0x2010, 0x4, 1, 0, [⟨6, 6, .w1c, 0⟩, ⟨5, 5, .w1c, 0⟩, ⟨4, 0, .rw, 0xc⟩]⟩
def MOD_ACCUM_CFG_RANGE_REFUSED : Fld := ⟨MOD_ACCUM_CFG, 6, 6⟩
def MOD_ACCUM_CFG_WRITE_REFUSED : Fld := ⟨MOD_ACCUM_CFG, 5, 5⟩
def MOD_ACCUM_CFG_C_LOG2 : Fld := ⟨MOD_ACCUM_CFG, 4, 0⟩

/-- ME_SPILL (03). -/
def ME_SPILL : Reg := ⟨4, 0x100000, 0x40, 320, 4, [⟨28, 16, .rw, 0⟩, ⟨3, 0, .rw, 0⟩]⟩
def ME_SPILL_BASE : Fld := ⟨ME_SPILL, 28, 16⟩
def ME_SPILL_SLOTS : Fld := ⟨ME_SPILL, 3, 0⟩

/-- ME_STATUS (03). -/
def ME_STATUS : Reg := ⟨5, 0x100004, 0x40, 320, 4, [⟨31, 16, .ro, 0⟩, ⟨15, 11, .ro, 0⟩, ⟨3, 3, .ro, 0⟩, ⟨2, 2, .ro, 0⟩, ⟨1, 1, .ro, 0⟩, ⟨0, 0, .ro, 0⟩]⟩
def ME_STATUS_TAG : Fld := ⟨ME_STATUS, 31, 16⟩
def ME_STATUS_OPEN : Fld := ⟨ME_STATUS, 15, 11⟩
def ME_STATUS_SPILLING : Fld := ⟨ME_STATUS, 3, 3⟩
def ME_STATUS_E48_RES : Fld := ⟨ME_STATUS, 2, 2⟩
def ME_STATUS_INT32 : Fld := ⟨ME_STATUS, 1, 1⟩
def ME_STATUS_BUSY : Fld := ⟨ME_STATUS, 0, 0⟩

/-- ME_NUMCNT (03). -/
def ME_NUMCNT : Reg := ⟨6, 0x100008, 0x40, 320, 4, [⟨31, 16, .rc, 0⟩, ⟨15, 0, .rc, 0⟩]⟩
def ME_NUMCNT_OVERFLOW : Fld := ⟨ME_NUMCNT, 31, 16⟩
def ME_NUMCNT_NAN_CREATED : Fld := ⟨ME_NUMCNT, 15, 0⟩

/-- ME_BUSY (03). -/
def ME_BUSY : Reg := ⟨7, 0x10000c, 0x40, 320, 4, [⟨31, 0, .rc, 0⟩]⟩
def ME_BUSY_CLOCKS : Fld := ⟨ME_BUSY, 31, 0⟩

/-- ME_SPILL_WAIT (03). -/
def ME_SPILL_WAIT : Reg := ⟨8, 0x100010, 0x40, 320, 4, [⟨31, 0, .rc, 0⟩]⟩
def ME_SPILL_WAIT_CLOCKS : Fld := ⟨ME_SPILL_WAIT, 31, 0⟩

/-- ME_REPAIR (03). -/
def ME_REPAIR : Reg := ⟨9, 0x100014, 0x40, 320, 4, [⟨23, 18, .ro, 0⟩, ⟨17, 12, .ro, 0⟩, ⟨11, 6, .ro, 0⟩, ⟨5, 0, .ro, 0⟩]⟩
def ME_REPAIR_G3 : Fld := ⟨ME_REPAIR, 23, 18⟩
def ME_REPAIR_G2 : Fld := ⟨ME_REPAIR, 17, 12⟩
def ME_REPAIR_G1 : Fld := ⟨ME_REPAIR, 11, 6⟩
def ME_REPAIR_G0 : Fld := ⟨ME_REPAIR, 5, 0⟩

/-- MOD_NUMERICS (04). -/
def MOD_NUMERICS : Reg := ⟨10, 0x2014, 0x4, 1, 0, [⟨15, 15, .ro, 0⟩, ⟨14, 14, .ro, 0⟩, ⟨13, 13, .w1c, 0⟩, ⟨7, 0, .ro, 1⟩]⟩
def MOD_NUMERICS_ATTEST_VALID : Fld := ⟨MOD_NUMERICS, 15, 15⟩
def MOD_NUMERICS_BOUND_ONLY : Fld := ⟨MOD_NUMERICS, 14, 14⟩
def MOD_NUMERICS_WATCH_LATE : Fld := ⟨MOD_NUMERICS, 13, 13⟩
def MOD_NUMERICS_LEVEL : Fld := ⟨MOD_NUMERICS, 7, 0⟩

/-- MOD_SHADOW_CFG (04). -/
def MOD_SHADOW_CFG : Reg := ⟨11, 0x2020, 0x4, 1, 0, [⟨5, 5, .rw, 1⟩, ⟨4, 0, .rw, 8⟩]⟩
def MOD_SHADOW_CFG_ENABLE : Fld := ⟨MOD_SHADOW_CFG, 5, 5⟩
def MOD_SHADOW_CFG_N_LOG2 : Fld := ⟨MOD_SHADOW_CFG, 4, 0⟩

/-- MOD_SHADOW_GRP_CFG (04). -/
def MOD_SHADOW_GRP_CFG : Reg := ⟨12, 0x40000, 0x40, 256, 0, [⟨12, 9, .rw, 0xf⟩, ⟨8, 5, .rw, 0xc⟩, ⟨0, 0, .rw, 1⟩]⟩
def MOD_SHADOW_GRP_CFG_ALERT_BUCKET : Fld := ⟨MOD_SHADOW_GRP_CFG, 12, 9⟩
def MOD_SHADOW_GRP_CFG_WARN_BUCKET : Fld := ⟨MOD_SHADOW_GRP_CFG, 8, 5⟩
def MOD_SHADOW_GRP_CFG_GROUP_EN : Fld := ⟨MOD_SHADOW_GRP_CFG, 0, 0⟩

/-- MOD_SHADOW_GRP_CNT (04). -/
def MOD_SHADOW_GRP_CNT : Reg := ⟨13, 0x40004, 0x40, 256, 0, [⟨31, 31, .w1c, 0⟩, ⟨30, 30, .w1c, 0⟩, ⟨29, 15, .ro, 0⟩, ⟨14, 0, .ro, 0⟩]⟩
def MOD_SHADOW_GRP_CNT_ALERT : Fld := ⟨MOD_SHADOW_GRP_CNT, 31, 31⟩
def MOD_SHADOW_GRP_CNT_WARN : Fld := ⟨MOD_SHADOW_GRP_CNT, 30, 30⟩
def MOD_SHADOW_GRP_CNT_SKIPPED : Fld := ⟨MOD_SHADOW_GRP_CNT, 29, 15⟩
def MOD_SHADOW_GRP_CNT_CHECKED : Fld := ⟨MOD_SHADOW_GRP_CNT, 14, 0⟩

/-- MOD_SHADOW_HIST (04). -/
def MOD_SHADOW_HIST : Reg := ⟨14, 0x40020, 0x0, 2048, 0, [⟨31, 16, .rc, 0⟩, ⟨15, 0, .rc, 0⟩]⟩
def MOD_SHADOW_HIST_BUCKET_ODD : Fld := ⟨MOD_SHADOW_HIST, 31, 16⟩
def MOD_SHADOW_HIST_BUCKET_EVEN : Fld := ⟨MOD_SHADOW_HIST, 15, 0⟩

/-- MOD_UWR_DSQ (04). -/
def MOD_UWR_DSQ : Reg := ⟨15, 0x50000, 0x10, 256, 0, [⟨31, 0, .ro, 0⟩]⟩
def MOD_UWR_DSQ_DSQ : Fld := ⟨MOD_UWR_DSQ, 31, 0⟩

/-- MOD_UWR_WSQ (04). -/
def MOD_UWR_WSQ : Reg := ⟨16, 0x50004, 0x10, 256, 0, [⟨31, 0, .ro, 0⟩]⟩
def MOD_UWR_WSQ_WSQ : Fld := ⟨MOD_UWR_WSQ, 31, 0⟩

/-- MOD_UWR_RATIO (04). -/
def MOD_UWR_RATIO : Reg := ⟨17, 0x50008, 0x10, 256, 0, [⟨31, 0, .ro, 0⟩]⟩
def MOD_UWR_RATIO_RATIO : Fld := ⟨MOD_UWR_RATIO, 31, 0⟩

/-- WARD_NCNT_FLUSH (04). -/
def WARD_NCNT_FLUSH : Reg := ⟨18, 0x300000, 0x20, 80, 1, [⟨31, 0, .rc, 0⟩]⟩
def WARD_NCNT_FLUSH_FLUSHED : Fld := ⟨WARD_NCNT_FLUSH, 31, 0⟩

/-- WARD_NCNT_SAT (04). -/
def WARD_NCNT_SAT : Reg := ⟨19, 0x300004, 0x20, 80, 1, [⟨31, 0, .rc, 0⟩]⟩
def WARD_NCNT_SAT_SATURATED : Fld := ⟨WARD_NCNT_SAT, 31, 0⟩

/-- WARD_NCNT_ZBLK (04). -/
def WARD_NCNT_ZBLK : Reg := ⟨20, 0x300008, 0x20, 80, 1, [⟨31, 16, .rc, 0⟩, ⟨15, 0, .rc, 0⟩]⟩
def WARD_NCNT_ZBLK_BLOCK_ZEROED : Fld := ⟨WARD_NCNT_ZBLK, 31, 16⟩
def WARD_NCNT_ZBLK_ZERO_BLOCK : Fld := ⟨WARD_NCNT_ZBLK, 15, 0⟩

/-- WARD_NCNT_SBLK (04). -/
def WARD_NCNT_SBLK : Reg := ⟨21, 0x30000c, 0x20, 80, 1, [⟨31, 16, .rc, 0⟩, ⟨15, 0, .rc, 0⟩]⟩
def WARD_NCNT_SBLK_RESCUE : Fld := ⟨WARD_NCNT_SBLK, 31, 16⟩
def WARD_NCNT_SBLK_BLOCK_SATURATED : Fld := ⟨WARD_NCNT_SBLK, 15, 0⟩

/-- WARD_NCNT_MISC (04). -/
def WARD_NCNT_MISC : Reg := ⟨22, 0x300010, 0x20, 80, 1, [⟨31, 16, .rc, 0⟩, ⟨15, 0, .rc, 0⟩]⟩
def WARD_NCNT_MISC_CODE_RESERVED : Fld := ⟨WARD_NCNT_MISC, 31, 16⟩
def WARD_NCNT_MISC_NAN_BLOCK : Fld := ⟨WARD_NCNT_MISC, 15, 0⟩

/-- WARD_NCNT_FOLD (04). -/
def WARD_NCNT_FOLD : Reg := ⟨23, 0x300014, 0x20, 80, 1, [⟨31, 16, .rc, 0⟩, ⟨15, 0, .rc, 0⟩]⟩
def WARD_NCNT_FOLD_OVERFLOW : Fld := ⟨WARD_NCNT_FOLD, 31, 16⟩
def WARD_NCNT_FOLD_NAN_CREATED : Fld := ⟨WARD_NCNT_FOLD, 15, 0⟩

/-- WARD_QCFG (05). -/
def WARD_QCFG : Reg := ⟨24, 0x400000, 0x20, 5120, 64, [⟨31, 31, .rw, 0⟩, ⟨30, 30, .rw, 0⟩, ⟨29, 16, .rw, 0⟩, ⟨15, 8, .rw, 0⟩, ⟨7, 0, .rw, 0⟩]⟩
def WARD_QCFG_EN : Fld := ⟨WARD_QCFG, 31, 31⟩
def WARD_QCFG_HOME : Fld := ⟨WARD_QCFG, 30, 30⟩
def WARD_QCFG_BASE : Fld := ⟨WARD_QCFG, 29, 16⟩
def WARD_QCFG_DEPTH : Fld := ⟨WARD_QCFG, 15, 8⟩
def WARD_QCFG_SLOT : Fld := ⟨WARD_QCFG, 7, 0⟩

/-- WARD_QBIND (05). -/
def WARD_QBIND : Reg := ⟨25, 0x400004, 0x20, 5120, 64, [⟨31, 24, .rw, 0xff⟩, ⟨18, 16, .rw, 0⟩, ⟨3, 3, .rw, 0⟩, ⟨2, 0, .rw, 0⟩]⟩
def WARD_QBIND_PROD_WARD : Fld := ⟨WARD_QBIND, 31, 24⟩
def WARD_QBIND_PROD_STREAM : Fld := ⟨WARD_QBIND, 18, 16⟩
def WARD_QBIND_CONS_VALID : Fld := ⟨WARD_QBIND, 3, 3⟩
def WARD_QBIND_CONS_STREAM : Fld := ⟨WARD_QBIND, 2, 0⟩

/-- WARD_QPTR (05). -/
def WARD_QPTR : Reg := ⟨26, 0x400008, 0x20, 5120, 64, [⟨31, 16, .ro, 0⟩, ⟨15, 0, .ro, 0⟩]⟩
def WARD_QPTR_TAIL : Fld := ⟨WARD_QPTR, 31, 16⟩
def WARD_QPTR_HEAD : Fld := ⟨WARD_QPTR, 15, 0⟩

/-- WARD_QRESV (05). -/
def WARD_QRESV : Reg := ⟨27, 0x40000c, 0x20, 5120, 64, [⟨31, 16, .ro, 0⟩, ⟨15, 0, .ro, 0⟩]⟩
def WARD_QRESV_RESV_POP : Fld := ⟨WARD_QRESV, 31, 16⟩
def WARD_QRESV_RESV_PUSH : Fld := ⟨WARD_QRESV, 15, 0⟩

/-- WARD_QSTAT (05). -/
def WARD_QSTAT : Reg := ⟨28, 0x400010, 0x20, 5120, 64, [⟨31, 31, .w1c, 0⟩, ⟨30, 30, .w1c, 0⟩, ⟨29, 29, .w1c, 0⟩, ⟨15, 8, .rc, 0⟩, ⟨7, 0, .ro, 0⟩]⟩
def WARD_QSTAT_CFG_REFUSED : Fld := ⟨WARD_QSTAT, 31, 31⟩
def WARD_QSTAT_PLACE_REFUSED : Fld := ⟨WARD_QSTAT, 30, 30⟩
def WARD_QSTAT_PIN_REFUSED : Fld := ⟨WARD_QSTAT, 29, 29⟩
def WARD_QSTAT_HIGH_WATER : Fld := ⟨WARD_QSTAT, 15, 8⟩
def WARD_QSTAT_OCCUPANCY : Fld := ⟨WARD_QSTAT, 7, 0⟩

/-- WARD_QWAIT (05). -/
def WARD_QWAIT : Reg := ⟨29, 0x400014, 0x20, 5120, 64, [⟨31, 16, .rc, 0⟩, ⟨15, 0, .rc, 0⟩]⟩
def WARD_QWAIT_FULL : Fld := ⟨WARD_QWAIT, 31, 16⟩
def WARD_QWAIT_EMPTY : Fld := ⟨WARD_QWAIT, 15, 0⟩

/-- WARD_SCFG (05). -/
def WARD_SCFG : Reg := ⟨30, 0x480000, 0x40, 640, 8, [⟨31, 31, .rw, 0⟩, ⟨30, 30, .rw, 0⟩, ⟨29, 29, .rw, 0⟩, ⟨28, 28, .rw, 0⟩, ⟨27, 24, .rw, 3⟩, ⟨20, 16, .rw, 4⟩]⟩
def WARD_SCFG_EN : Fld := ⟨WARD_SCFG, 31, 31⟩
def WARD_SCFG_CLASS : Fld := ⟨WARD_SCFG, 30, 30⟩
def WARD_SCFG_RING_HOME : Fld := ⟨WARD_SCFG, 29, 29⟩
def WARD_SCFG_NO_RESCUE : Fld := ⟨WARD_SCFG, 28, 28⟩
def WARD_SCFG_VERSION : Fld := ⟨WARD_SCFG, 27, 24⟩
def WARD_SCFG_RING_LOG2 : Fld := ⟨WARD_SCFG, 20, 16⟩

/-- WARD_SRING_LO (05). -/
def WARD_SRING_LO : Reg := ⟨31, 0x480004, 0x40, 640, 8, [⟨31, 12, .rw, 0⟩]⟩
def WARD_SRING_LO_BASE_LO : Fld := ⟨WARD_SRING_LO, 31, 12⟩

/-- WARD_SRING_HI (05). -/
def WARD_SRING_HI : Reg := ⟨32, 0x480008, 0x40, 640, 8, [⟨7, 0, .rw, 0⟩]⟩
def WARD_SRING_HI_BASE_HI : Fld := ⟨WARD_SRING_HI, 7, 0⟩

/-- WARD_SDBELL (05). -/
def WARD_SDBELL : Reg := ⟨33, 0x48000c, 0x40, 640, 8, [⟨31, 0, .wo, 0⟩]⟩
def WARD_SDBELL_AVAIL : Fld := ⟨WARD_SDBELL, 31, 0⟩

/-- WARD_SFETCH (05). -/
def WARD_SFETCH : Reg := ⟨34, 0x480010, 0x40, 640, 8, [⟨31, 0, .ro, 0⟩]⟩
def WARD_SFETCH_LOADED : Fld := ⟨WARD_SFETCH, 31, 0⟩

/-- WARD_SDONE (05). -/
def WARD_SDONE : Reg := ⟨35, 0x480014, 0x40, 640, 8, [⟨31, 0, .ro, 0⟩]⟩
def WARD_SDONE_RETIRED : Fld := ⟨WARD_SDONE, 31, 0⟩

/-- WARD_SSTAT (05). -/
def WARD_SSTAT : Reg := ⟨36, 0x480018, 0x40, 640, 8, [⟨31, 29, .ro, 0⟩, ⟨28, 28, .w1c, 0⟩, ⟨27, 27, .w1c, 0⟩, ⟨23, 16, .ro, 0⟩, ⟨15, 0, .ro, 0⟩]⟩
def WARD_SSTAT_STATE : Fld := ⟨WARD_SSTAT, 31, 29⟩
def WARD_SSTAT_DB_REFUSED : Fld := ⟨WARD_SSTAT, 28, 28⟩
def WARD_SSTAT_CFG_REFUSED : Fld := ⟨WARD_SSTAT, 27, 27⟩
def WARD_SSTAT_FAULT : Fld := ⟨WARD_SSTAT, 23, 16⟩
def WARD_SSTAT_LAST_TAG : Fld := ⟨WARD_SSTAT, 15, 0⟩

/-- WARD_SSTEP (05). -/
def WARD_SSTEP : Reg := ⟨37, 0x48001c, 0x40, 640, 8, [⟨31, 0, .rw, 0⟩]⟩
def WARD_SSTEP_STEP : Fld := ⟨WARD_SSTEP, 31, 0⟩

/-- WARD_BOUND (06). -/
def WARD_BOUND : Reg := ⟨38, 0x1400000, 0x4, 327680, 4096, [⟨31, 0, .rw, 0⟩]⟩
def WARD_BOUND_BOUND : Fld := ⟨WARD_BOUND, 31, 0⟩

/-- WARD_FLAG (06). -/
def WARD_FLAG : Reg := ⟨39, 0x1600000, 0x10, 20480, 256, [⟨15, 0, .rw, 0⟩]⟩
def WARD_FLAG_COUNT : Fld := ⟨WARD_FLAG, 15, 0⟩

/-- WARD_FSIG (06). -/
def WARD_FSIG : Reg := ⟨40, 0x1600004, 0x10, 20480, 256, [⟨15, 0, .wo, 0⟩]⟩
def WARD_FSIG_INC : Fld := ⟨WARD_FSIG, 15, 0⟩

/-- WARD_FCFG (06). -/
def WARD_FCFG : Reg := ⟨41, 0x1600008, 0x10, 20480, 256, [⟨31, 31, .w1c, 0⟩, ⟨30, 30, .w1c, 0⟩, ⟨16, 16, .rw, 0⟩, ⟨15, 0, .rw, 0x1000⟩]⟩
def WARD_FCFG_SET_REFUSED : Fld := ⟨WARD_FCFG, 31, 31⟩
def WARD_FCFG_REMOTE_REFUSED : Fld := ⟨WARD_FCFG, 30, 30⟩
def WARD_FCFG_EXT : Fld := ⟨WARD_FCFG, 16, 16⟩
def WARD_FCFG_TIMEOUT : Fld := ⟨WARD_FCFG, 15, 0⟩

/-- MOD_QUIESCE_CFG (06). -/
def MOD_QUIESCE_CFG : Reg := ⟨42, 0x2030, 0x4, 1, 0, [⟨8, 8, .rw, 1⟩, ⟨7, 0, .rw, 2⟩]⟩
def MOD_QUIESCE_CFG_ENABLE : Fld := ⟨MOD_QUIESCE_CFG, 8, 8⟩
def MOD_QUIESCE_CFG_WINDOW : Fld := ⟨MOD_QUIESCE_CFG, 7, 0⟩

/-- MOD_STALL_STATUS (06). -/
def MOD_STALL_STATUS : Reg := ⟨43, 0x2034, 0x4, 1, 0, [⟨31, 31, .w1c, 0⟩, ⟨9, 0, .ro, 0⟩]⟩
def MOD_STALL_STATUS_STALL : Fld := ⟨MOD_STALL_STATUS, 31, 31⟩
def MOD_STALL_STATUS_BLOCKED : Fld := ⟨MOD_STALL_STATUS, 9, 0⟩

/-- WARD_SFAULT (06). -/
def WARD_SFAULT : Reg := ⟨44, 0x500000, 0x20, 640, 8, [⟨31, 24, .ro, 0⟩, ⟨15, 0, .ro, 0⟩]⟩
def WARD_SFAULT_CODE : Fld := ⟨WARD_SFAULT, 31, 24⟩
def WARD_SFAULT_FTAG : Fld := ⟨WARD_SFAULT, 15, 0⟩

/-- WARD_SFAULT_DETAIL (06). -/
def WARD_SFAULT_DETAIL : Reg := ⟨45, 0x500004, 0x20, 640, 8, [⟨31, 0, .ro, 0⟩]⟩
def WARD_SFAULT_DETAIL_DETAIL : Fld := ⟨WARD_SFAULT_DETAIL, 31, 0⟩

/-- WARD_SFAULT_INDEX (06). -/
def WARD_SFAULT_INDEX : Reg := ⟨46, 0x500008, 0x20, 640, 8, [⟨31, 0, .ro, 0⟩]⟩
def WARD_SFAULT_INDEX_INDEX : Fld := ⟨WARD_SFAULT_INDEX, 31, 0⟩

/-- WARD_SFAULT_FRAME (06). -/
def WARD_SFAULT_FRAME : Reg := ⟨47, 0x50000c, 0x20, 640, 8, [⟨31, 0, .ro, 0⟩]⟩
def WARD_SFAULT_FRAME_FRAME : Fld := ⟨WARD_SFAULT_FRAME, 31, 0⟩

/-- WARD_SBLOCK (06). -/
def WARD_SBLOCK : Reg := ⟨48, 0x500010, 0x20, 640, 8, [⟨31, 29, .ro, 0⟩, ⟨28, 22, .ro, 0⟩, ⟨21, 14, .ro, 0⟩]⟩
def WARD_SBLOCK_CAUSE : Fld := ⟨WARD_SBLOCK, 31, 29⟩
def WARD_SBLOCK_OBJ_WARD : Fld := ⟨WARD_SBLOCK, 28, 22⟩
def WARD_SBLOCK_OBJ : Fld := ⟨WARD_SBLOCK, 21, 14⟩

/-- WARD_SBLOCK_TAG (06). -/
def WARD_SBLOCK_TAG : Reg := ⟨49, 0x500014, 0x20, 640, 8, [⟨31, 16, .ro, 0⟩, ⟨15, 0, .ro, 0⟩]⟩
def WARD_SBLOCK_TAG_TAG : Fld := ⟨WARD_SBLOCK_TAG, 31, 16⟩
def WARD_SBLOCK_TAG_TARGET : Fld := ⟨WARD_SBLOCK_TAG, 15, 0⟩

/-- VE_STATUS (07). -/
def VE_STATUS : Reg := ⟨50, 0x600000, 0x20, 80, 1, [⟨31, 16, .ro, 0⟩, ⟨0, 0, .ro, 0⟩]⟩
def VE_STATUS_TAG : Fld := ⟨VE_STATUS, 31, 16⟩
def VE_STATUS_BUSY : Fld := ⟨VE_STATUS, 0, 0⟩

/-- VE_NUMCNT (07). -/
def VE_NUMCNT : Reg := ⟨51, 0x600004, 0x20, 80, 1, [⟨31, 16, .rc, 0⟩, ⟨15, 0, .rc, 0⟩]⟩
def VE_NUMCNT_OVERFLOW : Fld := ⟨VE_NUMCNT, 31, 16⟩
def VE_NUMCNT_NAN_CREATED : Fld := ⟨VE_NUMCNT, 15, 0⟩

/-- VE_BUSY (07). -/
def VE_BUSY : Reg := ⟨52, 0x600008, 0x20, 80, 1, [⟨31, 0, .rc, 0⟩]⟩
def VE_BUSY_CLOCKS : Fld := ⟨VE_BUSY, 31, 0⟩

/-- VE_KSCTL (07). -/
def VE_KSCTL : Reg := ⟨53, 0x60000c, 0x20, 80, 1, [⟨31, 31, .w1c, 0⟩, ⟨30, 30, .ro, 0⟩, ⟨0, 0, .wo, 0⟩]⟩
def VE_KSCTL_KS_REFUSED : Fld := ⟨VE_KSCTL, 31, 31⟩
def VE_KSCTL_DIGEST_DONE : Fld := ⟨VE_KSCTL, 30, 30⟩
def VE_KSCTL_DIGEST_REQ : Fld := ⟨VE_KSCTL, 0, 0⟩

/-- VE_KSDIGEST (07). -/
def VE_KSDIGEST : Reg := ⟨54, 0x600010, 0x20, 80, 1, [⟨31, 0, .ro, 0⟩]⟩
def VE_KSDIGEST_DIGEST : Fld := ⟨VE_KSDIGEST, 31, 0⟩

/-- MOD_KSTORE_STATUS (07). -/
def MOD_KSTORE_STATUS : Reg := ⟨55, 0x2040, 0x4, 1, 0, [⟨31, 31, .w1c, 0⟩, ⟨30, 30, .ro, 0⟩, ⟨15, 0, .ro, 1⟩]⟩
def MOD_KSTORE_STATUS_BCAST_REFUSED : Fld := ⟨MOD_KSTORE_STATUS, 31, 31⟩
def MOD_KSTORE_STATUS_LIB_OK : Fld := ⟨MOD_KSTORE_STATUS, 30, 30⟩
def MOD_KSTORE_STATUS_LIB_ID : Fld := ⟨MOD_KSTORE_STATUS, 15, 0⟩

/-- MOD_GBIN_TENSOR (08). -/
def MOD_GBIN_TENSOR : Reg := ⟨56, 0x70000, 0x10, 256, 0, [⟨31, 0, .rw, 0⟩]⟩
def MOD_GBIN_TENSOR_TENSOR : Fld := ⟨MOD_GBIN_TENSOR, 31, 0⟩

/-- MOD_GBIN_CFG (08). -/
def MOD_GBIN_CFG : Reg := ⟨57, 0x70004, 0x10, 256, 0, [⟨31, 31, .rw, 0⟩, ⟨27, 24, .rw, 0⟩, ⟨23, 20, .rw, 0⟩, ⟨11, 0, .rw, 0⟩]⟩
def MOD_GBIN_CFG_VALID : Fld := ⟨MOD_GBIN_CFG, 31, 31⟩
def MOD_GBIN_CFG_ORD : Fld := ⟨MOD_GBIN_CFG, 27, 24⟩
def MOD_GBIN_CFG_USES : Fld := ⟨MOD_GBIN_CFG, 23, 20⟩
def MOD_GBIN_CFG_SPLIT : Fld := ⟨MOD_GBIN_CFG, 11, 0⟩

/-- MOD_GBIN_STAT (08). -/
def MOD_GBIN_STAT : Reg := ⟨58, 0x70008, 0x10, 256, 0, [⟨31, 31, .w1c, 0⟩]⟩
def MOD_GBIN_STAT_REFUSED : Fld := ⟨MOD_GBIN_STAT, 31, 31⟩

/-- MOD_SCHED_BASE_LO (09). -/
def MOD_SCHED_BASE_LO : Reg := ⟨59, 0x2050, 0x4, 1, 0, [⟨31, 12, .rw, 0⟩]⟩
def MOD_SCHED_BASE_LO_BASE_LO : Fld := ⟨MOD_SCHED_BASE_LO, 31, 12⟩

/-- MOD_SCHED_BASE_HI (09). -/
def MOD_SCHED_BASE_HI : Reg := ⟨60, 0x2054, 0x4, 1, 0, [⟨7, 0, .rw, 0⟩]⟩
def MOD_SCHED_BASE_HI_BASE_HI : Fld := ⟨MOD_SCHED_BASE_HI, 7, 0⟩

/-- MOD_SCHED_CFG (09). -/
def MOD_SCHED_CFG : Reg := ⟨61, 0x2058, 0x4, 1, 0, [⟨31, 31, .w1c, 0⟩, ⟨15, 0, .rw, 0⟩]⟩
def MOD_SCHED_CFG_WRITE_REFUSED : Fld := ⟨MOD_SCHED_CFG, 31, 31⟩
def MOD_SCHED_CFG_GROUPS : Fld := ⟨MOD_SCHED_CFG, 15, 0⟩

/-- UE_STATUS (09). -/
def UE_STATUS : Reg := ⟨62, 0x680000, 0x20, 80, 1, [⟨31, 16, .ro, 0⟩, ⟨3, 2, .ro, 0⟩, ⟨1, 1, .ro, 0⟩, ⟨0, 0, .ro, 0⟩]⟩
def UE_STATUS_TAG : Fld := ⟨UE_STATUS, 31, 16⟩
def UE_STATUS_PASS : Fld := ⟨UE_STATUS, 3, 2⟩
def UE_STATUS_ACC_OPEN : Fld := ⟨UE_STATUS, 1, 1⟩
def UE_STATUS_BUSY : Fld := ⟨UE_STATUS, 0, 0⟩

/-- UE_NUMCNT (09). -/
def UE_NUMCNT : Reg := ⟨63, 0x680004, 0x20, 80, 1, [⟨31, 16, .rc, 0⟩, ⟨15, 0, .rc, 0⟩]⟩
def UE_NUMCNT_OVERFLOW : Fld := ⟨UE_NUMCNT, 31, 16⟩
def UE_NUMCNT_NAN_CREATED : Fld := ⟨UE_NUMCNT, 15, 0⟩

/-- UE_BUSY (09). -/
def UE_BUSY : Reg := ⟨64, 0x680008, 0x20, 80, 1, [⟨31, 0, .rc, 0⟩]⟩
def UE_BUSY_CLOCKS : Fld := ⟨UE_BUSY, 31, 0⟩

/-- UE_ZERO (09). -/
def UE_ZERO : Reg := ⟨65, 0x68000c, 0x20, 80, 1, [⟨31, 16, .rc, 0⟩, ⟨15, 0, .rc, 0⟩]⟩
def UE_ZERO_ZERO_SLICE : Fld := ⟨UE_ZERO, 31, 16⟩
def UE_ZERO_ZERO_ROW : Fld := ⟨UE_ZERO, 15, 0⟩

/-- UE_CLIP (09). -/
def UE_CLIP : Reg := ⟨66, 0x680010, 0x20, 80, 1, [⟨31, 0, .rc, 0⟩]⟩
def UE_CLIP_CLIPPED : Fld := ⟨UE_CLIP, 31, 0⟩

/-- UE_ACC (09). -/
def UE_ACC : Reg := ⟨67, 0x680014, 0x20, 80, 1, [⟨31, 0, .ro, 0⟩]⟩
def UE_ACC_NROWS : Fld := ⟨UE_ACC, 31, 0⟩

/-- MOD_T2SLOT_RANGE (10). -/
def MOD_T2SLOT_RANGE : Reg := ⟨68, 0x80000, 0x10, 16, 0, [⟨31, 16, .rw, 0⟩, ⟨15, 0, .rw, 0⟩]⟩
def MOD_T2SLOT_RANGE_BASE : Fld := ⟨MOD_T2SLOT_RANGE, 31, 16⟩
def MOD_T2SLOT_RANGE_SIZE : Fld := ⟨MOD_T2SLOT_RANGE, 15, 0⟩

/-- MOD_T2SLOT_CTL (10). -/
def MOD_T2SLOT_CTL : Reg := ⟨69, 0x80004, 0x10, 16, 0, [⟨31, 30, .rw, 0⟩, ⟨29, 29, .w1c, 0⟩, ⟨28, 28, .ro, 0⟩, ⟨15, 0, .rw, 0⟩]⟩
def MOD_T2SLOT_CTL_STATE : Fld := ⟨MOD_T2SLOT_CTL, 31, 30⟩
def MOD_T2SLOT_CTL_REFUSED : Fld := ⟨MOD_T2SLOT_CTL, 29, 29⟩
def MOD_T2SLOT_CTL_INVALID : Fld := ⟨MOD_T2SLOT_CTL, 28, 28⟩
def MOD_T2SLOT_CTL_VERSION : Fld := ⟨MOD_T2SLOT_CTL, 15, 0⟩

/-- MOD_T2SLOT_USE (10). -/
def MOD_T2SLOT_USE : Reg := ⟨70, 0x80008, 0x10, 16, 0, [⟨31, 16, .ro, 0⟩, ⟨15, 0, .ro, 0⟩]⟩
def MOD_T2SLOT_USE_READERS : Fld := ⟨MOD_T2SLOT_USE, 31, 16⟩
def MOD_T2SLOT_USE_WRITERS : Fld := ⟨MOD_T2SLOT_USE, 15, 0⟩

/-- MOD_PPOOL_BASE_LO (10). -/
def MOD_PPOOL_BASE_LO : Reg := ⟨71, 0x2060, 0x4, 1, 0, [⟨31, 16, .rw, 0⟩]⟩
def MOD_PPOOL_BASE_LO_BASE_LO : Fld := ⟨MOD_PPOOL_BASE_LO, 31, 16⟩

/-- MOD_PPOOL_BASE_HI (10). -/
def MOD_PPOOL_BASE_HI : Reg := ⟨72, 0x2064, 0x4, 1, 0, [⟨7, 0, .rw, 0⟩]⟩
def MOD_PPOOL_BASE_HI_BASE_HI : Fld := ⟨MOD_PPOOL_BASE_HI, 7, 0⟩

/-- MOD_PPOOL_CFG (10). -/
def MOD_PPOOL_CFG : Reg := ⟨73, 0x2068, 0x4, 1, 0, [⟨31, 31, .rw, 0⟩, ⟨30, 30, .w1c, 0⟩, ⟨27, 16, .rw, 0⟩, ⟨13, 0, .rw, 0⟩]⟩
def MOD_PPOOL_CFG_EN : Fld := ⟨MOD_PPOOL_CFG, 31, 31⟩
def MOD_PPOOL_CFG_REFUSED : Fld := ⟨MOD_PPOOL_CFG, 30, 30⟩
def MOD_PPOOL_CFG_PAGE_UNITS : Fld := ⟨MOD_PPOOL_CFG, 27, 16⟩
def MOD_PPOOL_CFG_PAGES : Fld := ⟨MOD_PPOOL_CFG, 13, 0⟩

/-- MOD_PPOOL_OP (10). -/
def MOD_PPOOL_OP : Reg := ⟨74, 0x206c, 0x4, 1, 0, [⟨31, 28, .wo, 0⟩, ⟨15, 0, .wo, 0⟩]⟩
def MOD_PPOOL_OP_OP : Fld := ⟨MOD_PPOOL_OP, 31, 28⟩
def MOD_PPOOL_OP_SEQ : Fld := ⟨MOD_PPOOL_OP, 15, 0⟩

/-- MOD_PPOOL_RESULT (10). -/
def MOD_PPOOL_RESULT : Reg := ⟨75, 0x2070, 0x4, 1, 0, [⟨31, 29, .ro, 0⟩, ⟨28, 28, .ro, 0⟩, ⟨13, 0, .ro, 0⟩]⟩
def MOD_PPOOL_RESULT_STATUS : Fld := ⟨MOD_PPOOL_RESULT, 31, 29⟩
def MOD_PPOOL_RESULT_BUSY : Fld := ⟨MOD_PPOOL_RESULT, 28, 28⟩
def MOD_PPOOL_RESULT_PAGE : Fld := ⟨MOD_PPOOL_RESULT, 13, 0⟩

/-- MOD_PPOOL_VICTIM (10). -/
def MOD_PPOOL_VICTIM : Reg := ⟨76, 0x2074, 0x4, 1, 0, [⟨31, 31, .ro, 0⟩, ⟨15, 0, .ro, 0⟩]⟩
def MOD_PPOOL_VICTIM_VALID : Fld := ⟨MOD_PPOOL_VICTIM, 31, 31⟩
def MOD_PPOOL_VICTIM_SEQ : Fld := ⟨MOD_PPOOL_VICTIM, 15, 0⟩

/-- MOD_PPOOL_CNT (10). -/
def MOD_PPOOL_CNT : Reg := ⟨77, 0x2078, 0x4, 1, 0, [⟨31, 16, .rc, 0⟩, ⟨15, 0, .rc, 0⟩]⟩
def MOD_PPOOL_CNT_EVICT : Fld := ⟨MOD_PPOOL_CNT, 31, 16⟩
def MOD_PPOOL_CNT_REPREFILL : Fld := ⟨MOD_PPOOL_CNT, 15, 0⟩

/-- MOD_PPOOL_FREE (10). -/
def MOD_PPOOL_FREE : Reg := ⟨78, 0x207c, 0x4, 1, 0, [⟨13, 0, .ro, 0⟩]⟩
def MOD_PPOOL_FREE_FREE : Fld := ⟨MOD_PPOOL_FREE, 13, 0⟩

/-- MOD_T1_CFG (11). -/
def MOD_T1_CFG : Reg := ⟨79, 0x2080, 0x4, 1, 0, [⟨31, 31, .w1c, 0⟩, ⟨30, 30, .ro, 0⟩, ⟨12, 8, .rw, 0⟩, ⟨4, 0, .ro, 0⟩]⟩
def MOD_T1_CFG_WRITE_REFUSED : Fld := ⟨MOD_T1_CFG, 31, 31⟩
def MOD_T1_CFG_RETRAIN_DUE : Fld := ⟨MOD_T1_CFG, 30, 30⟩
def MOD_T1_CFG_NEXT_LOCAL_GIB : Fld := ⟨MOD_T1_CFG, 12, 8⟩
def MOD_T1_CFG_LOCAL_GIB : Fld := ⟨MOD_T1_CFG, 4, 0⟩

/-- MOD_SCRUB_STATUS (11). -/
def MOD_SCRUB_STATUS : Reg := ⟨80, 0x2084, 0x4, 1, 0, [⟨31, 31, .w1c, 0⟩, ⟨30, 30, .w1c, 0⟩, ⟨29, 29, .w1c, 0⟩, ⟨23, 16, .ro, 0⟩, ⟨15, 8, .ro, 0⟩, ⟨7, 0, .ro, 0⟩]⟩
def MOD_SCRUB_STATUS_T1_LATE : Fld := ⟨MOD_SCRUB_STATUS, 31, 31⟩
def MOD_SCRUB_STATUS_T2_LATE : Fld := ⟨MOD_SCRUB_STATUS, 30, 30⟩
def MOD_SCRUB_STATUS_SRAM_LATE : Fld := ⟨MOD_SCRUB_STATUS, 29, 29⟩
def MOD_SCRUB_STATUS_T1_PASSES : Fld := ⟨MOD_SCRUB_STATUS, 23, 16⟩
def MOD_SCRUB_STATUS_T2_PASSES : Fld := ⟨MOD_SCRUB_STATUS, 15, 8⟩
def MOD_SCRUB_STATUS_SRAM_PASSES : Fld := ⟨MOD_SCRUB_STATUS, 7, 0⟩

/-- WARD_STALL_MEM (11). -/
def WARD_STALL_MEM : Reg := ⟨81, 0x700000, 0x10, 80, 1, [⟨31, 16, .rc, 0⟩, ⟨15, 0, .rc, 0⟩]⟩
def WARD_STALL_MEM_T2 : Fld := ⟨WARD_STALL_MEM, 31, 16⟩
def WARD_STALL_MEM_T1 : Fld := ⟨WARD_STALL_MEM, 15, 0⟩

/-- WARD_STALL_NET (11). -/
def WARD_STALL_NET : Reg := ⟨82, 0x700004, 0x10, 80, 1, [⟨31, 16, .rc, 0⟩, ⟨15, 0, .rc, 0⟩]⟩
def WARD_STALL_NET_RETRY : Fld := ⟨WARD_STALL_NET, 31, 16⟩
def WARD_STALL_NET_FABRIC : Fld := ⟨WARD_STALL_NET, 15, 0⟩

/-- WARD_STALL_ERR (11). -/
def WARD_STALL_ERR : Reg := ⟨83, 0x700008, 0x10, 80, 1, [⟨31, 16, .rc, 0⟩, ⟨15, 0, .rc, 0⟩]⟩
def WARD_STALL_ERR_THERMAL : Fld := ⟨WARD_STALL_ERR, 31, 16⟩
def WARD_STALL_ERR_ECC : Fld := ⟨WARD_STALL_ERR, 15, 0⟩

/-- MOD_UE_INFO (11). -/
def MOD_UE_INFO : Reg := ⟨84, 0x2088, 0x4, 1, 0, [⟨31, 28, .ro, 0⟩, ⟨27, 16, .ro, 0⟩, ⟨15, 0, .ro, 0⟩]⟩
def MOD_UE_INFO_STORE : Fld := ⟨MOD_UE_INFO, 31, 28⟩
def MOD_UE_INFO_UNIT : Fld := ⟨MOD_UE_INFO, 27, 16⟩
def MOD_UE_INFO_TAG : Fld := ⟨MOD_UE_INFO, 15, 0⟩

/-- MOD_UE_ADDR_LO (11). -/
def MOD_UE_ADDR_LO : Reg := ⟨85, 0x208c, 0x4, 1, 0, [⟨31, 0, .ro, 0⟩]⟩
def MOD_UE_ADDR_LO_OFFSET_LO : Fld := ⟨MOD_UE_ADDR_LO, 31, 0⟩

/-- MOD_UE_ADDR_HI (11). -/
def MOD_UE_ADDR_HI : Reg := ⟨86, 0x2090, 0x4, 1, 0, [⟨31, 16, .rc, 0⟩, ⟨15, 0, .ro, 0⟩]⟩
def MOD_UE_ADDR_HI_COUNT : Fld := ⟨MOD_UE_ADDR_HI, 31, 16⟩
def MOD_UE_ADDR_HI_OFFSET_HI : Fld := ⟨MOD_UE_ADDR_HI, 15, 0⟩

/-- DIST_SC_CNT (11). -/
def DIST_SC_CNT : Reg := ⟨87, 0x780000, 0x20, 20, 0, [⟨31, 16, .rc, 0⟩, ⟨15, 0, .rc, 0⟩]⟩
def DIST_SC_CNT_HIT : Fld := ⟨DIST_SC_CNT, 31, 16⟩
def DIST_SC_CNT_MISS : Fld := ⟨DIST_SC_CNT, 15, 0⟩

/-- DIST_MEM_ERR (11). -/
def DIST_MEM_ERR : Reg := ⟨88, 0x780004, 0x20, 20, 0, [⟨31, 16, .rc, 0⟩, ⟨15, 8, .rc, 0⟩, ⟨7, 0, .rc, 0⟩]⟩
def DIST_MEM_ERR_T1_CORRECTED : Fld := ⟨DIST_MEM_ERR, 31, 16⟩
def DIST_MEM_ERR_VI_RESEND : Fld := ⟨DIST_MEM_ERR, 15, 8⟩
def DIST_MEM_ERR_SRAM_CORRECTED : Fld := ⟨DIST_MEM_ERR, 7, 0⟩

/-- DIST_PIN (11). -/
def DIST_PIN : Reg := ⟨89, 0x780008, 0x20, 20, 0, [⟨31, 20, .ro, 0⟩, ⟨12, 0, .ro, 0⟩]⟩
def DIST_PIN_UNCACHED_SETS : Fld := ⟨DIST_PIN, 31, 20⟩
def DIST_PIN_PINNED_KIB : Fld := ⟨DIST_PIN, 12, 0⟩

/-- DIST_ATOMIC (11). -/
def DIST_ATOMIC : Reg := ⟨90, 0x78000c, 0x20, 20, 0, [⟨31, 16, .rc, 0⟩, ⟨15, 0, .rc, 0⟩]⟩
def DIST_ATOMIC_OVERFLOW : Fld := ⟨DIST_ATOMIC, 31, 16⟩
def DIST_ATOMIC_NAN_CREATED : Fld := ⟨DIST_ATOMIC, 15, 0⟩

/-- MOD_T2_DEV (11). -/
def MOD_T2_DEV : Reg := ⟨91, 0x2100, 0x4, 32, 0, [⟨31, 24, .rc, 0⟩, ⟨23, 12, .rc, 0⟩, ⟨11, 0, .rc, 0⟩]⟩
def MOD_T2_DEV_RETRAINS : Fld := ⟨MOD_T2_DEV, 31, 24⟩
def MOD_T2_DEV_LINK_RESEND : Fld := ⟨MOD_T2_DEV, 23, 12⟩
def MOD_T2_DEV_CORRECTED : Fld := ⟨MOD_T2_DEV, 11, 0⟩

/-- FAB_ROUTE (12). -/
def FAB_ROUTE : Reg := ⟨92, 0x900000, 0x4, 65536, 0, [⟨31, 31, .ro, 0⟩, ⟨30, 30, .ro, 0⟩, ⟨27, 0, .ro, 0⟩]⟩
def FAB_ROUTE_VALID : Fld := ⟨FAB_ROUTE, 31, 31⟩
def FAB_ROUTE_ALLOW : Fld := ⟨FAB_ROUTE, 30, 30⟩
def FAB_ROUTE_PORTS : Fld := ⟨FAB_ROUTE, 27, 0⟩

/-- FAB_CHIP (12). -/
def FAB_CHIP : Reg := ⟨93, 0x2200, 0x4, 1, 0, [⟨31, 31, .ro, 0⟩, ⟨30, 30, .w1c, 0⟩, ⟨15, 0, .ro, 0xffff⟩]⟩
def FAB_CHIP_VALID : Fld := ⟨FAB_CHIP, 31, 31⟩
def FAB_CHIP_WRITE_REFUSED : Fld := ⟨FAB_CHIP, 30, 30⟩
def FAB_CHIP_CHIP : Fld := ⟨FAB_CHIP, 15, 0⟩

/-- FAB_SLICE (12). -/
def FAB_SLICE : Reg := ⟨94, 0x2204, 0x4, 1, 0, [⟨11, 0, .ro, 0⟩]⟩
def FAB_SLICE_ID : Fld := ⟨FAB_SLICE, 11, 0⟩

/-- FAB_CFG (12). -/
def FAB_CFG : Reg := ⟨95, 0x2208, 0x4, 1, 0, [⟨7, 0, .rw, 2⟩]⟩
def FAB_CFG_E2E_TIMEOUT : Fld := ⟨FAB_CFG, 7, 0⟩

/-- FAB_REFUSE (12). -/
def FAB_REFUSE : Reg := ⟨96, 0x220c, 0x4, 1, 0, [⟨31, 16, .rc, 0⟩, ⟨15, 0, .rc, 0⟩]⟩
def FAB_REFUSE_SLICE_REFUSED : Fld := ⟨FAB_REFUSE, 31, 16⟩
def FAB_REFUSE_OTHER_REFUSED : Fld := ⟨FAB_REFUSE, 15, 0⟩

/-- FAB_DROP (12). -/
def FAB_DROP : Reg := ⟨97, 0x2210, 0x4, 1, 0, [⟨31, 16, .rc, 0⟩, ⟨15, 0, .rc, 0⟩]⟩
def FAB_DROP_MISROUTED : Fld := ⟨FAB_DROP, 31, 16⟩
def FAB_DROP_EGRESS_DENIED : Fld := ⟨FAB_DROP, 15, 0⟩

/-- FAB_LAST_REFUSAL (12). -/
def FAB_LAST_REFUSAL : Reg := ⟨98, 0x2214, 0x4, 1, 0, [⟨31, 28, .ro, 0⟩, ⟨27, 27, .ro, 0⟩, ⟨15, 0, .ro, 0⟩]⟩
def FAB_LAST_REFUSAL_REASON : Fld := ⟨FAB_LAST_REFUSAL, 31, 28⟩
def FAB_LAST_REFUSAL_RECEIVED : Fld := ⟨FAB_LAST_REFUSAL, 27, 27⟩
def FAB_LAST_REFUSAL_CHIP : Fld := ⟨FAB_LAST_REFUSAL, 15, 0⟩

/-- FAB_PORT_STATUS (12). -/
def FAB_PORT_STATUS : Reg := ⟨99, 0x800000, 0x40, 28, 0, [⟨31, 29, .ro, 0⟩, ⟨28, 28, .ro, 0⟩, ⟨27, 27, .ro, 0⟩, ⟨26, 25, .ro, 3⟩, ⟨24, 24, .ro, 0⟩, ⟨23, 20, .ro, 0⟩, ⟨11, 9, .ro, 0⟩, ⟨8, 0, .ro, 0⟩]⟩
def FAB_PORT_STATUS_STATE : Fld := ⟨FAB_PORT_STATUS, 31, 29⟩
def FAB_PORT_STATUS_NBR_CHANGED : Fld := ⟨FAB_PORT_STATUS, 28, 28⟩
def FAB_PORT_STATUS_WIRE_OK : Fld := ⟨FAB_PORT_STATUS, 27, 27⟩
def FAB_PORT_STATUS_CLASS : Fld := ⟨FAB_PORT_STATUS, 26, 25⟩
def FAB_PORT_STATUS_V2 : Fld := ⟨FAB_PORT_STATUS, 24, 24⟩
def FAB_PORT_STATUS_LINK_VER : Fld := ⟨FAB_PORT_STATUS, 23, 20⟩
def FAB_PORT_STATUS_LANES_FAILED : Fld := ⟨FAB_PORT_STATUS, 11, 9⟩
def FAB_PORT_STATUS_LANE_OK : Fld := ⟨FAB_PORT_STATUS, 8, 0⟩

/-- FAB_PORT_FEC (12). -/
def FAB_PORT_FEC : Reg := ⟨100, 0x800004, 0x40, 28, 0, [⟨31, 16, .rc, 0⟩, ⟨15, 0, .rc, 0⟩]⟩
def FAB_PORT_FEC_UNCORR : Fld := ⟨FAB_PORT_FEC, 31, 16⟩
def FAB_PORT_FEC_CORRECTED : Fld := ⟨FAB_PORT_FEC, 15, 0⟩

/-- FAB_PORT_RETRY (12). -/
def FAB_PORT_RETRY : Reg := ⟨101, 0x800008, 0x40, 28, 0, [⟨31, 16, .rc, 0⟩, ⟨15, 0, .rc, 0⟩]⟩
def FAB_PORT_RETRY_RESENT : Fld := ⟨FAB_PORT_RETRY, 31, 16⟩
def FAB_PORT_RETRY_CRC_FAIL : Fld := ⟨FAB_PORT_RETRY, 15, 0⟩

/-- FAB_PORT_V2 (12). -/
def FAB_PORT_V2 : Reg := ⟨102, 0x80000c, 0x40, 28, 0, [⟨11, 0, .ro, 0⟩]⟩
def FAB_PORT_V2_SLICE : Fld := ⟨FAB_PORT_V2, 11, 0⟩

/-- FAB_NBR_ID_LO (12). -/
def FAB_NBR_ID_LO : Reg := ⟨103, 0x800010, 0x40, 28, 0, [⟨31, 0, .ro, 0⟩]⟩
def FAB_NBR_ID_LO_ID_LO : Fld := ⟨FAB_NBR_ID_LO, 31, 0⟩

/-- FAB_NBR_ID_HI (12). -/
def FAB_NBR_ID_HI : Reg := ⟨104, 0x800014, 0x40, 28, 0, [⟨31, 0, .ro, 0⟩]⟩
def FAB_NBR_ID_HI_ID_HI : Fld := ⟨FAB_NBR_ID_HI, 31, 0⟩

/-- FAB_NBR_INFO (12). -/
def FAB_NBR_INFO : Reg := ⟨105, 0x800018, 0x40, 28, 0, [⟨31, 24, .ro, 0⟩, ⟨23, 21, .ro, 0⟩, ⟨20, 16, .ro, 0⟩, ⟨15, 12, .ro, 0⟩, ⟨11, 8, .ro, 0⟩, ⟨7, 0, .ro, 0⟩]⟩
def FAB_NBR_INFO_PORT : Fld := ⟨FAB_NBR_INFO, 31, 24⟩
def FAB_NBR_INFO_NODE_KIND : Fld := ⟨FAB_NBR_INFO, 23, 21⟩
def FAB_NBR_INFO_BOARD_ID : Fld := ⟨FAB_NBR_INFO, 20, 16⟩
def FAB_NBR_INFO_LINK_MAX : Fld := ⟨FAB_NBR_INFO, 15, 12⟩
def FAB_NBR_INFO_LINK_MIN : Fld := ⟨FAB_NBR_INFO, 11, 8⟩
def FAB_NBR_INFO_NL : Fld := ⟨FAB_NBR_INFO, 7, 0⟩

/-- FAB_NBR_CHIP (12). -/
def FAB_NBR_CHIP : Reg := ⟨106, 0x80001c, 0x40, 28, 0, [⟨27, 16, .ro, 0⟩, ⟨15, 0, .ro, 0xffff⟩]⟩
def FAB_NBR_CHIP_SLICE : Fld := ⟨FAB_NBR_CHIP, 27, 16⟩
def FAB_NBR_CHIP_CHIP : Fld := ⟨FAB_NBR_CHIP, 15, 0⟩

/-- WARD_QARR_CFG (13). -/
def WARD_QARR_CFG : Reg := ⟨107, 0x580000, 0x10, 5120, 64, [⟨31, 31, .w1c, 0⟩, ⟨23, 16, .rw, 0⟩, ⟨7, 0, .rw, 0⟩]⟩
def WARD_QARR_CFG_ARR_REFUSED : Fld := ⟨WARD_QARR_CFG, 31, 31⟩
def WARD_QARR_CFG_WINDOW : Fld := ⟨WARD_QARR_CFG, 23, 16⟩
def WARD_QARR_CFG_NRANK : Fld := ⟨WARD_QARR_CFG, 7, 0⟩

/-- WARD_QARR_BASE_LO (13). -/
def WARD_QARR_BASE_LO : Reg := ⟨108, 0x580004, 0x10, 5120, 64, [⟨31, 16, .rw, 0⟩]⟩
def WARD_QARR_BASE_LO_BASE_LO : Fld := ⟨WARD_QARR_BASE_LO, 31, 16⟩

/-- WARD_QARR_BASE_HI (13). -/
def WARD_QARR_BASE_HI : Reg := ⟨109, 0x580008, 0x10, 5120, 64, [⟨7, 0, .rw, 0⟩]⟩
def WARD_QARR_BASE_HI_BASE_HI : Fld := ⟨WARD_QARR_BASE_HI, 7, 0⟩

/-- WARD_QARR_STAT (13). -/
def WARD_QARR_STAT : Reg := ⟨110, 0x58000c, 0x10, 5120, 64, [⟨31, 24, .ro, 0⟩, ⟨15, 0, .ro, 0⟩]⟩
def WARD_QARR_STAT_DRAIN_RANK : Fld := ⟨WARD_QARR_STAT, 31, 24⟩
def WARD_QARR_STAT_DRAIN_ROUND : Fld := ⟨WARD_QARR_STAT, 15, 0⟩

/-- DIST_REDNUM (13). -/
def DIST_REDNUM : Reg := ⟨111, 0x7c0000, 0x4, 20, 0, [⟨31, 16, .rc, 0⟩, ⟨15, 0, .rc, 0⟩]⟩
def DIST_REDNUM_OVERFLOW : Fld := ⟨DIST_REDNUM, 31, 16⟩
def DIST_REDNUM_NAN_CREATED : Fld := ⟨DIST_REDNUM, 15, 0⟩

/-- MOD_COLL_WAIT_ARR (13). -/
def MOD_COLL_WAIT_ARR : Reg := ⟨112, 0x2300, 0x4, 1, 0, [⟨31, 0, .rc, 0⟩]⟩
def MOD_COLL_WAIT_ARR_UNITS : Fld := ⟨MOD_COLL_WAIT_ARR, 31, 0⟩

/-- MOD_COLL_WAIT_WIN (13). -/
def MOD_COLL_WAIT_WIN : Reg := ⟨113, 0x2304, 0x4, 1, 0, [⟨31, 0, .rc, 0⟩]⟩
def MOD_COLL_WAIT_WIN_UNITS : Fld := ⟨MOD_COLL_WAIT_WIN, 31, 0⟩

/-- MOD_COLL_WAIT_FLAG (13). -/
def MOD_COLL_WAIT_FLAG : Reg := ⟨114, 0x2308, 0x4, 1, 0, [⟨31, 0, .rc, 0⟩]⟩
def MOD_COLL_WAIT_FLAG_UNITS : Fld := ⟨MOD_COLL_WAIT_FLAG, 31, 0⟩

/-- MOD_COLL_LAST (13). -/
def MOD_COLL_LAST : Reg := ⟨115, 0x230c, 0x4, 1, 0, [⟨31, 16, .ro, 0⟩, ⟨15, 0, .ro, 0xffff⟩]⟩
def MOD_COLL_LAST_TAG : Fld := ⟨MOD_COLL_LAST, 31, 16⟩
def MOD_COLL_LAST_CHIP : Fld := ⟨MOD_COLL_LAST, 15, 0⟩

/-- MOD_COLL_OTHER (13). -/
def MOD_COLL_OTHER : Reg := ⟨116, 0x2310, 0x4, 1, 0, [⟨31, 0, .rc, 0⟩]⟩
def MOD_COLL_OTHER_UNITS : Fld := ⟨MOD_COLL_OTHER, 31, 0⟩

/-- MOD_COLL_CTL (13). -/
def MOD_COLL_CTL : Reg := ⟨117, 0x2314, 0x4, 1, 0, [⟨0, 0, .wo, 0⟩]⟩
def MOD_COLL_CTL_CLEAR : Fld := ⟨MOD_COLL_CTL, 0, 0⟩

/-- MOD_STRAG_INFO (13). -/
def MOD_STRAG_INFO : Reg := ⟨118, 0x2400, 0x10, 32, 0, [⟨31, 31, .ro, 0⟩, ⟨30, 30, .ro, 0⟩, ⟨29, 26, .ro, 0⟩, ⟨15, 0, .ro, 0⟩]⟩
def MOD_STRAG_INFO_VALID : Fld := ⟨MOD_STRAG_INFO, 31, 31⟩
def MOD_STRAG_INFO_PACE : Fld := ⟨MOD_STRAG_INFO, 30, 30⟩
def MOD_STRAG_INFO_VF : Fld := ⟨MOD_STRAG_INFO, 29, 26⟩
def MOD_STRAG_INFO_CHIP : Fld := ⟨MOD_STRAG_INFO, 15, 0⟩

/-- MOD_STRAG_UNITS (13). -/
def MOD_STRAG_UNITS : Reg := ⟨119, 0x2404, 0x10, 32, 0, [⟨31, 0, .rc, 0⟩]⟩
def MOD_STRAG_UNITS_UNITS : Fld := ⟨MOD_STRAG_UNITS, 31, 0⟩

/-- MOD_STRAG_PACED (13). -/
def MOD_STRAG_PACED : Reg := ⟨120, 0x2408, 0x10, 32, 0, [⟨31, 0, .rc, 0⟩]⟩
def MOD_STRAG_PACED_UNITS : Fld := ⟨MOD_STRAG_PACED, 31, 0⟩

/-- JNL_STATUS (14). -/
def JNL_STATUS : Reg := ⟨121, 0x2600, 0x4, 1, 0, [⟨31, 31, .ro, 0⟩, ⟨30, 30, .ro, 0⟩, ⟨29, 29, .w1c, 0⟩, ⟨28, 28, .ro, 0⟩, ⟨27, 27, .ro, 0⟩, ⟨11, 0, .ro, 0⟩]⟩
def JNL_STATUS_PFW_ACTIVE : Fld := ⟨JNL_STATUS, 31, 31⟩
def JNL_STATUS_REPLAY : Fld := ⟨JNL_STATUS, 30, 30⟩
def JNL_STATUS_MISMATCH : Fld := ⟨JNL_STATUS, 29, 29⟩
def JNL_STATUS_FULL : Fld := ⟨JNL_STATUS, 28, 28⟩
def JNL_STATUS_T3_DEGRADED : Fld := ⟨JNL_STATUS, 27, 27⟩
def JNL_STATUS_MISMATCH_OFF : Fld := ⟨JNL_STATUS, 11, 0⟩

/-- JNL_LAST_STEP (14). -/
def JNL_LAST_STEP : Reg := ⟨122, 0x2604, 0x4, 1, 0, [⟨31, 0, .ro, 0⟩]⟩
def JNL_LAST_STEP_STEP : Fld := ⟨JNL_LAST_STEP, 31, 0⟩

/-- JNL_REPLAY (14). -/
def JNL_REPLAY : Reg := ⟨123, 0x2608, 0x4, 1, 0, [⟨31, 31, .rw, 0⟩]⟩
def JNL_REPLAY_EN : Fld := ⟨JNL_REPLAY, 31, 31⟩

/-- JNL_IMG_STATUS (14). -/
def JNL_IMG_STATUS : Reg := ⟨124, 0x260c, 0x4, 1, 0, [⟨31, 29, .ro, 0⟩, ⟨28, 25, .ro, 0⟩, ⟨15, 8, .ro, 0⟩]⟩
def JNL_IMG_STATUS_STATE : Fld := ⟨JNL_IMG_STATUS, 31, 29⟩
def JNL_IMG_STATUS_CAUSE : Fld := ⟨JNL_IMG_STATUS, 28, 25⟩
def JNL_IMG_STATUS_SECTIONS : Fld := ⟨JNL_IMG_STATUS, 15, 8⟩

/-- JNL_IMG_CUR (14). -/
def JNL_IMG_CUR : Reg := ⟨125, 0x2610, 0x4, 1, 0, [⟨31, 0, .ro, 0⟩]⟩
def JNL_IMG_CUR_IMG_STEP : Fld := ⟨JNL_IMG_CUR, 31, 0⟩

/-- JNL_IMG_PREV (14). -/
def JNL_IMG_PREV : Reg := ⟨126, 0x2614, 0x4, 1, 0, [⟨31, 0, .ro, 0⟩]⟩
def JNL_IMG_PREV_IMG_STEP : Fld := ⟨JNL_IMG_PREV, 31, 0⟩

/-- JNL_FLASH (14). -/
def JNL_FLASH : Reg := ⟨127, 0x2618, 0x4, 1, 0, [⟨31, 24, .ro, 0⟩, ⟨23, 16, .ro, 0⟩, ⟨15, 0, .ro, 0⟩]⟩
def JNL_FLASH_WEAR_USER : Fld := ⟨JNL_FLASH, 31, 24⟩
def JNL_FLASH_WEAR_SLC : Fld := ⟨JNL_FLASH, 23, 16⟩
def JNL_FLASH_GROWN_BAD : Fld := ⟨JNL_FLASH, 15, 0⟩

/-- JNL_CNT (14). -/
def JNL_CNT : Reg := ⟨128, 0x261c, 0x4, 1, 0, [⟨31, 16, .rc, 0⟩, ⟨15, 0, .rc, 0⟩]⟩
def JNL_CNT_REFRESH : Fld := ⟨JNL_CNT, 31, 16⟩
def JNL_CNT_PFW : Fld := ⟨JNL_CNT, 15, 0⟩

/-- PWR_WREG (15). -/
def PWR_WREG : Reg := ⟨129, 0xa00000, 0x10, 80, 1, [⟨31, 28, .ro, 0⟩, ⟨27, 27, .ro, 0⟩, ⟨26, 26, .ro, 0⟩, ⟨25, 25, .ro, 0⟩, ⟨19, 12, .ro, 0x28⟩, ⟨4, 0, .ro, 0⟩]⟩
def PWR_WREG_FAILED_PHASES : Fld := ⟨PWR_WREG, 31, 28⟩
def PWR_WREG_SPARE_IN : Fld := ⟨PWR_WREG, 27, 27⟩
def PWR_WREG_CAPPED : Fld := ⟨PWR_WREG, 26, 26⟩
def PWR_WREG_DARK : Fld := ⟨PWR_WREG, 25, 25⟩
def PWR_WREG_LIMIT : Fld := ⟨PWR_WREG, 19, 12⟩
def PWR_WREG_TRIM : Fld := ⟨PWR_WREG, 4, 0⟩

/-- PWR_WCAP (15). -/
def PWR_WCAP : Reg := ⟨130, 0xa00004, 0x10, 80, 1, [⟨31, 0, .rc, 0⟩]⟩
def PWR_WCAP_CAP_CLOCKS : Fld := ⟨PWR_WCAP, 31, 0⟩

/-- PWR_SREG (15). -/
def PWR_SREG : Reg := ⟨131, 0xa10000, 0x10, 20, 0, [⟨31, 31, .ro, 1⟩, ⟨30, 30, .ro, 1⟩, ⟨29, 29, .ro, 0⟩, ⟨22, 20, .ro, 0⟩, ⟨18, 16, .ro, 0⟩, ⟨2, 0, .ro, 0⟩]⟩
def PWR_SREG_REG_A_OK : Fld := ⟨PWR_SREG, 31, 31⟩
def PWR_SREG_REG_B_OK : Fld := ⟨PWR_SREG, 30, 30⟩
def PWR_SREG_SINGLE : Fld := ⟨PWR_SREG, 29, 29⟩
def PWR_SREG_LOGICAL : Fld := ⟨PWR_SREG, 22, 20⟩
def PWR_SREG_NEXT_LOGICAL : Fld := ⟨PWR_SREG, 18, 16⟩
def PWR_SREG_SPARES : Fld := ⟨PWR_SREG, 2, 0⟩

/-- PWR_WAKE (15). -/
def PWR_WAKE : Reg := ⟨132, 0xa10004, 0x10, 20, 0, [⟨31, 16, .rc, 0⟩, ⟨15, 0, .rc, 0⟩]⟩
def PWR_WAKE_WAKE_DEFERRED : Fld := ⟨PWR_WAKE, 31, 16⟩
def PWR_WAKE_WAKE_BUBBLED : Fld := ⟨PWR_WAKE, 15, 0⟩

/-- PWR_CHAIN (15). -/
def PWR_CHAIN : Reg := ⟨133, 0x2700, 0x4, 1, 0, [⟨31, 31, .w1c, 0⟩, ⟨30, 30, .w1c, 0⟩, ⟨29, 29, .w1c, 0⟩, ⟨28, 28, .w1c, 0⟩, ⟨15, 0, .ro, 0⟩]⟩
def PWR_CHAIN_CORE_LIMIT : Fld := ⟨PWR_CHAIN, 31, 31⟩
def PWR_CHAIN_BUS_LIMIT : Fld := ⟨PWR_CHAIN, 30, 30⟩
def PWR_CHAIN_VBUS_LOW : Fld := ⟨PWR_CHAIN, 29, 29⟩
def PWR_CHAIN_HOLDUP_LOW : Fld := ⟨PWR_CHAIN, 28, 28⟩
def PWR_CHAIN_VIN_CORE_I : Fld := ⟨PWR_CHAIN, 15, 0⟩

/-- PWR_FRAME_STATUS (16). -/
def PWR_FRAME_STATUS : Reg := ⟨134, 0x2800, 0x4, 1, 0, [⟨31, 31, .ro, 1⟩, ⟨30, 30, .w1c, 0⟩, ⟨29, 29, .w1c, 0⟩, ⟨15, 8, .rc, 0⟩, ⟨7, 0, .rc, 0⟩]⟩
def PWR_FRAME_STATUS_SYNTH : Fld := ⟨PWR_FRAME_STATUS, 31, 31⟩
def PWR_FRAME_STATUS_LOST : Fld := ⟨PWR_FRAME_STATUS, 30, 30⟩
def PWR_FRAME_STATUS_JUMP : Fld := ⟨PWR_FRAME_STATUS, 29, 29⟩
def PWR_FRAME_STATUS_CRC_FAIL : Fld := ⟨PWR_FRAME_STATUS, 15, 8⟩
def PWR_FRAME_STATUS_RUNT : Fld := ⟨PWR_FRAME_STATUS, 7, 0⟩

/-- PWR_FRAME_NUM_LO (16). -/
def PWR_FRAME_NUM_LO : Reg := ⟨135, 0x2804, 0x4, 1, 0, [⟨31, 0, .ro, 0⟩]⟩
def PWR_FRAME_NUM_LO_FRAME_LO : Fld := ⟨PWR_FRAME_NUM_LO, 31, 0⟩

/-- PWR_FRAME_NUM_HI (16). -/
def PWR_FRAME_NUM_HI : Reg := ⟨136, 0x2808, 0x4, 1, 0, [⟨7, 0, .ro, 0⟩]⟩
def PWR_FRAME_NUM_HI_FRAME_HI : Fld := ⟨PWR_FRAME_NUM_HI, 7, 0⟩

/-- PWR_FRAME_PERIOD (16). -/
def PWR_FRAME_PERIOD : Reg := ⟨137, 0x280c, 0x4, 1, 0, [⟨31, 16, .rc, 0⟩, ⟨15, 0, .ro, 0x3e8⟩]⟩
def PWR_FRAME_PERIOD_SYNTH_CNT : Fld := ⟨PWR_FRAME_PERIOD, 31, 16⟩
def PWR_FRAME_PERIOD_PERIOD : Fld := ⟨PWR_FRAME_PERIOD, 15, 0⟩

/-- PWR_GRANT (16). -/
def PWR_GRANT : Reg := ⟨138, 0x2810, 0x4, 1, 0, [⟨31, 20, .ro, 0⟩, ⟨19, 8, .ro, 0⟩, ⟨7, 4, .ro, 0⟩]⟩
def PWR_GRANT_GRANT_EFF : Fld := ⟨PWR_GRANT, 31, 20⟩
def PWR_GRANT_GRANT_RX : Fld := ⟨PWR_GRANT, 19, 8⟩
def PWR_GRANT_FLAGS : Fld := ⟨PWR_GRANT, 7, 4⟩

/-- PWR_CTRL (16). -/
def PWR_CTRL : Reg := ⟨139, 0x2814, 0x4, 1, 0, [⟨31, 31, .rw, 0⟩, ⟨30, 30, .rw, 0⟩, ⟨29, 29, .rw, 0⟩, ⟨28, 28, .rw, 0⟩, ⟨27, 24, .rw, 0⟩, ⟨23, 20, .rw, 0⟩, ⟨19, 16, .rw, 0⟩, ⟨15, 8, .rw, 0⟩, ⟨7, 0, .rw, 0⟩]⟩
def PWR_CTRL_FIXED_EN : Fld := ⟨PWR_CTRL, 31, 31⟩
def PWR_CTRL_STEP_DOWN : Fld := ⟨PWR_CTRL, 30, 30⟩
def PWR_CTRL_PACE_FOLLOW : Fld := ⟨PWR_CTRL, 29, 29⟩
def PWR_CTRL_BOOST_EN : Fld := ⟨PWR_CTRL, 28, 28⟩
def PWR_CTRL_FIXED_POINT : Fld := ⟨PWR_CTRL, 27, 24⟩
def PWR_CTRL_PACE_REF : Fld := ⟨PWR_CTRL, 23, 20⟩
def PWR_CTRL_MAX_POINT : Fld := ⟨PWR_CTRL, 19, 16⟩
def PWR_CTRL_LOST_PCT : Fld := ⟨PWR_CTRL, 15, 8⟩
def PWR_CTRL_RAMP_DWELL : Fld := ⟨PWR_CTRL, 7, 0⟩

/-- PWR_VF (16). -/
def PWR_VF : Reg := ⟨140, 0x2818, 0x4, 1, 0, [⟨31, 28, .ro, 0⟩, ⟨27, 24, .ro, 0xb⟩, ⟨23, 20, .ro, 0xf⟩, ⟨19, 16, .ro, 0xb⟩, ⟨15, 15, .ro, 0⟩, ⟨14, 14, .ro, 0⟩, ⟨11, 6, .ro, 0⟩, ⟨3, 0, .ro, 0⟩]⟩
def PWR_VF_POINT : Fld := ⟨PWR_VF, 31, 28⟩
def PWR_VF_CEIL_THERM : Fld := ⟨PWR_VF, 27, 24⟩
def PWR_VF_CEIL_PACE : Fld := ⟨PWR_VF, 23, 20⟩
def PWR_VF_CEIL_POWER : Fld := ⟨PWR_VF, 19, 16⟩
def PWR_VF_FOLLOWING : Fld := ⟨PWR_VF, 15, 15⟩
def PWR_VF_EMERG : Fld := ⟨PWR_VF, 14, 14⟩
def PWR_VF_BUB_F : Fld := ⟨PWR_VF, 11, 6⟩
def PWR_VF_HINT_LEVEL : Fld := ⟨PWR_VF, 3, 0⟩

/-- PWR_POWER (16). -/
def PWR_POWER : Reg := ⟨141, 0x281c, 0x4, 1, 0, [⟨31, 16, .ro, 0⟩, ⟨15, 0, .ro, 0⟩]⟩
def PWR_POWER_MEAS : Fld := ⟨PWR_POWER, 31, 16⟩
def PWR_POWER_EST : Fld := ⟨PWR_POWER, 15, 0⟩

/-- PWR_EST (16). -/
def PWR_EST : Reg := ⟨142, 0x2820, 0x4, 1, 0, [⟨31, 31, .ro, 0⟩, ⟨30, 30, .w1c, 0⟩, ⟨15, 8, .ro, 0⟩, ⟨7, 0, .ro, 0x80⟩]⟩
def PWR_EST_DRIFT : Fld := ⟨PWR_EST, 31, 31⟩
def PWR_EST_DRIFT_SEEN : Fld := ⟨PWR_EST, 30, 30⟩
def PWR_EST_ERR : Fld := ⟨PWR_EST, 15, 8⟩
def PWR_EST_K : Fld := ⟨PWR_EST, 7, 0⟩

/-- PWR_ENV (16). -/
def PWR_ENV : Reg := ⟨143, 0x2824, 0x4, 1, 0, [⟨31, 31, .w1c, 0⟩, ⟨30, 30, .ro, 0⟩, ⟨23, 16, .rc, 0⟩, ⟨15, 0, .rc, 0⟩]⟩
def PWR_ENV_SHORT : Fld := ⟨PWR_ENV, 31, 31⟩
def PWR_ENV_SHORT_NOW : Fld := ⟨PWR_ENV, 30, 30⟩
def PWR_ENV_STEPDOWNS : Fld := ⟨PWR_ENV, 23, 16⟩
def PWR_ENV_OVER_FRAMES : Fld := ⟨PWR_ENV, 15, 0⟩

/-- PWR_JOB_E_LO (16). -/
def PWR_JOB_E_LO : Reg := ⟨144, 0x2828, 0x4, 1, 0, [⟨31, 0, .ro, 0⟩]⟩
def PWR_JOB_E_LO_MJ_LO : Fld := ⟨PWR_JOB_E_LO, 31, 0⟩

/-- PWR_JOB_E_HI (16). -/
def PWR_JOB_E_HI : Reg := ⟨145, 0x282c, 0x4, 1, 0, [⟨31, 0, .ro, 0⟩]⟩
def PWR_JOB_E_HI_MJ_HI : Fld := ⟨PWR_JOB_E_HI, 31, 0⟩

/-- PWR_PACE (16). -/
def PWR_PACE : Reg := ⟨146, 0x2830, 0x4, 1, 0, [⟨31, 16, .ro, 0x7ff⟩, ⟨10, 0, .ro, 0x7ff⟩]⟩
def PWR_PACE_NOTICE : Fld := ⟨PWR_PACE, 31, 16⟩
def PWR_PACE_R_MIN : Fld := ⟨PWR_PACE, 10, 0⟩

/-- PWR_EMERG (16). -/
def PWR_EMERG : Reg := ⟨147, 0x2834, 0x4, 1, 0, [⟨31, 28, .ro, 0⟩, ⟨15, 0, .rc, 0⟩]⟩
def PWR_EMERG_CAUSE : Fld := ⟨PWR_EMERG, 31, 28⟩
def PWR_EMERG_COUNT : Fld := ⟨PWR_EMERG, 15, 0⟩

/-- THM_STATUS (16). -/
def THM_STATUS : Reg := ⟨148, 0x2840, 0x4, 1, 0, [⟨31, 31, .w1c, 0⟩, ⟨30, 30, .w1c, 0⟩, ⟨29, 29, .ro, 0⟩, ⟨28, 28, .ro, 0⟩, ⟨27, 27, .ro, 0⟩, ⟨26, 26, .ro, 0⟩, ⟨11, 0, .ro, 0⟩]⟩
def THM_STATUS_WARN : Fld := ⟨THM_STATUS, 31, 31⟩
def THM_STATUS_COOLANT_DEGRADED : Fld := ⟨THM_STATUS, 30, 30⟩
def THM_STATUS_COOLANT_STOP : Fld := ⟨THM_STATUS, 29, 29⟩
def THM_STATUS_TRIP : Fld := ⟨THM_STATUS, 28, 28⟩
def THM_STATUS_SUSPECT_ANY : Fld := ⟨THM_STATUS, 27, 27⟩
def THM_STATUS_SENSOR_LOST : Fld := ⟨THM_STATUS, 26, 26⟩
def THM_STATUS_HOTTEST : Fld := ⟨THM_STATUS, 11, 0⟩

/-- THM_CFG (16). -/
def THM_CFG : Reg := ⟨149, 0x2844, 0x4, 1, 0, [⟨31, 16, .rw, 0x400⟩, ⟨15, 15, .rw, 1⟩, ⟨7, 0, .rw, 0x30⟩]⟩
def THM_CFG_ROT_MIN : Fld := ⟨THM_CFG, 31, 16⟩
def THM_CFG_ROT_EN : Fld := ⟨THM_CFG, 15, 15⟩
def THM_CFG_ROT_DELTA : Fld := ⟨THM_CFG, 7, 0⟩

/-- THM_STACK_T (16). -/
def THM_STACK_T : Reg := ⟨150, 0xa20000, 0x10, 20, 0, [⟨27, 16, .ro, 0⟩, ⟨11, 0, .ro, 0⟩]⟩
def THM_STACK_T_SENSOR_B : Fld := ⟨THM_STACK_T, 27, 16⟩
def THM_STACK_T_SENSOR_A : Fld := ⟨THM_STACK_T, 11, 0⟩

/-- THM_STACK_CTL (16). -/
def THM_STACK_CTL : Reg := ⟨151, 0xa20004, 0x10, 20, 0, [⟨31, 31, .ro, 0⟩, ⟨30, 30, .ro, 0⟩, ⟨29, 29, .ro, 0⟩, ⟨28, 28, .ro, 0⟩, ⟨23, 12, .ro, 0⟩, ⟨11, 0, .ro, 0⟩]⟩
def THM_STACK_CTL_SUSPECT : Fld := ⟨THM_STACK_CTL, 31, 31⟩
def THM_STACK_CTL_A_EXCL : Fld := ⟨THM_STACK_CTL, 30, 30⟩
def THM_STACK_CTL_B_EXCL : Fld := ⟨THM_STACK_CTL, 29, 29⟩
def THM_STACK_CTL_LOST : Fld := ⟨THM_STACK_CTL, 28, 28⟩
def THM_STACK_CTL_RATE : Fld := ⟨THM_STACK_CTL, 23, 12⟩
def THM_STACK_CTL_CONTROL : Fld := ⟨THM_STACK_CTL, 11, 0⟩

/-- THM_DIE_W01 (16). -/
def THM_DIE_W01 : Reg := ⟨152, 0xa20200, 0x10, 20, 0, [⟨27, 16, .ro, 0⟩, ⟨11, 0, .ro, 0⟩]⟩
def THM_DIE_W01_WS1 : Fld := ⟨THM_DIE_W01, 27, 16⟩
def THM_DIE_W01_WS0 : Fld := ⟨THM_DIE_W01, 11, 0⟩

/-- THM_DIE_W23 (16). -/
def THM_DIE_W23 : Reg := ⟨153, 0xa20204, 0x10, 20, 0, [⟨27, 16, .ro, 0⟩, ⟨11, 0, .ro, 0⟩]⟩
def THM_DIE_W23_WS3 : Fld := ⟨THM_DIE_W23, 27, 16⟩
def THM_DIE_W23_WS2 : Fld := ⟨THM_DIE_W23, 11, 0⟩

/-- THM_DIE_SQ (16). -/
def THM_DIE_SQ : Reg := ⟨154, 0xa20208, 0x10, 20, 0, [⟨31, 24, .rc, 0⟩, ⟨16, 16, .ro, 0⟩, ⟨15, 12, .ro, 0⟩, ⟨11, 0, .ro, 0⟩]⟩
def THM_DIE_SQ_ROTATIONS : Fld := ⟨THM_DIE_SQ, 31, 24⟩
def THM_DIE_SQ_SQ_EXCL : Fld := ⟨THM_DIE_SQ, 16, 16⟩
def THM_DIE_SQ_WS_EXCL : Fld := ⟨THM_DIE_SQ, 15, 12⟩
def THM_DIE_SQ_SQ : Fld := ⟨THM_DIE_SQ, 11, 0⟩

/-- PWR_WBUB (16). -/
def PWR_WBUB : Reg := ⟨155, 0xa40000, 0x10, 80, 1, [⟨31, 16, .rc, 0⟩, ⟨15, 0, .rc, 0⟩]⟩
def PWR_WBUB_BUB_L : Fld := ⟨PWR_WBUB, 31, 16⟩
def PWR_WBUB_BUB_F : Fld := ⟨PWR_WBUB, 15, 0⟩

/-- PWR_WBUB_LIFT (16). -/
def PWR_WBUB_LIFT : Reg := ⟨156, 0xa40004, 0x10, 80, 1, [⟨15, 0, .rc, 0⟩]⟩
def PWR_WBUB_LIFT_LIFTED : Fld := ⟨PWR_WBUB_LIFT, 15, 0⟩

/-- PWR_FBU_BYTES (16). -/
def PWR_FBU_BYTES : Reg := ⟨157, 0xa30000, 0x10, 8, 0, [⟨31, 0, .rw, 0⟩]⟩
def PWR_FBU_BYTES_BYTES : Fld := ⟨PWR_FBU_BYTES, 31, 0⟩

/-- PWR_FBU_LIM (16). -/
def PWR_FBU_LIM : Reg := ⟨158, 0xa30004, 0x10, 8, 0, [⟨31, 16, .rw, 0⟩, ⟨15, 0, .rw, 0⟩]⟩
def PWR_FBU_LIM_SLOTS : Fld := ⟨PWR_FBU_LIM, 31, 16⟩
def PWR_FBU_LIM_ENERGY : Fld := ⟨PWR_FBU_LIM, 15, 0⟩

/-- PWR_FBU_STAT (16). -/
def PWR_FBU_STAT : Reg := ⟨159, 0xa30008, 0x10, 8, 0, [⟨31, 16, .rc, 0⟩, ⟨15, 0, .ro, 0⟩]⟩
def PWR_FBU_STAT_EXHAUSTED : Fld := ⟨PWR_FBU_STAT, 31, 16⟩
def PWR_FBU_STAT_USED : Fld := ⟨PWR_FBU_STAT, 15, 0⟩

/-- WARD_PSTATE (17). -/
def WARD_PSTATE : Reg := ⟨160, 0xa50000, 0x20, 80, 1, [⟨31, 29, .ro, 0⟩, ⟨28, 26, .ro, 0⟩, ⟨25, 25, .ro, 0⟩, ⟨24, 24, .ro, 0⟩, ⟨23, 20, .ro, 0⟩, ⟨2, 0, .ro, 0⟩]⟩
def WARD_PSTATE_STATE : Fld := ⟨WARD_PSTATE, 31, 29⟩
def WARD_PSTATE_TARGET : Fld := ⟨WARD_PSTATE, 28, 26⟩
def WARD_PSTATE_WAKING : Fld := ⟨WARD_PSTATE, 25, 25⟩
def WARD_PSTATE_ENTERING : Fld := ⟨WARD_PSTATE, 24, 24⟩
def WARD_PSTATE_LIMITER : Fld := ⟨WARD_PSTATE, 23, 20⟩
def WARD_PSTATE_PHYS : Fld := ⟨WARD_PSTATE, 2, 0⟩

/-- WARD_VOTE_HOST (17). -/
def WARD_VOTE_HOST : Reg := ⟨161, 0xa50004, 0x20, 80, 1, [⟨2, 0, .rw, 4⟩]⟩
def WARD_VOTE_HOST_HOST : Fld := ⟨WARD_VOTE_HOST, 2, 0⟩

/-- WARD_RETMASK (17). -/
def WARD_RETMASK : Reg := ⟨162, 0xa50008, 0x20, 80, 1, [⟨11, 0, .rw, 0xfff⟩]⟩
def WARD_RETMASK_MASK : Fld := ⟨WARD_RETMASK, 11, 0⟩

/-- WARD_PCNT (17). -/
def WARD_PCNT : Reg := ⟨163, 0xa5000c, 0x20, 80, 1, [⟨31, 16, .rc, 0⟩, ⟨15, 0, .rc, 0⟩]⟩
def WARD_PCNT_REFUSED : Fld := ⟨WARD_PCNT, 31, 16⟩
def WARD_PCNT_ABORTED : Fld := ⟨WARD_PCNT, 15, 0⟩

/-- WARD_PLAST (17). -/
def WARD_PLAST : Reg := ⟨164, 0xa50010, 0x20, 80, 1, [⟨31, 28, .ro, 0⟩, ⟨27, 25, .ro, 0⟩, ⟨23, 20, .ro, 0⟩, ⟨19, 17, .ro, 0⟩]⟩
def WARD_PLAST_REF_CLIENT : Fld := ⟨WARD_PLAST, 31, 28⟩
def WARD_PLAST_REF_STATE : Fld := ⟨WARD_PLAST, 27, 25⟩
def WARD_PLAST_ABT_CLIENT : Fld := ⟨WARD_PLAST, 23, 20⟩
def WARD_PLAST_ABT_STATE : Fld := ⟨WARD_PLAST, 19, 17⟩

/-- WARD_CLKSTAT (17). -/
def WARD_CLKSTAT : Reg := ⟨165, 0xa50014, 0x20, 80, 1, [⟨31, 16, .rc, 0⟩, ⟨15, 0, .rc, 0⟩]⟩
def WARD_CLKSTAT_STRETCH : Fld := ⟨WARD_CLKSTAT, 31, 16⟩
def WARD_CLKSTAT_SLIPS : Fld := ⟨WARD_CLKSTAT, 15, 0⟩

/-- DIST_CLKSTAT (17). -/
def DIST_CLKSTAT : Reg := ⟨166, 0xa60000, 0x10, 20, 0, [⟨31, 16, .rc, 0⟩, ⟨15, 0, .rc, 0⟩]⟩
def DIST_CLKSTAT_STRETCH : Fld := ⟨DIST_CLKSTAT, 31, 16⟩
def DIST_CLKSTAT_SLIPS : Fld := ⟨DIST_CLKSTAT, 15, 0⟩

/-- DIST_XCAL (17). -/
def DIST_XCAL : Reg := ⟨167, 0xa60004, 0x10, 20, 0, [⟨15, 0, .rc, 0⟩]⟩
def DIST_XCAL_RECAL : Fld := ⟨DIST_XCAL, 15, 0⟩

/-- MOD_PSTATE (17). -/
def MOD_PSTATE : Reg := ⟨168, 0x2900, 0x4, 1, 0, [⟨31, 30, .ro, 0⟩, ⟨29, 28, .ro, 0⟩, ⟨27, 24, .ro, 0⟩, ⟨1, 0, .rw, 0⟩]⟩
def MOD_PSTATE_STATE : Fld := ⟨MOD_PSTATE, 31, 30⟩
def MOD_PSTATE_TARGET : Fld := ⟨MOD_PSTATE, 29, 28⟩
def MOD_PSTATE_LIMITER : Fld := ⟨MOD_PSTATE, 27, 24⟩
def MOD_PSTATE_HOST_VOTE : Fld := ⟨MOD_PSTATE, 1, 0⟩

/-- MOD_PCNT (17). -/
def MOD_PCNT : Reg := ⟨169, 0x2904, 0x4, 1, 0, [⟨31, 28, .ro, 0⟩, ⟨27, 24, .ro, 0⟩, ⟨23, 12, .rc, 0⟩, ⟨11, 0, .rc, 0⟩]⟩
def MOD_PCNT_REF_CLIENT : Fld := ⟨MOD_PCNT, 31, 28⟩
def MOD_PCNT_ABT_CLIENT : Fld := ⟨MOD_PCNT, 27, 24⟩
def MOD_PCNT_REFUSED : Fld := ⟨MOD_PCNT, 23, 12⟩
def MOD_PCNT_ABORTED : Fld := ⟨MOD_PCNT, 11, 0⟩

/-- PWR_SVOTE (17). -/
def PWR_SVOTE : Reg := ⟨170, 0x2908, 0x4, 1, 0, [⟨31, 29, .rw, 2⟩, ⟨28, 26, .rw, 3⟩, ⟨25, 23, .rw, 2⟩, ⟨22, 20, .rw, 3⟩, ⟨15, 0, .rw, 0x1000⟩]⟩
def PWR_SVOTE_L_WAIT : Fld := ⟨PWR_SVOTE, 31, 29⟩
def PWR_SVOTE_L_IDLE : Fld := ⟨PWR_SVOTE, 28, 26⟩
def PWR_SVOTE_F_WAIT : Fld := ⟨PWR_SVOTE, 25, 23⟩
def PWR_SVOTE_F_IDLE : Fld := ⟨PWR_SVOTE, 22, 20⟩
def PWR_SVOTE_HOLD : Fld := ⟨PWR_SVOTE, 15, 0⟩

/-- MOD_CLK (17). -/
def MOD_CLK : Reg := ⟨171, 0x290c, 0x4, 1, 0, [⟨31, 31, .w1c, 0⟩, ⟨30, 30, .ro, 0⟩, ⟨29, 29, .ro, 0⟩]⟩
def MOD_CLK_REFCLK_LOST : Fld := ⟨MOD_CLK, 31, 31⟩
def MOD_CLK_REFCLK_OK : Fld := ⟨MOD_CLK, 30, 30⟩
def MOD_CLK_CAL_DONE : Fld := ⟨MOD_CLK, 29, 29⟩

/-- MC_STATUS (18). -/
def MC_STATUS : Reg := ⟨172, 0x2a00, 0x4, 1, 0, [⟨31, 31, .ro, 0⟩, ⟨30, 30, .ro, 0⟩, ⟨29, 29, .ro, 0⟩, ⟨28, 28, .ro, 0⟩, ⟨27, 27, .ro, 0⟩, ⟨26, 26, .ro, 0⟩, ⟨25, 25, .ro, 0⟩, ⟨24, 23, .ro, 0⟩, ⟨22, 22, .ro, 0⟩, ⟨21, 21, .ro, 0⟩, ⟨15, 8, .ro, 0xff⟩]⟩
def MC_STATUS_READY : Fld := ⟨MC_STATUS, 31, 31⟩
def MC_STATUS_JOB : Fld := ⟨MC_STATUS, 30, 30⟩
def MC_STATUS_LONG_OP : Fld := ⟨MC_STATUS, 29, 29⟩
def MC_STATUS_BOOT_BANK : Fld := ⟨MC_STATUS, 28, 28⟩
def MC_STATUS_FALLBACK : Fld := ⟨MC_STATUS, 27, 27⟩
def MC_STATUS_ACT_PENDING : Fld := ⟨MC_STATUS, 26, 26⟩
def MC_STATUS_DEBUG : Fld := ⟨MC_STATUS, 25, 25⟩
def MC_STATUS_SEAL : Fld := ⟨MC_STATUS, 24, 23⟩
def MC_STATUS_LOOP_CLOSED : Fld := ⟨MC_STATUS, 22, 22⟩
def MC_STATUS_PRESENCE_OPEN : Fld := ⟨MC_STATUS, 21, 21⟩
def MC_STATUS_OVERLAY : Fld := ⟨MC_STATUS, 15, 8⟩

/-- MC_SEC (18). -/
def MC_SEC : Reg := ⟨173, 0x2a04, 0x4, 1, 0, [⟨31, 28, .ro, 0⟩, ⟨27, 24, .ro, 0⟩, ⟨23, 23, .ro, 0⟩, ⟨7, 0, .ro, 0⟩]⟩
def MC_SEC_SEAL_TRIPS : Fld := ⟨MC_SEC, 31, 28⟩
def MC_SEC_KEYS_VALID : Fld := ⟨MC_SEC, 27, 24⟩
def MC_SEC_KEYS_REFUSED : Fld := ⟨MC_SEC, 23, 23⟩
def MC_SEC_WINDOW_S : Fld := ⟨MC_SEC, 7, 0⟩

/-- MC_EVENT (18). -/
def MC_EVENT : Reg := ⟨174, 0x2a08, 0x4, 1, 0, [⟨31, 16, .ro, 0⟩, ⟨15, 0, .rc, 0⟩]⟩
def MC_EVENT_UNACKED : Fld := ⟨MC_EVENT, 31, 16⟩
def MC_EVENT_LOST : Fld := ⟨MC_EVENT, 15, 0⟩

/-- MC_PKT_CNT (18). -/
def MC_PKT_CNT : Reg := ⟨175, 0x2a0c, 0x4, 1, 0, [⟨31, 16, .rc, 0⟩, ⟨15, 0, .rc, 0⟩]⟩
def MC_PKT_CNT_CRC_FAIL : Fld := ⟨MC_PKT_CNT, 31, 16⟩
def MC_PKT_CNT_REFUSED : Fld := ⟨MC_PKT_CNT, 15, 0⟩

/-- MOD_IRQ_WATCH (19). -/
def MOD_IRQ_WATCH : Reg := ⟨176, 0xb00000, 0x10, 256, 0, [⟨31, 31, .rw, 0⟩, ⟨30, 30, .w1c, 0⟩, ⟨29, 23, .rw, 0⟩, ⟨15, 8, .rw, 0⟩]⟩
def MOD_IRQ_WATCH_EN : Fld := ⟨MOD_IRQ_WATCH, 31, 31⟩
def MOD_IRQ_WATCH_FIRED : Fld := ⟨MOD_IRQ_WATCH, 30, 30⟩
def MOD_IRQ_WATCH_WARD : Fld := ⟨MOD_IRQ_WATCH, 29, 23⟩
def MOD_IRQ_WATCH_FLAG : Fld := ⟨MOD_IRQ_WATCH, 15, 8⟩

/-- MOD_IRQ_DEST (19). -/
def MOD_IRQ_DEST : Reg := ⟨177, 0xb00004, 0x10, 256, 0, [⟨31, 16, .rw, 0⟩, ⟨15, 15, .rw, 0⟩, ⟨14, 14, .rw, 0⟩, ⟨13, 9, .rw, 0⟩, ⟨8, 0, .rw, 0⟩]⟩
def MOD_IRQ_DEST_TARGET : Fld := ⟨MOD_IRQ_DEST, 31, 16⟩
def MOD_IRQ_DEST_KIND : Fld := ⟨MOD_IRQ_DEST, 15, 15⟩
def MOD_IRQ_DEST_SFILE : Fld := ⟨MOD_IRQ_DEST, 14, 14⟩
def MOD_IRQ_DEST_DEST : Fld := ⟨MOD_IRQ_DEST, 13, 9⟩
def MOD_IRQ_DEST_IDENT : Fld := ⟨MOD_IRQ_DEST, 8, 0⟩

/-- MC_MBOX (19). -/
def MC_MBOX : Reg := ⟨178, 0x2a10, 0x4, 1, 0, [⟨31, 31, .wo, 0⟩, ⟨30, 30, .ro, 0⟩, ⟨29, 29, .w1c, 0⟩, ⟨28, 28, .w1c, 0⟩, ⟨12, 0, .rw, 0⟩]⟩
def MC_MBOX_GO : Fld := ⟨MC_MBOX, 31, 31⟩
def MC_MBOX_BUSY : Fld := ⟨MC_MBOX, 30, 30⟩
def MC_MBOX_DONE : Fld := ⟨MC_MBOX, 29, 29⟩
def MC_MBOX_REFUSED : Fld := ⟨MC_MBOX, 28, 28⟩
def MC_MBOX_LEN : Fld := ⟨MC_MBOX, 12, 0⟩

/-- MOD_HOST_CLK (19). -/
def MOD_HOST_CLK : Reg := ⟨179, 0x2b00, 0x4, 1, 0, [⟨31, 29, .rw, 4⟩, ⟨28, 26, .ro, 4⟩, ⟨25, 25, .ro, 0⟩, ⟨5, 0, .ro, 0⟩]⟩
def MOD_HOST_CLK_POINT : Fld := ⟨MOD_HOST_CLK, 31, 29⟩
def MOD_HOST_CLK_CURRENT : Fld := ⟨MOD_HOST_CLK, 28, 26⟩
def MOD_HOST_CLK_CHANGING : Fld := ⟨MOD_HOST_CLK, 25, 25⟩
def MOD_HOST_CLK_CORES : Fld := ⟨MOD_HOST_CLK, 5, 0⟩

/-- MOD_HOST_RUN (19). -/
def MOD_HOST_RUN : Reg := ⟨180, 0x2b04, 0x4, 1, 0, [⟨31, 0, .ro, 0⟩]⟩
def MOD_HOST_RUN_RUNNING : Fld := ⟨MOD_HOST_RUN, 31, 0⟩

/-- MOD_HOST_RELEASE (19). -/
def MOD_HOST_RELEASE : Reg := ⟨181, 0x2b08, 0x4, 1, 0, [⟨31, 0, .wo, 0⟩]⟩
def MOD_HOST_RELEASE_HART : Fld := ⟨MOD_HOST_RELEASE, 31, 0⟩

/-- MOD_PCIE_CFG (19). -/
def MOD_PCIE_CFG : Reg := ⟨182, 0x2b10, 0x4, 1, 0, [⟨31, 31, .rw, 0⟩, ⟨30, 30, .w1c, 0⟩, ⟨29, 29, .ro, 0⟩, ⟨8, 0, .rw, 0⟩]⟩
def MOD_PCIE_CFG_MODE : Fld := ⟨MOD_PCIE_CFG, 31, 31⟩
def MOD_PCIE_CFG_MODE_REFUSED : Fld := ⟨MOD_PCIE_CFG, 30, 30⟩
def MOD_PCIE_CFG_LINK_UP : Fld := ⟨MOD_PCIE_CFG, 29, 29⟩
def MOD_PCIE_CFG_MWIN : Fld := ⟨MOD_PCIE_CFG, 8, 0⟩

/-- MOD_BOOT_STATUS (20). -/
def MOD_BOOT_STATUS : Reg := ⟨183, 0x2c00, 0x4, 1, 0, [⟨31, 28, .ro, 0⟩, ⟨27, 27, .ro, 0⟩, ⟨15, 0, .ro, 0⟩]⟩
def MOD_BOOT_STATUS_STAGE : Fld := ⟨MOD_BOOT_STATUS, 31, 28⟩
def MOD_BOOT_STATUS_LATE : Fld := ⟨MOD_BOOT_STATUS, 27, 27⟩
def MOD_BOOT_STATUS_ELAPSED : Fld := ⟨MOD_BOOT_STATUS, 15, 0⟩

/-- MOD_SELFTEST (20). -/
def MOD_SELFTEST : Reg := ⟨184, 0x2c04, 0x4, 1, 0, [⟨31, 31, .ro, 0⟩, ⟨30, 30, .ro, 0⟩, ⟨29, 29, .ro, 0⟩, ⟨23, 16, .ro, 0⟩, ⟨15, 8, .ro, 0⟩]⟩
def MOD_SELFTEST_DONE : Fld := ⟨MOD_SELFTEST, 31, 31⟩
def MOD_SELFTEST_PASS : Fld := ⟨MOD_SELFTEST, 30, 30⟩
def MOD_SELFTEST_RUNNING : Fld := ⟨MOD_SELFTEST, 29, 29⟩
def MOD_SELFTEST_REPAIRS : Fld := ⟨MOD_SELFTEST, 23, 16⟩
def MOD_SELFTEST_FAILED : Fld := ⟨MOD_SELFTEST, 15, 8⟩

/-- MOD_FAILREC (20). -/
def MOD_FAILREC : Reg := ⟨185, 0x2c08, 0x4, 1, 0, [⟨31, 31, .ro, 0⟩, ⟨15, 8, .rc, 0⟩, ⟨7, 0, .ro, 0⟩]⟩
def MOD_FAILREC_SEALED : Fld := ⟨MOD_FAILREC, 31, 31⟩
def MOD_FAILREC_DROPPED : Fld := ⟨MOD_FAILREC, 15, 8⟩
def MOD_FAILREC_ENTRIES : Fld := ⟨MOD_FAILREC, 7, 0⟩

/-- MOD_RETURN (20). -/
def MOD_RETURN : Reg := ⟨186, 0x2c0c, 0x4, 1, 0, [⟨31, 31, .ro, 0⟩, ⟨30, 30, .ro, 0⟩]⟩
def MOD_RETURN_RETURN_READY : Fld := ⟨MOD_RETURN, 31, 31⟩
def MOD_RETURN_IN_PROGRESS : Fld := ⟨MOD_RETURN, 30, 30⟩

/-- WARD_RST (20). -/
def WARD_RST : Reg := ⟨187, 0xa80000, 0x10, 80, 1, [⟨31, 31, .wo, 0⟩, ⟨30, 30, .rw, 0⟩, ⟨29, 29, .ro, 0⟩, ⟨28, 28, .w1c, 0⟩, ⟨27, 27, .w1c, 0⟩, ⟨26, 24, .ro, 0⟩]⟩
def WARD_RST_START : Fld := ⟨WARD_RST, 31, 31⟩
def WARD_RST_TEST : Fld := ⟨WARD_RST, 30, 30⟩
def WARD_RST_BUSY : Fld := ⟨WARD_RST, 29, 29⟩
def WARD_RST_DONE : Fld := ⟨WARD_RST, 28, 28⟩
def WARD_RST_REFUSED : Fld := ⟨WARD_RST, 27, 27⟩
def WARD_RST_RESULT : Fld := ⟨WARD_RST, 26, 24⟩

/-- DIST_REPAIR (20). -/
def DIST_REPAIR : Reg := ⟨188, 0xa70000, 0x10, 20, 0, [⟨31, 29, .ro, 0⟩, ⟨28, 26, .ro, 0⟩, ⟨25, 23, .ro, 0⟩, ⟨22, 20, .ro, 0⟩, ⟨19, 15, .ro, 0⟩, ⟨14, 14, .ro, 0⟩, ⟨7, 0, .ro, 0⟩]⟩
def DIST_REPAIR_MAP3 : Fld := ⟨DIST_REPAIR, 31, 29⟩
def DIST_REPAIR_MAP2 : Fld := ⟨DIST_REPAIR, 28, 26⟩
def DIST_REPAIR_MAP1 : Fld := ⟨DIST_REPAIR, 25, 23⟩
def DIST_REPAIR_MAP0 : Fld := ⟨DIST_REPAIR, 22, 20⟩
def DIST_REPAIR_FAILED : Fld := ⟨DIST_REPAIR, 19, 15⟩
def DIST_REPAIR_SC_WAY : Fld := ⟨DIST_REPAIR, 14, 14⟩
def DIST_REPAIR_ROWS_USED : Fld := ⟨DIST_REPAIR, 7, 0⟩

/-- Every register, in the order of their numbers. -/
def regTable : List Reg := [
  MOD_KERF_SEED_LO, MOD_KERF_SEED_HI, MOD_KERF_STATUS, MOD_ACCUM_CFG, ME_SPILL,
  ME_STATUS, ME_NUMCNT, ME_BUSY, ME_SPILL_WAIT, ME_REPAIR,
  MOD_NUMERICS, MOD_SHADOW_CFG, MOD_SHADOW_GRP_CFG, MOD_SHADOW_GRP_CNT, MOD_SHADOW_HIST,
  MOD_UWR_DSQ, MOD_UWR_WSQ, MOD_UWR_RATIO, WARD_NCNT_FLUSH, WARD_NCNT_SAT,
  WARD_NCNT_ZBLK, WARD_NCNT_SBLK, WARD_NCNT_MISC, WARD_NCNT_FOLD, WARD_QCFG,
  WARD_QBIND, WARD_QPTR, WARD_QRESV, WARD_QSTAT, WARD_QWAIT,
  WARD_SCFG, WARD_SRING_LO, WARD_SRING_HI, WARD_SDBELL, WARD_SFETCH,
  WARD_SDONE, WARD_SSTAT, WARD_SSTEP, WARD_BOUND, WARD_FLAG,
  WARD_FSIG, WARD_FCFG, MOD_QUIESCE_CFG, MOD_STALL_STATUS, WARD_SFAULT,
  WARD_SFAULT_DETAIL, WARD_SFAULT_INDEX, WARD_SFAULT_FRAME, WARD_SBLOCK, WARD_SBLOCK_TAG,
  VE_STATUS, VE_NUMCNT, VE_BUSY, VE_KSCTL, VE_KSDIGEST,
  MOD_KSTORE_STATUS, MOD_GBIN_TENSOR, MOD_GBIN_CFG, MOD_GBIN_STAT, MOD_SCHED_BASE_LO,
  MOD_SCHED_BASE_HI, MOD_SCHED_CFG, UE_STATUS, UE_NUMCNT, UE_BUSY,
  UE_ZERO, UE_CLIP, UE_ACC, MOD_T2SLOT_RANGE, MOD_T2SLOT_CTL,
  MOD_T2SLOT_USE, MOD_PPOOL_BASE_LO, MOD_PPOOL_BASE_HI, MOD_PPOOL_CFG, MOD_PPOOL_OP,
  MOD_PPOOL_RESULT, MOD_PPOOL_VICTIM, MOD_PPOOL_CNT, MOD_PPOOL_FREE, MOD_T1_CFG,
  MOD_SCRUB_STATUS, WARD_STALL_MEM, WARD_STALL_NET, WARD_STALL_ERR, MOD_UE_INFO,
  MOD_UE_ADDR_LO, MOD_UE_ADDR_HI, DIST_SC_CNT, DIST_MEM_ERR, DIST_PIN,
  DIST_ATOMIC, MOD_T2_DEV, FAB_ROUTE, FAB_CHIP, FAB_SLICE,
  FAB_CFG, FAB_REFUSE, FAB_DROP, FAB_LAST_REFUSAL, FAB_PORT_STATUS,
  FAB_PORT_FEC, FAB_PORT_RETRY, FAB_PORT_V2, FAB_NBR_ID_LO, FAB_NBR_ID_HI,
  FAB_NBR_INFO, FAB_NBR_CHIP, WARD_QARR_CFG, WARD_QARR_BASE_LO, WARD_QARR_BASE_HI,
  WARD_QARR_STAT, DIST_REDNUM, MOD_COLL_WAIT_ARR, MOD_COLL_WAIT_WIN, MOD_COLL_WAIT_FLAG,
  MOD_COLL_LAST, MOD_COLL_OTHER, MOD_COLL_CTL, MOD_STRAG_INFO, MOD_STRAG_UNITS,
  MOD_STRAG_PACED, JNL_STATUS, JNL_LAST_STEP, JNL_REPLAY, JNL_IMG_STATUS,
  JNL_IMG_CUR, JNL_IMG_PREV, JNL_FLASH, JNL_CNT, PWR_WREG,
  PWR_WCAP, PWR_SREG, PWR_WAKE, PWR_CHAIN, PWR_FRAME_STATUS,
  PWR_FRAME_NUM_LO, PWR_FRAME_NUM_HI, PWR_FRAME_PERIOD, PWR_GRANT, PWR_CTRL,
  PWR_VF, PWR_POWER, PWR_EST, PWR_ENV, PWR_JOB_E_LO,
  PWR_JOB_E_HI, PWR_PACE, PWR_EMERG, THM_STATUS, THM_CFG,
  THM_STACK_T, THM_STACK_CTL, THM_DIE_W01, THM_DIE_W23, THM_DIE_SQ,
  PWR_WBUB, PWR_WBUB_LIFT, PWR_FBU_BYTES, PWR_FBU_LIM, PWR_FBU_STAT,
  WARD_PSTATE, WARD_VOTE_HOST, WARD_RETMASK, WARD_PCNT, WARD_PLAST,
  WARD_CLKSTAT, DIST_CLKSTAT, DIST_XCAL, MOD_PSTATE, MOD_PCNT,
  PWR_SVOTE, MOD_CLK, MC_STATUS, MC_SEC, MC_EVENT,
  MC_PKT_CNT, MOD_IRQ_WATCH, MOD_IRQ_DEST, MC_MBOX, MOD_HOST_CLK,
  MOD_HOST_RUN, MOD_HOST_RELEASE, MOD_PCIE_CFG, MOD_BOOT_STATUS, MOD_SELFTEST,
  MOD_FAILREC, MOD_RETURN, WARD_RST, DIST_REPAIR]

/-- What a key of the register map reads as before anything is written: its register's reset word. -/
def regReset (k : Nat) : Word := ((regTable[k / 2 ^ 20]?).map Reg.resetWord).getD 0

/-- Whether offset off is instance i of r. -/
def Reg.indexOf (r : Reg) (off : Nat) : Option Nat :=
  if off < r.base then none
  else if r.stride = 0 then
    let d := off - r.base
    if d % 0x40 < 0x20 ∧ d % 4 = 0 ∧ d / 0x40 < 256 then some (8 * (d / 0x40) + d % 0x40 / 4) else none
  else
    let d := off - r.base
    if d % r.stride = 0 ∧ d / r.stride < r.count then some (d / r.stride) else none

/-- The register and instance at an offset of a list of registers. -/
def regFind : List Reg → Nat → Option (Reg × Nat)
  | [], _ => none
  | r :: rs, off =>
    match r.indexOf off with
    | some i => some (r, i)
    | none => regFind rs off

/-- The register and instance at a control-space offset, none for a reserved or memory offset. -/
def regAt (off : Nat) : Option (Reg × Nat) := regFind regTable off

end Sys2Proof.Machine
end

