-- ==== Sys2Proof/Machine/ResetValues.lean ====
section
/-!
DEFINITION. Register values after cold start that are no constant of a register table: the fused ward counts (15, R382),
the journal's registers of an empty flash (14), and the registers that the base configuration sets (16, R416; 18, R454, R455).
-/

namespace Sys2Proof.Machine

/-- The configuration items and their base defaults (18, R454; 16, R415). -/
def baseDefaults : List (Nat × Nat) :=
  [(0x0001, 300), (0x0002, 0x155B3C10), (0x0003, 0x28), (0x0004, 0x04008030), (0x0005, 0x4D301000), (0x0006, 2),
   (0x0007, 0x102),
   (0x0100, 65536), (0x0101, 0), (0x0102, 20),
   (0x0110, 8388608), (0x0111, 0), (0x0112, 30),
   (0x0120, 1048576), (0x0121, 64), (0x0122, 50),
   (0x0130, 4194304), (0x0131, 0), (0x0132, 30),
   (0x0140, 65536), (0x0141, 0), (0x0142, 5),
   (0x0150, 4194304), (0x0151, 32), (0x0152, 60),
   (0x0160, 16777216), (0x0161, 256), (0x0162, 100),
   (0x0200, 0), (0x0201, 256), (0x0300, 0), (0x0301, 24), (0x0302, 0), (0x0303, 0)]

/-- The standard contents of overlays 0 to 4 (18, R456); overlays 5 to 15 are empty. -/
def stdOverlays : List (Nat × List (Nat × Nat)) :=
  [(0, [(0x0002, 0x355B3C10), (0x0003, 0x28)]),
   (1, [(0x0002, 0x155B3C10), (0x0003, 0x08), (0x0150, 0), (0x0151, 0), (0x0160, 0), (0x0161, 0), (0x0162, 0)]),
   (2, [(0x0002, 0xD55B3C10)]),
   (3, [(0x0002, 0x25333C10), (0x0003, 0x08), (0x0150, 1048576)]),
   (4, [(0x0003, 0x24), (0x0160, 67108864), (0x0161, 1024), (0x0162, 400), (0x0007, 0x101)])]

/-- An item's value in a list of items. -/
def itemIn : List (Nat × Nat) → Nat → Option Nat
  | [], _ => none
  | (k, v) :: xs, i => if k = i then some v else itemIn xs i

/-- The base value of an item: stored, else its default. -/
def baseItem (stored : List (Nat × Nat)) (i : Nat) : Nat := (itemIn stored i).getD ((itemIn baseDefaults i).getD 0)

/-- The registers that configuration items set, given the items' values (18, R454). -/
def itemRegs (v : Nat → Nat) : List (Nat × Word) :=
  [(PWR_CTRL.key 0, BitVec.ofNat 32 (v 2)), (MOD_SHADOW_CFG.key 0, BitVec.ofNat 32 (v 3)), (THM_CFG.key 0, BitVec.ofNat 32 (v 4)),
   (PWR_SVOTE.key 0, BitVec.ofNat 32 (v 5)), (FAB_CFG.key 0, BitVec.ofNat 32 (v 6)), (MOD_QUIESCE_CFG.key 0, BitVec.ofNat 32 (v 7))] ++
  (below 7).flatMap (fun a =>
    [(PWR_FBU_BYTES.key a, BitVec.ofNat 32 (v (0x100 + 16 * a))),
     (PWR_FBU_LIM.key a, BitVec.ofNat 32 (v (0x101 + 16 * a) * 2 ^ 16 + v (0x102 + 16 * a) % 2 ^ 16))])

/-- The registers after cold start: every one at its table's value but those that fuses and the base
configuration set. `map` holds the logical wards of each district and `spare` its spare positions. -/
def initRegs (map : List Nat) (stored : List (Nat × Nat)) : SMap Word :=
  let words := itemRegs (baseItem stored) ++
    [(JNL_LAST_STEP.key 0, 0xFFFFFFFF), (JNL_IMG_CUR.key 0, 0xFFFFFFFF), (JNL_IMG_PREV.key 0, 0xFFFFFFFF)] ++
    [(PWR_GRANT.key 0, BitVec.ofNat 32 (baseItem stored 1 * 2 ^ 20))] ++
    (below 20).map (fun d => (PWR_SREG.key d, BitVec.ofNat 32 (0xC0000000 + nth map d 0 * 2 ^ 20 + nth map d 0 * 2 ^ 16)))
  words.foldl (fun m p => sset (regReset p.1) m p.1 p.2) []

end Sys2Proof.Machine
end

