-- ==== Sys2Proof/Machine/State.lean ====
section
/-!
DEFINITION. The state of the block, as plain data: the queue of waiting commands, the registers of the control space,
memory, and for every unit of the module what the manual gives it beside its registers. A table with one entry
per stream, queue, ward, port and so on is a sparse map whose unlisted entries read as the entry's default value.
-/

namespace Sys2Proof.Machine

/-- The block never stops with a fault: the manual's stream faults, refusals and error replies are states. The one
reason stands for a machine that has lost its power input and is given by no command; it is raised by none. Safe. -/
inductive Fault where
  | none
deriving DecidableEq, Repr

/-- Why a command has no meaning. `notModelled`: raised by exec's refused arms; safe. -/
inductive Refusal where
  | notModelled (mnemonic : String)
deriving DecidableEq, Repr

/-! ### Queues, streams, loaded commands (05, 06) -/

/-- A slot header (05, R122): MARKS is bit 7 VALID, 6 TRUNCATED, 5 RESCUED, 4 SAT_ANY, 3 ZEROED_ANY, 2 NAN_ANY,
1 TRANSPOSED. -/
structure Hdr where
  rowLen   : Nat := 0
  ptag     : Nat := 0
  marks    : Nat := 0
  fmt      : Nat := 0
  rows     : Nat := 0
  cols     : Nat := 0
  elemBase : Nat := 0
deriving DecidableEq, Repr

/-- A tile that fills a reserved sequence number and is not yet visible (05, R124); a placeholder's data is zero
(06, R172). -/
structure Pushed where
  hdr         : Hdr
  placeholder : Bool
deriving DecidableEq, Repr

/-- What a queue holds beside its registers: its sequence numbers, which WARD_QPTR and WARD_QRESV show modulo 2^16, pushed tiles waiting for lower sequence numbers, and popped numbers
above HEAD (05, R124; 06, R154). -/
structure QueueRt where
  head     : Nat := 0
  tail     : Nat := 0
  resvPop  : Nat := 0
  resvPush : Nat := 0
  pushed : List (Nat × Pushed) := []
  freed  : List Nat := []
deriving DecidableEq, Repr

/-- Where a loaded command stands (05, R132, R134). -/
inductive Phase where
  | loaded | issued | complete
deriving DecidableEq, Repr

/-- A command from its load to its retirement: its words and its descriptor as copied at load (06, R150), the load
fault it holds until its turn to issue (05, R132), and what its walk has done since issue: the bounds read at
issue (06, R159), the first sequence number, the reservation and the pops of each input end, the first number, the
reservation and the fills of each output end, and the iterations done. `slot` is the Tier 2 slot it counts in (10, R252). `stopping` marks a command that stops at the end of its output tile (06, R171). `aux` counts what an opcode counts
itself: acknowledgements outstanding, the invocation of a VOP, the round of a REDUCE. -/
structure Cmd where
  num     : Nat := 0
  w0      : Word64 := 0
  w1      : Word64 := 0
  w2      : Word64 := 0
  w3      : Word64 := 0
  desc    : List Word64 := []
  step    : Nat := 0
  fault   : Option (Nat × Nat) := none
  phase   : Phase := .loaded
  bounds  : List Nat := []
  inBase  : List Nat := []
  inRes   : List Nat := []
  inPop   : List Nat := []
  outBase : List Nat := []
  outRes  : List Nat := []
  outFill : List Nat := []
  iter    : Nat := 0
  aux     : Nat := 0
  ext     : List Nat := []
  stopping : Bool := false
  slot     : Option Nat := none
deriving DecidableEq, Repr

/-- The base state of a stream; IDLE, RUNNING and WAITING are views of `enabled` (05, WARD_SSTAT). -/
inductive StreamSt where
  | disabled | enabled | aborting | faulting | faulted | aborted
deriving DecidableEq, Repr

/-- How an abort was requested (06, R169): by a packet, by EN = 0, by unassigning the job. -/
inductive AbortBy where
  | packet | enClear | unassign
deriving DecidableEq, Repr

/-- An abort accepted with work outstanding: how it ends, the frame pulses since, the commands discarded, removed
or stopped, and the tiles marked TRUNCATED (06, R170, R173). -/
structure AbortRun where
  toDisabled : Bool
  pulses     : Nat
  cmds       : Nat
  trunc      : Nat
deriving DecidableEq, Repr

/-- A window entry of a stream (13, R324): the destination queue, NEXT_REL, and the rounds sent and not yet released. -/
structure Window where
  chip    : Nat
  ward    : Nat
  queue   : Nat
  nextRel : Nat
  sent    : List Nat := []
deriving DecidableEq, Repr

/-- A stream's state beside its registers. `lastAbort`, `repCmds` and `repTrunc` are the status the last abort request
received; `vote` the ward vote in effect, 5 for none, `judged` the vote against which its next change counts as deeper (17, R424, R425). -/
structure Stream where
  st        : StreamSt := .disabled
  avail     : Nat := 0
  cmds      : List Cmd := []
  waitPulse : Nat := 0
  req       : List AbortBy := []
  abort     : Option AbortRun := none
  lastAbort : Nat := 0
  lateAck   : Nat := 0
  repCmds   : Nat := 0
  repTrunc  : Nat := 0
  vote      : Nat := 5
  judged    : Nat := 5
  windows   : List Window := []
deriving DecidableEq, Repr

/-! ### Engines (03, 07, 09) -/

/-- An open output tile of an ME: products applied, the FP32 partials of the chunk in progress ([] between chunks),
the open integer run of each element under INT32 accumulation (sum of code products and the pair of scales), and
the E48 running sum of each element once it has one (03, R69, R73). Elements row-major. -/
structure OpenTile where
  k    : Nat := 0
  part : List Nat := []
  runs : List (Int × Nat × Nat) := []
  sum  : List (Option Nat) := []
deriving DecidableEq, Repr

/-- An ME in progress: its open tiles by position in the open set, the handover waiting in the drain latch (position
and FP32 partials), whether the spill need has been checked, ME_SPILL as it read at the command's start, finished tiles in their final drain (03, R75, R77,
R78), and the reference sums in E48 of the output tiles picked for a shadow check (04, R107, R108). -/
structure MeRt where
  tiles   : List (Nat × OpenTile) := []
  latch   : Option (Nat × List Nat) := none
  checked : Bool := false
  spill   : Word := 0
  out     : List (Hdr × List Byte) := []
  picked  : List (Nat × List Nat) := []
deriving DecidableEq, Repr

/-- A VE invocation in progress: registers of 256 lanes of 32 bits (VR), scalar registers (XS), program counter,
instructions executed, staging tiles of the two output ends, pushes done (07, R179, R183, R185). A register not
listed holds +0. -/
structure VeRt where
  active : Bool := false
  stream : Nat := 0
  num    : Nat := 0
  vr     : List (Nat × List Nat) := []
  xs     : List (Nat × Nat) := []
  pc     : Nat := 0
  count  : Nat := 0
  stage0 : List (Nat × List Nat) := []
  stage1 : List (Nat × List Nat) := []
  push0  : Nat := 0
  push1  : Nat := 0
deriving DecidableEq, Repr

/-- A run of a factored apply between its passes: its column factors k, the clip factor, whether every live gradient
is zero, the row statistics as stored, each row's scale h (none where its statistic is +0), and the tiles its second
pass has done (09, R230). -/
structure UeRun where
  cols    : List Nat := []
  kappa   : Nat := 0
  allzero : Bool := false
  rowStat : List Nat := []
  hs      : List (Option Nat) := []
  done    : Nat := 0
deriving DecidableEq, Repr

/-- A UE: the column accumulator (sums, counts, racc, nrows; 09, R233), the schedule values of the command in progress
(eta, lambda, beta1, beta2, clip; 09, R241), its run after its first pass, and the terms of its
update-to-weight sums so far: element index, squared change and squared prior weight (04, R112). -/
structure UeRt where
  sacc  : List (Nat × Nat) := []
  nacc  : List (Nat × Nat) := []
  racc  : Nat := 0
  nrows : Nat := 0
  sched : List Nat := []
  run   : Option UeRun := none
  terms : List (Nat × Nat × Nat) := []
deriving DecidableEq, Repr

/-- A shadow sample whose tile is finished: its ward, tag and step, and the FP32 results of the command and of the shadow (04, R108, R109). -/
structure Sample where
  ward  : Nat
  tag   : Nat
  step  : Nat
  y     : List Nat
  r     : List Nat
deriving DecidableEq, Repr

/-! ### The watch (04) -/

/-- One UPDATE's contribution to a watch index: step, index, tensor, first element, and the two E48 sums
(04, R112). -/
structure UwrItem where
  step   : Nat
  index  : Nat
  tensor : Nat
  first  : Nat
  dsq    : Nat
  wsq    : Nat
deriving DecidableEq, Repr

/-- The step totals of a step index: the eight narrow-format counters in the order of 04's registers (flushed,
saturated, block zeroed, zero block, rescue, block saturated, NaN block, code reserved), CNT_OVERFLOW and
CNT_NAN_CREATED (04, R115). -/
structure StepTotals where
  flushed : Nat := 0
  sat     : Nat := 0
  zeroed  : Nat := 0
  zblk    : Nat := 0
  rescue  : Nat := 0
  satblk  : Nat := 0
  nanblk  : Nat := 0
  codeRes : Nat := 0
  ovf     : Nat := 0
  nanc    : Nat := 0
deriving DecidableEq, Repr

/-- The numerics watch: contributions not yet journalled, totals by step index, the step indices whose JOURNAL
has issued in this job (04, R113, R115), and the state digests by step index, 16 slots each (14, R346). -/
structure Watch where
  items     : List UwrItem := []
  totals    : List (Nat × StepTotals) := []
  journaled : List Nat := []
  digests   : List (Nat × List Nat) := []
deriving DecidableEq, Repr
/-! ### Management controller, stores and records (18, 20) -/

/-- A telemetry event record (18, R453). -/
structure Event where
  seq   : Nat
  frame : Nat
  synth : Bool
  code  : Nat
  tag   : Nat
  unit  : Nat
  d0    : Nat
  d1    : Nat
deriving DecidableEq, Repr

/-- A failure-record entry without its CRC, which is computed when the entry is read (20, R503). -/
structure FailEntry where
  eseq    : Nat
  frame   : Nat
  flags   : Nat
  kind    : Nat
  tag     : Nat
  unit    : Nat
  code    : Nat
  detail  : Nat
  job     : Nat
  step    : Nat
  power   : Nat
  point   : Nat
  stackT  : Nat
  dieT    : Nat
  colds   : Nat
  resets  : Nat
  uncorr  : Nat
  grown   : Nat
  fwRev   : Nat
deriving DecidableEq, Repr

/-- The failure record in the configuration store: a ring of 64 entries, newest first, the count written since its
first formatting, whether it is sealed, and how many stream faults this frame has written (20, R502, R504). -/
structure FailRec where
  entries : List FailEntry := []
  eseq    : Nat := 0
  closed  : Bool := false
  faults  : Nat := 0
deriving DecidableEq, Repr

/-- A repair or a failed unit of the field repair list (20, R493): district, physical position, unit code of the
entry-kind table, whether the unit failed (else it was repaired), and the place in it. -/
structure Repair where
  district : Nat
  pos      : Nat
  unit     : Nat
  failed   : Bool
  loc      : Nat := 0
deriving DecidableEq, Repr

/-- Fuses (18, R449, R463; 20, R496, R501): module identity, grade in logical wards, fused logical wards of each
district, stepping, fibre, enterprise number, key digest, least security version, seal trips, attestation, and the repairs and failed
units found at test (03, R86; 20, R500). -/
structure Fuses where
  identity   : Nat := 1
  grade      : Nat := 80
  map        : List Nat := List.replicate 20 4
  stepping   : Nat := 0
  fibre      : Nat := 0
  enterprise : Nat := 0
  keyDigest  : List Byte := []
  secverMin  : Nat := 0
  sealTrips  : Nat := 0
  attest     : Bool := true
  found      : List Repair := []
deriving DecidableEq, Repr

/-- Lifetime totals (18, R449; 20, R503). -/
structure Lifetime where
  frames   : Nat := 0
  colds    : Nat := 0
  resets   : Nat := 0
  pfws     : Nat := 0
  trips    : Nat := 0
  energy   : Nat := 0
  uncorr   : Nat := 0
deriving DecidableEq, Repr

/-- A boot bank (18, R463 to R466): its image's header and body, its activation count, and its state: 0 empty,
1 staging, 2 verified, 3 activation pending, 4 invalid. `maker` marks the image that a module is delivered with: it passes every check, and
its bytes are not given. -/
structure Bank where
  image      : SMap Byte := []
  length     : Nat := 0
  rev        : Nat := 0
  secver     : Nat := 0
  activation : Option Nat := none
  standing   : Nat := 0
  maker      : Bool := false
deriving DecidableEq, Repr

/-- What a record of the configuration store that waits to be programmed holds (14, R360): a failure-record entry, an entry of the bad-block
table, one of the field repair list, a packet's change, or another of the module's own. -/
inductive StoreRec where
  | entry
  | block
  | repair
  | packet
  | own
deriving DecidableEq, Repr

/-- The stored configuration and security state (18, R454 to R467; 20, R496). An overlay holds its items; base items not
listed read their defaults. -/
structure Store where
  base        : List (Nat × Nat) := []
  overlays    : List (Nat × List (Nat × Nat)) := stdOverlays
  keys        : List (Nat × List Byte) := []
  policy      : Option (List Byte) := none
  fail        : FailRec := {}
  repairs     : List Repair := []
  returnReady : Bool := false
  /-- the generation in each half's valid switch record, the records that the half in use holds, what its compaction has still to copy, and the
  changes that wait to be programmed, oldest first (14, R360) -/
  gens        : List (Option Nat) := [some 0, none]
  recs        : Nat := 0
  compact     : Option Nat := none
  queue       : List StoreRec := []
  /-- the bad-block table, and whether the factory marks have been read into it (14, R339) -/
  bad         : List Nat := []
  marked      : Bool := false
  /-- a SECURE_ERASE or PREPARE_RETURN that a power loss or reset interrupted, to resume (20, R489) -/
  resume      : Option Nat := none
deriving DecidableEq, Repr

/-- An abort, unassignment or other packet whose reply waits for streams to become final (18, R447, R451):
its source, its request, the streams it waits for and their statuses so far. -/
structure Waiting where
  source  : Nat × Nat
  request : List Byte
  streams : List Nat
  done    : List (Nat × Nat)
  reset   : Bool := false
deriving DecidableEq, Repr

/-- A kept reply (18, R446). -/
structure Kept where
  source : Nat × Nat
  seq    : Nat
  crc    : Nat
  reply  : List Byte
deriving DecidableEq, Repr

/-- The management controller's own state (18): job identifier, long operation in progress with the last one's
opcode and status, bring-up stages still to end, whether this bring-up has raised DISCOVERY_DONE, why the module cannot take a job, boot recovery, pending
overlay, whether RESET_N is asserted, whether a maker test mode has been entered since cold start, whether the job has opened a step boundary by MARK (01, R32), register writes that wait for the next step boundary (key, word), seal checks in a row found open, PRESENCE_N asserted, the
milliseconds left to the presence window after it, the event ring, its replies, the packet whose change waits to be stored (14, R360), and the packets that wait behind an unassignment.
A source is a transport (0 SMBus, 1 PCIe, 2 Ethernet, 3 mailbox) and a number on it. -/
structure Mc where
  job       : Nat := 0
  longOp    : Option Nat := none
  longParam : Nat := 0
  lastOp    : Nat := 0
  lastStat  : Nat := 0
  stages    : List Nat := []
  reported  : Bool := false
  isCold    : Bool := true
  reasons   : List Nat := []
  recovery  : Bool := false
  nextOvl   : Option Nat := none
  held      : Bool := false
  maker     : Bool := false
  marked    : Bool := false
  stepRegs  : List (Nat × Word) := []
  sealOpen  : Nat := 0
  present   : Bool := false
  windowMs  : Nat := 0
  events    : List Event := []
  evseq     : Nat := 0
  acked     : Nat := 0
  kept      : List Kept := []
  waiting   : List Waiting := []
  replies   : List ((Nat × Nat) × List Byte) := []
  inbox     : List ((Nat × Nat) × List Byte) := []
  storing   : Option ((Nat × Nat) × List Byte) := none
  eids      : List (Nat × Nat) := []
deriving DecidableEq, Repr
/-! ### Power delivery, wards and districts (15, 17) -/

/-- A physical ward (15, R370, R379; 17, R417, R426): power state code (0 ACTIVE, 1 IDLE, 2 NAP, 3 RETAIN, 4 OFF), the
entry in progress and whether its clamps have engaged, the client of an event held since then, the banks kept, the
requested wake's client, whether it has been deferred, the pulses since, the wake stage in
progress (1 to 4; 5 is crossing restore and zero-fill), an exit from NAP in progress, failed phases, a
spare-phase swap in progress, the regulator's trim in mV, whether the ward reset in progress runs the self-test (20, R498), and the state
whose refusal has been counted for the votes as they stand (17, R425). -/
structure PWard where
  st      : Nat := 0
  enter   : Option Nat := none
  clamped : Bool := false
  held    : Option Nat := none
  kept    : Nat := 0xFFF
  wakeBy  : Option Nat := none
  late    : Bool := false
  pulses  : Nat := 0
  stage   : Nat := 0
  napExit : Bool := false
  phases  : Nat := 0
  swap    : Bool := false
  trim    : Nat := 0
  test    : Bool := false
  refused : Nat := 0
deriving DecidableEq, Repr

/-- A district (15, R373, R376; 16, R410; 17, R419): physical position and context bank of each logical index (7: none),
takeovers waiting for a step boundary (logical index, position), the rotation pre-woken (index, position),
consecutive frames past ROT_DELTA, frames since the last rotation, a hold for a late wake, and the square's
lost regulators. -/
structure Dist where
  map    : List Nat := [0, 1, 2, 3]
  banks  : List Nat := [0, 1, 2, 3]
  take   : List (Nat × Nat) := []
  rotate : Option (Nat × Nat) := none
  hot    : Nat := 0
  since  : Nat := 0x400
  hold   : Bool := false
  lostA  : Bool := false
  lostB  : Bool := false
deriving DecidableEq, Repr

/-! ### Frames, power following, heat (16) -/

/-- A frame energy record (16, R400), its fields in the order of the table. -/
structure ERec where
  frame  : Nat
  flags  : Nat
  grant  : Nat
  meas   : Nat
  est    : Nat
  point  : Nat
  bubF   : Nat
  stackT : Nat
  dieT   : Nat
  period : Nat
  job    : Nat
deriving DecidableEq, Repr

/-- What a background activity has used of its budgets in this frame, and whether one of them ran out (16, R414). -/
structure Spent where
  bytes  : Nat := 0
  slots  : Nat := 0
  energy : Nat := 0
  out    : Bool := false
deriving DecidableEq, Repr

/-- The power loops' own state, in five groups (16, R383 to R416). The frame input: the grant a good word announced for the next
pulse (grant, URGENT), whether the pulse's word is still due, whether this frame's word was discarded, whether a pulse and a good word have
come since cold start, FRAME of the last good word, the grant at a frame loss with the synthesised frames since, whether URGENT was
applied. The slow loop: the power ceiling C, hint levels by frame (0: this one), frames since the last raise, the point that a set-point
slew goes to, a point that waits for a ward wake, falls of fixed mode. The fast loop: b in 1/64, the fast power limit of this frame, runs
of high and low VIN_CORE current, whether b was 1 throughout the frame, sum and number of b, active emergency causes. The measurements of
the frame: samples, input and estimated energy in µJ, sums of D and of VIN_CORE current, and job energy in µJ. Runs of over-grant frames,
of over-grant frames at the lowest point with b = 1, of throttled frames; the last 16 means (estimate, measured), the correction k as a fraction, a recalibration done, the
settled frames after it, and the estimator's coefficients that recalibration has refined (kind, pJ); the register writes that wait for the next
pulse (key, word); the energy ring; budget use; a power-fail warning that stands (15, R364). -/
structure Pwr where
  next     : Option (Nat × Bool) := none
  awaits   : Bool := false
  badWord  : Bool := false
  seen     : Bool := false
  goodWord : Bool := false
  lastNum  : Option Nat := none
  lossFrom : Option (Nat × Nat) := none
  urgent   : Bool := false
  ceil     : Nat := 300
  hints    : List Nat := []
  dwell    : Nat := 255
  slew     : Option Nat := none
  wait     : Option Nat := none
  stepDown : Nat := 0
  bub      : Nat := 0
  limit    : Bool := false
  vinHigh  : Nat := 0
  vinLow   : Nat := 0
  fullB    : Bool := true
  bubSum   : Nat := 0
  bubCnt   : Nat := 0
  causes   : List Nat := []
  samples  : Nat := 0
  measUj   : Nat := 0
  estUj    : Nat := 0
  dynSum   : Nat := 0
  vinSum   : Nat := 0
  jobUj    : Nat := 0
  overRun  : Nat := 0
  shortRun : Nat := 0
  hotRun   : Nat := 0
  ests     : List (Nat × Nat) := []
  k        : Nat × Nat := (1, 1)
  recal    : Bool := false
  settled  : Nat := 0
  coeffs   : List (Nat × Nat) := []
  nextRegs : List (Nat × Word) := []
  ring     : List ERec := []
  used     : SMap Spent := []
  warned   : Bool := false
deriving DecidableEq, Repr

/-- Thermal state (16, R404, R407): the last 16 samples of every sensor, newest first (stacks: A and B of each, then the dies: four ward
sensors and the square of each district), the control temperatures of the last 400 samples, newest first, runs of suspect and of agreeing
readings per stack, the readings in a row with a die sensor at or above 105 °C at point 0, and whether COOLANT_FAIL_N was last found
asserted. -/
structure Thermal where
  samples  : List (List Nat) := []
  controls : List (List Int) := []
  apart    : List Nat := List.replicate 20 0
  agree    : List Nat := List.replicate 20 0
  dieRun   : Nat := 0
  coolant  : Bool := false
deriving DecidableEq, Repr
/-! ### The fabric (12, 13) -/

/-- A link block as its source forms it (12, R301); SEQ, ACK and the CRC are added as it goes onto the port. -/
structure LinkBlock where
  ty      : Nat
  dst     : Nat := 0
  src     : Nat := 0
  slice   : Nat := 0
  reason  : Nat := 0
  tid     : Nat := 0
  offset  : Nat := 0
  side    : Nat := 0
  payload : List Byte := []
deriving DecidableEq, Repr

/-- A block in a retry buffer: its SEQ, its transmissions so far, the ACK that the last one carried (12, R301 to R303). -/
structure Held where
  seq   : Nat
  sends : Nat
  block : LinkBlock
  ack   : Nat := 0
deriving DecidableEq, Repr

/-- A port's state beside its registers: next SEQ to give, SEQ expected, the number of the
RETRY_REQ whose resend it awaits, the retry buffer, the blocks that wait for room in it or for the end of a swap, failed wavelengths in order, wavelength standing spare, bring-up step (R312, 0 before it), whether its
first hello is recorded, whether the own hello is acknowledged and a hello received in this step, whether SWITCH has
gone out and come in, retrain attempts since it went DOWN and frames in its state (12, R299 to R314). -/
structure Port where
  txSeq    : Nat := 0
  rxSeq    : Nat := 0
  asked    : Option Nat := none
  retry    : List Held := []
  waiting  : List LinkBlock := []
  lost     : List Nat := []
  spare    : Nat := 8
  swapping : Bool := false
  step     : Nat := 0
  known    : Bool := false
  heard    : Bool := false
  nbrMax   : Nat := 0
  nbrMin   : Nat := 0
  switched : Bool := false
  tries    : Nat := 0
  frames   : Nat := 0
deriving DecidableEq, Repr

/-- An outstanding transaction (12, R304): its TID, its block type, the stream and command that issued it, destination
chip, offset, length, frame pulses since it issued, the data that a read has brought back, and whether a forced abort has given it up (06, R173). -/
structure Txn where
  tid  : Nat
  ty   : Nat
  m    : Nat
  num  : Nat
  chip : Nat
  off  : Nat
  len  : Nat
  age  : Nat := 0
  data : Option (List Byte) := none
  dead : Bool := false
deriving DecidableEq, Repr

/-- A region slot that holds a tile, complete or partly written (13, R325, R326): its index, round, rank, TID, source
chip, the stream of this module that sent it, bytes of header and data, and the blocks that have come. -/
structure ASlot where
  index : Nat
  round : Nat
  rank  : Nat
  tid   : Nat
  chip  : Nat
  home  : Option Nat
  total : Nat
  got   : List Nat
deriving DecidableEq, Repr

/-- An arrival region's slots, and the chip recorded for each rank (13, R325, R334). -/
structure Arrival where
  slots : List ASlot := []
  chips : List (Nat × Nat) := []
deriving DecidableEq, Repr

/-- A straggler entry beside its registers: RATE of the chip's last sideband word, and frames since that word and since the
last unit charged, stopping at 255 (13, R335; 16, R398). -/
structure Strag where
  rate    : Nat := 2047
  heard   : Nat := 255
  charged : Nat := 255
deriving DecidableEq, Repr

/-! ### Flash: journal, images, host blocks (14) -/

/-- A journal record held in the SLC region (14, R345): its step and its 4,096 bytes. -/
structure JRec where
  step  : Nat
  bytes : List Byte
deriving DecidableEq, Repr

/-- A JOURNAL handed to the MC (14, R344): its stream and command, its step, its record as built, and whether programming has
begun. -/
structure Commit where
  m       : Nat
  num     : Nat
  step    : Nat
  record  : List Byte
  burning : Bool := false
deriving DecidableEq, Repr

/-- An image section (14, R349 to R351): the records it walks (Tier 1 offset and length), whether it is the module section,
and the bytes streamed so far. -/
structure ISection where
  recs     : List (Nat × Nat)
  isModule : Bool
  data     : List Byte := []
deriving DecidableEq, Repr

/-- An image (14, R349): IMG_STEP, what BEGIN recorded (job seed, C_LOG2, LEVEL, LIB_ID, logical ward count), its sections,
the section, record and byte of it streamed next, and its notification (ward, flag). -/
structure Image where
  step     : Nat
  seed     : Nat
  cLog2    : Nat
  level    : Nat
  libId    : Nat
  wards    : Nat
  sections : List ISection := []
  atSec    : Nat := 0
  atRec    : Nat := 0
  atByte   : Nat := 0
  notify   : Option (Nat × Nat) := none
deriving DecidableEq, Repr

/-- A block of Tier 3 (14, R340, R341): its erases, the reads since it was programmed, the frame in which it was, and whether a codeword of it
showed a raw bit error rate above 3×10⁻³ or needed soft reads. -/
structure FBlock where
  erases  : Nat := 0
  reads   : Nat := 0
  written : Option Nat := none
  hot     : Bool := false
deriving DecidableEq, Repr

/-- A pass of the retention refresh over a region: the blocks it has read and the frames since it began (14, R341). -/
structure FPass where
  seen : List Nat := []
  age  : Nat := 0
deriving DecidableEq, Repr

/-- Tier 3: journal records oldest first, records committed since the format, JOURNALs with the MC, the image being
written, the committed images newest first (two at most), the host device's bytes, and IMAGE_GIB in effect; its blocks by number (those of
the SLC region from 2^32 on), the factory marks on the packages, the refresh passes (user region, SLC region), the bytes of orphaned image
blocks, the pages that are lost, the records of the configuration store that a power-fail sequence may still commit, and the write protect
(14, R338 to R341, R352, R358). -/
structure Flash where
  records : List JRec := []
  seq     : Nat := 0
  commits : List Commit := []
  wip     : Option Image := none
  images  : List Image := []
  host    : SMap Byte := []
  gib     : Nat := 256
  blocks  : SMap FBlock := []
  marks   : List Nat := []
  passes  : List FPass := [{}, {}]
  orphans : Nat := 0
  lost    : List FlashPage := []
  pfwLeft : Nat := 0
  protect : Bool := false
deriving DecidableEq, Repr

/-! ### The shared page pool (10) -/

/-- A sequence that the allocator tracks (10, R257). -/
structure PSeq where
  seq     : Nat
  stamp   : Nat := 0
  pin     : Bool := false
  pages   : List Nat := []
  evicted : Bool := false
deriving DecidableEq, Repr

/-- The allocator: the sequences it tracks, the number of uses so far, and the operation in progress (number, sequence) (10, R256, R257). -/
structure Pool where
  seqs : List PSeq := []
  use  : Nat := 0
  op   : Option (Nat × Nat) := none
deriving DecidableEq, Repr

/-! ### Memory upkeep, host cores, PCIe (11, 19) -/

/-- A scrubber's pass: how many bytes of each unit of its stores it has read (by store code × 2^12 + unit), and the frames since it began.
One for Tier 1, one for Tier 2, one for the SRAM stores (11, R288). -/
structure Scrub where
  places : SMap Nat := []
  age    : Nat := 0
deriving DecidableEq, Repr

/-- Resends of this frame, by Tier 1 channel (32 × stack + channel) and by Tier 2 device (1,024 + device), and the devices due for
retraining (11, R280, R283). -/
structure Links where
  resent : SMap Nat := []
  due    : List Nat := []
deriving DecidableEq, Repr

/-- A dovetail crossing (17, R436, R437, R439): its latency L, the cycles by which it is late after slips, and whether a pulse has come at which it
re-centres. -/
structure Xing where
  lat  : Nat := 0
  late : Nat := 0
  due  : Bool := false
deriving DecidableEq, Repr

/-- A line of the shared cache that holds a Tier 1 block: its way, the block's stack-local index, whether it differs from Tier 1 (11, R271 to
R273, R293). -/
structure CLine where
  way   : Nat
  block : Nat
  dirty : Bool := false
deriving DecidableEq, Repr

/-- A 64-byte line in a hart's caches (19, R474 to R476): its address / 64, whether it differs from Tier 1, and of a line of Tier 2 its bytes. -/
structure HLine where
  hart  : Nat
  line  : Nat
  dirty : Bool := false
  data  : List Byte := []
deriving DecidableEq, Repr

/-- A store of a hart that is not yet globally visible (19, R475, R477). -/
structure HStore where
  hart  : Nat
  addr  : Nat
  bytes : List Byte
deriving DecidableEq, Repr

/-- The host complex and the PCIe port beside their registers: hart registers that commands write (32 × hart + number), the
exceptions harts have taken (hart, RISC-V cause), PCIe completions sent (status 0 Successful, 1 Unsupported Request, 4 Completer
Abort; data), messages sent by flag watches (MOD_IRQ_DEST word), PERST_N asserted, whether the link is in Detect, and a host-point write kept
during a change, of the host block device its I/O queues and its completions: queue and status; the lines in the harts' caches, their stores
not yet visible, their reservations (hart, address / 64), and the PCIe writes logged as Unsupported Requests (19, R473 to R481, R485 to R488;
11, R284). -/
structure HostSt where
  regs   : SMap Nat := []
  traps  : List (Nat × Nat) := []
  tlps   : List (Nat × Nat) := []
  msgs   : List Nat := []
  perst  : Bool := true
  detect : Bool := true
  next   : Option Nat := none
  queues : List Nat := []
  done   : List (Nat × Nat) := []
  lines  : List HLine := []
  stores : List HStore := []
  resv   : List (Nat × Nat) := []
  urs    : Nat := 0
deriving DecidableEq, Repr

/-- The state of the block. `boot` says that the top of Tier 1 holds the host boot stage (19, R483); `board` is the BOARD_ID strap as last sampled (12, R306); `ksReq` the wards whose kernel-store digest is being
computed (07, R188), `samples` the shadow samples to be checked (04). `trace` holds the marks written to the trace, oldest first: tag and mark (05, R140); `slips` its slip marks: crossing, cycles, frame (17,
R439; DESIGN CHOICE, log 27). `free` counts the free values drawn (DESIGN CHOICE, log 3). `cache` holds the Tier 1 blocks of each set of the shared cache, 2,048 × district + set, latest access first, `lines` the hits and
misses of each district not yet in DIST_SC_CNT (11, R271 to R273). `poison` lists the poisoned units of memory by address / 4 and `worn` the
locations that have failed uncorrectably, by sector (11, R291, R296). -/
structure State where
  pending : List Instr := []
  regs    : SMap Word := []
  mem     : SMap Byte := []
  boot    : Bool := false
  poison  : List Nat := []
  worn    : List Nat := []
  streams : SMap Stream := []
  queues  : SMap QueueRt := []
  engines : SMap (List (Nat × Nat)) := []
  me      : SMap MeRt := []
  ve      : SMap VeRt := []
  ue      : SMap UeRt := []
  watch   : Watch := {}
  quiet   : Option Nat := none
  stalled : Bool := false
  fuses   : Fuses := {}
  life    : Lifetime := {}
  store   : Store := {}
  banks   : List Bank := [{ rev := 1, activation := some 1, maker := true }, {}]
  mc      : Mc := {}
  libLoaded : Bool := false
  pwards  : SMap PWard := []
  dists   : SMap Dist := []
  remapDeferred : Nat := 0
  pwr     : Pwr := {}
  therm   : Thermal := {}
  standby : Bool := false
  board   : Nat := 0
  ksReq   : List Nat := []
  samples : List Sample := []
  trace   : List (Nat × Nat) := []
  txns    : List Txn := []
  nextTid : Nat := 0
  ports   : SMap Port := []
  arrivals : SMap Arrival := []
  strag   : SMap Strag := []
  flash   : Flash := {}
  pool    : Pool := {}
  scrubs  : List Scrub := [{}, {}, {}]
  links   : Links := {}
  host    : HostSt := {}
  xings   : SMap Xing := []
  slips   : List (Nat × Nat × Nat) := []
  cache   : SMap (List CLine) := []
  lines   : SMap (Nat × Nat) := []
  free    : Nat := 0
deriving DecidableEq, Repr

/-- The machine right after reset: an OMV-80 part with nothing stored, before its bring-up (20, R489, R496; DESIGN CHOICE, log 1, log 2, log 62, log 65). -/
def State.reset : State :=
  { regs := initRegs (List.replicate 20 4) []
    pwards := (below 20).map (fun d => (5 * d + 4, { st := 4 })) }

end Sys2Proof.Machine
end

