-- ==== Sys2Proof/Machine/Ops.lean ====
section
/-!
DEFINITION. The named operations over registers, memory, queues, streams and flags that every command's meaning
is written with (00_scope.md, 05_queues_commands.md, 06_loops_flags_faults.md, 11_memory_tiers.md).
-/

namespace Sys2Proof.Machine

/-! ### Registers and fields -/

/-- The word of instance i of a register. -/
def rd (s : State) (r : Reg) (i : Nat) : Word := sget (regReset (r.key i)) s.regs (r.key i)

/-- The word of instance i of a register replaced. -/
def wr (s : State) (r : Reg) (i : Nat) (v : Word) : State :=
  { s with regs := sset (regReset (r.key i)) s.regs (r.key i) v }

/-- A field of instance i. -/
def fg (s : State) (f : Fld) (i : Nat) : Nat := fieldOf (rd s f.reg i) f.hi f.lo

/-- A field of instance i set to v (modulo its size). -/
def fs (s : State) (f : Fld) (i v : Nat) : State := wr s f.reg i (withField (rd s f.reg i) f.hi f.lo v)

/-- A counter field that stops at its all-ones value, plus n. -/
def bump (s : State) (f : Fld) (i n : Nat) : State :=
  fs s f i (satAdd (2 ^ (f.hi + 1 - f.lo) - 1) (fg s f i) n)

/-- What a write of v leaves in a word by the access codes of its register (00, R12): RW fields take the value, a 1 clears a
W1C bit, everything else stays. -/
def writeWord (r : Reg) (old v : Word) : Word :=
  r.fields.foldl (fun w f =>
    match f.acc with
    | .rw => withField w f.hi f.lo (fieldOf v f.hi f.lo)
    | .w1c => withField w f.hi f.lo (fieldOf old f.hi f.lo - (fieldOf old f.hi f.lo &&& fieldOf v f.hi f.lo))
    | _ => w) old

/-- The W1C bits of a write alone, which act first (00, R534). -/
def clearBits (s : State) (r : Reg) (i : Nat) (v : Word) : State :=
  wr s r i (r.fields.foldl (fun w f =>
    if f.acc = .w1c then withField w f.hi f.lo (fieldOf w f.hi f.lo - (fieldOf w f.hi f.lo &&& fieldOf v f.hi f.lo)) else w) (rd s r i))

/-- A write by the access codes alone (00, R12). -/
def writeFields (s : State) (r : Reg) (i : Nat) (v : Word) : State := wr s r i (writeWord r (rd s r i) v)

/-- A field's bits in a word about to be written. -/
def fieldIn (v : Word) (f : Fld) : Nat := fieldOf v f.hi f.lo

/-- Whether a write would change one of the guarded fields (00, R534). -/
def changes (s : State) (i : Nat) (v : Word) (guarded : List Fld) : Bool := guarded.any (fun f => fieldIn v f != fg s f i)

/-- A write whose guarded fields are refused (00, R534): W1C bits act first, the guarded fields keep their values, the other
fields take effect, and the flag is set when a guarded field would have changed. -/
def writeGuarded (s : State) (r : Reg) (i : Nat) (v : Word) (guarded : List Fld) (flag : Fld) (flagIx : Nat) : State :=
  let bad := changes s i v guarded
  let v' := guarded.foldl (fun w f => withField w f.hi f.lo (fg s f i)) v
  let s1 := writeFields s r i v'
  if bad then fs s1 flag flagIx 1 else s1

/-- A free value (DESIGN CHOICE, log 3): the next of the values that the manual leaves undefined, and the state past it. -/
def fresh (s : State) : Nat × State := ((Config.freeValue s.free).toNat, { s with free := s.free + 1 })

/-! ### Memory: keys, bytes, tiles (11, R266) -/

def tier1Size : Nat := 480 * 2 ^ 30
def tier2Base : Nat := 0x100000000000
def tier2Size : Nat := 124 * 2 ^ 30
def wardBase : Nat := 0x200000000000
def wardSize : Nat := 6 * 2 ^ 20
def ctrlBase : Nat := 0x300000000000
def ctrlSize : Nat := 0x04000000
/-- Where the model keeps the shared-cache slices, which have no address of their own (11, R271): DESIGN CHOICE, log 16. -/
def sliceBase : Nat := 2 ^ 60
def sliceSize : Nat := 8 * 2 ^ 20

def wardStoreKey (w off : Nat) : Nat := wardBase + w * 0x1000000 + off
def sliceKey (d off : Nat) : Nat := sliceBase + d * sliceSize + off
/-- Control-space memories: descriptors, kernel stores, mailbox buffers. -/
def descKey (w d : Nat) : Nat := ctrlBase + 0x1000000 + (256 * w + d) * 0x80
def kstoreKey (w off : Nat) : Nat := ctrlBase + 0x2000000 + w * 0x40000 + off

/-- The top 32 MiB of Tier 1, into which the MC copies the host boot stage (19, R483). -/
def bootBase : Nat := 0x0077FE000000
def bootSize : Nat := 0x2000000

/-- What an unlisted byte reads as: 0 (20, R491, R492: cold start fills with zeros), or, once the boot stage has been copied, its bytes in
its place (19, R483; DESIGN CHOICE, log 16). -/
def memDefault (boot : Bool) (a : Nat) : Byte :=
  if boot && bootBase ≤ a && a < bootBase + bootSize then Config.bootByte (a - bootBase) else 0

/-- One byte of memory (DESIGN CHOICE, log 65). -/
def readByte (s : State) (a : Nat) : Byte := sget (memDefault s.boot a) s.mem a

def readAux (d : Nat → Byte) : Nat → SMap Byte → Nat → List Byte
  | 0, _, _ => []
  | n + 1, [], a => d a :: readAux d n [] (a + 1)
  | n + 1, (k, b) :: m, a => if k = a then b :: readAux d n m (a + 1) else d a :: readAux d n ((k, b) :: m) (a + 1)

/-- The n bytes from a on. -/
def readBytes (d : Nat → Byte) (m : SMap Byte) (a n : Nat) : List Byte := readAux d n (m.dropWhile (fun p => p.1 < a)) a

/-- The listed cells of a run of bytes: those that differ from what an unlisted byte reads as. -/
def cellsOf (d : Nat → Byte) : Nat → List Byte → SMap Byte
  | _, [] => []
  | a, b :: bs => if b = d a then cellsOf d (a + 1) bs else (a, b) :: cellsOf d (a + 1) bs

/-- Memory with the bytes bs from a on. -/
def writeBytes (d : Nat → Byte) (m : SMap Byte) (a : Nat) (bs : List Byte) : SMap Byte :=
  m.filter (fun p => p.1 < a) ++ cellsOf d a bs ++ m.filter (fun p => a + bs.length ≤ p.1)

/-- Poisoned units, by key / 4 (11, R291, R292): 4 bytes, the half of a word that one register-bus write replaces. -/
def poisoned (s : State) (a n : Nat) : Bool := s.poison.any (fun p => p * 4 < a + n && a < p * 4 + 4)

/-- A write of whole bytes: a unit wholly overwritten loses its poison (11, R291). -/
def memWrite (s : State) (a : Nat) (bs : List Byte) : State :=
  { s with mem := writeBytes (memDefault s.boot) s.mem a bs
           poison := s.poison.filter (fun p => !(a ≤ p * 4 && p * 4 + 4 ≤ a + bs.length)) }

def memRead (s : State) (a n : Nat) : List Byte := readBytes (memDefault s.boot) s.mem a n

def poisonAt (s : State) (a n : Nat) : State :=
  { s with poison := s.poison ++ (rangeFrom (a / 4) (ceilDiv (a % 4 + n) 4)).filter (fun p => !s.poison.contains p) }

/-- The stack that holds a Tier 1 offset under the placement in effect (11, R278). -/
def t1Stack (s : State) (off : Nat) : Nat :=
  let g := fg s MOD_T1_CFG_LOCAL_GIB 0
  let spread := (24 - g) * 20 * 2 ^ 30
  if off < spread then off / 4096 % 20 else if g = 0 then 0 else (off - spread) / (g * 2 ^ 30)

/-- The stack-local offset of a Tier 1 offset (11, R278). -/
def t1Local (s : State) (off : Nat) : Nat :=
  let g := fg s MOD_T1_CFG_LOCAL_GIB 0
  let spread := (24 - g) * 20 * 2 ^ 30
  if off < spread then off / 4096 / 20 * 4096 + off % 4096 else (24 - g) * 2 ^ 30 + (off - spread) % (max g 1 * 2 ^ 30)

/-- The Tier 1 offset of a stack-local offset (11, R278). -/
def t1Offset (g stack loc : Nat) : Nat :=
  if loc < (24 - g) * 2 ^ 30 then (loc / 4096 * 20 + stack) * 4096 + loc % 4096
  else (24 - g) * 20 * 2 ^ 30 + stack * (g * 2 ^ 30) + (loc - (24 - g) * 2 ^ 30)

/-- The device that holds a Tier 2 offset (11, R282). -/
def t2Device (t : Nat) : Nat := t / 256 % 32

/-! ### Logical wards and districts (01, R20, R533) -/

def logicalOf (s : State) (d : Nat) : Nat := fg s PWR_SREG_LOGICAL d

/-- The logical ward count in effect (01, R533). -/
def wardCount (s : State) : Nat := sumNat ((below 20).map (logicalOf s))

def districtAux (s : State) : List Nat → Nat → Nat
  | [], _ => 20
  | d :: ds, w => if w < logicalOf s d then d else districtAux s ds (w - logicalOf s d)

/-- The district of a logical ward: wards are numbered in district order (01, R20). -/
def districtOf (s : State) (w : Nat) : Nat := districtAux s (below 20) w

/-- A ward that is dark (15, R376): DARK of PWR_WREG. -/
def isDark (s : State) (w : Nat) : Bool := fg s PWR_WREG_DARK w == 1

/-! ### Physical wards and districts (15; 17) -/

def pward (s : State) (p : Nat) : PWard := sget {} s.pwards p
def setPward (s : State) (p : Nat) (x : PWard) : State := { s with pwards := sset {} s.pwards p x }
def distOf (s : State) (d : Nat) : Dist := sget {} s.dists d
def setDist (s : State) (d : Nat) (x : Dist) : State := { s with dists := sset {} s.dists d x }

/-- The first logical ward of a district (01, R20). -/
def firstWard (s : State) (d : Nat) : Nat := sumNat ((below d).map (logicalOf s))

/-- The index of a logical ward in its district. -/
def wardIndex (s : State) (w : Nat) : Nat := w - firstWard s (districtOf s w)

/-- The physical position that holds a logical ward, 7 for none, by the shim table (01, R29; 15, R376). -/
def physPos (s : State) (w : Nat) : Nat := nth (distOf s (districtOf s w)).map (wardIndex s w) 7

/-- Physical wards are numbered 5 × district + position. -/
def physOf (s : State) (w : Nat) : Nat := 5 * districtOf s w + physPos s w

/-- The logical ward that a physical ward holds. -/
def logicalAt (s : State) (p : Nat) : Option Nat :=
  ((below (logicalOf s (p / 5))).find? (fun i => nth (distOf s (p / 5)).map i 7 == p % 5)).map (fun i => firstWard s (p / 5) + i)

/-- Whether the logic of a ward runs: its physical ward is ACTIVE (17, R417). -/
def wardActive (s : State) (w : Nat) : Bool :=
  let x := pward s (physOf s w)
  x.st == 0 && x.stage == 0 && !isDark s w

/-! ### Queues (05) -/

def qidx (w q : Nat) : Nat := 64 * w + q
def queueRt (s : State) (n : Nat) : QueueRt := sget {} s.queues n
def setQueue (s : State) (n : Nat) (q : QueueRt) : State := { s with queues := sset {} s.queues n q }

def qEnabled (s : State) (n : Nat) : Bool := fg s WARD_QCFG_EN n == 1
def qDepth (s : State) (n : Nat) : Nat := fg s WARD_QCFG_DEPTH n
def qSlotBytes (s : State) (n : Nat) : Nat := fg s WARD_QCFG_SLOT n * 512
def qHome (s : State) (n : Nat) : Nat := fg s WARD_QCFG_HOME n

/-- Where a queue's ring starts (05, R118). -/
def qBaseKey (s : State) (n : Nat) : Nat :=
  let off := fg s WARD_QCFG_BASE n * 1024
  if qHome s n = 0 then wardStoreKey (n / 64) off else sliceKey (districtOf s (n / 64)) off

/-- Bytes of a queue: DEPTH slots and their headers (05, R118). -/
def qBytes (s : State) (n : Nat) : Nat := qDepth s n * (qSlotBytes s n + 16)

/-- Where tile p of a queue stands: slot p mod DEPTH (05, R124). -/
def slotKey (s : State) (n p : Nat) : Nat := qBaseKey s n + p % qDepth s n * qSlotBytes s n

/-- Where the header of tile p stands: the headers follow the ring (05, R118). -/
def hdrKey (s : State) (n p : Nat) : Nat :=
  qBaseKey s n + qDepth s n * qSlotBytes s n + 16 * (p % qDepth s n)

/-- MARKS bits (05, R122). -/
def mkValid : Nat := 0x80
def mkTruncated : Nat := 0x40
def mkRescued : Nat := 0x20
def mkSatAny : Nat := 0x10
def mkZeroedAny : Nat := 0x08
def mkNanAny : Nat := 0x04
def mkTransposed : Nat := 0x02

def Hdr.truncated (h : Hdr) : Bool := bit h.marks 6
def Hdr.transposed (h : Hdr) : Bool := bit h.marks 1

/-- A header's 16 bytes, H0 then H1 (05, R122). -/
def Hdr.bytes (h : Hdr) : List Byte :=
  toBytesLE 8 (h.rowLen % 2 ^ 32 * 2 ^ 32 + h.ptag % 2 ^ 16 * 2 ^ 16 + h.marks % 256 * 2 ^ 8 + h.fmt % 16) ++
  toBytesLE 8 (h.rows % 256 * 2 ^ 56 + h.cols % 256 * 2 ^ 48 + h.elemBase % 2 ^ 48)

/-- The header that 16 bytes spell. -/
def hdrOf (bs : List Byte) : Hdr :=
  let h0 := ofBytesLE (bs.take 8)
  let h1 := ofBytesLE (bs.drop 8)
  ⟨bits h0 63 32, bits h0 31 16, bits h0 15 8, bits h0 3 0, bits h1 63 56, bits h1 55 48, bits h1 47 0⟩

def readHdr (s : State) (n p : Nat) : Hdr := hdrOf (memRead s (hdrKey s n p) 16)

/-- The element index of tile element (i, j) (05, R122). -/
def Hdr.index (h : Hdr) (i j : Nat) : Nat :=
  if h.transposed then h.elemBase + j * h.rowLen + i else h.elemBase + i * h.rowLen + j

/-- Whether tile p is visible and not yet popped. -/
def qVisible (q : QueueRt) (p : Nat) : Bool := q.head ≤ p && p < q.tail && !q.freed.contains p

/-- Whether the slot of tile p is free of unpopped tiles (05, R125). -/
def qFree (s : State) (n p : Nat) : Bool := p < (queueRt s n).head + qDepth s n

/-- Advance HEAD over numbers popped out of order. -/
def advanceHead : Nat → QueueRt → QueueRt
  | 0, q => q
  | f + 1, q =>
    if q.freed.contains q.head then advanceHead f { q with head := q.head + 1, freed := q.freed.filter (· != q.head) }
    else q

/-- Whether two runs of bytes (start, length) overlap. -/
def overlaps (a b : Nat × Nat) : Bool := a.1 < b.1 + b.2 && b.1 < a.1 + a.2

/-- The run of a queue in its home (05, R118). -/
def qSpan (s : State) (n : Nat) : Nat × Nat := (fg s WARD_QCFG_BASE n * 1024, qBytes s n)

/-- Tile p popped; HEAD advances over every popped number (06, R154). -/
def qPop (s : State) (n p : Nat) : State :=
  let q := queueRt s n
  let q' := { q with freed := if q.freed.contains p then q.freed else p :: q.freed }
  setQueue s n (advanceHead (q'.freed.length + 1) q')

/-- A tile pushed with sequence number p: its data written to its slot, its header kept until it becomes visible
(05, R122, R124). Data beyond the slot is not written. -/
def qPush (s : State) (n p : Nat) (h : Hdr) (bs : List Byte) : State :=
  let s1 := memWrite s (slotKey s n p) (bs.take (qSlotBytes s n))
  let q := queueRt s1 n
  setQueue s1 n { q with pushed := (p, ⟨h, false⟩) :: q.pushed.filter (fun x => x.1 != p) }

/-- The first pushed entry of number p. -/
def findPushed : List (Nat × Pushed) → Nat → Option Pushed
  | [], _ => none
  | (k, v) :: ps, p => if k = p then some v else findPushed ps p

/-- The tile at TAIL becomes visible: header written, TAIL and HIGH_WATER moved; a placeholder's data is zero and
it needs a free slot (05, R122, R124; 06, R172). No change where the tile at TAIL is not yet pushed. -/
def qShow (s : State) (n : Nat) : State :=
  let q := queueRt s n
  match findPushed q.pushed q.tail with
  | none => s
  | some p =>
    if p.placeholder && !qFree s n q.tail then s
    else
      let s1 := if p.placeholder then memWrite s (slotKey s n q.tail) (List.replicate (qSlotBytes s n) 0) else s
      let s2 := memWrite s1 (hdrKey s n q.tail) p.hdr.bytes
      let s3 := setQueue s2 n { q with tail := q.tail + 1, pushed := q.pushed.filter (fun x => x.1 != q.tail) }
      fs s3 WARD_QSTAT_HIGH_WATER n (max (fg s3 WARD_QSTAT_HIGH_WATER n) (min 255 (q.tail + 1 - q.head)))

/-- A queue emptied: counters and reservations 0, every header's VALID mark cleared (05, R119, R120). -/
def qClear (s : State) (n : Nat) : State :=
  let s1 := (below (qDepth s n)).foldl (fun t k =>
    let a := hdrKey s n k + 1
    memWrite t a [BitVec.ofNat 8 ((readByte t a).toNat % 0x80)]) s
  setQueue s1 n {}

/-! ### Streams and their commands (05) -/

def sidx (w st : Nat) : Nat := 8 * w + st
def stream (s : State) (m : Nat) : Stream := sget {} s.streams m
def setStream (s : State) (m : Nat) (x : Stream) : State := { s with streams := sset {} s.streams m x }

def findCmd : List Cmd → Nat → Option Cmd
  | [], _ => none
  | c :: cs, k => if c.num = k then some c else findCmd cs k

def replaceCmd (cs : List Cmd) (c : Cmd) : List Cmd := cs.map (fun x => if x.num = c.num then c else x)

def setCmd (s : State) (m : Nat) (c : Cmd) : State :=
  let x := stream s m
  setStream s m { x with cmds := replaceCmd x.cmds c }

/-- Command fields (05, R136, R137). -/
def Cmd.opcode (c : Cmd) : Nat := bits c.w0.toNat 7 0
def Cmd.ctrl (c : Cmd) : Nat := bits c.w0.toNat 15 8
def Cmd.tag (c : Cmd) : Nat := bits c.w0.toNat 31 16
def Cmd.waitEn (c : Cmd) : Bool := bit c.ctrl 7
def Cmd.sigEn (c : Cmd) : Bool := bit c.ctrl 6
def Cmd.sr (c : Cmd) : Bool := bit c.ctrl 5
def Cmd.fence (c : Cmd) : Bool := bit c.ctrl 4
def Cmd.stepAdv (c : Cmd) : Bool := bit c.ctrl 3
def Cmd.unit (c : Cmd) : Nat := bits c.ctrl 2 1
def Cmd.out (c : Cmd) (e : Nat) : Nat := if e = 0 then bits c.w0.toNat 47 32 else bits c.w0.toNat 63 48
def Cmd.inp (c : Cmd) (e : Nat) : Nat := bits c.w1.toNat (39 + 8 * e) (32 + 8 * e)
def Cmd.loopIx (c : Cmd) : Nat := bits c.w1.toNat 31 24
def Cmd.fmtOut (c : Cmd) : Nat := bits c.w1.toNat 23 20
def Cmd.fmtB (c : Cmd) : Nat := bits c.w1.toNat 19 16
def Cmd.fmtA (c : Cmd) : Nat := bits c.w1.toNat 15 12
def Cmd.mode (c : Cmd) : Nat := bits c.w1.toNat 11 0
def Cmd.rstream (c : Cmd) : Nat := bits c.w2.toNat 63 48
def Cmd.sigInc (c : Cmd) : Nat := bits c.w2.toNat 47 40
def Cmd.sigWard (c : Cmd) : Nat := bits c.w2.toNat 39 33
def Cmd.sigFlag (c : Cmd) : Nat := bits c.w2.toNat 31 24
def Cmd.waitFlag (c : Cmd) : Nat := bits c.w2.toNat 23 16
def Cmd.waitCount (c : Cmd) : Nat := bits c.w2.toNat 15 0
def Cmd.imm (c : Cmd) : Nat := c.w3.toNat

def inPresent (e : Nat) : Bool := bit e 7
def inKeep (e : Nat) : Bool := bit e 6
def inQueue (e : Nat) : Nat := bits e 5 0
def outPresent (e : Nat) : Bool := bit e 15
def outWardField (e : Nat) : Nat := bits e 14 8
def outQueue (e : Nat) : Nat := bits e 5 0
/-- The logical ward of an output end: 0x7F is the own ward (05, R137). -/
def outWard (w e : Nat) : Nat := if outWardField e = 0x7F then w else outWardField e

/-- The queue instance of an input or output end of a command of ward w. -/
def inQ (w : Nat) (c : Cmd) (e : Nat) : Nat := qidx w (inQueue (c.inp e))
def outQ (w : Nat) (c : Cmd) (e : Nat) : Nat := qidx (outWard w (c.out e)) (outQueue (c.out e))

/-! ### Loop descriptors and walks (06, R150 to R159) -/

def dword (d : List Word64) (i : Nat) : Nat := (nth d i 0).toNat
def dTensor (d : List Word64) : Nat := bits (dword d 0) 63 32
def dKind (d : List Word64) : Nat := bits (dword d 0) 31 28
def dLevels (d : List Word64) : Nat := bits (dword d 0) 27 24
def dRagEn (d : List Word64) : Bool := bit (dword d 0) 23
def dRagLevel (d : List Word64) : Nat := bits (dword d 0) 22 20
def dRedEn (d : List Word64) : Bool := bit (dword d 0) 19
def dRedLevel (d : List Word64) : Nat := bits (dword d 0) 18 16
def dBoundBase (d : List Word64) : Nat := bits (dword d 0) 11 0
def dRowLen (d : List Word64) : Nat := bits (dword d 1) 63 32
def dTileBytes (d : List Word64) : Nat := bits (dword d 1) 31 0
def dRemoteSig (d : List Word64) : Bool := bit (dword d 2) 63
def dElemBase (d : List Word64) : Nat := bits (dword d 2) 47 0
def dBase2 (d : List Word64) : Nat := dword d 3

/-- Level record l as one 128-bit number (06, R152). -/
def dRec (d : List Word64) (l : Nat) : Nat := dword d (4 + 2 * l) + dword d (5 + 2 * l) * 2 ^ 64

/-- A field read as a signed number of w bits. -/
def signed (w v : Nat) : Int := if v < 2 ^ (w - 1) then v else (v : Int) - 2 ^ w

def dCount (d : List Word64) (l : Nat) : Nat := bits (dRec d l) 127 96
def dInStride (d : List Word64) (e l : Nat) : Int := signed 12 (bits (dRec d l) (95 - 12 * e) (84 - 12 * e))
def dSrcStride (d : List Word64) (l : Nat) : Int := signed 40 (bits (dRec d l) 95 56)
def dDstStride (d : List Word64) (l : Nat) : Int := signed 40 (bits (dRec d l) 55 16)
/-- TROW and TCOL stand at different bits in the two kinds of record (06, R152). -/
def dTrow (d : List Word64) (l : Nat) : Int :=
  if dKind d = 2 then signed 8 (bits (dRec d l) 15 8) else signed 8 (bits (dRec d l) 47 40)
def dTcol (d : List Word64) (l : Nat) : Int :=
  if dKind d = 2 then signed 8 (bits (dRec d l) 7 0) else signed 8 (bits (dRec d l) 39 32)

/-- The count of level l, given the indices of the levels above it (nearest first): COUNT, or for the ragged level
the bound of the iteration of the level above; when that level is the reduction level, of the level above that
(06, R159). -/
def levelCount (d : List Word64) (bnd : List Nat) (l : Nat) (above : List Nat) : Nat :=
  if dRagEn d ∧ dRagLevel d = l then
    let i := if dRedEn d ∧ dRedLevel d = l + 1 then nth above 1 0 else nth above 0 0
    nth bnd i 0
  else dCount d l

/-- The iteration vectors of levels below l, level 0 varying fastest; `above` holds the indices above
(06, R153). -/
def walkFrom (d : List Word64) (bnd : List Nat) : Nat → List Nat → List (List Nat)
  | 0, above => [above]
  | l + 1, above => (below (levelCount d bnd l above)).flatMap (fun i => walkFrom d bnd l (i :: above))

/-- The iteration vectors of a walk, each from level 0 up. -/
def walk (d : List Word64) (bnd : List Nat) : List (List Nat) := walkFrom d bnd (dLevels d) []

/-- Σ i[l] × stride[l]. -/
def dotAux (f : Nat → Int) : Nat → List Nat → Int
  | _, [] => 0
  | l, i :: is => (i : Int) * f l + dotAux f (l + 1) is
def dot (f : Nat → Int) (v : List Nat) : Int := dotAux f 0 v

/-- The tile offset an iteration reads on an input end (06, R154). -/
def inOffset (d : List Word64) (e : Nat) (v : List Nat) : Int := dot (dInStride d e) v

/-- ELEM_BASE of the tile an iteration pushes, modulo 2^48 (06, R156). -/
def elemBaseOf (d : List Word64) (v : List Nat) : Nat :=
  (((dElemBase d : Int) + dot (dTrow d) v * 128 * dRowLen d + dot (dTcol d) v * 128) % 2 ^ 48).toNat

/-- COLS a producer stamps from its descriptor: the tile's columns before the tensor's edge (05, R122; 06, R156;
DEDUCED, log 8). -/
def colsOf (rowLen base : Nat) : Nat := if rowLen = 0 then 128 else min 128 (rowLen - base % rowLen)

/-- The number of bound-table entries a ragged walk reads: one per iteration of the level it follows. -/
def boundCount (d : List Word64) : Nat :=
  if !dRagEn d then 0
  else
    let up := if dRedEn d ∧ dRedLevel d = dRagLevel d + 1 then dRagLevel d + 2 else dRagLevel d + 1
    if up < dLevels d then dCount d up else 1

/-! ### Flags (06) -/

def flagIdx (w f : Nat) : Nat := 256 * w + f
def flagCount (s : State) (n : Nat) : Nat := fg s WARD_FLAG_COUNT n

/-- A signal adds its increment modulo 2^16 (06, R161). -/
def signalFlag (s : State) (n inc : Nat) : State := fs s WARD_FLAG_COUNT n (flagCount s n + inc)

/-- (COUNT - t) mod 2^16 below 2^15 (06, R161). -/
def flagReached (s : State) (n t : Nat) : Bool := (flagCount s n + 2 ^ 16 - t % 2 ^ 16) % 2 ^ 16 < 2 ^ 15

end Sys2Proof.Machine
end

