-- ==== Sys2Proof/Machine/Budget.lean ====
section
/-!
DEFINITION. The frame budget unit (16_frames_power_thermal.md, R414, R415): what background activity a may still use in a frame.
-/

namespace Sys2Proof.Machine

/-- Activity codes (16, R415). -/
def actScrub : Nat := 0
def actRefresh : Nat := 1
def actCalib : Nat := 2
def actWear : Nat := 3
def actImage : Nat := 5
def actShadow : Nat := 6

/-- Whether the frame's budgets of activity a cover a use: of each resource that the use needs, what is used so far and the use stay
within the budget (DEDUCED, log 41). -/
def budgetCovers (s : State) (a bytes slots energy : Nat) : Bool :=
  let u := sget {} s.pwr.used a
  (bytes == 0 || u.bytes + bytes ≤ fg s PWR_FBU_BYTES_BYTES a) && (slots == 0 || u.slots + slots ≤ fg s PWR_FBU_LIM_SLOTS a) &&
  (energy == 0 || u.energy + energy ≤ fg s PWR_FBU_LIM_ENERGY a)

/-- An activity has budget left in the frame: none of its uses has had to wait (17, R423). -/
def budgetLeft (s : State) (a : Nat) : Bool := !(sget {} s.pwr.used a).out

/-- An activity's use of the frame's budgets added. -/
def spend (s : State) (a bytes slots energy : Nat) : State :=
  let u := sget {} s.pwr.used a
  { s with pwr := { s.pwr with used := sset {} s.pwr.used a { u with bytes := u.bytes + bytes, slots := u.slots + slots, energy := u.energy + energy } } }

/-- An activity uses its budgets and goes on, or waits for the next pulse, its frame marked for EXHAUSTED (16, R414). -/
def withBudget (s : State) (a bytes slots energy : Nat) (go : State → State) : State :=
  let u := sget {} s.pwr.used a
  if budgetCovers s a bytes slots energy then go (spend s a bytes slots energy)
  else { s with pwr := { s.pwr with used := sset {} s.pwr.used a { u with out := true } } }

/-- At a frame pulse every budget is refilled; a frame in which one ran out counts in EXHAUSTED, and USED takes its energy (16, R414,
PWR_FBU_STAT). -/
def refillBudgets (s : State) : State :=
  let s1 := (below 8).foldl (fun t a =>
    let u := sget {} s.pwr.used a
    fs (bump t PWR_FBU_STAT_EXHAUSTED a (b2n u.out)) PWR_FBU_STAT_USED a (min 0xFFFF u.energy)) s
  { s1 with pwr := { s1.pwr with used := [] } }

end Sys2Proof.Machine
end

