-- ==== Sys2Proof/Machine/Crc.lean ====
section
/-!
DEFINITION. The module's checksums: the CRC-32 of the IEEE 802.3 polynomial (12, R306; 14, R346; 18, R444) and the CRC-8 of the
frame word (16, R384).
-/

namespace Sys2Proof.Machine

/-- One bit of the reflected CRC-32 register. -/
def crcBit (c : Nat) : Nat := if c % 2 = 1 then (c / 2) ^^^ 0xEDB88320 else c / 2

def crcByte (c : Nat) (b : Byte) : Nat :=
  crcBit (crcBit (crcBit (crcBit (crcBit (crcBit (crcBit (crcBit (c ^^^ b.toNat))))))))

/-- IEEE 802.3 CRC-32: initial value 0xFFFFFFFF, final complement. -/
def crc32 (bs : List Byte) : Nat := 0xFFFFFFFF - bs.foldl crcByte 0xFFFFFFFF

def crc8Bit (c : Nat) : Nat := if c ≥ 128 then (2 * c % 256) ^^^ 0x07 else 2 * c % 256

def crc8Byte (c : Nat) (b : Nat) : Nat :=
  crc8Bit (crc8Bit (crc8Bit (crc8Bit (crc8Bit (crc8Bit (crc8Bit (crc8Bit (c ^^^ b))))))))

/-- The CRC-8 of x^8 + x^2 + x + 1, initial value 0, no reflection, no final XOR (16, R384). -/
def crc8 (bs : List Nat) : Nat := bs.foldl crc8Byte 0

end Sys2Proof.Machine
end

