-- ==== Sys2Proof/Machine/Record.lean ====
section
/-!
DEFINITION. What the management controller writes down for every other unit: failure-record entries (20, R502, R503) and
telemetry events (18, R453).
-/

namespace Sys2Proof.Machine

/-- The frame number in effect (16, R383). -/
def frameNum (s : State) : Nat := fg s PWR_FRAME_NUM_HI_FRAME_HI 0 * 2 ^ 32 + (rd s PWR_FRAME_NUM_LO 0).toNat

/-- Whether frames are being synthesised (16, R388). -/
def frameSynth (s : State) : Bool := fg s PWR_FRAME_STATUS_SYNTH 0 == 1

/-- Whether a job is assigned (18, R450). -/
def hasJob (s : State) : Bool := fg s MC_STATUS_JOB 0 == 1

/-- Whether an accepted unassignment waits for its streams: JOB_UNASSIGN, or MODULE_RESET with UNASSIGN (18, R451, R469). -/
def unassigning (s : State) : Bool := s.mc.waiting.any (fun w => nth w.request 1 0 == 0x31 || nth w.request 1 0 == 0xA0)

/-- The running boot bank. -/
def runningBank (s : State) : Bank := nth s.banks (fg s MC_STATUS_BOOT_BANK 0) {}

/-- A 12-bit temperature in 0.125 °C as a 16-bit two's complement value. -/
def temp16 (t : Nat) : Nat := (signed 12 (t % 4096) % 2 ^ 16).toNat

/-- The highest of signed readings, 0 for none. -/
def hottestOf : List Nat → Int
  | [] => 0
  | t :: ts => ts.foldl (fun a x => max a (signed 12 (x % 4096))) (signed 12 (t % 4096))

/-- The highest die sensor reading (16, R404). -/
def hottestDie (s : State) : Int :=
  hottestOf ((below 20).flatMap (fun d => [fg s THM_DIE_W01_WS0 d, fg s THM_DIE_W01_WS1 d, fg s THM_DIE_W23_WS2 d,
    fg s THM_DIE_W23_WS3 d, fg s THM_DIE_SQ_SQ d]))

/-- A record of the configuration store queued to be programmed (14, R360). -/
def queueRecord (s : State) (r : StoreRec) : State := { s with store := { s.store with queue := s.store.queue ++ [r] } }

/-- A repair or a failed unit added to the field repair list, if it does not stand there yet (20, R493). -/
def recordRepair (s : State) (r : Repair) : State :=
  if s.store.repairs.contains r then s else queueRecord { s with store := { s.store with repairs := s.store.repairs ++ [r] } } .repair

/-- A new entry put at the front of the failure record, the 64 newest kept; while the record is sealed, and past the
fourth stream fault of a frame, the event counts in DROPPED instead (20, R502). -/
def failEntry (s : State) (kind tag unit code detail step : Nat) : State :=
  let f := s.store.fail
  if f.closed || (kind == 1 && f.faults ≥ 4) then bump s MOD_FAILREC_DROPPED 0 1
  else
    let e : FailEntry :=
      { eseq := f.eseq, frame := frameNum s, flags := b2n (frameSynth s) + 2 * b2n (fg s MC_STATUS_READY 0 == 0)
        kind := kind, tag := tag, unit := unit, code := code, detail := detail, job := s.mc.job, step := step
        power := fg s PWR_POWER_MEAS 0, point := fg s PWR_VF_POINT 0, stackT := temp16 (fg s THM_STATUS_HOTTEST 0)
        dieT := (hottestDie s % 2 ^ 16).toNat, colds := s.life.colds, resets := s.life.resets
        uncorr := s.life.uncorr, grown := fg s JNL_FLASH_GROWN_BAD 0, fwRev := (runningBank s).rev }
    let f' := { f with entries := (e :: f.entries).take 64, eseq := f.eseq + 1, faults := f.faults + b2n (kind == 1) }
    queueRecord { s with store := { s.store with fail := f' } } .entry

/-- No step of a stream belongs to the entry (20, R503). -/
def noStep : Nat := 0xFFFFFFFF

/-- An entry's 64 bytes (20, R503). -/
def FailEntry.bytes (e : FailEntry) : List Byte :=
  let body := toBytesLE 4 e.eseq ++ toBytesLE 5 e.frame ++ toBytesLE 1 e.flags ++ toBytesLE 2 e.kind ++
    toBytesLE 2 e.tag ++ toBytesLE 2 e.unit ++ toBytesLE 4 e.code ++ toBytesLE 4 e.detail ++ toBytesLE 4 e.job ++
    toBytesLE 4 e.step ++ toBytesLE 2 e.power ++ toBytesLE 1 e.point ++ toBytesLE 1 0 ++ toBytesLE 2 e.stackT ++
    toBytesLE 2 e.dieT ++ toBytesLE 4 e.colds ++ toBytesLE 4 e.resets ++ toBytesLE 4 e.uncorr ++
    toBytesLE 4 e.grown ++ toBytesLE 4 e.fwRev
  body ++ toBytesLE 4 (crc32 body)

/-- Unacknowledged events still held (18, R453). -/
def unacked (s : State) : Nat := (s.mc.events.filter (fun e => e.seq ≥ s.mc.acked)).length

/-- An event record's 32 bytes (18, R453). -/
def Event.bytes (e : Event) : List Byte :=
  toBytesLE 4 e.seq ++ toBytesLE 5 e.frame ++ toBytesLE 1 (b2n e.synth) ++ toBytesLE 2 e.code ++ toBytesLE 2 e.tag ++
  toBytesLE 2 e.unit ++ toBytesLE 8 e.d0 ++ toBytesLE 8 e.d1

/-- A reply packet: its 12-byte header, its data, its CRC (18, R444). -/
def replyBytes (ver op seq tier status detail : Nat) (data : List Byte) : List Byte :=
  let body := toBytesLE 1 ver ++ toBytesLE 1 op ++ toBytesLE 2 seq ++ toBytesLE 2 data.length ++ toBytesLE 1 (tier % 128 + 128) ++ [0] ++
    toBytesLE 2 status ++ toBytesLE 2 detail ++ data
  body ++ toBytesLE 4 (crc32 body)

/-- A packet sent to a peer of a transport (0 SMBus, 1 PCIe, 2 Ethernet, 3 mailbox). -/
def sendPacket (s : State) (dest : Nat × Nat) (bs : List Byte) : State := { s with mc := { s.mc with replies := s.mc.replies ++ [(dest, bs)] } }

/-- An event put at the end of the ring of 1,024; an unacknowledged one overwritten counts in LOST; it is also sent to UDP port 52,001 of
EVENT_DEST where that and the module's own address are set (18, R443, R453, R454; a UDP peer is its address times 2^16 and its port). -/
def raiseEvent (s : State) (code tag unit d0 d1 : Nat) : State :=
  let e : Event := ⟨s.mc.evseq, frameNum s, frameSynth s, code, tag, unit, d0 % 2 ^ 64, d1 % 2 ^ 64⟩
  let full := s.mc.events.length ≥ 1024
  let lost := full && (s.mc.events.head?.map (fun o => decide (o.seq ≥ s.mc.acked))).getD false
  let s1 := bump s MC_EVENT_LOST 0 (b2n lost)
  let s2 := { s1 with mc := { s1.mc with events := (if full then s1.mc.events.drop 1 else s1.mc.events) ++ [e], evseq := s1.mc.evseq + 1 } }
  let dest := baseItem s.store.base 0x0303
  if dest = 0 ∨ baseItem s.store.base 0x0300 = 0 then s2 else sendPacket s2 (2, dest * 2 ^ 16 + 52001) (replyBytes 2 0x4F 0 0 0 0 e.bytes)

/-! ### Uncorrectable errors (11, R291 to R295) -/

/-- The detail word of FLT_UNCORRECTABLE with the full location above it: store code, unit, location (11, R295). -/
def ueDetail (store unit loc : Nat) : Nat := store * 2 ^ 28 + unit % 2 ^ 12 * 2 ^ 16 + loc % 2 ^ 48 * 2 ^ 32

/-- An uncorrectable error noted: MOD_UE_INFO, its address, its counts (11, R295). -/
def noteUe (s : State) (detail tag : Nat) : State :=
  let s1 := wr s MOD_UE_INFO 0 (BitVec.ofNat 32 (detail % 2 ^ 32 + tag % 2 ^ 16))
  let s2 := wr s1 MOD_UE_ADDR_LO 0 (BitVec.ofNat 32 (detail / 2 ^ 32))
  let s3 := bump (fs s2 MOD_UE_ADDR_HI_OFFSET_HI 0 (detail / 2 ^ 64)) MOD_UE_ADDR_HI_COUNT 0 1
  { s3 with life := { s3.life with uncorr := s3.life.uncorr + 1 } }

/-- A stream fault's entry (20, R503, kind 0x0001), and its location where it is FLT_UNCORRECTABLE. -/
def failStream (s : State) (m tag code detail step : Nat) : State :=
  failEntry (if code = 0x12 then noteUe s detail tag else s) 1 tag m code (detail % 2 ^ 32) step

end Sys2Proof.Machine
end

