-- ==== Sys2Proof/Machine/Media.lean ====
section
/-!
DEFINITION. The media of Tier 3 (14_journal_flash.md, R338 to R341, R358): what reads, programs and erases of flash pages find, pages rebuilt or
lost, blocks retired into the bad-block table, wear, and the write protect of the power-fail sequence.
-/

namespace Sys2Proof.Machine

/-- The number of a block: those of the SLC region after those of the user region. -/
def blockKey (slc : Bool) (block : Nat) : Nat := b2n slc * 2 ^ 32 + block % 2 ^ 32
def slcBlock (k : Nat) : Bool := decide (k ≥ 2 ^ 32)

def flashBlock (s : State) (k : Nat) : FBlock := sget {} s.flash.blocks k
def setBlock (s : State) (k : Nat) (b : FBlock) : State := { s with flash := { s.flash with blocks := sset {} s.flash.blocks k b } }
def badBlock (s : State) (k : Nat) : Bool := s.store.bad.contains k

/-- A block retired at once (R339): it joins the bad-block table, GROWN_BAD counts it, and with fewer than 64 GiB of spare blocks of the user
region left, `spare` GiB, Tier 3 is degraded. -/
def retireBlock (s : State) (k spare : Nat) : State :=
  if badBlock s k then s
  else
    let s1 := queueRecord { s with store := { s.store with bad := s.store.bad ++ [k] } } .block
    let s2 := bump { s1 with flash := { s1.flash with blocks := s1.flash.blocks.filter (fun p => p.1 != k) } } JNL_FLASH_GROWN_BAD 0 1
    if !slcBlock k && decide (spare < 64) && fg s2 JNL_STATUS_T3_DEGRADED 0 == 0 then
      failEntry (fs s2 JNL_STATUS_T3_DEGRADED 0 1) 0x0012 0 0 spare 0 noStep
    else s2

/-- A page that neither its code nor its stripe or second copy gives back (R338): a journal record is no longer stored (R355). -/
def losePage (s : State) (p : FlashPage) : State :=
  match p with
  | .none => s
  | .record step =>
    let keep := s.flash.records.filter (fun r => r.step != step)
    let s1 := { s with flash := { s.flash with records := keep } }
    if keep.isEmpty then wr s1 JNL_LAST_STEP 0 0xFFFFFFFF else s1
  | _ => if s.flash.lost.contains p then s else { s with flash := { s.flash with lost := s.flash.lost ++ [p] } }

/-- Whether some block of a stored section, or of a run of the host device, is lost. -/
def lostSection (s : State) (step : Nat) : Bool :=
  s.flash.lost.any (fun p => match p with | .image st _ => st == step | _ => false)
def lostHost (s : State) (lba n : Nat) : Bool :=
  s.flash.lost.any (fun p => match p with | .host b => decide (lba ≤ b) && decide (b < lba + n) | _ => false)

/-- Blocks of the host device written anew, or deallocated, are no longer lost; nor are the sections of an image that is gone. -/
def findHost (s : State) (lba n : Nat) : State :=
  { s with flash := { s.flash with lost := s.flash.lost.filter (fun p => match p with | .host b => !(decide (lba ≤ b) && decide (b < lba + n)) | _ => true) } }
def forgetImages (s : State) (steps : List Nat) : State :=
  { s with flash := { s.flash with lost := s.flash.lost.filter (fun p => match p with | .image st _ => !(steps.contains st) | _ => true) } }

/-- One finding of the media (R338, R339, R341). A read counts in its block; a page that its code cannot correct retires the block, and is
rebuilt from the stripe's other pages, or the record's second copy, when every one of them is good (`peers` 0), and lost otherwise. A program
gives the block its age; an erase counts in its wear; either one's failure retires the block. -/
def flashEvent (s : State) (e : FlashEvt) : State :=
  let k := blockKey e.slc e.block
  let b := flashBlock s k
  if badBlock s k then s
  else
    match e.op with
    | 0 =>
      let s1 := setBlock s k { b with reads := b.reads + 1, hot := b.hot || e.soft }
      if !e.bad then s1
      else if e.peers = 0 then retireBlock s1 k e.spare
      else losePage (retireBlock s1 k e.spare) e.page
    | 1 => if e.bad then retireBlock s k e.spare else setBlock s k { b with written := some (b.written.getD (frameNum s)) }
    | _ => if e.bad then retireBlock s k e.spare else setBlock s k { erases := b.erases + 1 }

/-- The findings of an event, in order. -/
def flashEvents (s : State) (es : List FlashEvt) : State := es.foldl flashEvent s

/-! ### Retention refresh (R341) -/

/-- The reads after which a block is relocated, and the frames of a pass over the written pages, by region. -/
def readLimit (slc : Bool) : Nat := if slc then 2000000 else 200000
def passFrames (slc : Bool) : Nat := if slc then 2 ^ 21 else 2 ^ 20

/-- Whether a block is to be relocated: a codeword above 3×10⁻³ or soft reads, too many reads since it was programmed, or programmed more than
2^25 frames ago (R341). -/
def relocateDue (s : State) (k : Nat) : Bool :=
  let b := flashBlock s k
  b.hot || decide (b.reads > readLimit (slcBlock k)) ||
  (match b.written with | some f => decide (frameNum s > f + 2 ^ 25) | none => false)

/-- A block relocated: its data stands elsewhere, and it is erased later (R340, R341). -/
def relocate (s : State) (k : Nat) : State :=
  bump (setBlock s k { erases := (flashBlock s k).erases }) JNL_CNT_REFRESH 0 1

/-- The written blocks of a region. -/
def writtenBlocks (s : State) (slc : Bool) : List Nat :=
  (s.flash.blocks.filter (fun p => slcBlock p.1 == slc && p.2.written.isSome)).map Prod.fst

/-- A pass of the refresh: the blocks of a region that it has read; once every written one is read the next pass begins (R341). -/
def passRead (s : State) (slc : Bool) (ks : List Nat) : State :=
  let i := b2n slc
  let p := nth s.flash.passes i {}
  let seen := p.seen ++ ks.filter (fun k => !p.seen.contains k)
  let next := if (writtenBlocks s slc).all seen.contains then {} else { p with seen := seen }
  { s with flash := { s.flash with passes := setNth s.flash.passes i next } }

/-- A frame passes over the passes of the refresh; one whose interval has gone by begins anew. -/
def passFrame (s : State) : State :=
  { s with flash := { s.flash with passes := [false, true].map (fun slc =>
      let p := nth s.flash.passes (b2n slc) {}
      if p.age + 1 ≥ passFrames slc then {} else { p with age := p.age + 1 }) } }

/-! ### Wear (R340, R342) -/

/-- The bound on the differences of erase counts, and the rated cycles, by region (R340, R342). -/
def wearBound (slc : Bool) : Nat := if slc then 3000 else 300
def ratedCycles (slc : Bool) : Nat := if slc then 50000 else 3000

def regionBlocks (s : State) (slc : Bool) : SMap FBlock := s.flash.blocks.filter (fun p => slcBlock p.1 == slc)
def mostErased (s : State) (slc : Bool) : Nat := maxNat ((regionBlocks s slc).map (fun p => p.2.erases))

/-- Levelling: static data moves off the blocks that lie too far below the most erased one, which are erased (R340). -/
def level (s : State) (slc : Bool) : State :=
  let top := mostErased s slc
  { s with flash := { s.flash with blocks := s.flash.blocks.map (fun p =>
      if slcBlock p.1 == slc && decide (p.2.erases + wearBound slc < top) then (p.1, { erases := p.2.erases + 1 }) else p) } }

/-- The wear registers: percent of the rated cycles, by the most erased block (R342, JNL_FLASH; DESIGN CHOICE, log 71). -/
def showWear (s : State) : State :=
  let pc := fun slc => min 255 (mostErased s slc * 100 / ratedCycles slc)
  fs (fs s JNL_FLASH_WEAR_USER 0 (pc false)) JNL_FLASH_WEAR_SLC 0 (pc true)

/-- Wear management's findings, levelled after each, and orphaned blocks reclaimed (R340, R352). -/
def wearStep (s : State) (bytes : Nat) (es : List FlashEvt) : State :=
  let s1 := es.foldl (fun t e => level (level (flashEvent t e) false) true) s
  showWear { s1 with flash := { s1.flash with orphans := s1.flash.orphans - bytes } }

/-- Bytes of the image area orphaned: they are reclaimed by wear management (R352). -/
def orphan (s : State) (n : Nat) : State := { s with flash := { s.flash with orphans := s.flash.orphans + n } }

/-! ### The write protect of the power-fail sequence (R358) -/

/-- In the power-fail sequence, once no record copy is being programmed and the queued records of the configuration store, up to 8, are
committed, every die is idle and write protect is asserted (R358); a coolant stop alone stops short of it (16, R412). -/
def protectIdle (s : State) : State :=
  if s.pwr.warned ∧ fg s JNL_STATUS_PFW_ACTIVE 0 = 1 ∧ !(s.flash.commits.any Commit.burning) ∧ (s.store.queue.isEmpty ∨ s.flash.pfwLeft = 0) then
    { s with flash := { s.flash with protect := true } }
  else s

end Sys2Proof.Machine
end

