-- ==== Sys2Proof/Machine/Cache.lean ====
section
/-!
DEFINITION. The shared cache of a district (11_memory_tiers.md, R271 to R273): which Tier 1 blocks its slice holds, its hits and misses.
What it holds changes timing only, until a line fails (R293).
-/

namespace Sys2Proof.Machine

/-- The runs of a slice that enabled queues homed in it pin (R272; 05, R119). -/
def slicePins (s : State) (d : Nat) : List (Nat × Nat) :=
  ((rangeFrom (64 * firstWard s d) (64 * logicalOf s d)).filter (fun n => qEnabled s n && qHome s n == 1)).map (qSpan s)

/-- The ways of a set that no queue pins: line k of the set stands at slice offset 512 KiB × k + 256 × set (R271, R272). -/
def freeWays (pins : List (Nat × Nat)) (set : Nat) : List Nat :=
  (below 16).filter (fun k => !pins.any (overlaps (k * 0x80000 + set * 256, 256)))

/-- Sets whose 16 lines are all pinned (DIST_PIN). -/
def fullSets (pins : List (Nat × Nat)) : Nat := ((below 2048).filter (fun x => (freeWays pins x).isEmpty)).length

/-- A line access counted, in units of 65,536 (DIST_SC_CNT). -/
def countLine (s : State) (d : Nat) (hit : Bool) : State :=
  let (h, m) := sget (0, 0) s.lines d
  let h1 := h + b2n hit
  let m1 := m + b2n !hit
  let s1 := { s with lines := sset (0, 0) s.lines d (h1 % 65536, m1 % 65536) }
  bump (bump s1 DIST_SC_CNT_HIT d (h1 / 65536)) DIST_SC_CNT_MISS d (m1 / 65536)

/-- The lines of set `key` (2,048 × district + set) that cache a Tier 1 block: those of unpinned ways (R272). -/
def heldLines (s : State) (key : Nat) : List CLine :=
  (sget [] s.cache key).filter (fun l => (freeWays (slicePins s (key / 2048)) (key % 2048)).contains l.way)

/-- The set of a Tier 1 block and its stack-local index (R272). -/
def cacheKey (s : State) (a : Nat) : Nat := t1Stack s a * 2048 + t1Local s a / 256 % 2048
def cacheBlock (s : State) (a : Nat) : Nat := t1Local s a / 256

/-- One access of a Tier 1 block: a hit makes its line the latest; a miss of an allocating access takes a free way, the lowest first, or the
place of the unpinned line whose last access is oldest (R272, R273; DEDUCED, log 38). `dirty` says that the access leaves the line differing
from Tier 1, as an atomic or a host write does and a Mover's write does not. A dirty victim's bytes are those of memory all along. -/
def cacheTouch (s : State) (a : Nat) (alloc dirty : Bool) : State :=
  let key := cacheKey s a
  let block := cacheBlock s a
  let held := heldLines s key
  let put := fun (ls : List CLine) => { s with cache := sset [] s.cache key ls }
  match held.find? (fun l => l.block == block) with
  | some l => countLine (put ({ l with dirty := l.dirty || dirty } :: held.filter (fun x => x.way != l.way))) (key / 2048) true
  | none =>
    let place := if !alloc then none
      else ((freeWays (slicePins s (key / 2048)) (key % 2048)).find? (fun k => held.all (fun l => l.way != k))).orElse
        (fun _ => (held.getLast?).map CLine.way)
    countLine (put (match place with
      | some k => ⟨k, block, dirty⟩ :: held.filter (fun x => x.way != k)
      | none => held)) (key / 2048) false

/-- The blocks of a run of transactions accessed, where they are of Tier 1. -/
def cacheTouches (s : State) (alloc dirty : Bool) (ts : List (Int × Nat)) : State :=
  ts.foldl (fun t x => if 0 ≤ x.1 ∧ x.1 < (tier1Size : Int) then cacheTouch t x.1.toNat alloc dirty else t) s

/-- The line of the cache that holds a Tier 1 address, if any. -/
def lineAt (s : State) (a : Nat) : Option CLine :=
  if a < tier1Size then (heldLines s (cacheKey s a)).find? (fun l => l.block == cacheBlock s a) else none

/-- A line given up. -/
def dropLine (s : State) (key way : Nat) : State :=
  { s with cache := sset [] s.cache key ((sget [] s.cache key).filter (fun l => l.way != way)) }

/-- The byte of the slice that stands for a Tier 1 address held in a way (R271). -/
def lineOffset (s : State) (a way : Nat) : Nat := way * 0x80000 + cacheKey s a % 2048 * 256 + a % 256

/-! ### The harts' own caches (R274; 19, R475 to R479) -/

/-- Every host-core copy of the sectors of n bytes from a on invalidated, and the reservations on them broken (R274, R285; 19, R479). -/
def hostDrop (s : State) (a n : Nat) : State :=
  let hit := fun (line : Nat) => line * 64 < a + n && a < line * 64 + 64
  { s with host := { s.host with lines := s.host.lines.filter (fun l => !hit l.line), resv := s.host.resv.filter (fun r => !hit r.2) } }

/-- The lines of n bytes from a on. -/
def linesOf (a n : Nat) : List Nat := rangeFrom (a / 64) (ceilDiv (a % 64 + n) 64)

/-- A hart's store becomes globally visible (19, R475): to Tier 1 in its own caches, every other copy gone; else in its place. -/
def showStore (s : State) (x : HStore) : State :=
  let ls := linesOf x.addr x.bytes.length
  let s1 := memWrite s x.addr x.bytes
  if x.addr ≥ tier1Size then s1
  else
    { s1 with host := { s1.host with
        lines := s1.host.lines.filter (fun l => !ls.contains l.line) ++ ls.map (fun k => { hart := x.hart, line := k, dirty := true })
        resv := s1.host.resv.filter (fun r => r.1 == x.hart || !ls.contains r.2) } }

/-- FENCE W,O or a stronger one: the hart's stores become visible in order (19, R477). -/
def hostFence (s : State) (hart : Nat) : State :=
  let (mine, rest) := s.host.stores.partition (fun x => x.hart == hart)
  mine.foldl showStore { s with host := { s.host with stores := rest } }

end Sys2Proof.Machine
end

