-- ==== Sys2Proof/Machine/Errors.lean ====
section
/-!
DEFINITION. What reads and writes of the memories meet (11_memory_tiers.md, R280, R281, R283, R287, R291 to R296): corrections, resends,
errors beyond correction, poison, and lines of the shared cache that fail.
-/

namespace Sys2Proof.Machine

/-! ### Stores, units, sectors -/

/-- The size of what one poison mark covers: a Tier 1 sector, a Tier 2 block, a sector of a slice, a word of another SRAM (11, R281, R282,
R292, R293 and the protection table). -/
def sectorSize (a : Nat) : Nat := if a < tier1Size then 64 else if a < wardBase then 256 else if a < sliceBase then 8 else 64

def sectorOf (a : Nat) : Nat := a / sectorSize a * sectorSize a

/-- Where the model keeps the accumulator storage of logical ME n in lists of locations: it has no address (11, R295). -/
def accumKey (n off : Nat) : Nat := 2 ^ 61 + n * 0x80000 + off

/-- The detail of FLT_UNCORRECTABLE at an address (11, R295): of Tier 1 and Tier 2, kind 1 is an error found, 2 a sector poisoned already, 3
eight failed transmissions; an SRAM store has one code. -/
def ueAt (s : State) (kind a : Nat) : Nat :=
  if a < tier1Size then ueDetail kind (t1Stack s a) a
  else if a < wardBase then ueDetail (kind + 3) (t2Device (a - tier2Base)) (a - tier2Base)
  else if a < ctrlBase then ueDetail 7 ((a - wardBase) / 0x1000000) ((a - wardBase) % 0x1000000)
  else if a < ctrlBase + 0x2000000 then ueDetail 0xA ((a - ctrlBase - 0x1000000) / 0x8000) ((a - ctrlBase - 0x1000000) % 0x8000)
  else if a < sliceBase then ueDetail 0xB ((a - ctrlBase - 0x2000000) / 0x40000) ((a - ctrlBase - 0x2000000) % 0x40000)
  else if a < 2 ^ 61 then ueDetail 9 ((a - sliceBase) / sliceSize) ((a - sliceBase) % sliceSize)
  else ueDetail 8 ((a - 2 ^ 61) / 0x80000) ((a - 2 ^ 61) % 0x80000)

/-- The first poisoned unit of n bytes from a on. -/
def firstPoison (s : State) (a n : Nat) : Option Nat :=
  ((rangeFrom (a / 4) (ceilDiv (a % 4 + n) 4)).find? (fun p => s.poison.contains p)).map (fun p => max a (p * 4))

/-- A read of n bytes from a on that poison fails: the detail of its fault (11, R291, R292). -/
def poisonDetail (s : State) (a n : Nat) : Option Nat := (firstPoison s a n).map (ueAt s 2)

/-- The sectors that a write of n bytes from a on writes in part, which are read first (11, R286). -/
def partialSectors (a n : Nat) : List Nat :=
  if n = 0 then []
  else [sectorOf a, sectorOf (a + n - 1)].filter (fun b => b < a || a + n < b + sectorSize a)

/-- A poisoned sector that a write of n bytes from a on would write in part: of DRAM alone (11, R292). -/
def partialPoison (s : State) (a n : Nat) : Option Nat :=
  if a ≥ wardBase then none else (partialSectors a n).find? (fun b => poisoned s b (sectorSize b))

/-! ### Corrections and resends (11, R280, R283, R287) -/

/-- The channel of a Tier 1 offset (11, R278). -/
def t1Channel (s : State) (off : Nat) : Nat := t1Local s off / 256 % 32

/-- The district whose counters hold a place's SRAM corrections (11, R287). -/
def sramDistrict (s : State) (a : Nat) : Nat :=
  let unit := bits (ueAt s 1 a) 27 16
  if a < sliceBase then districtOf s unit else if a < 2 ^ 61 then unit else districtOf s (unit / 4)

/-- n sectors or words corrected and counted (11, R287). -/
def noteCorrected (s : State) (a n : Nat) : State :=
  if a < tier1Size then bump s DIST_MEM_ERR_T1_CORRECTED (t1Stack s a) n
  else if a < wardBase then bump s MOD_T2_DEV_CORRECTED (t2Device (a - tier2Base)) n
  else bump s DIST_MEM_ERR_SRAM_CORRECTED (sramDistrict s a) n

/-- Resends on a link in this frame. -/
def addResent (s : State) (k n : Nat) : State :=
  { s with links := { s.links with resent := sset 0 s.links.resent k (sget 0 s.links.resent k + n) } }

/-- Blocks of Tier 1 resent on the vertical interface, or of Tier 2 on its link (11, R280, R283): a channel past 256 in the frame is
marked for retraining at the next module reset. -/
def noteResent (s : State) (a n : Nat) : State :=
  if a < tier1Size then
    let k := 32 * t1Stack s a + t1Channel s a
    let s1 := addResent (bump s DIST_MEM_ERR_VI_RESEND (t1Stack s a) n) k n
    if sget 0 s1.links.resent k > 256 then fs s1 MOD_T1_CFG_RETRAIN_DUE 0 1 else s1
  else if a < wardBase then
    addResent (bump s MOD_T2_DEV_LINK_RESEND (t2Device (a - tier2Base)) n) (1024 + t2Device (a - tier2Base)) n
  else s

/-! ### Errors beyond correction (11, R291 to R296) -/

/-- A location that fails again after it was rewritten goes to the failure record (11, R296; 20, R503, kind 0x0006). -/
def noteWorn (s : State) (a : Nat) : State :=
  let d := ueAt s 1 a
  let s1 := if s.worn.contains (sectorOf a) then failEntry s 6 0 (bits d 27 16) (bits d 31 28) (d / 2 ^ 32 % 2 ^ 32) noStep else s
  { s1 with worn := if s.worn.contains (sectorOf a) then s.worn else sectorOf a :: s.worn }

/-- A sector or word found beyond correction: poisoned at once, or marked (11, R291, R293). One that is poisoned still has not been rewritten
and is no second failure. -/
def markLost (s : State) (a : Nat) : State :=
  if a ≥ 2 ^ 61 then noteWorn s a
  else if poisoned s (sectorOf a) (sectorSize a) then s
  else poisonAt (noteWorn s a) (sectorOf a) (sectorSize a)

/-- A cache line beyond correction (11, R293): a clean one is refetched and counts as a correction; a dirty one is written back with its
sectors poisoned, and the access that met it fails. -/
def badLine (s : State) (a : Nat) : State × Option Nat :=
  match lineAt s a with
  | none => (s, none)
  | some l =>
    let k := sliceKey (t1Stack s a) (lineOffset s a l.way)
    let s1 := dropLine s (cacheKey s a) l.way
    if l.dirty then (poisonAt (noteWorn s1 k) (a / 256 * 256) 256, some (ueAt s 1 k))
    else (noteCorrected s1 k 1, none)

def inRuns (runs : List (Nat × Nat)) (a : Nat) : Bool := runs.any (fun r => r.1 ≤ a && a < r.1 + r.2)

/-- The address that an error names. -/
def errAddr : MemErr → Option Nat
  | .corrected a => some a
  | .lost a => some a
  | .line a => some a
  | .failed a => some a
  | .resent a _ => some a
  | _ => none

/-- What an access of the bytes in `runs` meets (DESIGN CHOICE, log 29): its counts and marks, and the detail of the error that fails it. A
block that fails has been sent eight times, seven of them again (11, R280, R283). -/
def meetErr (s : State) (err : MemErr) (runs : List (Nat × Nat)) : State × Option Nat :=
  if !((errAddr err).map (inRuns runs)).getD false then (s, none)
  else
    match err with
    | .corrected a => (noteCorrected s a 1, none)
    | .lost a => (markLost s a, some (ueAt s 1 a))
    | .line a => badLine s a
    | .failed a => if a < wardBase then (noteResent s a 7, some (ueAt s 3 a)) else (s, none)
    | .resent a n => (if n ≤ 7 then noteResent s a n else s, none)
    | _ => (s, none)

/-- What a write of n bytes from a on meets: transmissions of its own, and what the sectors that it writes in part hold. -/
def writeErr (s : State) (err : MemErr) (a n : Nat) : State × Option Nat :=
  match err with
  | .failed _ => meetErr s err [(a, n)]
  | .resent _ _ => meetErr s err [(a, n)]
  | .line _ => (s, none)
  | _ => meetErr s err ((partialSectors a n).map (fun b => (b, sectorSize b)))

/-- An uncorrectable error met by a background activity: noted, a record entry, an event; no stream faults (11, R294). -/
def backgroundNote (s : State) (detail : Nat) : State :=
  let loc := detail / 2 ^ 32
  let store := bits detail 31 28
  raiseEvent (failEntry (noteUe s detail 0) 5 0 (bits detail 27 16) store (loc % 2 ^ 32) noStep) 0x000B 0 store loc 0

end Sys2Proof.Machine
end

