-- ==== Sys2Proof/Machine/Seq.lean ====
section
/-!
DEFINITION. What the ward sequencers and the engines share: which command an engine executes, reading and pushing
tiles, popping, completion and retirement, taking a stream fault, settling the tiles of a stopped command, and the
quiescence condition (05_queues_commands.md, R123 to R134; 06_loops_flags_faults.md, R154, R166, R172 to R175).
-/

namespace Sys2Proof.Machine

/-! ### Engines and their buffers (05, R133) -/

/-- Engine codes (06, WARD_SBLOCK): 0 to 3 ME, 4 VE, 5 UE, 6 and 7 Movers, 8 spill and fold unit, 9 district unit,
10 the sequencer. FOLD runs by the home of its first input queue (05, R143). -/
def engineOf (s : State) (w : Nat) (c : Cmd) : Nat :=
  match c.opcode with
  | 0x08 => c.unit % 4
  | 0x09 => c.unit % 4
  | 0x10 => 4
  | 0x28 => 4
  | 0x18 => 5
  | 0x20 => if qHome s (inQ w c 0) = 1 then 9 else 8
  | 0x31 => 9
  | 0x48 => 10
  | 0x49 => 10
  | 0x50 => 10
  | 0x58 => 10
  | _ => 6 + c.unit % 2

/-- Commands each engine holds (05, R133). -/
def engineDepth (e : Nat) : Nat :=
  if e < 4 then 2 else if e = 4 then 4 else if e = 5 then 2 else if e < 8 then 8 else 4

def ekey (w e : Nat) : Nat := 16 * w + e
def ebuf (s : State) (w e : Nat) : List (Nat × Nat) := sget [] s.engines (ekey w e)
def setEbuf (s : State) (w e : Nat) (b : List (Nat × Nat)) : State :=
  { s with engines := sset [] s.engines (ekey w e) b }
def ebufRemove (s : State) (w e m num : Nat) : State :=
  setEbuf s w e ((ebuf s w e).filter (fun p => !(p.1 == m && p.2 == num)))

/-- The kernel header a VOP copied at load (07, R180), first of `ext`. -/
def kHeader (c : Cmd) : Nat := nth c.ext 0 0
def kIter (c : Cmd) : Nat := bits (kHeader c) 55 54
/-- The format a PUSH narrows to (07, R181). -/
def pushFmt (c : Cmd) (e : Nat) : Nat := if e = 1 ∧ bits (kHeader c) 49 46 ≠ 0 then bits (kHeader c) 49 46 else c.fmtOut
def kPush (c : Cmd) (e : Nat) : Nat := if e = 0 then bits (kHeader c) 53 52 else bits (kHeader c) 51 50

/-- The library kernels: entry, ITER, PUSH0, PUSH1 and OUT1_FMT of each header (07, R180, R181, R189; the output formats of KE_ATTN_INIT and
KE_SWIGLU_BWD are DEDUCED, log 15). -/
def libKernels : List (Nat × Nat × Nat × Nat × Nat) :=
  [(0x100, 1, 2, 0, 0), (0x200, 1, 2, 1, 1), (0x210, 0, 1, 1, 1), (0x211, 0, 1, 1, 1), (0x212, 0, 1, 0, 0), (0x213, 0, 1, 1, 1),
   (0x300, 0, 1, 0, 0), (0x301, 0, 1, 0, 0), (0x302, 0, 1, 0, 0), (0x400, 0, 1, 1, 0), (0x401, 0, 1, 1, 0),
   (0x410, 0, 1, 1, 0), (0x411, 0, 1, 1, 0), (0x412, 0, 1, 1, 0), (0x413, 0, 1, 1, 0), (0x414, 0, 1, 1, 0), (0x415, 0, 1, 1, 0),
   (0x420, 0, 1, 0, 0), (0x421, 0, 1, 0, 0), (0x422, 0, 1, 0, 0), (0x423, 0, 1, 0, 0), (0x424, 0, 1, 0, 0), (0x425, 0, 1, 0, 0),
   (0x500, 0, 1, 0, 0), (0x501, 0, 1, 0, 0)]

/-- Entries of the library kernels (07, R189). -/
def libEntries : List Nat := libKernels.map Prod.fst

/-- The header word of the library kernel at an entry (07, R180). -/
def libHeader (entry : Nat) : Option Nat :=
  (libKernels.find? (fun k => k.1 == entry)).map (fun k =>
    0xA7 * 2 ^ 56 + k.2.1 * 2 ^ 54 + k.2.2.1 * 2 ^ 52 + k.2.2.2.1 * 2 ^ 50 + k.2.2.2.2 * 2 ^ 46)

/-- Whether a VOP runs a library kernel. -/
def isLibrary (c : Cmd) : Bool := libEntries.contains (bits c.imm 15 0)

/-- Whether a command takes a whole run of level 0 as one unit: a VOP with ITER = 1 (07, R179), a factored apply
(09, R225). -/
def isGrouped (c : Cmd) : Bool :=
  (c.opcode == 0x10 && kIter c == 1) || (c.opcode == 0x18 && bits c.mode 2 0 == 0)

/-- The iteration vectors of the levels from 1 up, level 1 varying fastest (07, R179). -/
def outerFrom (d : List Word64) (bnd : List Nat) : Nat → List Nat → List (List Nat)
  | l + 2, above => (below (levelCount d bnd (l + 1) above)).flatMap (fun i => outerFrom d bnd (l + 1) (i :: above))
  | _, above => [above]

/-- The runs of level 0, one for each iteration of the levels above it: the indices above, and the run's vectors, none where a ragged bound
is 0 (07, R179). -/
def levelRuns (c : Cmd) : List (List Nat × List (List Nat)) :=
  (outerFrom c.desc c.bounds (dLevels c.desc) []).map (fun a => (a, (below (levelCount c.desc c.bounds 0 a)).map (fun i => i :: a)))

def its (c : Cmd) : List (List Nat) := walk c.desc c.bounds

/-- The tile that iteration v reads on input end e: by the strides of an engine descriptor, or, for a Mover, whose queue
end takes one tile for each iteration, by its number in the walk (06, R154, R157; 13, R321). -/
def endOffset (c : Cmd) (e : Nat) (v : List Nat) : Int :=
  if dKind c.desc = 2 then ((its c).idxOf v : Nat) else inOffset c.desc e v

/-- The units of a command's walk, in order: single iterations or runs; a kernel is invoked for an empty run too (07, R179). -/
def units (c : Cmd) : List (List (List Nat)) :=
  if !isGrouped c then (its c).map (fun v => [v])
  else
    let rs := (levelRuns c).map Prod.snd
    if c.opcode = 0x10 then rs else rs.filter (fun r => !r.isEmpty)

/-- The vectors of the invocation in progress: its run or its one iteration. -/
def runOf (c : Cmd) : List (List Nat) := nth (units c) c.iter []

/-- Pushes an invocation makes on an end (07, R180). -/
def pushesDue (c : Cmd) (e : Nat) : Nat :=
  match kPush c e with
  | 0 => 0
  | 1 => 1
  | _ => (runOf c).length

/-- An MMA or MMA_WG's vectors without its reduction level: its output tiles in push order (06, R155). -/
def dropLevel (l : Nat) (v : List Nat) : List Nat := v.take l ++ v.drop (l + 1)

/-- The open set and outer iterations: the walk with the reduction level counted once (06, R155, R159). -/
def tileDesc (d : List Word64) : List Word64 :=
  if dRedEn d then
    let i := 5 + 2 * dRedLevel d
    setNth d i (BitVec.ofNat 64 (dword d i % 2 ^ 32 + 2 ^ 32))
  else d

def isMma (c : Cmd) : Bool := c.opcode == 0x08 || c.opcode == 0x09

/-- The output tiles of a matrix product, as vectors of the walk with the reduction index 0. A ragged reduction
level counts once here whatever its bound. -/
def mmaTiles (c : Cmd) : List (List Nat) :=
  let d := tileDesc c.desc
  if dRedEn c.desc ∧ dRagEn c.desc ∧ dRagLevel c.desc = dRedLevel c.desc then
    walk d (c.bounds.map (fun _ => 1))
  else walk d c.bounds

/-- Steps of a matrix product: (vector, whether it multiplies). An outer iteration whose reduction counts 0 gives
one step per open tile that multiplies nothing and pushes +0 (06, R153). -/
def mmaSteps (c : Cmd) : List (List Nat × Bool) :=
  let r := dRedLevel c.desc
  let vs := its c
  if !dRedEn c.desc then vs.map (fun v => (v, true))
  else
    let outers := ((mmaTiles c).map (fun v => v.drop (r + 1))).eraseDups
    outers.flatMap (fun o =>
      let mine := vs.filter (fun v => v.drop (r + 1) = o)
      if mine.isEmpty then ((mmaTiles c).filter (fun v => v.drop (r + 1) = o)).map (fun v => (v, false))
      else mine.map (fun v => (v, true)))

/-- How many units a command's walk has. -/
def unitCount (c : Cmd) : Nat := if isMma c then (mmaSteps c).length else (units c).length

/-- The command an engine executes: the oldest in its buffer whose walk is not done, a
matrix product's final drains (aux) included (05, R133; DEDUCED, log 13). -/
def jobIn (s : State) : List (Nat × Nat) → Option (Nat × Cmd)
  | [] => none
  | (m, k) :: rest =>
    match findCmd (stream s m).cmds k with
    | some c => if c.phase = .issued ∧ (c.iter < unitCount c ∨ (isMma c ∧ c.aux ≠ 0)) then some (m, c) else jobIn s rest
    | none => jobIn s rest

def job (s : State) (w e : Nat) : Option (Nat × Cmd) := jobIn s (ebuf s w e)

/-- Whether engine e of ward w runs: its ward is ACTIVE, or it is the ward's share of the district unit, which the
square clocks (17, R417; 13, R329). -/
def engineRuns (s : State) (w e : Nat) : Bool := e == 9 || wardActive s w

/-- Whether an engine's starts are withheld altogether: a Class F command at b = 1, unless a Class L command waits behind it in the
engine (16, R392); any ME, VE or UE command while Class L is bubbled in full (16, R393) or while the district holds its wards for a late
wake (15, R381). A smaller fraction delays starts and stops none. -/
def withheld (s : State) (w e m : Nat) : Bool :=
  (fg s WARD_SCFG_CLASS m == 1 && e < 8 && s.pwr.bub == 64 && !(ebuf s w e).any (fun p => fg s WARD_SCFG_CLASS p.1 == 0)) ||
  (e < 6 && (s.pwr.causes.any (fun c => c == 2 || c == 3 || c == 5) || (distOf s (districtOf s w)).hold))

/-- The command of opcode op that engine e of ward w executes. -/
def jobOf (s : State) (w e op : Nat) : Option (Nat × Cmd) :=
  match job s w e with
  | some (m, c) => if c.opcode = op ∧ engineRuns s w e ∧ !withheld s w e m then some (m, c) else none
  | none => none

/-! ### Reading inputs, pushing outputs, popping -/

/-- What an engine gets from a read: a value, a wait, or a fault with its detail. -/
inductive Got (α : Type) where
  | ok (a : α)
  | wait
  | fault (code detail : Nat)
deriving DecidableEq, Repr

def Got.bind {α β : Type} : Got α → (α → Got β) → Got β
  | .ok a, f => f a
  | .wait, _ => .wait
  | .fault c d, _ => .fault c d

/-- The bytes of a tile of a queue: its slot and its header. -/
def slotRuns (s : State) (n p : Nat) : List (Nat × Nat) := [(slotKey s n p, qSlotBytes s n), (hdrKey s n p, 16)]

/-- The tile at sequence number p of a queue: a wait while it is not visible, FLT_TRUNCATED_INPUT for a truncated
one (06, R172), FLT_UNCORRECTABLE for poisoned data (11, R291). -/
def readTile (s : State) (n p : Nat) : Got (Hdr × List Byte) :=
  if p ≥ (queueRt s n).tail then .wait
  else
    let h := readHdr s n p
    match poisonDetail s (hdrKey s n p) 16, poisonDetail s (slotKey s n p) (qSlotBytes s n) with
    | some d, _ => .fault 0x12 d
    | none, bad =>
      if h.truncated then .fault 0x13 h.ptag
      else
        match bad with
        | some d => .fault 0x12 d
        | none => .ok (h, memRead s (slotKey s n p) (qSlotBytes s n))

/-- The tile an iteration reads on input end e of its command. -/
def readIn (s : State) (w : Nat) (c : Cmd) (e : Nat) (off : Int) : Got (Hdr × List Byte) :=
  readTile s (inQ w c e) (nth c.inBase e 0 + off.toNat)

def inUsed (c : Cmd) (e : Nat) : Bool := inPresent (c.inp e)

/-- Tiles that one offset of an input end stands for: a REDUCE counts rounds of NRANK tiles (13, R329). -/
def tileScale (c : Cmd) : Nat := if c.opcode = 0x31 then bits c.imm 7 0 else 1

/-- Whether the tile, or round, at offset o of end e is visible. -/
def offVisible (s : State) (w : Nat) (c : Cmd) (e : Nat) (v : List Nat) : Bool :=
  nth c.inBase e 0 + ((endOffset c e v).toNat + 1) * tileScale c - 1 < (queueRt s (inQ w c e)).tail

/-- Whether every tile that a unit reads is visible. -/
def inputsVisible (s : State) (w : Nat) (c : Cmd) (vs : List (List Nat)) : Bool :=
  (below 4).all (fun e => !inUsed c e || vs.all (offVisible s w c e))

/-- Whether output end e has free slots for its next n tiles. -/
def canPush (s : State) (w : Nat) (c : Cmd) (e n : Nat) : Bool :=
  !outPresent (c.out e) || n == 0 || qFree s (outQ w c e) (nth c.outBase e 0 + nth c.outFill e 0 + n - 1)

/-- A tile pushed on output end e: the next reserved number of the end (05, R124). -/
def pushOut (s : State) (m w : Nat) (c : Cmd) (e : Nat) (h : Hdr) (bs : List Byte) : State × Cmd :=
  let s1 := qPush s (outQ w c e) (nth c.outBase e 0 + nth c.outFill e 0)
    { h with ptag := c.tag, marks := h.marks % 0x80 + mkValid } bs
  let c1 := { c with outFill := setNth c.outFill e (nth c.outFill e 0 + 1) }
  (setCmd s1 m c1, c1)

/-- The smallest offset an end still reads over remaining vectors, as a count of tiles to pop. -/
def popTarget (c : Cmd) (e : Nat) (rem : List (List Nat)) : Nat :=
  match rem with
  | [] => nth c.inRes e 0
  | v :: vs =>
    min (nth c.inRes e 0) (vs.foldl (fun a u => min a (endOffset c e u).toNat) (endOffset c e v).toNat)

/-- Pops: tile p of an end goes once it is visible and no remaining iteration reads an offset at or below p; a KEEP end pops nothing
(06, R154). -/
def popEnds (s : State) (m w : Nat) (c : Cmd) (rem : List (List Nat)) : State × Cmd :=
  (below 4).foldl (fun (t : State × Cmd) e =>
    if inUsed t.2 e && !inKeep (t.2.inp e) then
      let goal := min (popTarget t.2 e rem * tileScale t.2) ((queueRt t.1 (inQ w t.2 e)).tail - nth t.2.inBase e 0)
      let from0 := nth t.2.inPop e 0
      let s1 := (rangeFrom from0 (goal - from0)).foldl (fun u p => qPop u (inQ w t.2 e) (nth t.2.inBase e 0 + p)) t.1
      let c1 := { t.2 with inPop := setNth t.2.inPop e (max from0 goal) }
      (setCmd s1 m c1, c1)
    else t) (s, c)

/-- The vectors of a command's walk still to read. -/
def vectorsLeft (c : Cmd) : List (List Nat) :=
  if isMma c then ((mmaSteps c).drop c.iter).map Prod.fst else ((units c).drop c.iter).flatten

/-- One unit of the walk done: the iteration count advances and tiles past use are popped. -/
def unitDone (s : State) (m w : Nat) (c : Cmd) : State :=
  let c1 := { c with iter := c.iter + 1 }
  (popEnds (setCmd s m c1) m w c1 (vectorsLeft c1)).1

/-- The visible tiles that no iteration to come reads, popped of every issued command that takes queue n (06, R154). -/
def popUnread (s : State) (n : Nat) : State :=
  let w := n / 64
  (rangeFrom (8 * w) 8).foldl (fun t m =>
    ((stream t m).cmds.filter (fun c => c.phase == .issued && (below 4).any (fun e => inUsed c e && inQ w c e == n))).foldl
      (fun u c => (popEnds u m w c (vectorsLeft c)).1) t) s

/-! ### Stopping commands (06, R170 to R174) -/

/-- The tiles of a stopped command settled: TRUNCATED set in every tile it pushed that is not yet popped, and a
placeholder pushed for every number it reserved and did not fill. Answers the number of tiles marked. -/
def settleEnd (s : State) (w : Nat) (c : Cmd) (e : Nat) : State × Nat :=
  if !outPresent (c.out e) then (s, 0)
  else
    let n := outQ w c e
    let base := nth c.outBase e 0
    let fill := nth c.outFill e 0
    let res := nth c.outRes e 0
    let fmt := if c.opcode = 0x10 then pushFmt c e else c.fmtOut
    let q := queueRt s n
    let done := rangeFrom base fill
    let vis := done.filter (qVisible q)
    let hid := done.filter (fun p => p ≥ q.tail)
    let s1 := vis.foldl (fun t p =>
      let a := hdrKey t n p + 1
      memWrite t a [BitVec.ofNat 8 ((readByte t a).toNat ||| mkTruncated)]) s
    let q1 := queueRt s1 n
    let marked := q1.pushed.map (fun x =>
      if hid.contains x.1 then (x.1, ⟨{ x.2.hdr with marks := x.2.hdr.marks ||| mkTruncated }, x.2.placeholder⟩) else x)
    let holes := (rangeFrom (base + fill) (res - fill)).map (fun p =>
      (p, (⟨{ ptag := c.tag, marks := mkValid + mkTruncated, fmt := fmt, rows := 1, cols := 1 }, true⟩ : Pushed)))
    (setQueue s1 n { q1 with pushed := marked ++ holes }, vis.length + hid.length + holes.length)

/-- A stopped command's pop reservations withdrawn: RESV_POP back to its lowest unpopped number (06, R170). -/
def withdrawPops (s : State) (w : Nat) (c : Cmd) : State :=
  (below 4).foldl (fun t e =>
    if inUsed c e && !inKeep (c.inp e) then
      let n := inQ w c e
      let q := queueRt t n
      setQueue t n { q with resvPop := min q.resvPop (nth c.inBase e 0 + nth c.inPop e 0) }
    else t) s

/-- An ME with nothing in progress (03, R79, R87). -/
def clearMe (s : State) (n : Nat) : State :=
  let s1 := fs (fs (fs { s with me := sset {} s.me n {} } ME_STATUS_BUSY n 0) ME_STATUS_OPEN n 0) ME_STATUS_SPILLING n 0
  fs (fs s1 ME_STATUS_E48_RES n 0) ME_STATUS_INT32 n 0

/-- A UE with no command in progress: the column accumulator stays (09, R233, R245). -/
def clearUe (s : State) (w : Nat) : State :=
  let u := sget {} s.ue w
  fs (fs { s with ue := sset {} s.ue w { u with sched := [], run := none, terms := [] } } UE_STATUS_BUSY w 0) UE_STATUS_PASS w 0

/-- The engine's own working state of a stopped command cleared: open tiles and spill slots of an ME, the invocation
of a VE, the run of a UE (03, R79; 09, R233). -/
def clearEngine (s : State) (w : Nat) (c : Cmd) : State :=
  match c.opcode with
  | 0x08 => clearMe s (4 * w + c.unit)
  | 0x09 => clearMe s (4 * w + c.unit)
  | 0x10 =>
    fs { s with ve := sset {} s.ve w {} } VE_STATUS_BUSY w 0
  | 0x28 => fs s VE_STATUS_BUSY w 0
  | 0x18 => clearUe s w
  | _ => s

/-- Whether a command is the one its engine executes. -/
def executing (s : State) (w m : Nat) (c : Cmd) : Bool :=
  (job s w (engineOf s w c)).map (fun p => (p.1, p.2.num)) == some (m, c.num)

/-- The tiles of a final drain pushed while their slots are free, with those left. -/
def pushDrain (m w : Nat) : State → Cmd → List (Hdr × List Byte) → State × Cmd × List (Hdr × List Byte)
  | s, c, [] => (s, c, [])
  | s, c, o :: os =>
    if canPush s w c 0 1 then
      let r := pushOut s m w c 0 o.1 o.2
      pushDrain m w r.1 r.2 os
    else (s, c, o :: os)

/-- Tiles of an ME in their final drain complete and push when a stop comes (06, R171). -/
def flushDrain (s : State) (m w : Nat) (c : Cmd) : State × Cmd :=
  if isMma c && executing s w m c then
    let n := 4 * w + c.unit
    let rt := sget {} s.me n
    let (s1, c1, left) := pushDrain m w s c rt.out
    let c2 := { c1 with aux := left.length }
    (setCmd { s1 with me := sset {} s1.me n { rt with out := left } } m c2, c2)
  else (s, c)

/-- A Tier 2 slot's user gone: READERS or WRITERS falls by one; a PUBLISH that stops early sets INVALID (10, R252). -/
def releaseSlot (s : State) (c : Cmd) (early : Bool) : State :=
  match c.slot with
  | none => s
  | some k =>
    if c.opcode = 0x38 then
      let s1 := fs s MOD_T2SLOT_USE_WRITERS k (fg s MOD_T2SLOT_USE_WRITERS k - 1)
      if early then fs s1 MOD_T2SLOT_CTL_INVALID k 1 else s1
    else fs s MOD_T2SLOT_USE_READERS k (fg s MOD_T2SLOT_USE_READERS k - 1)

/-- A record handed over and not yet being programmed goes with its command (06, R171). -/
def dropCommit (s : State) (m : Nat) (c : Cmd) : State :=
  { s with flash := { s.flash with commits := s.flash.commits.filter (fun k => !(k.m == m && k.num == c.num && !k.burning)) } }

/-- An issued command stopped or removed: its final drain flushed, its outputs settled, its pops withdrawn, its
place in its engine given up. Answers the number of tiles marked (DEDUCED, log 12) (DEDUCED, log 25). -/
def stopCmd (s : State) (m : Nat) (c : Cmd) : State × Nat :=
  let w := m / 8
  let (s0, c0) := flushDrain (dropCommit s m c) m w c
  let s1 := if executing s0 w m c0 then clearEngine s0 w c0 else s0
  let (s2, n0) := settleEnd s1 w c0 0
  let (s3, n1) := settleEnd s2 w c0 1
  (ebufRemove (releaseSlot (withdrawPops s3 w c0) c0 true) w (engineOf s3 w c0) m c.num, n0 + n1)

/-- The commands cs stopped, the youngest first; each is dropped from its stream. Answers commands and tiles. -/
def stopCmds (s : State) (m : Nat) (cs : List Cmd) : State × Nat × Nat :=
  cs.reverse.foldl (fun (t : State × Nat × Nat) c =>
    let (s1, n) := if c.phase = .issued then stopCmd t.1 m c else (t.1, 0)
    let x := stream s1 m
    (setStream s1 m { x with cmds := x.cmds.filter (fun k => k.num != c.num) }, t.2.1 + 1, t.2.2 + n)) (s, 0, 0)

/-- Whether an invocation of a command is in progress on its ward's VE. -/
def invoked (s : State) (m : Nat) (c : Cmd) : Bool :=
  let v := sget {} s.ve (m / 8)
  c.opcode == 0x10 && v.active && v.stream == m && v.num == c.num

/-- Whether a command is short of its stop point: an output tile of a VE invocation or of a final drain, a tile whose remote reads are
outstanding, or a journal commit is in progress (06, R171). -/
def midTile (s : State) (m : Nat) (c : Cmd) : Bool :=
  let w := m / 8
  let v := sget {} s.ve w
  (invoked s m c && (decide (v.push0 < pushesDue c 0) || decide (v.push1 < pushesDue c 1))) ||
  (isMma c && executing s w m c && (sget {} s.me (4 * w + c.unit)).out != []) ||
  s.txns.any (fun t => t.m == m && t.num == c.num && t.ty == 2) ||
  (c.opcode == 0x40 && s.flash.commits.any (fun k => k.m == m && k.num == c.num && k.burning))

/-- Whether an issued command has done all that a stop could cut short: it goes on to complete (06, R170, R171, R174). A JOURNAL whose record
waits to be programmed has not. -/
def pastWalk (c : Cmd) : Bool :=
  c.phase == .issued && decide (unitCount c ≤ c.iter) && !((isMma c || c.opcode == 0x40) && c.aux != 0)

/-- Commands sent to their stop points: each stops at once but one with an output tile, a tile or a journal commit in progress, which is marked
to stop at its end; those past their walk go on (06, R171, R174). Answers commands and tiles. -/
def haltCmds (s : State) (m : Nat) (cs : List Cmd) : State × Nat × Nat :=
  (cs.filter (fun c => !pastWalk c)).reverse.foldl (fun (t : State × Nat × Nat) c0 =>
    let (s1, c) := if c0.phase = .issued then flushDrain t.1 m (m / 8) c0 else (t.1, c0)
    if c.phase == .issued && midTile s1 m c then (setCmd s1 m { c with stopping := true }, t.2.1, t.2.2)
    else
      let r := stopCmds s1 m [c]
      (r.1, t.2.1 + r.2.1, t.2.2 + r.2.2)) (s, 0, 0)

/-! ### Faults (06, R174, R175, R178) -/

/-- The stream's fault block, and the failure-record entry that every stream fault writes (06, R175; 20, R503). -/
def writeFault (s : State) (m code tag detail num : Nat) : State :=
  let s0 := failStream s m tag code detail (rd s WARD_SSTEP m).toNat
  let s1 := fs (fs s0 WARD_SFAULT_CODE m code) WARD_SFAULT_FTAG m tag
  let s2 := wr s1 WARD_SFAULT_DETAIL m (BitVec.ofNat 32 detail)
  let s3 := wr s2 WARD_SFAULT_INDEX m (BitVec.ofNat 32 num)
  wr s3 WARD_SFAULT_FRAME m (rd s3 PWR_FRAME_NUM_LO 0)

/-- An execution fault of command c: it stops at once, later commands are removed or stop, earlier ones go on;
STATE reads ABORTING until they have retired or stopped. A fault after an accepted abort or an earlier fault goes
to the failure record and stops only its own command; a FAULTED or ABORTED stream raises none (DEDUCED, log 67). -/
def execFault (s : State) (m : Nat) (c : Cmd) (code detail : Nat) : State :=
  let x := stream s m
  match x.st with
  | .enabled =>
    let (s0, _) := haltCmds s m (x.cmds.filter (fun k => decide (k.num > c.num) && k.phase != .complete))
    let (s1, _) := stopCmds s0 m [c]
    let s2 := writeFault s1 m code c.tag detail c.num
    setStream s2 m { stream s2 m with st := .faulting }
  | .aborting => (stopCmds (failStream s m c.tag code detail c.step) m [c]).1
  | .faulting => (stopCmds (failStream s m c.tag code detail c.step) m [c]).1
  | _ => s

/-- A load or issue fault: nothing that has issued stops (05, R132; 06, R174). -/
def issueFault (s : State) (m : Nat) (c : Cmd) (code detail : Nat) : State :=
  let x := stream s m
  let s1 := writeFault s m code c.tag detail c.num
  setStream s1 m { x with st := .faulting, cmds := x.cmds.filter (fun k => k.phase != .loaded) }

/-! ### Completion and retirement (05, R134) -/

/-- Every tile a command reserved on an output end is visible. -/
def outputsVisible (s : State) (w : Nat) (c : Cmd) : Bool :=
  (below 2).all (fun e => !outPresent (c.out e) || nth c.outRes e 0 == 0 ||
    nth c.outBase e 0 + nth c.outRes e 0 ≤ (queueRt s (outQ w c e)).tail)

/-- Retire the completed prefix of a stream: RETIRED and LAST_TAG move with each (05, R134); a command behind one that
stopped never retires (06, R170). -/
def retire : Nat → State → Nat → State
  | 0, s, _ => s
  | f + 1, s, m =>
    let x := stream s m
    match x.cmds with
    | c :: cs =>
      if c.phase = .complete ∧ c.num = fg s WARD_SDONE_RETIRED m then
        let s1 := fs (fs s WARD_SDONE_RETIRED m (fg s WARD_SDONE_RETIRED m + 1)) WARD_SSTAT_LAST_TAG m c.tag
        retire f (setStream s1 m { x with cmds := cs }) m
      else s
    | [] => s

/-- A command is complete: phase, engine place, retirement. Its signal is the caller's. -/
def markComplete (s : State) (m : Nat) (c : Cmd) : State :=
  let s0 := releaseSlot s c false
  let s1 := ebufRemove (setCmd s0 m { c with phase := .complete, slot := none }) (m / 8) (engineOf s0 (m / 8) c) m c.num
  retire ((stream s1 m).cmds.length) s1 m

/-- The local signal of a completed command (05, R134; 06, R161); a signal aimed at a dark ward faults the stream
(06, R176). -/
def applySignal (s : State) (m : Nat) (c : Cmd) : State × Option (Nat × Nat) :=
  if !c.sigEn then (s, none)
  else
    let w := if c.sigWard = 0x7F then m / 8 else c.sigWard
    if isDark s w then (s, some (0x14, w)) else (signalFlag s (flagIdx w c.sigFlag) c.sigInc, none)

/-! ### Waiting, blocking, quiescence (05, R125; 06, R166) -/

/-- The command that issues next. -/
def nextLoaded (x : Stream) : Option Cmd := x.cmds.find? (fun c => c.phase = .loaded)

def waitMet (s : State) (m : Nat) (c : Cmd) : Bool :=
  !c.waitEn || flagReached s (flagIdx (m / 8) c.waitFlag) c.waitCount

/-- Output tiles the next unit of a command pushes on end e. -/
def pushesNext (c : Cmd) (e : Nat) : Nat :=
  match c.opcode with
  | 0x01 => if e = 0 then 1 else 0
  | 0x18 => 1
  | 0x20 => if e = 0 then 1 else 0
  | 0x28 => if e = 0 then 1 else 0
  | 0x31 => if e = 0 then 1 else 0
  | _ => 0

/-- The vectors whose tile the next event of a command reads on end e. A factored apply reads in its first pass every
tile of the run but, of the state tiles, the first only; in its second pass one tile of each end (09, R230). -/
def readsNext (s : State) (w : Nat) (c : Cmd) (e : Nat) : List (List Nat) :=
  if isMma c then
    match (mmaSteps c)[c.iter]? with
    | some (v, true) => [v]
    | _ => []
  else
    let vs := nth (units c) c.iter []
    if c.opcode == 0x18 && bits c.mode 2 0 == 0 then
      match (sget {} s.ue w).run with
      | some r => (vs.drop r.done).take 1
      | none => if e = 1 then vs.take 1 else vs
    else vs

/-- The input tiles that an executing command waits for under R125: queue and sequence number, at most one for each end. -/
def waitsIn (s : State) (w : Nat) (c : Cmd) : List (Nat × Nat) :=
  if c.opcode = 0x10 && (sget {} s.ve w).active then []
  else
    (below 4).filterMap (fun e =>
      if !inUsed c e then none
      else ((readsNext s w c e).find? (fun v => !offVisible s w c e v)).map (fun v =>
        (inQ w c e, nth c.inBase e 0 + ((endOffset c e v).toNat + 1) * tileScale c - 1)))

/-- Tiles that the next event of a VOP in progress pushes on an end: a user kernel at a PUSH word, a library kernel with tiles due. -/
def veNeed (s : State) (w : Nat) (c : Cmd) (e : Nat) : Nat :=
  let v := sget {} s.ve w
  let word := ofBytesLE (memRead s (kstoreKey w (8 * v.pc)) 8)
  if !v.active then 0
  else if isLibrary c then b2n (decide ((if e = 0 then v.push0 else v.push1) < pushesDue c e))
  else b2n (bits word 63 56 == 0x2B && bits word 31 24 == e)

/-- The queues whose free slots an executing command waits for under R125. A library kernel goes on while either of its ends can; the first pass
of a factored apply pushes nothing (09, R230). -/
def waitsOut (s : State) (w : Nat) (c : Cmd) : List Nat :=
  let need := fun e =>
    if isMma c then b2n (e == 0 && (sget {} s.me (4 * w + c.unit)).out != [])
    else if c.opcode = 0x10 then veNeed s w c e
    else if c.opcode = 0x18 ∧ bits c.mode 2 0 = 0 ∧ (sget {} s.ue w).run.isNone then 0
    else pushesNext c e
  if c.opcode = 0x10 && isLibrary c && (below 2).any (fun e => need e == 1 && canPush s w c e 1) then []
  else (below 2).filterMap (fun e => if canPush s w c e (need e) then none else some (outQ w c e))

/-- The wait of the command an engine executes: (2, queue) for an empty input, (3, queue) for a full output, the outputs first. -/
def engineWait (s : State) (w e : Nat) : Option (Nat × Nat) :=
  match job s w e with
  | none => none
  | some (_, c) =>
    match waitsOut s w c, waitsIn s w c with
    | q :: _, _ => some (3, q)
    | [], p :: _ => some (2, p.1)
    | [], [] => none

/-- The bytes of the tiles that the next event of a command reads. -/
def endRuns (s : State) (w : Nat) (c : Cmd) : List (Nat × Nat) :=
  (below 4).flatMap (fun e => if !inUsed c e then []
    else (readsNext s w c e).flatMap (fun v =>
      (rangeFrom (nth c.inBase e 0 + (endOffset c e v).toNat * tileScale c) (tileScale c)).flatMap (slotRuns s (inQ w c e))))

/-- What engine e of ward w meets in the runs that its next event reads: nothing while it waits (11, R291). -/
def engineMeets (s : State) (w e : Nat) (err : MemErr) (runs : List (Nat × Nat)) : State × Option Nat :=
  if (engineWait s w e).isSome then (s, none) else meetErr s err runs

/-- An event of the command of opcode op on engine e of ward w, whose own reads (its input tiles and the runs `more` adds) may meet an
error: one beyond correction faults its stream (11, R291). -/
def withErr (s : State) (w e op : Nat) (err : MemErr) (more : Cmd → List (Nat × Nat)) (go : State → State) : State :=
  match jobOf s w e op with
  | none => go s
  | some (m, c) =>
    match engineMeets s w e err (endRuns s w c ++ more c) with
    | (s1, some d) => execFault s1 m c 0x12 d
    | (s1, none) => go s1

/-- Why a stream is blocked (06, R166, WARD_SBLOCK): cause, object's ward, object, tag, target. -/
def blockCause (s : State) (m : Nat) : Option (Nat × Nat × Nat × Nat × Nat) :=
  let x := stream s m
  let w := m / 8
  if x.st ≠ .enabled then none
  else
    let byIssue := match nextLoaded x with
      | none => none
      | some c =>
        if !waitMet s m c then
          if fg s WARD_FCFG_EXT (flagIdx w c.waitFlag) = 0 then some (1, w, c.waitFlag, c.tag, c.waitCount) else none
        else
          let e := engineOf s w c
          if c.fault.isNone && e < 10 && (ebuf s w e).length ≥ engineDepth e && (!c.fence || x.cmds.head? == some c)
          then some (4, w, e, c.tag, 0) else none
    match byIssue with
    | some b => some b
    | none =>
      match x.cmds.head? with
      | none => none
      | some c =>
        if c.phase ≠ .issued then none
        else
          let e := engineOf s w c
          match job s w e with
          | none => none
          | some (m', c') =>
            match engineWait s w e with
            | none => none
            | some (cause, q) =>
              if m' = m ∧ c'.num = c.num then some (cause, q / 64, q % 64, c.tag, 0) else some (4, w, e, c.tag, 0)

/-- Whether a stream is IDLE: every available command retired (05). -/
def isIdle (s : State) (m : Nat) : Bool :=
  (stream s m).cmds.isEmpty && (stream s m).avail == fg s WARD_SFETCH_LOADED m

def waitsExt (s : State) (m : Nat) : Bool :=
  match nextLoaded (stream s m) with
  | some c => !waitMet s m c && fg s WARD_FCFG_EXT (flagIdx (m / 8) c.waitFlag) == 1
  | none => false

/-- Whether an engine executes: a command in one that waits for nothing, an ME's latch still draining, a journal record being programmed, a
pushed tile next in order to become visible, or an issued command with nothing left to do but complete (06, R166). -/
def engineBusy (s : State) : Bool :=
  s.engines.any (fun p => (job s (p.1 / 16) (p.1 % 16)).isSome && (engineWait s (p.1 / 16) (p.1 % 16)).isNone) ||
  s.me.any (fun p => p.2.latch.isSome) || !s.flash.commits.isEmpty ||
  s.queues.any (fun p => match findPushed p.2.pushed p.2.tail with
    | some x => !x.placeholder || qFree s p.1 p.2.tail
    | none => false) ||
  s.streams.any (fun p => p.2.cmds.any (fun c => pastWalk c && outputsVisible s (p.1 / 8) c))

/-- The module is quiescent (06, R166). -/
def quiescent (s : State) : Bool :=
  let on := s.streams.filter (fun p => p.2.st != .disabled)
  on.all (fun p =>
    (match p.2.st with
     | .enabled => (blockCause s p.1).isSome || isIdle s p.1
     | .faulted => true
     | .aborted => true
     | _ => false) && !waitsExt s p.1)
  && on.any (fun p => (blockCause s p.1).isSome)
  && !engineBusy s && s.txns.isEmpty

/-- A moment at which the module is not quiescent ends the episode, and the detector watches only while ENABLE is 1 (06, R166 to R168;
DEDUCED, log 60). Every command that can move a stream, a queue or a flag ends with this. -/
def breakQuiet (s : State) : State :=
  if !quiescent s then { s with quiet := none, stalled := false }
  else if fg s MOD_QUIESCE_CFG_ENABLE 0 = 0 then { s with quiet := none }
  else s

/-- The ward vote that a stream's state and class ask for, 5 for none (17, R424). -/
def wantedVote (s : State) (m : Nat) : Nat :=
  let f := fg s WARD_SCFG_CLASS m == 1
  match (stream s m).st with
  | .enabled =>
    if isIdle s m then fg s (if f then PWR_SVOTE_F_IDLE else PWR_SVOTE_L_IDLE) 0
    else fg s (if f then PWR_SVOTE_F_WAIT else PWR_SVOTE_L_WAIT) 0
  | .aborting => fg s (if f then PWR_SVOTE_F_WAIT else PWR_SVOTE_L_WAIT) 0
  | .faulting => fg s (if f then PWR_SVOTE_F_WAIT else PWR_SVOTE_L_WAIT) 0
  | _ => 5

/-- Votes that become shallower or are withdrawn take effect at once, and deeper ones where HOLD is 0 (17, R422, R424). -/
def syncVotes (s : State) : State :=
  { s with streams := smapVals {} (fun m x =>
      let v := wantedVote s m
      let now := if v = 5 ∨ fg s PWR_SVOTE_HOLD 0 = 0 then v else min x.vote v
      { x with vote := now, judged := min x.judged now }) s.streams }

/-- What follows every command that can move a stream, a queue or a flag. -/
def observe (s : State) : State := breakQuiet (syncVotes s)

end Sys2Proof.Machine
end

