-- ==== Sys2Proof/Machine/Flags.lean ====
section
/-!
DEFINITION. Counted events: CNT_OVERFLOW and CNT_NAN_CREATED of each engine, the narrow-format counters of a ward, and
the step totals they enter (02, R37 to R39, R51; 04_numerics_contract.md, R113 to R115, R535).
-/

namespace Sys2Proof.Machine

def totalsOf : List (Nat × StepTotals) → Nat → StepTotals
  | [], _ => {}
  | (k, t) :: ts, st => if k = st then t else totalsOf ts st

def setTotals (ts : List (Nat × StepTotals)) (st : Nat) (t : StepTotals) : List (Nat × StepTotals) :=
  (st, t) :: ts.filter (fun p => p.1 != st)

/-- Overflow and NaN-creation events enter the totals of the command's step index (04, R113, R115); nothing of a
step that this job has journalled. -/
def addEvTotals (s : State) (st : Nat) (e : Ev) : State :=
  if s.watch.journaled.contains st || (e.ovf == 0 && e.nanc == 0) then s
  else
    let t := totalsOf s.watch.totals st
    { s with watch := { s.watch with totals := setTotals s.watch.totals st { t with ovf := t.ovf + e.ovf, nanc := t.nanc + e.nanc } } }

/-- A unit's pair of CNT_OVERFLOW and CNT_NAN_CREATED, and the step totals. -/
def countEv (s : State) (ovf nanc : Fld) (i st : Nat) (e : Ev) : State :=
  addEvTotals (bump (bump s ovf i e.ovf) nanc i e.nanc) st e

def countMe (s : State) (n st : Nat) (e : Ev) : State := countEv s ME_NUMCNT_OVERFLOW ME_NUMCNT_NAN_CREATED n st e
def countVe (s : State) (w st : Nat) (e : Ev) : State := countEv s VE_NUMCNT_OVERFLOW VE_NUMCNT_NAN_CREATED w st e
def countUe (s : State) (w st : Nat) (e : Ev) : State := countEv s UE_NUMCNT_OVERFLOW UE_NUMCNT_NAN_CREATED w st e
/-- The ward's spill and fold unit (04, R535) and the district unit (13, R331). -/
def countFold (s : State) (w st : Nat) (e : Ev) : State :=
  countEv s WARD_NCNT_FOLD_OVERFLOW WARD_NCNT_FOLD_NAN_CREATED w st e
def countDist (s : State) (d st : Nat) (e : Ev) : State := countEv s DIST_REDNUM_OVERFLOW DIST_REDNUM_NAN_CREATED d st e

/-- The narrow-format counters of a ward (04, R115). -/
def bumpNarrow (s : State) (w : Nat) (n : NEv) : State :=
  let s := bump s WARD_NCNT_FLUSH_FLUSHED w n.flushed
  let s := bump s WARD_NCNT_SAT_SATURATED w n.sat
  let s := bump s WARD_NCNT_ZBLK_BLOCK_ZEROED w n.zeroed
  let s := bump s WARD_NCNT_ZBLK_ZERO_BLOCK w n.zblk
  let s := bump s WARD_NCNT_SBLK_RESCUE w n.rescue
  let s := bump s WARD_NCNT_SBLK_BLOCK_SATURATED w n.satblk
  let s := bump s WARD_NCNT_MISC_CODE_RESERVED w n.codeRes
  bump s WARD_NCNT_MISC_NAN_BLOCK w n.nanblk

/-- A counted tile push or write (04, R113, R114): the ward's counters, and the totals of its step; for a step whose
JOURNAL has issued it is excluded and sets WATCH_LATE, events or none. -/
def countNarrow (s : State) (w st : Nat) (n : NEv) : State :=
  let s := bumpNarrow s w n
  if s.watch.journaled.contains st then fs s MOD_NUMERICS_WATCH_LATE 0 1
  else
    let t := totalsOf s.watch.totals st
    let t' := { t with flushed := t.flushed + n.flushed, sat := t.sat + n.sat, zeroed := t.zeroed + n.zeroed,
                       zblk := t.zblk + n.zblk, rescue := t.rescue + n.rescue, satblk := t.satblk + n.satblk,
                       nanblk := t.nanblk + n.nanblk, codeRes := t.codeRes + n.codeRes }
    { s with watch := { s.watch with totals := setTotals s.watch.totals st t' } }

/-- A reserved T2 code read (02, R43): the ward's counter and the step total. -/
def countReserved (s : State) (w st k : Nat) : State :=
  let s := bump s WARD_NCNT_MISC_CODE_RESERVED w k
  if s.watch.journaled.contains st || k == 0 then s
  else
    let t := totalsOf s.watch.totals st
    { s with watch := { s.watch with totals := setTotals s.watch.totals st { t with codeRes := t.codeRes + k } } }

/-- The marks that a narrowing's events set in the tile's header (05, R122, R144). -/
def narrowMarks (n : NEv) : Nat :=
  (if n.rescue > 0 then mkRescued else 0) + (if n.sat > 0 then mkSatAny else 0) +
  (if n.zeroed > 0 then mkZeroedAny else 0) + (if n.nanblk > 0 then mkNanAny else 0)

/-- The job seed (02, R55). -/
def jobSeed (s : State) : Nat := (rd s MOD_KERF_SEED_HI 0).toNat * 2 ^ 32 + (rd s MOD_KERF_SEED_LO 0).toNat

end Sys2Proof.Machine
end

