-- ==== Sys2Proof/Machine/Operands.lean ====
section
/-!
DEFINITION. The operand forms of a command and the sequencer's load checks: what each opcode takes in its ends, format
fields, MODE and IMM bits, its descriptor's form, and the fault and detail word of each failing check
(05_queues_commands.md, R136 to R149; 06_loops_flags_faults.md, R150 to R158, R176, R536; 07, R180; 09, R223 to R225).
-/

namespace Sys2Proof.Machine

/-! ### Detail words (06, R536) -/

/-- A field of the command: its word and its lowest bit. -/
def cmdField (word pos : Nat) : Nat := word * 2 ^ 30 + pos
/-- A field of the descriptor: its 64-bit word and its lowest bit. -/
def descField (word pos : Nat) : Nat := 2 ^ 29 + word * 2 ^ 24 + pos

/-- The position of the lowest nonzero bit (0 for none), for reserved bits. -/
def lowBitAux : Nat → Nat → Nat → Nat
  | 0, _, _ => 0
  | f + 1, n, i => if bit n i then i else lowBitAux f n (i + 1)
def lowBit (n : Nat) : Nat := lowBitAux 64 n 0

/-- A failing check: its fault code and detail word. -/
abbrev Check := Option (Nat × Nat)

def illegalField (d : Nat) : Check := some (0x02, d)
def check (ok : Bool) (d : Nat) : Check := if ok then none else illegalField d

/-- The first failing check of a list. -/
def firstFail : List Check → Check
  | [] => none
  | some f :: _ => some f
  | none :: cs => firstFail cs

/-! ### Opcodes (05, R140) -/

def opcodes : List Nat :=
  [0x01, 0x02, 0x03, 0x08, 0x09, 0x10, 0x18, 0x20, 0x28, 0x30, 0x31, 0x38, 0x40, 0x41, 0x48, 0x49, 0x50, 0x58]

def isMove (op : Nat) : Bool := op == 1 || op == 2 || op == 3
/-- Opcodes on a Mover (05, R133). -/
def isMover (op : Nat) : Bool := isMove op || op == 0x30 || op == 0x38 || op == 0x40 || op == 0x41
/-- Opcodes the sequencer executes at issue; they read no descriptor (06, R150). -/
def isSeqOp (op : Nat) : Bool := op == 0x48 || op == 0x49 || op == 0x50 || op == 0x58
def usesUnit (op : Nat) : Bool := isMover op || op == 8 || op == 9

/-- UPDATE's MODE fields (09, R223). -/
def updRule (c : Cmd) : Nat := bits c.mode 2 0
def updMom (c : Cmd) : Bool := bit c.mode 3
def updMx (c : Cmd) : Bool := bit c.mode 4
def updMask (c : Cmd) : Nat := bits c.mode 6 5
def updClear (c : Cmd) : Bool := bit c.mode 7

/-- Whether an end is required, optional or absent. -/
inductive Need where
  | req | opt | absent
deriving DecidableEq, Repr

/-- Input ends by opcode (05, R140; 09, R224). -/
def inNeed (c : Cmd) (e : Nat) : Need :=
  match c.opcode with
  | 0x02 => if e = 0 then .req else .absent
  | 0x08 => if e < 2 then .req else if e = 2 then .opt else .absent
  | 0x09 => if e < 2 then .req else if e = 2 then .opt else .absent
  | 0x10 => .opt
  | 0x18 =>
    (match updRule c with
     | 0 => if e < 3 then .req else if updMask c = 0 then .absent else .req
     | 1 => if e < 2 then .req else if e = 2 then .absent else if updMask c = 0 then .absent else .req
     | 2 => .absent
     | _ => if e < 3 then .req else .absent)
  | 0x20 => if e = 0 then .req else .opt
  | 0x28 => if e = 0 then .req else .absent
  | 0x30 => if e = 0 then .req else .absent
  | 0x31 => if e = 0 then .req else .absent
  | 0x40 => if e = 0 then .opt else .absent
  | _ => .absent

/-- Output ends by opcode. -/
def outNeed (c : Cmd) (e : Nat) : Need :=
  match c.opcode with
  | 0x01 => if e = 0 then .req else .absent
  | 0x08 => if e = 0 then .req else .absent
  | 0x09 => if e = 0 then .req else .absent
  | 0x10 => .opt
  | 0x18 =>
    (match updRule c with
     | 0 => if e = 0 then .req else .opt
     | 1 => if e = 0 then .req else .opt
     | 2 => .req
     | _ => if e = 0 then .req else .absent)
  | 0x20 => if e = 0 then .req else .absent
  | 0x28 => if e = 0 then .req else .absent
  | 0x31 => if e = 0 then .req else .absent
  | _ => .absent

def inPos (e : Nat) : Nat := 32 + 8 * e
def outPos (e : Nat) : Nat := if e = 0 then 32 else 48

/-- An input end: required is present; one with PRESENT at 0 is all zeros, its bits reserved (05, R137, R139). -/
def checkIn (c : Cmd) (e : Nat) : Check :=
  let v := c.inp e
  let pos := cmdField 1 (inPos e)
  let zero := check (inPresent v || v == 0) (cmdField 1 (inPos e + lowBit v))
  match inNeed c e with
  | .req => check (inPresent v) pos
  | .opt => zero
  | .absent => firstFail [zero, check (v == 0) pos]

/-- An output end, its reserved bits among them. -/
def checkOut (c : Cmd) (e : Nat) : Check :=
  let v := c.out e
  let pos := cmdField 0 (outPos e)
  let zero := check (outPresent v || v == 0) (cmdField 0 (outPos e + lowBit v))
  let res := if bits v 7 6 = 0 then none else illegalField (cmdField 0 (outPos e + 6 + lowBit (bits v 7 6)))
  match outNeed c e with
  | .req => firstFail [res, check (outPresent v) pos]
  | .opt => firstFail [res, zero]
  | .absent => firstFail [zero, check (v == 0) pos]

/-- The wards a command names are below the count in effect, or 0x7F (05, R146; 06, R176). -/
def checkWards (s : State) (c : Cmd) : Check :=
  let bad := fun w => w ≠ 0x7F && w ≥ wardCount s
  firstFail ((below 2).map (fun e =>
      if outPresent (c.out e) && bad (outWardField (c.out e)) then some (0x03, outWardField (c.out e)) else none)
    ++ [if c.sigEn && bad c.sigWard then some (0x03, c.sigWard) else none])

/-! ### Format fields (05, R138, R140, R141; 03, R62, R73) -/

def validFmt (f : Nat) : Bool := f ≤ 12
def meOperand (f : Nat) : Bool := f == 2 || isNarrow f

def checkFormats (c : Cmd) : Check :=
  let a := c.fmtA
  let b := c.fmtB
  let o := c.fmtOut
  let pa := cmdField 1 12
  let pb := cmdField 1 16
  let po := cmdField 1 20
  match c.opcode with
  | 0x08 => firstFail [check (meOperand a) pa, check (meOperand b) pb, check (1 ≤ o && o ≤ 3) po,
      check (!(bit c.mode 0) || (isIntFmt a && isIntFmt b)) (cmdField 1 0)]
  | 0x09 => firstFail [check (meOperand a) pa, check (meOperand b) pb, check (o == 1 || o == 3) po,
      check (!(bit c.mode 0) || (isIntFmt a && isIntFmt b)) (cmdField 1 0)]
  | 0x10 => firstFail [check (validFmt a) pa, check (validFmt b) pb, check (validFmt o) po]
  | 0x20 => firstFail [check (a == 0) pa, check (b == 0) pb, check (1 ≤ o && o ≤ 3) po]
  | 0x28 => firstFail [check (a == 1 || a == 2) pa, check (b == 0) pb, check (isNarrow o) po]
  | 0x31 => firstFail [check (a == 0) pa, check (b == 0) pb, check (o == 1) po]
  | op =>
    if isMove op then
      firstFail [check (validFmt a) pa, check (b == 0) pb, check (validFmt o) po,
        check ((a == 0) == (o == 0)) (if a = 0 then pa else po)]
    else firstFail [check (a == 0) pa, check (b == 0) pb, check (o == 0) po]

/-- A MOVE that converts: its formats differ (05, R141). -/
def converts (c : Cmd) : Bool := isMove c.opcode && c.fmtA != c.fmtOut

/-! ### Control, MODE and IMM bits (05, R139, R140) -/

/-- MODE bits an opcode may set. -/
def modeMask (c : Cmd) : Nat :=
  match c.opcode with
  | 0x08 => 3
  | 0x09 => 3
  | 0x10 => 0xFFF
  | 0x18 =>
    (match updRule c with
     | 0 => 0xFF
     | 1 => 0x7F
     | _ => 0x07)
  | 0x28 => 0x3FF
  | 0x58 => 1
  | _ => 0

/-- IMM bits an opcode may set. -/
def immMask (op : Nat) : Nat :=
  match op with
  | 0x01 => 2 ^ 64 - 1
  | 0x02 => 2 ^ 64 - 1
  | 0x03 => 2 ^ 64 - 1
  | 0x09 => 2 ^ 40 - 1
  | 0x10 => 2 ^ 64 - 1
  | 0x18 => 2 ^ 56 - 1
  | 0x28 => 2 ^ 32 - 1
  | 0x30 => 2 ^ 64 - 1
  | 0x31 => 0xFF
  | 0x38 => 2 ^ 64 - 1
  | 0x40 => 0xFF
  | 0x41 => 2 ^ 64 - 1
  | 0x50 => 0xFFF
  | 0x58 => 2 ^ 64 - 1
  | _ => 0

/-- Bits of n outside a mask. -/
def outside (n mask : Nat) : Nat := n - (n &&& mask)

def checkReserved (c : Cmd) : Check :=
  let op := c.opcode
  let m := outside c.mode (modeMask c)
  let i := outside c.imm (immMask op)
  firstFail [
    check (!(bit c.ctrl 0)) (cmdField 0 8),
    check (!(bit c.w2.toNat 32)) (cmdField 2 32),
    check (usesUnit op || c.unit == 0) (cmdField 0 (9 + lowBit c.unit)),
    check (!(isMover op) || c.unit < 2) (cmdField 0 9),
    check (m == 0) (cmdField 1 (lowBit m)),
    check (i == 0) (cmdField 3 (lowBit i)),
    check (!(isSeqOp op) || c.loopIx == 0) (cmdField 1 24),
    check (op != 0x48 || c.waitEn) (cmdField 0 15),
    check (op != 0x49 || c.sigEn) (cmdField 0 14),
    check (op != 0x50 || bits c.imm 7 0 != 0) (cmdField 3 0)]

/-- UPDATE's reserved codes (09, R223). -/
def checkUpdateMode (c : Cmd) : Check :=
  if c.opcode ≠ 0x18 then none
  else firstFail [check (updRule c < 4) (cmdField 1 0), check (updMask c != 3) (cmdField 1 5),
    check (updMom c || !(updMx c)) (cmdField 1 4)]

/-- Random stream numbers outside the reserved ranges (02, R56). -/
def checkRstream (c : Cmd) : Check :=
  let r := c.rstream
  check (!((0xF200 ≤ r && r ≤ 0xFEFF) || 0xFF04 ≤ r)) (cmdField 2 48)

def checkSigInc (c : Cmd) : Check := check (!c.sigEn || c.sigInc != 0) (cmdField 2 40)

/-! ### Loop descriptors (06, R151, R152, R158) -/

/-- Chip number of a global address, and whether it names this module (00, R16; 05, R141). -/
def chipOf (a : Nat) : Nat := bits a 63 48
def offsetOf (a : Nat) : Nat := bits a 47 0
def isLocal (s : State) (a : Nat) : Bool :=
  chipOf a == 0xFFFF || (fg s FAB_CHIP_VALID 0 == 1 && chipOf a == fg s FAB_CHIP_CHIP 0)

/-- The walk with its ragged level at the ceiling. -/
def ceilWalk (d : List Word64) : List (List Nat) :=
  walk d (List.replicate (boundCount d) (dCount d (dRagLevel d)))

/-- Output tiles held open: the counts below the reduction level, at their ceilings (06, R155). -/
def openSet (d : List Word64) : Nat :=
  if dRedEn d then (below (dRedLevel d)).foldl (fun a l => a * dCount d l) 1 else 1

/-- The output tile of vector v is a 128×64 half tile: its B tile has the 64 lines of the 64 columns that the descriptor gives it, and the
command adds in FP32 with ward-store spill into FP32, the one mode and output that R65 and R75 give half tiles (03, R66; DEDUCED, log 7). -/
def isHalf (c : Cmd) (d : List Word64) (v : List Nat) : Bool :=
  bits c.mode 1 0 == 0 && c.fmtOut == fFp32 && colsOf (dRowLen d) (elemBaseOf d v) == 64

/-- Accumulator storage that an open tile takes, in halves of a full tile (03, R75). -/
def tileHalves (c : Cmd) (d : List Word64) (v : List Nat) : Nat := if isHalf c d v then 1 else 2

/-- Open tiles within the limit: 5 in E48-resident mode, else 8 full tiles or 16 half tiles (03, R75). -/
def openFits (c : Cmd) (d : List Word64) : Bool :=
  if bit c.mode 1 then openSet d ≤ 5
  else openSet d ≤ 8 || (openSet d ≤ 16 &&
    (let tiles := walk (tileDesc d) (List.replicate (boundCount d) (dCount d (dRagLevel d)))
     let r := dRedLevel d + 1
     tiles.all (fun t => sumNat ((tiles.filter (fun u => u.drop r = t.drop r)).map (tileHalves c d)) ≤ 16)))

/-- Columns to a row of a wide tile in a queue's slots: 128 where a full tile fits, else 64 where a half tile does, else what 128 rows leave
(03, R65; DEDUCED, log 20). -/
def slotCols (f slot : Nat) : Nat :=
  if slot ≥ tileBytes f then 128 else if 2 * slot ≥ tileBytes f then 64 else slot / (16 * elemBits f)

def checkLevelRecords (d : List Word64) : Check :=
  firstFail ((below 6).map (fun l =>
    let lo := dword d (4 + 2 * l)
    let hi := dword d (5 + 2 * l)
    if l ≥ dLevels d then
      firstFail [check (lo == 0) (descField (4 + 2 * l) (lowBit lo)), check (hi == 0) (descField (5 + 2 * l) (lowBit hi))]
    else if dKind d = 1 then check (bits lo 31 0 == 0) (descField (4 + 2 * l) (lowBit (bits lo 31 0)))
    else none))

/-- The 64-bit word and the position of a stride field of input end e at level l. -/
def strideField (e l : Nat) : Nat :=
  let b := 84 - 12 * e
  if b ≥ 64 then descField (5 + 2 * l) (b - 64) else descField (4 + 2 * l) b

def checkStrides (c : Cmd) (d : List Word64) : Check :=
  if dKind d = 1 then
    firstFail ((below 4).flatMap (fun e => (below (dLevels d)).map (fun l =>
      check (inPresent (c.inp e) || dInStride d e l == 0) (strideField e l))))
  else
    let noSrc := c.opcode == 0x02 || c.opcode == 0x30 || c.opcode == 0x40
    let noDst := c.opcode == 0x01 || c.opcode == 0x30 || c.opcode == 0x40 || c.opcode == 0x41
    firstFail ((below (dLevels d)).flatMap (fun l =>
      [check (!noSrc || dSrcStride d l == 0) (descField (4 + 2 * l) 56),
       check (!noDst || dDstStride d l == 0) (descField (4 + 2 * l) 16)]))

/-- The image operation of an IMAGE command; RANGE and MODULE take BASE2 (14, R350). -/
def imageOp (c : Cmd) : Nat := bits c.imm 63 56

def usesBase2 (c : Cmd) : Bool :=
  c.opcode == 0x03 || c.opcode == 0x38 || (c.opcode == 0x41 && (imageOp c == 2 || imageOp c == 3))

/-- TENSOR belongs to a MOVE that narrows: to a narrow format, or from FP32 or E48 to BF16 (05, R141; 06, R151). -/
def usesTensor (c : Cmd) : Bool := converts c && (isNarrow c.fmtOut || (c.fmtOut == fBf16 && !isNarrow c.fmtA))

def checkDescriptor (s : State) (c : Cmd) (d : List Word64) : Check :=
  let op := c.opcode
  let kind := if isMover op then 2 else 1
  let h0 := dword d 0
  let tb := dTileBytes d
  let dest := if op = 0x02 then c.imm else dBase2 d
  firstFail [
    check (dKind d == kind) (descField 0 28),
    check (1 ≤ dLevels d && dLevels d ≤ (if kind = 1 then 4 else 6)) (descField 0 24),
    check (bits h0 15 12 == 0) (descField 0 (12 + lowBit (bits h0 15 12))),
    check (bits (dword d 2) 62 48 == 0) (descField 2 (48 + lowBit (bits (dword d 2) 62 48))),
    check (!(dRagEn d) || dRagLevel d < dLevels d) (descField 0 20),
    check (dRagEn d || dRagLevel d == 0) (descField 0 (20 + lowBit (dRagLevel d))),
    check (dRagEn d || dBoundBase d == 0) (descField 0 (lowBit (dBoundBase d))),
    check (!(dRedEn d) || dRedLevel d < dLevels d) (descField 0 16),
    check (dRedEn d || dRedLevel d == 0) (descField 0 (16 + lowBit (dRedLevel d))),
    check (!(dRedEn d) || op == 8 || op == 9) (descField 0 19),
    check (!(dRemoteSig d) || ((op == 2 || op == 3) && c.sigEn && !(isLocal s dest))) (descField 2 63),
    checkLevelRecords d,
    check (usesTensor c || dTensor d == 0) (descField 0 32),
    check (usesBase2 c || dBase2 d == 0) (descField 3 0),
    checkStrides c d,
    check (!(op == 8 || op == 9) || openFits c d) (descField 5 32),
    check (kind == 2 || tb == 0) (descField 1 0),
    check (kind == 1 || (if op = 0x40 then tb == 1040 else tb % 32 == 0 && 32 ≤ tb && tb ≤ 130560)) (descField 1 0),
    check (!(converts c) || tb == tileBytes c.fmtA) (descField 1 0)]

/-- An address of a walk: the exact signed sum of a 48-bit offset and stride terms, which does not wrap
(06, R157). -/
def walkAddr (base : Nat) (f : Nat → Int) (v : List Nat) : Int := (offsetOf base : Int) + dot f v

/-- Whether an offset is a WARD_SDBELL register of a ward within the count in effect (05, R131). -/
def isDoorbell (s : State) (off : Int) : Option Nat :=
  let rel := off - ((ctrlBase + WARD_SDBELL.base : Nat) : Int)
  if rel < 0 then none
  else
    let r := rel.toNat
    if r % 0x40 = 0 ∧ r / 0x40 < 8 * wardCount s then some (r / 0x40) else none

def inCtrl (off : Int) : Bool := decide ((ctrlBase : Int) ≤ off) && decide (off < ((ctrlBase + ctrlSize : Nat) : Int))

/-- Control-space destinations of a MOVE are doorbells over the whole walk (05, R131, R146). -/
def checkDoorbells (s : State) (c : Cmd) (d : List Word64) : Check :=
  let dest := if c.opcode = 0x02 then c.imm else dBase2 d
  if (c.opcode = 0x02 ∨ c.opcode = 0x03) ∧ isLocal s dest then
    firstFail ((ceilWalk d).map (fun v =>
      let a := walkAddr dest (dDstStride d) v
      if inCtrl a && (isDoorbell s a).isNone then some (0x03, (a - (ctrlBase : Int)).toNat) else none))
  else none

/-! ### MMA_WG (08, R205) -/

def wgBin (c : Cmd) : Nat := bits c.imm 39 32

/-- The checks of R205. No register or field holds a tensor's L, so that ROW_LEN equals L is not checked, but that it is not 0 (DESIGN CHOICE,
log 21). -/
def checkWg (s : State) (c : Cmd) (d : List Word64) : Check :=
  if c.opcode ≠ 0x09 then none
  else
    let b := wgBin c
    let len := dRowLen d
    let tiles := walk (tileDesc d) (List.replicate (boundCount d) (dCount d (dRagLevel d)))
    firstFail [
      check (fg s MOD_GBIN_CFG_VALID b == 1) (cmdField 3 32),
      check ((rd s MOD_GBIN_TENSOR b).toNat == bits c.imm 31 0) (cmdField 3 0),
      check (len != 0) (descField 1 32),
      check (tiles.all (fun v => elemBaseOf d v % len % 128 == 0 && elemBaseOf d v / len % 32 == 0)) (descField 2 0)]

/-! ### VOP (07, R180, R186, R189, R192, R200) -/

/-- A byte of the library's regions: of a kernel's header as R180 and R189 give it, else one the manual does not print (07, R188; DESIGN
CHOICE, log 15). -/
def libByte (off : Nat) : Byte :=
  match (if off < 0x10000 then libHeader (off / 8) else none) with
  | some h => BitVec.ofNat 8 (h / 2 ^ (8 * (off % 8)))
  | none => Config.libraryByte off

/-- A byte of a ward's kernel store: the library regions hold the library once it has been loaded (07, R186,
R188; DESIGN CHOICE, log 15). -/
def kstoreByte (s : State) (w off : Nat) : Byte :=
  if off < 0x10000 ∨ (0x20000 ≤ off ∧ off < 0x28000) then (if s.libLoaded then libByte off else 0)
  else readByte s (kstoreKey w off)

def kstoreWord (s : State) (w off n : Nat) : Nat := ofBytesLE ((rangeFrom off n).map (kstoreByte s w))

/-- Word k of parameter block b (07, R186). -/
def paramWord (s : State) (w b k : Nat) : Nat := kstoreWord s w (0x30000 + 64 * b + 4 * k) 4

def checkVop (s : State) (w : Nat) (c : Cmd) : Check :=
  if c.opcode ≠ 0x10 then none
  else
    let entry := bits c.imm 15 0
    let blk := bits c.imm 63 48
    let h := kstoreWord s w (8 * entry) 8
    let f := bits h 49 46
    let pe := cmdField 3 0
    let pb := cmdField 3 48
    firstFail [
      check (entry < 0x4000) pe,
      check (0x2000 ≤ entry || libEntries.contains entry) pe,
      check (blk < 1024) pb,
      check (bits h 63 56 == 0xA7 && bits h 55 54 < 2 && bits h 53 52 < 3 && bits h 51 50 < 3 && bits h 45 0 == 0) pe,
      check (f ≤ 12 && f != 3) pe,
      check (bits h 53 52 == 0 || outPresent (c.out 0)) (cmdField 0 32),
      check (bits h 51 50 == 0 || outPresent (c.out 1)) (cmdField 0 48),
      check (!(entry == 0x200 || entry == 0x211) || paramWord s w blk 1 < 2) pb,
      check (entry != 0x501 || paramWord s w blk 3 < 256) pb]

/-! ### UPDATE (09, R225) -/

def checkUpdate (s : State) (c : Cmd) (d : List Word64) : Check :=
  if c.opcode ≠ 0x18 then none
  else
    let len := dRowLen d
    let r := updRule c
    firstFail [
      check (r != 0 || len ≤ 8192) (descField 1 32),
      check (r == 2 || dCount d 0 == ceilDiv len 128) (descField 5 32),
      check (!(updMask c == 2 && updMx c)) (cmdField 1 4),
      check (bits c.imm 47 32 < fg s MOD_SCHED_CFG_GROUPS 0) (cmdField 3 32)]

/-! ### QUANT, SEND, JOURNAL and IMAGE (05, R144; 13, R321; 14, R343, R350) -/

def checkQuant (c : Cmd) : Check :=
  check (!(c.opcode == 0x28 && bit c.mode 8 && bits c.mode 7 0 == 0xFF)) (cmdField 1 0)

/-- SEND's immediate: WINDOW not 0, reserved bits 0; a local destination ward within the count. -/
def checkSend (s : State) (c : Cmd) : Check :=
  if c.opcode ≠ 0x30 then none
  else
    firstFail [check (bits c.imm 23 16 != 0) (cmdField 3 16), check (bits c.imm 33 32 == 0) (cmdField 3 (32 + lowBit (bits c.imm 33 32))),
      check (!(bit c.imm 40)) (cmdField 3 40),
      if isLocal s c.imm && bits c.imm 47 41 ≥ wardCount s then some (0x03, bits c.imm 47 41) else none]

def checkJournal (c : Cmd) (d : List Word64) : Check :=
  if c.opcode ≠ 0x40 then none
  else firstFail [check (c.imm == 1) (cmdField 3 0), check (dLevels d == 1) (descField 0 24), check (dCount d 0 == 1) (descField 5 32)]

def checkImage (c : Cmd) (d : List Word64) : Check :=
  if c.opcode ≠ 0x41 then none
  else
    let op := imageOp c
    firstFail [check (1 ≤ op && op ≤ 5) (cmdField 3 56), check (bits c.imm 46 32 == 0) (cmdField 3 (32 + lowBit (bits c.imm 46 32))),
      check (op == 2 || dLevels d == 1) (descField 0 24), check (op == 2 || dCount d 0 == 1) (descField 5 32),
      check (op == 2 || dTileBytes d == 32) (descField 1 0)]

/-! ### The load checks together (05, R146; DEDUCED, log 21) -/

/-- The first failing load check, in the order of R146's table; the opcode's own checks come with its descriptor's. -/
def loadCheck (s : State) (w : Nat) (c : Cmd) (d : List Word64) : Check :=
  if !opcodes.contains c.opcode then some (0x01, c.opcode)
  else firstFail [
    checkReserved c, checkUpdateMode c, checkFormats c,
    firstFail ((below 4).map (checkIn c)), firstFail ((below 2).map (checkOut c)),
    checkRstream c, checkSigInc c,
    if isSeqOp c.opcode then none else checkDescriptor s c d,
    checkQuant c, checkWg s c d, checkVop s w c, checkUpdate s c d, checkSend s c, checkJournal c d, checkImage c d,
    checkWards s c, checkDoorbells s c d]

/-! ### Format version 2 (05, R148, R149) -/

/-- The features of a version 2 command, read through the open layout of the Poldy (DESIGN CHOICE, log 17). -/
def poldy (c : Cmd) (f size : Nat) : Nat :=
  Config.poldyField f (c.w0.toNat + c.w1.toNat * 2 ^ 64 + c.w2.toNat * 2 ^ 128 + c.w3.toNat * 2 ^ 192) % size

/-- Format codes a version 2 command may carry, as R138's (05, R149). -/
def poldyFmt (k : Nat) : Option Nat :=
  match k with
  | 0 => some 0 | 1 => some 1 | 2 => some 2 | 3 => some 4 | 4 => some 5 | 5 => some 8 | 6 => some 11
  | _ => none

/-- The version 3 opcode of a version 2 opcode class: MOVE by direction, and the nine others of R149. -/
def poldyOp (cls dir : Nat) : Option Nat :=
  match cls with
  | 0 => some (1 + dir) | 1 => some 0x08 | 2 => some 0x10 | 3 => some 0x18 | 4 => some 0x28 | 5 => some 0x30
  | 6 => some 0x31 | 7 => some 0x48 | 8 => some 0x49 | 9 => some 0x58
  | _ => none

/-- A version 2 command translated (05, R149): FLT_VERSION with its opcode for a feature not carried over, FLT_ILLEGAL_OPCODE for an
opcode that version 2 does not assign (R146; class 15, log 17); either with the tag, zero-extended. -/
def translateV2 (c : Cmd) : Cmd × Check :=
  let fail : Check := some (if poldy c 1 16 = 15 then 0x01 else 0x04, poldy c 0 256)
  match poldyOp (poldy c 1 16) (poldy c 2 3), poldyFmt (poldy c 3 16), poldyFmt (poldy c 4 16), poldyFmt (poldy c 5 16) with
  | some op, some fa, some fb, some fo =>
    let inEnd := fun (e : Nat) => if poldy c (6 + e) 2 = 1 then 0x80 + poldy c (10 + e) 32 else 0
    let outEnd := fun (e : Nat) => if poldy c (14 + e) 2 = 1 then 0xFF00 + poldy c (16 + e) 32 else 0
    let ctrl := poldy c 18 2 * 0x80 + poldy c 19 2 * 0x40 + poldy c 20 2 * 0x20 + poldy c 21 2 * 0x08
    let mode := if op = 0x18 then 1 + poldy c 22 2 * 8 else poldy c 22 (2 ^ 12)
    let w0 := outEnd 1 * 2 ^ 48 + outEnd 0 * 2 ^ 32 + poldy c 23 (2 ^ 12) * 2 ^ 16 + ctrl * 2 ^ 8 + op
    let w1 := (inEnd 3 * 2 ^ 24 + inEnd 2 * 2 ^ 16 + inEnd 1 * 2 ^ 8 + inEnd 0) * 2 ^ 32 + poldy c 24 256 * 2 ^ 24 +
      fo * 2 ^ 20 + fb * 2 ^ 16 + fa * 2 ^ 12 + mode
    let w2 := poldy c 25 256 * 2 ^ 40 + 0x7F * 2 ^ 33 + poldy c 26 256 * 2 ^ 24 + poldy c 27 256 * 2 ^ 16 + poldy c 28 (2 ^ 16)
    ({ c with w0 := BitVec.ofNat 64 w0, w1 := BitVec.ofNat 64 w1, w2 := BitVec.ofNat 64 w2,
              w3 := BitVec.ofNat 64 (poldy c 29 (2 ^ 64)) },
     if op = 0x18 ∧ poldy c 30 2 = 1 then fail else none)
  | _, _, _, _ => ({ c with w0 := BitVec.ofNat 64 (poldy c 23 (2 ^ 12) * 2 ^ 16) }, fail)

end Sys2Proof.Machine
end

