-- ==== Sys2Proof/Machine/Wire.lean ====
section
/-!
DEFINITION. Link blocks of protocol version 3 as bytes (12_fabric.md, R301): the header words, the sizes by TYPE, the sideband word and the
CRC, formed for a block that goes out and read from one that comes in. Version 2 has the Poldy's framing, which the spec does not give (R313).
-/

namespace Sys2Proof.Machine

/-- The TYPE codes that name a block; 0xB to 0xF are reserved (R301). -/
def blockType (ty : Nat) : Bool := ty ≤ 0xA

/-- The types of the full blocks: WRITE, READ_DATA, SEND_DATA and HELLO (R301). -/
def fullBlock (ty : Nat) : Bool := ty == 1 || ty == 3 || ty == 6 || ty == 8

/-- The types that write the sideband word as 0: IDLE, RETRY_REQ, HELLO, LANE_SWAP and SWITCH (R301). -/
def quietSide (ty : Nat) : Bool := ty == 0 || ty == 7 || ty == 8 || ty == 9 || ty == 0xA

/-- Header word L0: TYPE, SEQ, ACK, ACK_VALID (R301). -/
def wordL0 (ty seq : Nat) (ack : Option Nat) : Nat :=
  ty % 16 * 2 ^ 60 + seq % 2 ^ 20 * 2 ^ 40 + (match ack with | some a => a % 2 ^ 20 * 2 ^ 20 + 2 ^ 19 | none => 0)

/-- Header word T0: DST_CHIP, SRC_CHIP, SLICE, REASON, TID (R301). -/
def wordT0 (b : LinkBlock) : Nat :=
  b.dst % 2 ^ 16 * 2 ^ 48 + b.src % 2 ^ 16 * 2 ^ 32 + b.slice % 2 ^ 12 * 2 ^ 20 + b.reason % 16 * 2 ^ 16 + b.tid % 2 ^ 16

/-- Every byte of a block before its CRC (R301). -/
def blockBody (b : LinkBlock) (seq : Nat) (ack : Option Nat) : List Byte :=
  toBytesLE 8 (wordL0 b.ty seq ack) ++ toBytesLE 8 (wordT0 b) ++ toBytesLE 8 (b.offset % 2 ^ 48) ++
  (if fullBlock b.ty then padTo 256 0 (b.payload.take 256) else []) ++ toBytesLE 4 (if quietSide b.ty then 0 else b.side)

/-- A block as it goes onto the wire (R301). -/
def wireBytes (b : LinkBlock) (seq : Nat) (ack : Option Nat) : List Byte :=
  let body := blockBody b seq ack
  body ++ toBytesLE 4 (crc32 body)

/-- The number that `len` bytes of a block from byte k on hold, little-endian (00, R15). -/
def wireNum (bs : List Byte) (k len : Nat) : Nat := ofBytesLE ((bs.drop k).take len)

/-- A block received on port p: its TYPE and fields, where its size is its TYPE's, its TYPE is not reserved and its CRC is correct
(R301, R302). -/
def parseBlock (p : Nat) (bs : List Byte) : Option (Nat × RxBlock) :=
  let l0 := wireNum bs 0 8
  let t0 := wireNum bs 8 8
  let ty := bits l0 63 60
  let n := if fullBlock ty then 288 else 32
  if bs.length ≠ n ∨ !blockType ty ∨ wireNum bs (n - 4) 4 ≠ crc32 (bs.take (n - 4)) then none
  else
    some (ty, {
      port := p, seq := bits l0 59 40, ack := if bit l0 19 then some (bits l0 39 20) else none
      dst := bits t0 63 48, src := bits t0 47 32, slice := bits t0 31 20, reason := bits t0 19 16, tid := bits t0 15 0
      offset := bits (wireNum bs 16 8) 47 0, side := wireNum bs (n - 8) 4
      payload := if fullBlock ty then (bs.drop 24).take 256 else [] })

end Sys2Proof.Machine
end

