-- ==== Sys2Proof/Machine/Link.lean ====
section
/-!
DEFINITION. Transactions onto the fabric (12_fabric.md): ports and their retry buffers, the egress checks and the choice of a
port, outstanding transactions, their answers, and the loss of a port.
-/

namespace Sys2Proof.Machine

def port (s : State) (p : Nat) : Port := sget {} s.ports p
def setPort (s : State) (p : Nat) (x : Port) : State := { s with ports := sset {} s.ports p x }
def portState (s : State) (p : Nat) : Nat := fg s FAB_PORT_STATUS_STATE p
def setPortState (s : State) (p v : Nat) : State := fs s FAB_PORT_STATUS_STATE p v
def isV2 (s : State) (p : Nat) : Bool := fg s FAB_PORT_STATUS_V2 p == 1

/-- A port that is UP or DEGRADED, and no loopback, which carries no transaction (12, R309, R319). -/
def portUsable (s : State) (p : Nat) : Bool := (portState s p == 3 || portState s p == 4) && fg s FAB_NBR_INFO_NODE_KIND p != 2

def ownChip (s : State) : Nat := fg s FAB_CHIP_CHIP 0
def ownSlice (s : State) : Nat := fg s FAB_SLICE_ID 0

/-- The sideband word of blocks that carry one: the pace notice; none on a version 2 link (12, R301, R316; 16, R397). -/
def sideWord (s : State) (p : Nat) : Nat := if isV2 s p then 0 else fg s PWR_PACE_NOTICE 0 * 2 ^ 16

/-- Blocks that a retry buffer holds (12, R302). -/
def retryLimit : Nat := 8192

/-- A block put onto a port: it takes the next SEQ, carries the number expected from the other end as ACK, and stays in the retry buffer
until acknowledged (12, R301, R302). -/
def putBlock (x : Port) (b : LinkBlock) : Port :=
  { x with txSeq := (x.txSeq + 1) % 2 ^ 20, retry := x.retry ++ [⟨x.txSeq, 1, b, x.rxSeq⟩] }

/-- What waits goes out in order, as far as the retry buffer has room; during a swap a LANE_SWAP alone (12, R299, R302). -/
def drainPort (x : Port) : Port :=
  let go := (if x.swapping then x.waiting.takeWhile (fun b => b.ty == 9) else x.waiting).take (retryLimit - x.retry.length)
  go.foldl putBlock { x with waiting := x.waiting.drop go.length }

/-- A block sent on a port; with the retry buffer full, or during a swap, it waits in order (12, R299, R302). -/
def portSend (s : State) (p : Nat) (b : LinkBlock) : State :=
  let x := port s p
  setPort s p (drainPort { x with waiting := x.waiting ++ [b] })

/-- A port that takes no further block at once. -/
def portHeld (s : State) (p n : Nat) : Bool :=
  let x := port s p
  x.swapping || decide (x.retry.length + x.waiting.length + n > retryLimit)

/-- The entry of a chip in the routing table: those of 0xFFFF and of the own chip number are not used (12, R318). -/
def routeTo (s : State) (c : Nat) (f : Fld) : Nat :=
  if c = 0xFFFF ∨ (fg s FAB_CHIP_VALID 0 = 1 ∧ c = ownChip s) then 0 else fg s f c

/-- The usable ports of the route to chip c, for a transaction that a version 2 link carries or not (12, R316, R319). -/
def routePorts (s : State) (c : Nat) (send : Bool) : List Nat :=
  (below 28).filter (fun p => bit (routeTo s c FAB_ROUTE_PORTS) p && portUsable s p && !(send && isV2 s p))

/-- The port of a transaction to chip c with identifier tid: route VALID and ALLOW, a usable port, port number tid mod n; none
where egress is denied (12, R315, R319). -/
def egressPort (s : State) (c tid : Nat) (send : Bool) : Option Nat :=
  let ps := routePorts s c send
  if ownSlice s = 0 ∨ routeTo s c FAB_ROUTE_VALID = 0 ∨ routeTo s c FAB_ROUTE_ALLOW = 0 then none
  else
    match ps[tid % ps.length]? with
    | none => none
    | some p => if isV2 s p && fg s FAB_PORT_V2_SLICE p != ownSlice s then none else some p

/-- 256-byte transactions that the Movers of a ward have outstanding (01, R19). -/
def wardTxns (s : State) (w : Nat) : Nat := sumNat ((s.txns.filter (fun t => t.m / 8 == w)).map (fun t => max 1 (ceilDiv t.len 256)))

/-- The transactions that the two Movers of a ward may have outstanding (01, R19). -/
def wardTxnLimit : Nat := 1024

/-- A transaction issued by a command of stream m: its blocks go out on one port and it is outstanding (12, R304); FLT_LINK
where egress is denied, a wait while the port swaps, or the retry buffer or the ward's allocation of outstanding transactions has no room (12, R302;
01, R19; DEDUCED, log 31) (DESIGN CHOICE, log 28). -/
def issueTxn (s : State) (m num ty chip off len : Nat) (bs : List (Nat × List Byte)) : Got State :=
  let tid := s.nextTid % 2 ^ 16
  match egressPort s chip tid (ty == 6) with
  | none => .fault 0x15 chip
  | some p =>
    if portHeld s p bs.length ∨ wardTxns s (m / 8) + max 1 (ceilDiv len 256) > wardTxnLimit then .wait
    else
      let s1 := bs.foldl (fun t b => portSend t p
        { ty := ty, dst := chip, src := ownChip s, slice := ownSlice s, tid := tid, offset := b.1, side := sideWord s p
          payload := b.2 }) s
      .ok { s1 with nextTid := s.nextTid + 1, txns := s1.txns ++ [⟨tid, ty, m, num, chip, off, len, 0, none, false⟩] }

/-- Egress denied, counted (12, R319). -/
def denied (s : State) : State := bump s FAB_DROP_EGRESS_DENIED 0 1

/-- The outstanding transaction that an answer from a chip names. -/
def findTxn (s : State) (tid chip : Nat) : Option Txn := s.txns.find? (fun t => t.tid == tid && t.chip == chip)

def dropTxn (s : State) (t : Txn) : State := { s with txns := s.txns.filter (fun u => u != t) }

/-- The transactions of a command, or of a stream, still outstanding. -/
def cmdTxns (s : State) (m num : Nat) : List Txn := s.txns.filter (fun t => t.m == m && t.num == num && !t.dead)
def streamTxns (s : State) (m : Nat) : List Txn := s.txns.filter (fun t => t.m == m && !t.dead)

/-- An answer ends a transaction; one given up by a forced abort counts in CNT_ABORT_LATE_ACK (06, R173). -/
def endTxn (s : State) (t : Txn) : State :=
  let s1 := dropTxn s t
  if t.dead then setStream s1 t.m { stream s1 t.m with lateAck := (stream s1 t.m).lateAck + 1 } else s1

/-- A transaction failed: its command, if it still executes, faults (12, R303 to R305). -/
def failTxn (s : State) (t : Txn) (code detail : Nat) : State :=
  let s1 := dropTxn s t
  if t.dead then s1
  else
    match findCmd (stream s1 t.m).cmds t.num with
    | some c => if c.phase = .issued then execFault s1 t.m c code detail else s1
    | none => s1

/-- A port goes DOWN: transactions with a block unacknowledged on it fault with FLT_LINK, and its blocks are lost
(12, R303). -/
def portDown (s : State) (p : Nat) : State :=
  let x := port s p
  let hit := s.txns.filter (fun t => x.retry.any (fun h => h.block.tid == t.tid && h.block.ty == t.ty && h.block.dst == t.chip))
  let s1 := setPort (setPortState s p 6) p { x with retry := [], waiting := [], asked := none, swapping := false, step := 0, frames := 0 }
  hit.foldl (fun u t => failTxn u t 0x15 t.chip) s1

/-- A COMPLETION, with or without a refusal, sent back on the port that the transaction came by. -/
def sendCompletion (s : State) (p dst tid reason : Nat) : State :=
  portSend s p { ty := 4, dst := dst, src := ownChip s, slice := ownSlice s, reason := reason, tid := tid, side := sideWord s p }

/-! ### Pace notices and stragglers (13, R334, R335) -/

def stragRt (s : State) (k : Nat) : Strag := sget {} s.strag k

/-- The straggler entry of a chip. -/
def stragOf (s : State) (chip : Nat) : Option Nat :=
  (below 32).find? (fun k => fg s MOD_STRAG_INFO_VALID k == 1 && fg s MOD_STRAG_INFO_CHIP k == chip)

/-- A sideband word from a chip updates its entry (13, R335). -/
def hearPace (s : State) (chip side : Nat) : State :=
  match stragOf s chip with
  | none => s
  | some k =>
    let s1 := fs (fs s MOD_STRAG_INFO_PACE k (bits side 31 31)) MOD_STRAG_INFO_VF k (bits side 30 27)
    { s1 with strag := sset {} s1.strag k { stragRt s1 k with rate := bits side 26 16, heard := 0 } }

/-- A wait unit charged to a chip: its entry, taken if it has none, or MOD_COLL_OTHER (13, R335). -/
def chargeChip (s : State) (chip : Nat) : State :=
  let found := match stragOf s chip with
    | some k => some (k, s)
    | none => ((below 32).find? (fun k => fg s MOD_STRAG_INFO_VALID k == 0)).map (fun k =>
        let s1 := wr s MOD_STRAG_INFO k (BitVec.ofNat 32 (2 ^ 31 + chip % 2 ^ 16))
        (k, { s1 with strag := sset {} s1.strag k {} }))
  match found with
  | none => bump s MOD_COLL_OTHER_UNITS 0 1
  | some (k, s1) =>
    let s2 := bump (bump s1 MOD_STRAG_UNITS_UNITS k 1) MOD_STRAG_PACED_UNITS k (fg s1 MOD_STRAG_INFO_PACE k)
    { s2 with strag := sset {} s2.strag k { stragRt s2 k with charged := 0 } }

/-- MOD_COLL_LAST takes the waiting command's tag and the chip (13, R334). -/
def collLast (s : State) (tag chip : Nat) : State := wr s MOD_COLL_LAST 0 (BitVec.ofNat 32 (tag % 2 ^ 16 * 2 ^ 16 + chip % 2 ^ 16))

/-- Every straggler entry invalid, every collective wait counter zero (13, R335). -/
def clearStragglers (s : State) : State :=
  let s1 := (below 32).foldl (fun t k => wr (wr (wr t MOD_STRAG_INFO k 0) MOD_STRAG_UNITS k 0) MOD_STRAG_PACED k 0) s
  { wr (wr (wr (wr s1 MOD_COLL_WAIT_ARR 0 0) MOD_COLL_WAIT_WIN 0 0) MOD_COLL_WAIT_FLAG 0 0) MOD_COLL_OTHER 0 0 with strag := [] }

end Sys2Proof.Machine
end

