-- ==== Sys2Proof/Machine/Wards.lean ====
section
/-!
DEFINITION. Wards as power domains: lost wards and districts, takeover and the step boundary, votes, targets, entries and
wakes (01_training_step.md, R30 to R32; 15_power_delivery.md; 17_power_states_clocks.md, R417 to R427).
-/

namespace Sys2Proof.Machine

/-! ### Failed units (15, R370, R377; 20, R493) -/

/-- Unit codes of the failure record (20, R503) that make a ward failed; 9 stands for a context bank, 7 and 8 lose the
district. -/
def wardUnit (u : Nat) : Bool := 1 ≤ u && u ≤ 6

/-- The repairs and failed units of the module: those fused at test and those of the field repair list (20, R493, R500). -/
def allRepairs (s : State) : List Repair := s.fuses.found ++ s.store.repairs

def physFailed (s : State) (p : Nat) : Bool :=
  (pward s p).phases ≥ 4 || (allRepairs s).any (fun r => r.failed && wardUnit r.unit && r.district == p / 5 && r.pos == p % 5)

def bankFailed (s : State) (d b : Nat) : Bool :=
  (allRepairs s).any (fun r => r.failed && r.unit == 9 && r.district == d && r.pos == b)

def distLost (s : State) (d : Nat) : Bool :=
  ((distOf s d).lostA && (distOf s d).lostB) ||
  (allRepairs s).any (fun r => r.failed && (r.unit == 7 || r.unit == 8) && r.district == d)

/-- A physical ward that holds no logical ward, is not failed and is not already promised (15, R376). -/
def isFree (s : State) (p : Nat) : Bool :=
  !physFailed s p && (logicalAt s p).isNone && !(distOf s (p / 5)).take.any (fun t => t.2 == p % 5)

def freeWards (s : State) (d : Nat) : List Nat := (rangeFrom (5 * d) 5).filter (isFree s)

/-- Physical wards not failed that hold no logical ward (15, PWR_SREG.SPARES). -/
def spareCount (s : State) (d : Nat) : Nat :=
  ((rangeFrom (5 * d) 5).filter (fun p => !physFailed s p && (logicalAt s p).isNone)).length

/-! ### Entries and wakes (17, R420, R425, R426; 15, R379) -/

/-- An aborted entry counted, with its client and state (17, R425). -/
def countAborted (s : State) (p client t : Nat) : State :=
  match logicalAt s p with
  | none => s
  | some w => fs (fs (bump s WARD_PCNT_ABORTED w 1) WARD_PLAST_ABT_CLIENT w client) WARD_PLAST_ABT_STATE w t

def countRefused (s : State) (p client t : Nat) : State :=
  match logicalAt s p with
  | none => s
  | some w => fs (fs (bump s WARD_PCNT_REFUSED w 1) WARD_PLAST_REF_CLIENT w client) WARD_PLAST_REF_STATE w t

/-- Something calls a physical ward to ACTIVE: from IDLE at once, from NAP through its exit, from RETAIN and OFF through a
requested wake; an entry in progress is aborted, or, its clamps engaged, the event is held (17, R420, R426). -/
def wakeWard (s : State) (p client : Nat) : State :=
  let x := pward s p
  match x.enter with
  | some t =>
    if x.clamped then
      if x.held.isSome then s else countAborted (setPward s p { x with held := some client }) p client t
    else countAborted (setPward s p { x with enter := none, napExit := true }) p client t
  | none =>
    if x.stage ≠ 0 then s
    else
      match x.st with
      | 0 => s
      | 1 => setPward s p { x with st := 0 }
      | 2 => setPward s p { x with napExit := true }
      | _ => if x.wakeBy.isSome then s else setPward s p { x with wakeBy := some client, late := false, pulses := 0 }

/-- Work arrives at a logical ward (17, R420). -/
def wakeLogical (s : State) (w client : Nat) : State :=
  if w < wardCount s && !isDark s w then wakeWard s (physOf s w) client else s

/-- The client of a stream's class. -/
def classClient (s : State) (m : Nat) : Nat := 1 + fg s WARD_SCFG_CLASS m

/-! ### Votes and targets (17, R421 to R424) -/

def wardStreams (w : Nat) : List Nat := rangeFrom (8 * w) 8

/-- The shallowest of the votes that `f` gives a class's streams of a ward, 4 (OFF) when none votes. -/
def shallowest (s : State) (f : Stream → Nat) (w cls : Nat) : Nat :=
  (wardStreams w).foldl (fun a m => if fg s WARD_SCFG_CLASS m = cls then min a (f (stream s m)) else a) 4

def classVote (s : State) (w cls : Nat) : Nat := shallowest s Stream.vote w cls

/-- An arrival queue homed in the ward store that holds a tile not yet drained asks for NAP (17, R423). -/
def arrivalHeld (s : State) (w : Nat) : Bool :=
  (rangeFrom (64 * w) 64).any (fun n => qHome s n == 0 && !(sget {} s.arrivals n).slots.isEmpty)

/-- A shadow sample of the district is begun or waits for its check; it runs on the lowest free ward (04, R108; 17, R423). -/
def shadowing (s : State) (d : Nat) : Bool :=
  s.samples.any (fun x => districtOf s x.ward == d) || s.me.any (fun p => districtOf s (p.1 / 4) == d && !p.2.picked.isEmpty)

/-- Each client's vote on a physical ward: deepest state allowed (17, R423). -/
def clientVote (s : State) (p client : Nat) : Nat :=
  match logicalAt s p, client with
  | some w, 1 => classVote s w 0
  | some w, 2 => classVote s w 1
  | some w, 3 => fg s WARD_VOTE_HOST_HOST w
  | some w, 5 => if arrivalHeld s w then 2 else 4
  | none, 4 =>
    let d := distOf s (p / 5)
    if d.take.any (fun t => t.2 == p % 5) || (d.rotate.map Prod.snd) == some (p % 5) then 0 else 4
  | none, 14 => if (freeWards s (p / 5)).head? == some p && shadowing s (p / 5) then 0 else 4
  | _, _ => 4

def voteClients : List Nat := [1, 2, 3, 4, 5, 14]

/-- The target that the votes allow, and the client that sets it, the lowest code among ties (17, R422, R425). -/
def voteTarget (s : State) (p : Nat) : Nat × Nat :=
  voteClients.foldl (fun (a : Nat × Nat) c => if clientVote s p c < a.1 then (clientVote s p c, c) else a) (4, 0)

/-- A command of a stream can be loaded or issued (17, R420). -/
def streamWork (s : State) (w m : Nat) : Bool :=
  let x := stream s m
  x.st == .enabled &&
    ((x.avail != fg s WARD_SFETCH_LOADED m && !(x.cmds.any (fun c => c.fault.isSome))) ||
     (match nextLoaded x with
      | some c => waitMet s m c && (!c.fence || (x.cmds.head?.map Cmd.num) == some c.num) &&
          (c.fault.isSome || engineOf s w c ≥ 10 || (ebuf s w (engineOf s w c)).length < engineDepth (engineOf s w c))
      | none => false))

/-- Work present: a command can be loaded or issued, or an engine can go on (17, R420). -/
def workPresent (s : State) (w : Nat) : Bool :=
  (wardStreams w).any (streamWork s w) ||
  (below 9).any (fun e => (job s w e).isSome && (engineWait s w e).isNone)

/-- Banks of the ward store that a run of bytes touches are kept. -/
def banksKept (mask off n : Nat) : Bool :=
  (rangeFrom (off / 0x80000) (ceilDiv (off % 0x80000 + n) 0x80000)).all (fun b => bit mask b)

/-- Whether an entry condition of R421 holds for a logical ward. -/
def entryHolds (s : State) (w t : Nat) : Bool :=
  let qs := (rangeFrom (64 * w) 64).filter (fun n => qEnabled s n && qHome s n == 0)
  let rings := (wardStreams w).filter (fun m => fg s WARD_SCFG_EN m == 1 && fg s WARD_SCFG_RING_HOME m == 1)
  let mask := fg s WARD_RETMASK_MASK w
  if t < 3 then true
  else
    (below 4).all (fun e => (sget {} s.me (4 * w + e)).tiles.isEmpty) &&
    (below 10).all (fun e => (ebuf s w e).isEmpty) &&
    qs.all (fun n => (queueRt s n).pushed.isEmpty && banksKept mask (fg s WARD_QCFG_BASE n * 1024) (qBytes s n)) &&
    rings.all (fun m => banksKept mask (fg s WARD_SRING_HI_BASE_HI m * 2 ^ 32 + fg s WARD_SRING_LO_BASE_LO m * 2 ^ 12)
      (32 * 2 ^ fg s WARD_SCFG_RING_LOG2 m)) &&
    (t == 3 || (qs.isEmpty && rings.isEmpty))

/-- The deepest state at or above t whose entry conditions hold. -/
def deepest (s : State) (w : Nat) : Nat → Nat
  | 0 => 0
  | t + 1 => if entryHolds s w (t + 1) then t + 1 else deepest s w t

/-- A physical ward's target and the client or condition that sets it (17, R421, R422). -/
def wardTarget (s : State) (p : Nat) : Nat × Nat :=
  let v := voteTarget s p
  match logicalAt s p with
  | none => v
  | some w =>
    let t := deepest s w v.1
    if t < v.1 then (t, 6) else v

/-- A refusal counted once: `refused` keeps the state that the votes as they stand have been refused (17, R425). -/
def refuseEntry (s : State) (p client t : Nat) : State :=
  countRefused (setPward s p { pward s p with refused := t }) p client t

/-- A domain's vote has changed, and is deeper than before or withdrawn, or not: an entry or a rest deeper than the new target ends; a client
whose deeper vote does not deepen the target to the state that it now allows counts a refusal (17, R422, R425). -/
def wardVoteChange (s : State) (p client : Nat) (deeper : Bool) : State :=
  let x := pward s p
  let (t, by') := wardTarget s p
  let own := clientVote s p client
  let now := x.enter.getD x.st
  if t < now then wakeWard s p client
  else if !deeper then s
  else if t < own then refuseEntry s p by' own
  else setPward s p { x with refused := 0 }

/-- The class streams' votes of a logical ward taken as judged. -/
def judgeVotes (s : State) (w cls : Nat) : State :=
  { s with streams := smapVals {} (fun m x =>
      if m / 8 = w ∧ fg s WARD_SCFG_CLASS m = cls then { x with judged := x.vote } else x) s.streams }

/-- VOTE_CHANGE on a physical ward: of a class of streams the vote is deeper where it lies below the one last judged; the fabric agent's and a
background activity's are deeper when withdrawn; a host vote took effect as it was written (17, R422, R425, R440). -/
def wardVote (s : State) (p client : Nat) : State :=
  let own := clientVote s p client
  match logicalAt s p, client with
  | some w, 1 => judgeVotes (wardVoteChange s p client (decide (shallowest s Stream.judged w 0 < own))) w 0
  | some w, 2 => judgeVotes (wardVoteChange s p client (decide (shallowest s Stream.judged w 1 < own))) w 1
  | _, 3 => wardVoteChange s p client false
  | _, _ => wardVoteChange s p client (voteClients.contains client && own == 4)

/-- The client that work present at a ward wakes it for: the class of the first stream whose engine can go on, or else of the first that has
work (17, R420). -/
def workClient (s : State) (w : Nat) : Nat :=
  match (below 9).find? (fun e => (job s w e).isSome && (engineWait s w e).isNone) with
  | some e => ((job s w e).map (fun j => classClient s j.1)).getD 1
  | none => (((wardStreams w).find? (streamWork s w)).map (classClient s)).getD 1

/-- A ward with work goes to ACTIVE; one without begins entry into its target, or the entry is refused, once for the votes as they stand (17,
R420, R421, R425, R426). -/
def wardEnter (s : State) (p : Nat) : State :=
  let x := pward s p
  match (logicalAt s p).filter (workPresent s) with
  | some w => wakeLogical s w (workClient s w)
  | none =>
    if x.enter.isSome || x.stage ≠ 0 || x.wakeBy.isSome || x.napExit then s
    else
      let v := voteTarget s p
      let (t, _) := wardTarget s p
      let s1 := if t < v.1 ∧ v.1 > x.st ∧ x.refused ≠ v.1 then refuseEntry s p 6 v.1 else s
      let y := pward s1 p
      if t > x.st then
        (if t = 1 then setPward s1 p { y with st := 1 }
         else setPward s1 p { y with enter := some t, clamped := false
                                     kept := ((logicalAt s p).map (fg s WARD_RETMASK_MASK)).getD 0 })
      else s1

/-- Zeros with valid ECC in the banks of a logical ward's store that `keep` does not name (17, R427). -/
def zeroBanks (s : State) (w keep : Nat) : State :=
  (below 12).foldl (fun t b =>
    if bit keep b then t
    else
      let lo := wardStoreKey w (b * 0x80000)
      { t with mem := sdropRange lo (lo + 0x80000) t.mem
               poison := t.poison.filter (fun k => !(lo ≤ k * 4 && k * 4 < lo + 0x80000)) }) s

/-- Accumulators and engine state of a ward reset (17, R427). -/
def resetEngines (s : State) (w : Nat) : State :=
  { s with me := sdropRange (4 * w) (4 * w + 4) s.me, ve := serase s.ve w, ue := serase s.ue w }

/-! ### Dark wards (06, R176; 15, R376, R377) -/

/-! ### Command rings (05, R130) -/

def ringOffset (s : State) (m : Nat) : Nat := fg s WARD_SRING_HI_BASE_HI m * 2 ^ 32 + fg s WARD_SRING_LO_BASE_LO m * 2 ^ 12
def ringCommands (s : State) (m : Nat) : Nat := 2 ^ fg s WARD_SCFG_RING_LOG2 m

/-- Where command k of a stream's ring stands. -/
def ringKey (s : State) (m k : Nat) : Nat :=
  let off := ringOffset s m + 32 * (k % ringCommands s m)
  if fg s WARD_SCFG_RING_HOME m = 0 then off else wardStoreKey (m / 8) off

def wordsAt (s : State) (a n : Nat) : List Word64 :=
  (chunks 8 (memRead s a (8 * n))).map (fun bs => BitVec.ofNat 64 (ofBytesLE bs))

/-- The words at the ring's place k, as a command not yet translated or checked. -/
def ringCmd (s : State) (m k : Nat) : Cmd :=
  let ws := wordsAt s (ringKey s m k) 4
  { num := k, w0 := nth ws 0 0, w1 := nth ws 1 0, w2 := nth ws 2 0, w3 := nth ws 3 0, step := (rd s WARD_SSTEP m).toNat }

/-- The tag of a stream's oldest unretired command: loaded, or available in its ring; 0 without one (06, R176). -/
def oldestTag (s : State) (m : Nat) : Nat :=
  let x := stream s m
  let k := fg s WARD_SFETCH_LOADED m
  match x.cmds with
  | c :: _ => c.tag
  | [] => if x.avail = k then 0 else (if fg s WARD_SCFG_VERSION m = 2 then (translateV2 (ringCmd s m k)).1 else ringCmd s m k).tag

/-- The stream faults with FLT_WARD_LOST: its commands stop, its fault block names the oldest unretired command
(06, R176). -/
def loseStream (s : State) (m detail : Nat) : State :=
  let x := stream s m
  let old := x.cmds.head?
  let tag := oldestTag s m
  let num := (old.map Cmd.num).getD (fg s WARD_SDONE_RETIRED m)
  match x.st with
  | .enabled =>
    let (s1, _) := stopCmds s m x.cmds
    let s2 := writeFault s1 m 0x14 tag detail num
    setStream s2 m { stream s2 m with st := .faulting }
  | .aborting => (stopCmds (failStream s m tag 0x14 detail (rd s WARD_SSTEP m).toNat) m x.cmds).1
  | .faulting => (stopCmds (failStream s m tag 0x14 detail (rd s WARD_SSTEP m).toNat) m x.cmds).1
  | _ => s

def loseStreams (s : State) (ms : List Nat) (detail : Nat → Nat) : State :=
  ms.foldl (fun t m => loseStream t m (detail m)) s

/-- NEXT_LOGICAL of a district falls by one (15, R377). -/
def nextFalls (s : State) (d : Nat) : State := fs s PWR_SREG_NEXT_LOGICAL d (fg s PWR_SREG_NEXT_LOGICAL d - 1)

/-- Every logical ward stands on a ward whose kerf unit passed its last check, or has a substitute (02, R60). -/
def kerfPass (s : State) : Bool :=
  (below 20).all (fun d => (below (logicalOf s d)).all (fun i =>
    !((allRepairs s).any (fun r => r.failed && r.unit == 4 && r.district == d && r.pos == nth (distOf s d).map i 7)) ||
    (distOf s d).take.any (fun t => t.1 == i)))

/-- SELFTEST_PASS follows the substitutes once the check has run (02, R60). -/
def syncKerf (s : State) : State :=
  if fg s MOD_KERF_STATUS_SELFTEST_DONE 0 = 1 then fs s MOD_KERF_STATUS_SELFTEST_PASS 0 (b2n (kerfPass s)) else s

/-- A shadow sample skipped: counted in its tag group (04, R111). -/
def skipSample (s : State) (tag : Nat) : State := bump s MOD_SHADOW_GRP_CNT_SKIPPED (bits tag 15 8) 1

/-- The samples of a district discarded, and those that its MEs have begun: their free ward takes a logical ward (15, R376; 16, R410). -/
def dropSamples (s : State) (d : Nat) : State :=
  let (gone, kept) := s.samples.partition (fun x => districtOf s x.ward == d)
  let s1 := gone.foldl (fun t x => skipSample t x.tag) { s with samples := kept }
  s1.me.foldl (fun t p =>
    if districtOf s (p.1 / 4) = d ∧ p.2.picked ≠ [] then
      let tag := ((job s (p.1 / 4) (p.1 % 4)).map (fun c => c.2.tag)).getD 0
      let t1 := p.2.picked.foldl (fun u _ => skipSample u tag) t
      { t1 with me := sset {} t1.me p.1 { p.2 with picked := [] } }
    else t) s1

/-- A dark ward looks for a substitute: a free physical ward of its district is woken for it, which cancels a pending rotation (16, R410); with none, a substitute
promised to a higher logical ward passes to it; else the district's next count falls (15, R376, R377). -/
def seekSubstitute (s : State) (w : Nat) : State :=
  let d := districtOf s w
  let x := distOf s d
  let i := wardIndex s w
  syncKerf (match freeWards s d with
    | p :: _ =>
      wakeWard (setDist (dropSamples s d) d { x with
        take := x.take ++ [(i, p % 5)], rotate := none }) p 4
    | [] =>
      match x.take.find? (fun t => i < t.1) with
      | some t => nextFalls (setDist s d { x with take := (i, t.2) :: x.take.filter (fun u => u.1 != t.1) }) d
      | none => nextFalls s d)

/-- A logical ward goes dark: streams fault, the record and the event are written, a substitute is sought (15, R376;
18, R453, code 0x000C; 20, R503, kind 0x0008). -/
def goDark (s : State) (w cause : Nat) : State :=
  if isDark s w then s
  else
    let p := physOf s w
    let s1 := fs s PWR_WREG_DARK w 1
    let s2 := setPward s1 p { pward s1 p with st := 4, enter := none, clamped := false, held := none, wakeBy := none, stage := 0, napExit := false }
    let s3 := loseStreams s2 (wardStreams w) (fun _ => w)
    let s4 := failEntry (resetEngines s3 w) 8 0 w cause (p % 5) noStep
    observe (seekSubstitute (raiseEvent s4 0x000C 0 w cause 0) w)

/-- A regulator or ward failure of a physical ward: with a logical ward it goes dark, else the district has one
spare fewer (15, R372, R377). -/
def physFails (s : State) (p cause unit : Nat) : State :=
  let s1 := recordRepair s ⟨p / 5, p % 5, unit, true, 0⟩
  match logicalAt s p with
  | some w => goDark s1 w cause
  | none =>
    let s2 := setPward s1 p { pward s1 p with st := 4, enter := none, clamped := false, held := none, wakeBy := none, stage := 0, napExit := false }
    let x := distOf s2 (p / 5)
    match x.take.find? (fun t => t.2 == p % 5) with
    | some t => seekSubstitute (setDist s2 (p / 5) { x with take := x.take.filter (fun u => u.2 != p % 5) }) (firstWard s2 (p / 5) + t.1)
    | none => setDist s2 (p / 5) { x with rotate := if (x.rotate.map Prod.snd) == some (p % 5) then none else x.rotate }

/-- A district square is lost: every enabled stream of the module faults with the district's lowest logical ward as
detail (15, R373). -/
def loseDistrict (s : State) (d : Nat) : State :=
  let s1 := loseStreams s (s.streams.map Prod.fst) (fun _ => firstWard s d)
  let s2 := failEntry s1 0x000A 0 d 2 0 noStep
  observe { s2 with mc := { s2.mc with reasons := if s2.mc.reasons.contains 5 then s2.mc.reasons else s2.mc.reasons ++ [5] } }

/-! ### The step boundary (01, R30 to R32; 15, R376; 16, R410) -/

/-- A Class F command in progress on a logical ward (01, R31). -/
def classFBusy (s : State) (w : Nat) : Bool :=
  (wardStreams w).any (fun m => fg s WARD_SCFG_CLASS m == 1 && (stream s m).cmds.any (fun c => c.phase == .issued))

/-- One takeover at a boundary: with its substitute ACTIVE the logical ward moves, its store zero-filled; else it waits
and CNT_REMAP_DEFERRED counts it (15, R376). -/
def takeOver (s : State) (d : Nat) (t : Nat × Nat) : State :=
  if (pward s (5 * d + t.2)).st = 0 ∧ (pward s (5 * d + t.2)).stage = 0 then
    let w := firstWard s d + t.1
    let x := distOf s d
    let s1 := setDist s d { x with map := setNth x.map t.1 t.2, take := x.take.filter (fun u => u.1 != t.1) }
    zeroBanks (resetEngines (fs s1 PWR_WREG_DARK w 0) w) w 0
  else { s with remapDeferred := s.remapDeferred + 1 }

/-- A pending rotation at a boundary: the ward moves with its store; a Class F command in progress defers it
(16, R410; 01, R31). -/
def rotateNow (s : State) (d : Nat) : State :=
  let x := distOf s d
  match x.rotate with
  | none => s
  | some (i, p) =>
    if (pward s (5 * d + p)).st ≠ 0 ∨ (pward s (5 * d + p)).stage ≠ 0 then s
    else if classFBusy s (firstWard s d + i) then { s with remapDeferred := s.remapDeferred + 1 }
    else
      bump (setDist (dropSamples s d) d { x with map := setNth x.map i p, rotate := none, hot := 0, since := 0 }) THM_DIE_SQ_ROTATIONS d 1

/-- A register write that waits: a later one to the same register replaces it. -/
def putLater (xs : List (Nat × Word)) (k : Nat) (v : Word) : List (Nat × Word) := xs.filter (fun p => p.1 != k) ++ [(k, v)]

/-- Register writes that waited take effect. -/
def applyRegs (s : State) (xs : List (Nat × Word)) : State :=
  xs.foldl (fun t p => { t with regs := sset (regReset p.1) t.regs p.1 p.2 }) s

/-- A write of a shadow register waits for the next step boundary (04, R111). -/
def atStep (s : State) (r : Reg) (i : Nat) (v : Word) : State :=
  { s with mc := { s.mc with stepRegs := putLater s.mc.stepRegs (r.key i) v } }

/-- A step boundary opens: pending shim-table changes are applied, and the writes that wait for the boundary
(01, R30, R31; 04, R111). -/
def openBoundary (s : State) : State :=
  let s1 := (below 20).foldl (fun t d => rotateNow ((distOf t d).take.foldl (fun u k => takeOver u d k) t) d) s
  let s2 := applyRegs s1 s1.mc.stepRegs
  { s2 with mc := { s2.mc with stepRegs := [] } }

/-! ### The rows of wards -/

/-- A ward regulator's current limit in 0.5 A: 20 A with eight phases in service, 2.5 A less with each one fewer, and 17.5 A while the spare
phase comes in (15, R370). -/
def ampLimit (x : PWard) : Nat := if x.swap then 0x23 else nth [0x28, 0x28, 0x23, 0x1E] x.phases 0x1E

/-- PHASE_FAIL (15, R370): a phase of a physical ward's regulator fails: the spare phase replaces the first, each later
one lowers the limit, and with fewer than six in service the regulator has failed. -/
def execPhaseFail (pw phase : Nat) (s : State) : Host.Outcome State Fault Refusal :=
  let x := pward s pw
  let n := min 9 (x.phases + 1)
  let s1 := setPward s pw { x with phases := n, swap := n == 1 }
  let s2 := failEntry s1 9 0 ((logicalAt s pw).getD 0) phase (if n ≤ 1 then 8 else 9 - n) noStep
  .next (if n ≥ 4 ∧ !physFailed s pw then physFails s2 pw 1 5 else s2)

/-- SPARE_PHASE_SWAP_END (15, R370). -/
def execSparePhaseSwapEnd (pw : Nat) (s : State) : Host.Outcome State Fault Refusal :=
  .next (setPward s pw { pward s pw with swap := false })

/-- REGULATOR_FAIL (15, R372): clamps engage and the ward goes dark. -/
def execRegulatorFail (pw : Nat) (s : State) : Host.Outcome State Fault Refusal :=
  .next (if physFailed s pw then s else physFails s pw 1 5)

/-- SQUARE_REGULATOR_FAIL (15, R373): regulator A (0) or B (1) of a district square. -/
def execSquareRegulatorFail (district reg : Nat) (s : State) : Host.Outcome State Fault Refusal :=
  let x := distOf s district
  let x1 := if reg % 2 = 0 then { x with lostA := true } else { x with lostB := true }
  if x1 = x then .next s
  else
    let s1 := fs (setDist s district x1) (if reg % 2 = 0 then PWR_SREG_REG_A_OK else PWR_SREG_REG_B_OK) district 0
    .next (if x1.lostA && x1.lostB then loseDistrict (fs s1 PWR_SREG_SINGLE district 0) district
      else failEntry (fs s1 PWR_SREG_SINGLE district 1) 0x000A 0 district 1 0 noStep)

/-- WARD_DARK (15, R376): a logical ward goes dark for a cause: 1 regulator, 2 self-test, 3 ward reset. -/
def execWardDark (ward cause : Nat) (s : State) : Host.Outcome State Fault Refusal :=
  .next (if ward < wardCount s then
      (let p := physOf s ward
       goDark (recordRepair s ⟨p / 5, p % 5, if cause = 1 then 5 else 3, true, 0⟩) ward cause)
    else s)

/-- STREAM_VOTE_HOLD_EXPIRY (17, R424): a stream's state has stayed unchanged for HOLD clocks: its deeper vote takes
effect. -/
def execStreamVoteHoldExpiry (m : Nat) (s : State) : Host.Outcome State Fault Refusal :=
  let x := stream s m
  let v := wantedVote s m
  .next (if v > x.vote then wardVote (setStream s m { x with vote := v }) (physOf s (m / 8)) (classClient s m) else s)

/-- WARD_STATE_ENTRY (17, R421). -/
def execWardStateEntry (pw : Nat) (s : State) : Host.Outcome State Fault Refusal := .next (wardEnter s pw)

/-- ENTRY_CLAMPS_ENGAGED (17, R426): 1 µs into an entry into RETAIN or OFF. -/
def execEntryClampsEngaged (pw : Nat) (s : State) : Host.Outcome State Fault Refusal :=
  let x := pward s pw
  .next (match x.enter with
    | some t => if t ≥ 3 then setPward s pw { x with clamped := true } else s
    | none => s)

/-- WARD_ENTRY_COMPLETE (17, R426): the ward rests in the state entered; an event held begins its wake at once. -/
def execWardEntryComplete (pw : Nat) (s : State) : Host.Outcome State Fault Refusal :=
  let x := pward s pw
  .next (match x.enter with
    | none => s
    | some t =>
      if t ≥ 3 ∧ !x.clamped then s
      else
        let y := { x with st := t, enter := none, clamped := false, held := none, wakeBy := x.held, late := false, pulses := 0 }
        let s1 := setPward s pw y
        if t ≥ 3 then (match logicalAt s pw with
          | some w => resetEngines s1 w
          | none => s1) else s1)

/-- NAP_EXIT_COMPLETE (17, R426). -/
def execNapExitComplete (pw : Nat) (s : State) : Host.Outcome State Fault Refusal :=
  let x := pward s pw
  .next (if x.napExit then setPward s pw { x with st := 0, napExit := false } else s)

/-- Whether a district has a ward in a wake stage. -/
def wakingIn (s : State) (d : Nat) : Bool :=
  (rangeFrom (5 * d) 5).any (fun p => 1 ≤ (pward s p).stage && (pward s p).stage ≤ 4)

/-- Wakes in their stages across the module. -/
def wakesNow (s : State) : Nat := (s.pwards.filter (fun p => 1 ≤ p.2.stage && p.2.stage ≤ 4)).length

/-- A wake request tried: admitted under R380 (currents in 0.1 A, predicted over the next 50 µs), or deferred; a wake still
deferred after a frame pulse holds the district's other wards (15, R380, R381). -/
def tryWake (s : State) (p dist core : Nat) : State :=
  let x := pward s p
  if x.wakeBy.isNone || x.stage ≠ 0 then s
  else
    let d := p / 5
    let ok := !wakingIn s d && fg s THM_STATUS_COOLANT_STOP 0 == 0 && s.pwr.slew.isNone && decide (dist + 20 ≤ 480) && decide (core + 20 * (wakesNow s + 1) ≤ 6000)
    if ok then setPward s p { x with stage := 1, wakeBy := none }
    else if !x.late then bump (setPward s p { x with late := true, pulses := 0 }) PWR_WAKE_WAKE_DEFERRED d 1
    else if x.pulses ≥ 1 ∧ !(distOf s d).hold then
      bump (setDist s d { distOf s d with hold := true }) PWR_WAKE_WAKE_BUBBLED d 1
    else s

/-- WAKE_ADMIT (15, R380): a requested wake is tried with the district's and the module's predicted currents. -/
def execWakeAdmit (pw distCurrent coreCurrent : Nat) (s : State) : Host.Outcome State Fault Refusal :=
  .next (tryWake s pw distCurrent coreCurrent)

/-- WAKE_RETRY (15, R381): a deferred wake tried again. -/
def execWakeRetry (pw distCurrent coreCurrent : Nat) (s : State) : Host.Outcome State Fault Refusal :=
  .next (if (pward s pw).late then tryWake s pw distCurrent coreCurrent else s)

/-- WAKE_ZERO_FILL_END (17, R427): the banks not kept are zero, engines are reset, the ward is ACTIVE. -/
def execWakeZeroFillEnd (pw : Nat) (s : State) : Host.Outcome State Fault Refusal :=
  let x := pward s pw
  .next (if x.stage ≠ 5 then s
    else
      let keep := if x.st = 3 then x.kept else 0
      let s1 := setPward s pw { x with st := 0, stage := 0, kept := 0xFFF }
      match logicalAt s pw with
      | some w => resetEngines (zeroBanks s1 w keep) w
      | none => s1)

end Sys2Proof.Machine
end

