-- ==== Sys2Proof/Machine/Control.lean ====
section
/-!
DEFINITION. Register writes that configure queues, streams and flags: placement and pin checks, enabling and disabling,
doorbells and flag signals (05_queues_commands.md, R119, R120, R129 to R131; 06, R161, R162; 13, R325, R328; 00, R534).
-/

namespace Sys2Proof.Machine

/-! ### What a ward store and a slice hold (05, R118, R119, R130; 03, R77) -/

def ringSpan (s : State) (m : Nat) : Nat × Nat := (ringOffset s m, 32 * ringCommands s m)

/-- The spill region of an ME: BASE in KiB, SLOTS slots of 98,304 bytes (03, R77). -/
def spillSpan (s : State) (n : Nat) : Nat × Nat := (fg s ME_SPILL_BASE n * 1024, fg s ME_SPILL_SLOTS n * 98304)

/-- Enabled queues homed in a ward's store, or in the slice of its district, but one. -/
def queuesOf (s : State) (w home except : Nat) : List Nat :=
  let ws := if home = 0 then [w] else rangeFrom (firstWard s (districtOf s w)) (logicalOf s (districtOf s w))
  (ws.flatMap (fun v => rangeFrom (64 * v) 64)).filter (fun n => n != except && qEnabled s n && qHome s n == home)

/-- Enabled command rings in a ward's store, but one. -/
def storeRings (s : State) (w except : Nat) : List Nat :=
  (wardStreams w).filter (fun m => m != except && fg s WARD_SCFG_EN m == 1 && fg s WARD_SCFG_RING_HOME m == 1)

/-- The runs of a ward's store in use: enabled queues, rings, spill regions, but the named ones (no number: 2^20). -/
def storeInUse (s : State) (w q m me : Nat) : List (Nat × Nat) :=
  (queuesOf s w 0 q).map (qSpan s) ++ (storeRings s w m).map (ringSpan s) ++
  (((rangeFrom (4 * w) 4).filter (fun n => n != me && fg s ME_SPILL_SLOTS n != 0)).map (spillSpan s))

def none20 : Nat := 2 ^ 20

/-! ### Queues (05, R119, R120) -/

/-- An issued command holds a push or pop reservation on queue n (05, R120). -/
def qHeld (s : State) (n : Nat) : Bool :=
  s.streams.any (fun p => p.2.cmds.any (fun c => c.phase == .issued &&
    ((below 4).any (fun e => inUsed c e && !inKeep (c.inp e) && inQ (p.1 / 8) c e == n &&
        nth c.inPop e 0 < nth c.inRes e 0 * tileScale c) ||
     (below 2).any (fun e => outPresent (c.out e) && outQ (p.1 / 8) c e == n &&
        (queueRt s n).tail < nth c.outBase e 0 + nth c.outRes e 0))))

/-- The arrival region of a queue emptied, its drain point at round 0, rank 0 (13, R327, R328). -/
def clearArrival (s : State) (n : Nat) : State := wr { s with arrivals := serase s.arrivals n } WARD_QARR_STAT n 0

/-- An enable that fails the placement checks (05, R119). -/
def placeBad (s : State) (n : Nat) : Bool :=
  let w := n / 64
  let span := qSpan s n
  qDepth s n == 0 || qSlotBytes s n == 0 ||
  decide (span.1 + span.2 > if qHome s n = 0 then wardSize else sliceSize) ||
  (if qHome s n = 0 then (storeInUse s w n none20 none20).any (overlaps span)
   else (queuesOf s w 1 n).any (fun k => overlaps span (qSpan s k)))

/-- An enable that brings the pinned queues of the slice above 4 MiB (05, R119). -/
def pinBad (s : State) (n : Nat) : Bool :=
  qHome s n == 1 && decide (qBytes s n + sumNat ((queuesOf s (n / 64) 1 n).map (qBytes s)) > 4 * 2 ^ 20)

/-- A write of WARD_QCFG (05, R119, R120). -/
def writeQcfg (s : State) (n : Nat) (v : Word) : State :=
  let on := fieldIn v WARD_QCFG_EN == 1
  if qEnabled s n then
    let s1 := if changes s n v [WARD_QCFG_HOME, WARD_QCFG_BASE, WARD_QCFG_DEPTH, WARD_QCFG_SLOT] then fs s WARD_QSTAT_CFG_REFUSED n 1 else s
    if on then s1
    else if qHeld s1 n then fs s1 WARD_QSTAT_CFG_REFUSED n 1
    else clearArrival (fs (qClear s1 n) WARD_QCFG_EN n 0) n
  else
    let s1 := wr s WARD_QCFG n (withField v 31 31 0)
    if !on then s1
    else if placeBad s1 n || pinBad s1 n then
      (let s2 := if placeBad s1 n then fs s1 WARD_QSTAT_PLACE_REFUSED n 1 else s1
       if pinBad s1 n then fs s2 WARD_QSTAT_PIN_REFUSED n 1 else s2)
    else clearArrival (fs (qClear s1 n) WARD_QCFG_EN n 1) n

/-- A write of WARD_QBIND (05, R119). -/
def writeQbind (s : State) (n : Nat) (v : Word) : State :=
  let p := fieldIn v WARD_QBIND_PROD_WARD
  if 0x4F < p ∧ p < 0xFE then fs s WARD_QSTAT_CFG_REFUSED n 1
  else
    writeGuarded s WARD_QBIND n v (if qEnabled s n then
      [WARD_QBIND_PROD_WARD, WARD_QBIND_PROD_STREAM, WARD_QBIND_CONS_VALID, WARD_QBIND_CONS_STREAM] else [])
      WARD_QSTAT_CFG_REFUSED n

/-- Writes of the arrival registers: while EN is 1 a change is ignored and sets ARR_REFUSED (13, WARD_QARR_CFG). -/
def writeQarr (s : State) (r : Reg) (n : Nat) (v : Word) (guarded : List Fld) : State :=
  writeGuarded s r n v (if qEnabled s n then guarded else []) WARD_QARR_CFG_ARR_REFUSED n

/-! ### Streams (05, R129 to R131) -/

/-- Whether a stream's ring lies within its home and clear of everything else there (05, R130). -/
def ringOk (s : State) (m : Nat) : Bool :=
  let span := ringSpan s m
  let l := fg s WARD_SCFG_RING_LOG2 m
  decide (4 ≤ l) && decide (l ≤ 20) &&
  (if fg s WARD_SCFG_RING_HOME m = 0 then decide (span.1 + span.2 ≤ tier1Size)
   else decide (span.1 + span.2 ≤ wardSize) && !((storeInUse s (m / 8) none20 m none20).any (overlaps span)))

/-- A stream enabled: counts, completion record and fault block start afresh (05, R129 to R131; 06, R178; 13, R324). -/
def enableStream (s : State) (m : Nat) : State :=
  let s1 := setStream s m { st := .enabled, lateAck := (stream s m).lateAck }
  let s2 := wr (wr (fs s1 WARD_SCFG_EN m 1) WARD_SFETCH m 0) WARD_SDONE m 0
  let s3 := wr (wr (wr (wr s2 WARD_SFAULT m 0) WARD_SFAULT_DETAIL m 0) WARD_SFAULT_INDEX m 0) WARD_SFAULT_FRAME m 0
  wr (wr s3 WARD_SBLOCK m 0) WARD_SBLOCK_TAG m 0

/-- A stream disabled: EN reads 0 (05, R129). -/
def disableStream (s : State) (m : Nat) : State :=
  let x := stream s m
  fs (setStream s m { x with st := .disabled, cmds := [], req := [], abort := none, windows := [], vote := 5 }) WARD_SCFG_EN m 0

/-- A request to stop a stream that is RUNNING, WAITING or ABORTING is kept until its sequencer accepts or settles it
(05, R129; 06, R169). -/
def requestAbort (s : State) (m : Nat) (by' : AbortBy) : State :=
  let x := stream s m
  let y := { x with req := x.req ++ [by'] }
  match x.abort with
  | some a => setStream s m { y with abort := some { a with toDisabled := a.toDisabled || by' != .packet } }
  | none => setStream s m y

/-- A write of EN = 0 (05, R129): an abort request, or a disable of a stream that is IDLE, FAULTED or ABORTED. -/
def stopStream (s : State) (m : Nat) : State :=
  match (stream s m).st with
  | .disabled => s
  | .faulted => disableStream s m
  | .aborted => disableStream s m
  | .enabled => if isIdle s m && (stream s m).req.isEmpty then disableStream s m else requestAbort s m .enClear
  | _ => requestAbort s m .enClear

def scfgGuarded : List Fld :=
  [WARD_SCFG_CLASS, WARD_SCFG_RING_HOME, WARD_SCFG_NO_RESCUE, WARD_SCFG_VERSION, WARD_SCFG_RING_LOG2]

/-- A write of WARD_SCFG; `locked` holds while IMG_RESTORE runs, when no stream is enabled by packet (05, R129; 18, R452). -/
def writeScfg (s : State) (m : Nat) (v : Word) (locked : Bool) : State :=
  let on := fieldIn v WARD_SCFG_EN == 1
  if fg s WARD_SCFG_EN m = 1 then
    let s1 := if changes s m v scfgGuarded then fs s WARD_SSTAT_CFG_REFUSED m 1 else s
    if on then s1 else stopStream s1 m
  else
    let s1 := writeFields s WARD_SCFG m (withField v 31 31 0)
    let ver := fg s1 WARD_SCFG_VERSION m
    if !on then s1
    else if locked || !hasJob s || !(ver == 2 || ver == 3) || !ringOk s1 m then fs s1 WARD_SSTAT_CFG_REFUSED m 1
    else enableStream s1 m

/-- Writes of the ring base and of WARD_SSTEP (05, R129, R135). -/
def writeStreamReg (s : State) (r : Reg) (m : Nat) (v : Word) (guarded : List Fld) : State :=
  writeGuarded s r m v (if fg s WARD_SCFG_EN m = 1 then guarded else []) WARD_SSTAT_CFG_REFUSED m

/-- Work present at a ward sends it to ACTIVE, for the client that the cause is attributed to (17, R420). -/
def wakeIfWork (s : State) (w client : Nat) : State := if workPresent s w then wakeLogical s w client else s

/-- The client of a command's stream where the cause comes from another unit of the module (17, R420, R423): 3 host cores and PCIe,
5 the fabric agent. -/
def hostClient : Nat := 3
def fabricClient : Nat := 5

/-- A doorbell write (05, R131). A command made available on a dark ward faults its stream with its tag (01, R32; 06, R176; a stream
enabled there faults with its first command, DEDUCED, log 12). -/
def doorbell (s : State) (m v client : Nat) : State :=
  let x := stream s m
  let loaded := fg s WARD_SFETCH_LOADED m
  let ahead := (v + 2 ^ 32 - loaded) % 2 ^ 32
  let back := (v + 2 ^ 32 - x.avail) % 2 ^ 32
  if fg s WARD_SCFG_EN m = 0 ∨ ahead > ringCommands s m ∨ back ≥ 2 ^ 31 then fs s WARD_SSTAT_DB_REFUSED m 1
  else
    let s1 := setStream s m { x with avail := v % 2 ^ 32 }
    if isDark s (m / 8) ∧ v % 2 ^ 32 ≠ loaded then loseStream s1 m (m / 8) else wakeIfWork s1 (m / 8) client

/-! ### Flags (06, R161, R162) -/

/-- Whether a stream of the ward is enabled. -/
def anyEnabled (s : State) (w : Nat) : Bool := (wardStreams w).any (fun m => fg s WARD_SCFG_EN m == 1)

/-- A signal from the control space or the fabric: an increment of 0 has no effect; any other is work present at the ward (06, R162,
WARD_FSIG; 17, R420). -/
def flagSignal (s : State) (n inc client : Nat) : State :=
  if inc % 2 ^ 16 = 0 then s else wakeLogical (signalFlag s n (inc % 2 ^ 16)) (n / 256) client

def writeFlag (s : State) (n : Nat) (v : Word) : State :=
  writeGuarded s WARD_FLAG n v (if anyEnabled s (n / 256) then [WARD_FLAG_COUNT] else []) WARD_FCFG_SET_REFUSED n

/-- A write of WARD_FCFG; a TIMEOUT of 0 is ignored (06, R162, WARD_FCFG). -/
def writeFcfg (s : State) (n : Nat) (v : Word) : State :=
  let v1 := if fieldIn v WARD_FCFG_TIMEOUT = 0 then withField v 15 0 (fg s WARD_FCFG_TIMEOUT n) else v
  writeGuarded s WARD_FCFG n v1 (if anyEnabled s (n / 256) then [WARD_FCFG_EXT, WARD_FCFG_TIMEOUT] else []) WARD_FCFG_SET_REFUSED n

/-! ### The rows -/

/-- STREAM_ENABLE (05, R129): a word with EN = 1 written to WARD_SCFG of stream instance m (DEDUCED, log 35). -/
def execStreamEnable (m : Nat) (value : Word) (s : State) : Host.Outcome State Fault Refusal :=
  .next (if m / 8 < wardCount s then observe (writeScfg s m (withField value 31 31 1) false) else s)

/-- STREAM_DISABLE (05, R129): a word with EN = 0 written to WARD_SCFG (DEDUCED, log 26). -/
def execStreamDisable (m : Nat) (value : Word) (s : State) : Host.Outcome State Fault Refusal :=
  .next (if m / 8 < wardCount s then observe (writeScfg s m (withField value 31 31 0) false) else s)

/-- QUEUE_ENABLE (05, R119): a word with EN = 1 written to WARD_QCFG of queue instance n. -/
def execQueueEnable (n : Nat) (value : Word) (s : State) : Host.Outcome State Fault Refusal :=
  .next (if n / 64 < wardCount s then observe (writeQcfg s n (withField value 31 31 1)) else s)

/-- QUEUE_DISABLE (05, R120): a word with EN = 0 written to WARD_QCFG. -/
def execQueueDisable (n : Nat) (value : Word) (s : State) : Host.Outcome State Fault Refusal :=
  .next (if n / 64 < wardCount s then observe (writeQcfg s n (withField value 31 31 0)) else s)

end Sys2Proof.Machine
end

