-- ==== Sys2Proof/Machine/MatrixEngine.lean ====
section
/-!
DEFINITION. The matrix engines (03_matrix_engines.md; 08, R204 to R207): one tile-product slot of an MMA or MMA_WG, the
order and precision of its sums, the handover of partials to the spill and fold unit, the final drain, and the
split of weight-gradient tiles at slice boundaries.
-/

namespace Sys2Proof.Machine

/-- An operand line: its decoded FP32 patterns (03, R68). -/
abbrev Line := List Nat

/-- The product of two decoded operands: exact, then rounded to FP32 (03, R68). -/
def meProduct (x y : Nat) : Nat × Ev := fmul32 x y

/-- Sequential FP32 sum of products onto a partial; an empty partial starts as the first product (03, R69). -/
def meAccum : Option Nat → Line → Line → Option Nat × Ev
  | p, a :: as, b :: bs =>
    let (q, e1) := meProduct a b
    match p with
    | none => let (r, e) := meAccum (some q) as bs; (r, e1.add e)
    | some v =>
      let (t, e2) := fadd32 v q
      let (r, e) := meAccum (some t) as bs
      (r, e1.add (e2.add e))
  | p, _, _ => (p, {})

/-- One slot over all elements: the partials after 128 more products of each. -/
def meSlot (part : List Nat) (as bs : List Line) : List Nat × Ev :=
  let pairs := as.flatMap (fun a => bs.map (fun b => (a, b)))
  let rs := (below 16384).zip pairs |>.map (fun p =>
    meAccum (if part.isEmpty then none else some (nth part p.1 0)) p.2.1 p.2.2)
  (rs.map (fun r => r.1.getD 0), sumEv (rs.map Prod.snd))

/-- A partial added to a running sum in E48; the first is copied (03, R69). -/
def sumInto (sum : List (Option Nat)) (vals : List Nat) : List (Option Nat) :=
  (below 16384).map (fun i =>
    let v := (fp32ToE48 (nth vals i 0)).1
    match nth sum i none with
    | none => some v
    | some t => some (addE48 t v).1)

/-- The value of a closed integer run in E48 (03, R73). -/
def intRunValue (fa fb : Nat) (r : Int × Nat × Nat) : Nat :=
  let ea : Int := (r.2.1 : Int) - 127 + intQuantum fa
  let eb : Int := (r.2.2 : Int) - 127 + intQuantum fb
  if r.2.1 = 0xFF ∨ r.2.2 = 0xFF then nan48
  else (toE48 (.fin (decide (r.1 < 0)) r.1.natAbs 1 (ea + eb))).1

def addRun (fa fb : Nat) (sum : Option Nat) (r : Int × Nat × Nat) : Option Nat :=
  match sum with
  | none => some (intRunValue fa fb r)
  | some t => some (addE48 t (intRunValue fa fb r)).1

/-- One block of one element: the exact sum of its code products, joined to the open run of the same scales, or the
open run closed into the sum and a new one opened (03, R73). -/
def intBlock (fa fb : Nat) (st : Option (Int × Nat × Nat) × Option Nat) (ba bb : Block) :
    Option (Int × Nat × Nat) × Option Nat :=
  let v := ((ba.codes.zip bb.codes).map (fun p => intCode fa p.1 * intCode fb p.2)).foldl (· + ·) 0
  match st.1 with
  | none => (some (v, ba.scale, bb.scale), st.2)
  | some (t, sa, sb) =>
    if sa = ba.scale ∧ sb = bb.scale then (some (t + v, sa, sb), st.2)
    else (some (v, ba.scale, bb.scale), addRun fa fb st.2 (t, sa, sb))

/-- One slot of an element under INT32 accumulation: four blocks. -/
def intElem (fa fb : Nat) (st : Option (Int × Nat × Nat) × Option Nat) (la lb : List Block) :
    Option (Int × Nat × Nat) × Option Nat :=
  (la.zip lb).foldl (fun t p => intBlock fa fb t p.1 p.2) st

/-- One slot under INT32 accumulation; `close` closes every run at a chunk boundary. -/
def intSlot (fa fb : Nat) (t : OpenTile) (a b : Tile) (close : Bool) : OpenTile :=
  let rs := (below 16384).map (fun i =>
    let st := intElem fa fb (t.runs[i]?, nth t.sum i none) (nth a.blocks (i / 128) []) (nth b.blocks (i % 128) [])
    if close then
      match st.1 with
      | some r => (none, addRun fa fb st.2 r)
      | none => st
    else st)
  { t with runs := rs.filterMap Prod.fst, sum := rs.map Prod.snd }

/-- Clocks of a tile-product slot: the slower operand's class (03, R61, R63). -/
def slotClocks (fa fb : Nat) : Nat :=
  let cls := fun (f : Nat) => if f = 2 then 512 else if f = 12 then 32 else if f = 8 ∨ f = 9 ∨ f = 11 then 64 else 128
  max (cls fa) (cls fb)

/-- The chunk length c (03, R72). -/
def chunkLen (s : State) : Nat := 2 ^ fg s MOD_ACCUM_CFG_C_LOG2 0

/-- Spill slots a command needs: over every open set, the tiles whose reduction exceeds c, a half tile half a slot, rounded up to whole
slots (03, R77). -/
def spillNeed (s : State) (c : Cmd) : Nat :=
  if bit c.mode 1 ∨ !dRedEn c.desc then 0
  else
    let r := dRedLevel c.desc
    let vs := its c
    let long := (mmaTiles c).filter (fun t => 128 * (vs.filter (fun v => dropLevel r v = dropLevel r t)).length > chunkLen s)
    ceilDiv (maxNat (long.map (fun t => sumNat ((long.filter (fun u => u.drop (r + 1) = t.drop (r + 1))).map (tileHalves c c.desc))))) 2

def spillFits (word : Word) (need : Nat) : Bool :=
  need ≤ fieldOf word 3 0 && fieldOf word 28 16 * 1024 + fieldOf word 3 0 * 98304 ≤ wardSize

/-- Whether each step of a product is the second of a pair of half tiles: two that follow each other, read the same A tile and serve
different output tiles; `free` says that the step before is a half tile without a partner so far (03, R66). -/
def pairSeconds (c : Cmd) : Bool → List Nat → List (List Nat × Bool) → List Bool
  | _, _, [] => []
  | free, prev, (v, mul) :: rest =>
    let half := mul && isHalf c c.desc v
    let second := free && half && decide (inOffset c.desc 0 v = inOffset c.desc 0 prev) && decide (inOffset c.desc 1 v ≠ inOffset c.desc 1 prev)
    second :: pairSeconds c (half && !second) v rest

/-- The slot that runs next is its half tile's partner's slot: no clocks of its own (03, R66). -/
def paired (c : Cmd) : Bool := nth (pairSeconds c false [] (mmaSteps c)) c.iter false

/-- s rounded once to the output format (03, R70). -/
def meConvert (fmt : Nat) (v : Nat) : Nat × Ev :=
  match fmt with
  | 1 => e48ToFp32 v
  | 2 => e48ToBf16 v
  | _ => (v, {})

/-- The rows of an output tile: 16,384 values in rows of 128, +0 from column `cols` on (05, R122). -/
def outRows (fmt : Nat) (cols : Nat) (sum : List (Option Nat)) : List (List Nat) × Ev :=
  let rs := (below 16384).map (fun i => if i % 128 < cols then meConvert fmt ((nth sum i none).getD 0) else (0, {}))
  (chunks 128 (rs.map Prod.fst), sumEv (rs.map Prod.snd))

/-- Rows at which slices begin inside rows r0 to r0 + 127: multiples of 128 and of the owner range (08, R207). -/
def sliceStarts (split r0 : Nat) : List Nat :=
  (below 128).map (· + r0) |>.filter (fun r => r = r0 || r % 128 == 0 || (split != 0 && r % (32 * split) == 0))

/-- The slices an output tile's rows meet: (first row, rows), ascending (08, R206). -/
def slices (split r0 : Nat) : List (Nat × Nat) :=
  let st := sliceStarts split r0
  (st.zip (st.drop 1 ++ [r0 + 128])).map (fun p => (p.1, p.2 - p.1))

/-- The tiles that leave for an output tile of vector v: one for MMA; for MMA_WG one per slice (08, R206). A half tile in a queue whose
slots hold no full tile has 64 columns to a row (03, R65, R66). -/
def tilesOut (s : State) (w : Nat) (c : Cmd) (v : List Nat) (full : List (List Nat)) : List (Hdr × List Byte) :=
  let d := c.desc
  let rows := full.map (fun r => r.take (slotCols c.fmtOut (qSlotBytes s (outQ w c 0))))
  let base := elemBaseOf d v
  let len := dRowLen d
  let fmt := c.fmtOut
  if c.opcode = 0x09 then
    let r0 := base / len
    (slices (fg s MOD_GBIN_CFG_SPLIT (wgBin c)) r0).map (fun p =>
      ({ rowLen := len, fmt := fmt, rows := p.2, cols := colsOf len (base % len), elemBase := p.1 * len + base % len },
       encodeWideTile fmt (padTo 128 (List.replicate (slotCols c.fmtOut (qSlotBytes s (outQ w c 0))) 0) ((rows.drop (p.1 - r0)).take p.2))))
  else
    [({ rowLen := len, fmt := fmt, rows := 128, cols := colsOf len base, elemBase := base }, encodeWideTile fmt rows)]

/-- How many tiles a matrix product pushes (05, R124; 08, R206). -/
def mmaPushes (s : State) (c : Cmd) : Nat :=
  if c.opcode = 0x09 then
    sumNat ((mmaTiles c).map (fun v =>
      (slices (fg s MOD_GBIN_CFG_SPLIT (wgBin c)) (elemBaseOf c.desc v / dRowLen c.desc)).length))
  else (mmaTiles c).length

def meRt (s : State) (n : Nat) : MeRt := sget {} s.me n
def setMe (s : State) (n : Nat) (x : MeRt) : State := { s with me := sset {} s.me n x }

def getTile (ts : List (Nat × OpenTile)) (t : Nat) : OpenTile := ((ts.find? (fun p => p.1 == t)).map Prod.snd).getD {}
def putTile (ts : List (Nat × OpenTile)) (t : Nat) (x : OpenTile) : List (Nat × OpenTile) :=
  (t, x) :: ts.filter (fun p => p.1 != t)
def dropTile (ts : List (Nat × OpenTile)) (t : Nat) : List (Nat × OpenTile) := ts.filter (fun p => p.1 != t)

/-- Whether an earlier step of the command read the same offset of an end: an operand's infinities and reserved
codes count at its first read (02, R38; DEDUCED, log 10). -/
def readBefore (c : Cmd) (e : Nat) (v : List Nat) : Bool :=
  ((mmaSteps c).take c.iter).any (fun p => p.2 && inOffset c.desc e p.1 == inOffset c.desc e v)

/-- An operand tile with its lines decoded, +0 outside its header's ROWS and COLS (05, R122), and the events of its first read. -/
def operand (c : Cmd) (e : Nat) (fmt : Nat) (v : List Nat) (h : Hdr) (bs : List Byte) : Tile × List Line × Ev × Nat :=
  let t := (decodeTile fmt bs).mask h.rows h.cols
  let ls := (below 128).map t.line
  if readBefore c e v then (t, ls.map (fun l => l.map Prod.fst), {}, 0)
  else
    (t, ls.map (fun l => l.map Prod.fst),
     if bit c.mode 0 then {} else sumEv (ls.map (fun l => sumEv (l.map Prod.snd))), t.reservedCodes)

/-- The input partial as E48 sums: FP32 or E48 by its header; outside ROWS and COLS it is +0; another format is
FLT_INPUT_FORMAT (03, R69; 06, R177). -/
def cinSum (q w : Nat) (h : Hdr) (bs : List Byte) : Got (List (Option Nat) × Ev) :=
  if h.fmt = fFp32 ∨ h.fmt = fE48 then
    let rows := decodeWideTile h.fmt 128 (padTo (tileBytes h.fmt) 0 bs)
    let vs := (below 16384).map (fun i =>
      if i / 128 < h.rows ∧ i % 128 < h.cols then
        (if h.fmt = fE48 then ((toE48 (ofE48 (nth (nth rows (i / 128) []) (i % 128) 0))).1, {})
         else fp32ToE48 (nth (nth rows (i / 128) []) (i % 128) 0))
      else (0, {}))
    .ok (vs.map (fun v => some v.1), sumEv (vs.map Prod.snd))
  else .fault 0x19 (h.fmt * 2 ^ 16 + w * 2 ^ 8 + q)

/-- ME_STATUS while a command runs and after it, when TAG alone keeps the last command (03, R87; DEDUCED, log 13). A tile is open until its
last value has left the final drain (03, R75). -/
def meStatus (s : State) (n : Nat) (c : Cmd) (rt : MeRt) (busy : Bool) : State :=
  let s := fs s ME_STATUS_TAG n c.tag
  let s := fs s ME_STATUS_OPEN n (if busy then rt.tiles.length + b2n (!rt.out.isEmpty) else 0)
  let s := fs s ME_STATUS_SPILLING n (b2n rt.latch.isSome)
  let s := fs s ME_STATUS_E48_RES n (b2n (busy && bit c.mode 1))
  let s := fs s ME_STATUS_INT32 n (b2n (busy && bit c.mode 0))
  fs s ME_STATUS_BUSY n (b2n busy)

/-- A finished tile in its final drain leaves for the output queue when its slot is free (03, R78). -/
def meDrainOut (s : State) (m w n : Nat) (c : Cmd) (rt : MeRt) : State :=
  match rt.out with
  | [] => s
  | (h, bs) :: rest =>
    if canPush s w c 0 1 then
      if isDark s (outWard w (c.out 0)) then execFault s m c 0x14 (outWard w (c.out 0))
      else
        let (s1, c1) := pushOut s m w c 0 h bs
        let c2 := { c1 with aux := rest.length }
        let rt' := { rt with out := rest }
        meStatus (setMe (setCmd s1 m c2) n (if rest.isEmpty && c2.iter ≥ unitCount c2 then {} else rt')) n c2 rt'
          (!(rest.isEmpty && c2.iter ≥ unitCount c2))
    else s

/-- The tile number, first and last flags and length of the reduction that step i of a product serves. -/
def stepInfo (c : Cmd) (v : List Nat) : Nat × Nat :=
  let r := dRedLevel c.desc
  let same := fun (u : List Nat) => if dRedEn c.desc then decide (dropLevel r u = dropLevel r v) else decide (u = v)
  ((mmaTiles c).findIdx same, 128 * ((its c).filter same).length)

/-! ### Shadow samples (04, R107, R108) -/

/-- The output tiles of a command that the shadow check selects, by number in push order (04, R107). Of an MMA_WG whose tiles are pushed as
slice tiles, t counts the output tiles (DESIGN CHOICE, log 69). -/
def shadowPicks (s : State) (c : Cmd) : List Nat :=
  let g := bits c.tag 15 8
  if fg s MOD_SHADOW_CFG_ENABLE 0 = 0 ∨ fg s MOD_SHADOW_GRP_CFG_GROUP_EN g = 0 then []
  else (below (mmaTiles c).length).filter (fun t =>
    kerfDraw (jobSeed s) (0xF000 + g) c.tag t c.step < 2 ^ (24 - fg s MOD_SHADOW_CFG_N_LOG2 0))

/-- What the shadow check does as a command starts (04, R111): a selected tile is skipped where the district has no free ward or the frame's
budgets do not cover its operand copies, of which the bytes are charged now and at least one engine slot must be left (DEDUCED, log 52); else the free ward wakes for it (17, R420,
R423). -/
def shadowStart (s : State) (w : Nat) (c : Cmd) : State × List (Nat × List Nat) :=
  (shadowPicks s c).foldl (fun r t =>
    let n := ((mmaSteps c).filter (fun x => x.2 && (stepInfo c x.1).1 == t)).length * (tileBytes c.fmtA + tileBytes c.fmtB)
    if (freeWards r.1 (districtOf r.1 w)).isEmpty || !budgetCovers r.1 actShadow n 1 0 then (skipSample r.1 c.tag, r.2)
    else (wakeWard (spend r.1 actShadow n 0 0) ((freeWards r.1 (districtOf r.1 w)).headD 0) (8 + actShadow), r.2 ++ [(t, [])])) (s, [])

/-- The reference sums of a tile after a slot: each product, exact in FP32, into its E48 sum in order (04, R108). -/
def shadowSlot (sums : List Nat) (as bs : List Line) : List Nat :=
  let pairs := as.flatMap (fun a => bs.map (fun b => a.zip b))
  (below 16384).zip pairs |>.map (fun p =>
    p.2.foldl (fun t ab => (addE48 t (fp32ToE48 (meProduct ab.1 ab.2).1).1).1) (nth sums p.1 0))

/-- The picked tile's sums take a slot in; the first starts from the input partial, if any, which a tile without products leaves out
(DESIGN CHOICE, log 69: R108 speaks of products only). -/
def shadowTake (rt : MeRt) (t : Nat) (cin : Option (List (Option Nat))) (la lb : List Line) : MeRt :=
  { rt with picked := rt.picked.map (fun p =>
      if p.1 = t then (t, shadowSlot (if p.2.isEmpty then ((cin.getD []).map (fun o => o.getD 0)) else p.2) la lb) else p) }

/-- A finished tile that was picked becomes a sample (04, R109). -/
def shadowDone (s : State) (w : Nat) (c : Cmd) (rt : MeRt) (t : Nat) (sum : List (Option Nat)) : State × MeRt :=
  match rt.picked.find? (fun p => p.1 == t) with
  | none => (s, rt)
  | some p =>
    let y := (below 16384).map (fun i => (e48ToFp32 ((nth sum i none).getD 0)).1)
    let r := (below 16384).map (fun i => (e48ToFp32 (nth p.2 i 0)).1)
    ({ s with samples := s.samples ++ [⟨w, c.tag, c.step, y, r⟩] },
     { rt with picked := rt.picked.filter (fun q => q.1 != t) })

/-- The outcome of a finished tile: into its final drain, the command one step further. -/
def meFinish (s : State) (m w n : Nat) (c : Cmd) (rt : MeRt) (v : List Nat) (t : Nat) (sum : List (Option Nat)) (e : Ev) : State :=
  let (rows, e1) := outRows c.fmtOut (colsOf (dRowLen c.desc) (elemBaseOf c.desc v)) sum
  let outs := tilesOut s w c v rows
  let (s, rt) := shadowDone s w c rt t sum
  let rt1 := { rt with tiles := dropTile rt.tiles t, out := rt.out ++ outs }
  let s1 := countMe (setMe s n rt1) n c.step (e.add e1)
  let c1 := { c with aux := rt1.out.length }
  meStatus (unitDone (setCmd s1 m c1) m w c1) n c1 rt1 true

/-- A tile-product slot of vector v (03, R61, R69, R73, R77, R78). It waits while a handover that it needs is still
draining. Closed INT32 runs are added to the running sum at once, in every accumulation mode: R78's latch and handover are those of FP32
partials (DESIGN CHOICE, log 7). -/
def meSlotStep (s : State) (m w n : Nat) (c : Cmd) (rt : MeRt) (v : List Nat) (a b : Tile) (la lb : List Line)
    (cin : Option (List (Option Nat))) (e0 : Ev) : State :=
  let (t, len) := stepInfo c v
  let x := getTile rt.tiles t
  let x0 := if x.k = 0 then { x with sum := cin.getD x.sum } else x
  let k' := x.k + 128
  let last := decide (k' ≥ len)
  let boundary := decide (k' % chunkLen s = 0)
  let resident := bit c.mode 1
  if bit c.mode 0 then
    let x1 := { intSlot c.fmtA c.fmtB x0 a b (last || boundary) with k := k' }
    if last then meFinish s m w n c rt v t x1.sum e0
    else meStatus (unitDone (countMe (setMe s n { rt with tiles := putTile rt.tiles t x1 }) n c.step e0) m w c) n c
      { rt with tiles := putTile rt.tiles t x1 } true
  else if (last || (boundary && !resident)) && rt.latch.isSome then s
  else
    let (part, e1) := meSlot x0.part la lb
    let e2 := e0.add e1
    if last then meFinish s m w n c rt v t (sumInto x0.sum part) e2
    else
      let (x1, rt1) :=
        if boundary then
          (if resident then ({ x0 with k := k', part := [], sum := sumInto x0.sum part }, rt)
           else ({ x0 with k := k', part := [] }, { rt with latch := some (t, part) }))
        else ({ x0 with k := k', part := part }, rt)
      let rt2 := { rt1 with tiles := putTile rt1.tiles t x1 }
      meStatus (unitDone (countMe (setMe s n rt2) n c.step e2) m w c) n c rt2 true

/-- One event of a matrix product on ME e of ward w: a tile leaves its final drain, or the next slot runs once its
operand tiles are visible; nothing happens while it waits (05, R125). An ME starts a command with the first event that does something: BUSY, TAG
and ME_SPILL are taken then, not at issue (R87); the spill need is checked at the first chunk boundary or the first finished tile, whichever
comes first (R77) (both DESIGN CHOICE, log 7). -/
def meEvent (s : State) (w e op : Nat) : State :=
  match jobOf s w e op with
  | none => s
  | some (m, c) =>
    let n := 4 * w + e
    let rt0 := meRt s n
    if rt0.out ≠ [] then meDrainOut s m w n c rt0
    else if c.stopping then s
    else
      match (mmaSteps c)[c.iter]? with
      | none => s
      | some (v, mul) =>
        let (s0, picks) := if c.iter = 0 then shadowStart s w c else (s, rt0.picked)
        let rt := if c.iter = 0 then { rt0 with spill := rd s ME_SPILL n, picked := picks } else rt0
        let (t, len) := stepInfo c v
        let k' := (getTile rt.tiles t).k + 128
        let due := !rt.checked && (!mul || k' ≥ len || k' % chunkLen s == 0)
        if due && spillNeed s c > 0 && !spillFits rt.spill (spillNeed s c) then execFault s m c 0x10 n
        else
          let rt := { rt with checked := rt.checked || due }
          let cin : Got (Option (List (Option Nat)) × Ev) :=
            if inUsed c 2 ∧ (getTile rt.tiles t).k = 0 then
              (readIn s w c 2 (inOffset c.desc 2 v)).bind (fun p =>
                (cinSum (inQueue (c.inp 2)) w p.1 p.2).bind (fun r => .ok (some r.1, r.2)))
            else .ok (none, {})
          if !mul then
            match cin with
            | .wait => s
            | .fault code d => execFault s m c code d
            | .ok (ci, ev) => if rt.latch.isSome then s else meFinish s0 m w n c rt v t (ci.getD []) ev
          else
            match readIn s w c 0 (inOffset c.desc 0 v), readIn s w c 1 (inOffset c.desc 1 v), cin with
            | .ok (ha, ba), .ok (hb, bb), .ok (ci, ev) =>
              let (ta, la, ea, ra) := operand c 0 c.fmtA v ha ba
              let (tb, lb, eb, rb) := operand c 1 c.fmtB v hb bb
              let s1 := countReserved s0 w c.step (ra + rb)
              let s2 := bump s1 ME_BUSY_CLOCKS n (if paired c then 0 else slotClocks c.fmtA c.fmtB)
              let r := meSlotStep s2 m w n c (shadowTake rt t ci la lb) v ta tb la lb ci (ev.add (ea.add eb))
              if r = s2 then s else r
            | .fault code d, _, _ => execFault s m c code d
            | _, .fault code d, _ => execFault s m c code d
            | _, _, .fault code d => execFault s m c code d
            | _, _, _ => s

/-- The spill region that holds running sums of the command on logical ME n (03, R77, R78). -/
def spillRuns (s : State) (w n : Nat) (c : Cmd) : List (Nat × Nat) :=
  let rt := meRt s n
  if spillNeed s c > 0 ∧ rt.tiles.any (fun p => !p.2.sum.isEmpty) then
    [(wardStoreKey w (fieldOf rt.spill 28 16 * 1024), fieldOf rt.spill 3 0 * 98304)] else []

/-- One event of a matrix product whose reads may meet an error: of its operand tiles, of a spill slot, or of the accumulator storage of its
open tiles (03, R79; 11, R291, R295). -/
def meRead (s : State) (w e op : Nat) (err : MemErr) : State :=
  match err, jobOf s w e op with
  | .accum off, some (m, c) =>
    let n := 4 * w + e
    if (meRt s n).tiles.isEmpty then meEvent s w e op
    else execFault (markLost s (accumKey n off)) m c 0x12 (ueAt s 1 (accumKey n off))
  | _, _ => withErr s w e op err (spillRuns s w (4 * w + e)) (fun t => meEvent t w e op)

/-- MMA (03, R69): one event of the MMA that ME `me` of `ward` executes (DESIGN CHOICE, log 7). -/
def execMma (ward me : Nat) (err : MemErr) (s : State) : Host.Outcome State Fault Refusal :=
  .next (observe (meRead s ward (me % 4) 0x08 err))

/-- MMA_WG (08, R206): as MMA, its tiles pushed split at slice boundaries. -/
def execMmaWg (ward me : Nat) (err : MemErr) (s : State) : Host.Outcome State Fault Refusal :=
  .next (observe (meRead s ward (me % 4) 0x09 err))

/-- SPILL_HANDOVER (03, R78): the partials in an ME's drain latch are added to their tile's running sum; `waited` is
the clocks the array waited for the unit, counted in ME_SPILL_WAIT (DESIGN CHOICE, log 9). -/
def execSpillHandover (ward me waited : Nat) (s : State) : Host.Outcome State Fault Refusal :=
  let n := 4 * ward + me % 4
  let rt := meRt s n
  .next (match rt.latch with
    | none => s
    | some (t, part) =>
      let x := getTile rt.tiles t
      let rt' := { rt with latch := none, tiles := putTile rt.tiles t { x with sum := sumInto x.sum part } }
      observe (bump (fs (setMe s n rt') ME_STATUS_SPILLING n 0) ME_SPILL_WAIT_CLOCKS n waited))

end Sys2Proof.Machine
end

