-- ==== Sys2Proof/Machine/Sequencer.lean ====
section
/-!
DEFINITION. The ward sequencers: loading and issuing commands, completion and visibility, the settling of faults and aborts, wait
timeouts and the quiescence detector (05_queues_commands.md, R123 to R134; 06_loops_flags_faults.md, R154, R159, R164 to R174).
-/

namespace Sys2Proof.Machine

/-! ### Loading (05, R130, R132, R135) -/

/-- The bytes that a command's load reads beside its ring slot: its descriptor, and the kernel header of a VOP (06, R150; 07, R180). -/
def loadRuns (w : Nat) (c : Cmd) (noDesc : Bool) : List (Nat × Nat) :=
  (if noDesc then [] else [(descKey w c.loopIx, 128)]) ++ (if c.opcode = 0x10 then [(kstoreKey w (8 * bits c.imm 15 0), 8)] else [])

/-- The command at the ring's place k, checked: its descriptor copied, the kernel header of a VOP, its load fault, its step index.
A fetch that meets an error beyond correction or a poisoned sector reads nothing, and its tag is 0 (11, R291). -/
def fetchCmd (s : State) (m k : Nat) (err : MemErr) : State × Cmd :=
  let w := m / 8
  let a := ringKey s m k
  match poisonDetail s a 32, meetErr s err [(a, 32)] with
  | some d, _ => (s, { num := k, fault := some (0x12, d) })
  | none, (s1, some d) => (s1, { num := k, fault := some (0x12, d) })
  | none, (s1, none) =>
    let c0 := ringCmd s m k
    let (c1, bad) := if fg s WARD_SCFG_VERSION m = 2 then translateV2 c0 else (c0, none)
    let noDesc := isSeqOp c1.opcode || !opcodes.contains c1.opcode
    let d := if noDesc then [] else wordsAt s (descKey w c1.loopIx) 16
    let c2 := { c1 with desc := d, ext := if c1.opcode = 0x10 then [kstoreWord s w (8 * bits c1.imm 15 0) 8] else [] }
    match bad, (loadRuns w c1 noDesc).findSome? (fun r => poisonDetail s r.1 r.2), meetErr s1 err (loadRuns w c1 noDesc) with
    | some f, _, _ => (s1, { c2 with fault := some f })
    | none, some x, _ => (s1, { c2 with fault := some (0x12, x) })
    | none, none, (s2, some x) => (s2, { c2 with fault := some (0x12, x) })
    | none, none, (s2, none) => (s2, { c2 with fault := loadCheck s w c2 d })

/-- One command loaded (05, R132): loading stops at a command that fails, which is not counted in LOADED (DEDUCED, log 11). -/
def loadNext (s : State) (m : Nat) (err : MemErr) : State :=
  let x := stream s m
  let k := fg s WARD_SFETCH_LOADED m
  if x.st ≠ .enabled ∨ !wardActive s (m / 8) ∨ x.avail = k ∨ x.cmds.any (fun c => c.fault.isSome) then s
  else
    let (s0, c) := fetchCmd s m k err
    let s1 := setStream s0 m { x with cmds := x.cmds ++ [c] }
    if c.fault.isSome then s1
    else
      let s2 := fs s1 WARD_SFETCH_LOADED m (k + 1)
      if c.stepAdv then fs s2 WARD_SSTEP_STEP m (c.step + 1) else s2

/-- COMMAND_LOAD (05, R132): the sequencer loads the next available command of stream instance m; err is what its fetch meets. -/
def execCommandLoad (m : Nat) (err : MemErr) (s : State) : Host.Outcome State Fault Refusal := .next (observe (loadNext s m err))

/-! ### Issue checks (05, R123, R127, R146; 06, R154, R158, R159; 13, R329; 14, R343) -/

def qDetail (n : Nat) : Nat := n / 64 * 256 + n % 64

/-- The queue instances of the present input ends, with their ends. -/
def inEnds (w : Nat) (c : Cmd) : List (Nat × Nat) := ((below 4).filter (inUsed c)).map (fun e => (e, inQ w c e))
def outEnds (w : Nat) (c : Cmd) : List (Nat × Nat) :=
  ((below 2).filter (fun e => outPresent (c.out e))).map (fun e => (e, outQ w c e))

/-- The bytes of the tile that a command pushes or reads on an end, where the command fixes it; 0 where headers or the kernel do
(DEDUCED, log 24). -/
def stateTileBytes (c : Cmd) : Nat :=
  32768 + (if updMom c then (if updMx c then 16896 else 32768) else 0) + (if updRule c = 0 then 256 else 32768)

/-- The least bytes of a slot for a tile of a user kernel: a narrow tile, or one column of a wide one (log 20). -/
def leastTile (f : Nat) : Nat := if isNarrow f then tileBytes f else 16 * elemBits f

/-- Bytes of a VOP's tile on an end in format f: of a library kernel a full tile, with its flags where `saved`, or a single column; of a user
kernel at least a column (07, R189, R197; DEDUCED, log 24). -/
def vopTile (c : Cmd) (f : Nat) (saved column : Bool) : Nat :=
  if f = 0 then 0
  else if !isLibrary c || column then leastTile f
  else tileBytes f + (if saved then 1024 else 0)

/-- Ends of the library's kernels that hold a saved tile with flags: inputs, outputs; and outputs of one column (07, R189). -/
def savedIn (c : Cmd) (e : Nat) : Bool := e == 1 && [0x401, 0x420, 0x421].contains (bits c.imm 15 0)
def savedOut (c : Cmd) (e : Nat) : Bool := e == 1 && [0x400, 0x410, 0x411].contains (bits c.imm 15 0)
def columnOut (c : Cmd) (e : Nat) : Bool := [(0x200, 1), (0x213, 1), (0x301, 0), (0x501, 0)].contains (bits c.imm 15 0, e)

def inTileBytes (c : Cmd) (e : Nat) : Nat :=
  match c.opcode with
  | 0x10 => vopTile c (if e = 0 then c.fmtA else if e = 1 then c.fmtB else 0) (savedIn c e) (bits c.imm 15 0 == 0x501 && e == 1)
  | 0x08 => if e = 0 then tileBytes c.fmtA else if e = 1 then tileBytes c.fmtB else 65536
  | 0x09 => if e = 0 then tileBytes c.fmtA else if e = 1 then tileBytes c.fmtB else 65536
  | 0x18 =>
    if updRule c < 2 then
      (if e = 0 then 65536 else if e = 1 then stateTileBytes c else if e = 2 then 512 else if updMask c = 1 then 512 else 2048)
    else if e < 2 then 65536 else 512
  | 0x20 => 65536
  | 0x28 => tileBytes c.fmtA
  | 0x02 => dTileBytes c.desc
  | 0x30 => dTileBytes c.desc
  | 0x40 => 1536
  | _ => 0

/-- The largest output tile of a matrix product: 128×64 where every one is a half tile (03, R65, R66). -/
def productBytes (c : Cmd) : Nat :=
  if (mmaTiles c).all (isHalf c c.desc) then tileBytes c.fmtOut / 2 else tileBytes c.fmtOut

def outTileBytes (c : Cmd) (e : Nat) : Nat :=
  match c.opcode with
  | 0x01 => if converts c then tileBytes c.fmtOut else dTileBytes c.desc
  | 0x10 => if kPush c e = 0 then 0 else vopTile c (pushFmt c e) (savedOut c e) (columnOut c e)
  | 0x08 => productBytes c
  | 0x09 => productBytes c
  | 0x18 => if updRule c < 2 then (if e = 0 then stateTileBytes c else 32768) else if updRule c = 2 then 65536 else 512
  | 0x20 => tileBytes c.fmtOut
  | 0x28 => tileBytes c.fmtOut
  | 0x31 => 65536
  | _ => 0

/-- Opcodes that may pop a queue homed in the shared cache (05, R127). -/
def popsSlice (op : Nat) : Bool := [0x20, 0x31, 0x18, 0x02, 0x30].contains op

/-- The first queue that fails the configuration check. -/
def configFail (s : State) (w : Nat) (c : Cmd) : Option Nat :=
  let ins := inEnds w c
  let bad := fun (p : Nat × Nat) =>
    !qEnabled s p.2 || (qHome s p.2 == 1 && !popsSlice c.opcode) || inTileBytes c p.1 > qSlotBytes s p.2
  let mixed := if c.opcode = 0x20 then ins.find? (fun p => qHome s p.2 != qHome s ((ins.map Prod.snd).headD 0)) else none
  let arr := if c.opcode = 0x31 then ins.find? (fun p =>
    fg s WARD_QBIND_PROD_WARD p.2 != 0xFE || qHome s p.2 != 1 || fg s WARD_QARR_CFG_NRANK p.2 != bits c.imm 7 0 || bits c.imm 7 0 == 0) else none
  match ins.find? bad, mixed, arr, (outEnds w c).find? (fun p => !qEnabled s p.2 || outTileBytes c p.1 > qSlotBytes s p.2) with
  | some p, _, _, _ => some p.2
  | none, some p, _, _ => some p.2
  | none, none, some p, _ => some p.2
  | none, none, none, some p => some p.2
  | none, none, none, none => none

/-- The first queue not bound to the stream (05, R123). -/
def ownerFail (s : State) (m : Nat) (c : Cmd) : Option Nat :=
  match (inEnds (m / 8) c).find? (fun p => fg s WARD_QBIND_CONS_VALID p.2 == 0 || fg s WARD_QBIND_CONS_STREAM p.2 != m % 8),
    (outEnds (m / 8) c).find? (fun p => fg s WARD_QBIND_PROD_WARD p.2 != m / 8 || fg s WARD_QBIND_PROD_STREAM p.2 != m % 8) with
  | some p, _ => some p.2
  | none, some p => some p.2
  | none, none => none

/-- The first bound-table entry that fails: an index above 4,095 or a bound above the level's COUNT (06, R159). -/
def boundFail (s : State) (w : Nat) (c : Cmd) : Option Nat :=
  (rangeFrom (dBoundBase c.desc) (boundCount c.desc)).find? (fun i =>
    i > 4095 || fg s WARD_BOUND_BOUND (4096 * w + i) > dCount c.desc (dRagLevel c.desc))

def readBounds (s : State) (w : Nat) (c : Cmd) : List Nat :=
  (rangeFrom (dBoundBase c.desc) (boundCount c.desc)).map (fun i => fg s WARD_BOUND_BOUND (4096 * w + i))

/-- The offsets that each unit of the walk reads on an end. A factored apply pops its state tiles one by one, so each is a
unit there (09, R230). -/
def endUnits (c : Cmd) (e : Nat) : List (List Int) :=
  if isMma c then ((mmaSteps c).filter Prod.snd).map (fun p => [endOffset c e p.1])
  else if c.opcode = 0x18 ∧ e = 1 then (its c).map (fun v => [endOffset c e v])
  else if dKind c.desc = 2 then (below (its c).length).map (fun (i : Nat) => [(i : Int)])
  else ((units c).filter (fun vs => !vs.isEmpty)).map (fun vs => vs.map (endOffset c e))

def minInt (d : Int) (xs : List Int) : Int := xs.foldl min (xs.headD d)
def maxInt (d : Int) (xs : List Int) : Int := xs.foldl max (xs.headD d)

/-- 1 + the largest offset of an end, 0 where nothing is read (06, R154). -/
def endReach (us : List (List Int)) : Nat := if us.isEmpty then 0 else (maxInt 0 us.flatten + 1).toNat

/-- The least remaining offset before each unit. -/
def sufMin : List (List Int) → List Int
  | [] => []
  | u :: us =>
    match sufMin us with
    | [] => [minInt 0 u]
    | b :: bs => min (minInt 0 u) b :: b :: bs

/-- The largest offset read up to each unit. -/
def preMax (hi : Int) : List (List Int) → List Int
  | [] => []
  | u :: us => let h := max hi (maxInt 0 u); h :: preMax h us

/-- The largest count of tiles from the lowest not yet popped to the highest read (06, R154). -/
def liveSpan (us : List (List Int)) : Nat :=
  (maxInt 0 (((preMax (-1) us).zip (sufMin us)).map (fun p => p.1 - p.2 + 1))).toNat

/-- The live span of an end, in tiles. -/
def endLive (c : Cmd) (e : Nat) : Nat :=
  (if inKeep (c.inp e) then endReach (endUnits c e) else liveSpan (endUnits c e)) * tileScale c

/-- Tiles a command pushes on an output end (05, R124; 06, R155; 07, R180). -/
def pushCount (s : State) (c : Cmd) (e : Nat) : Nat :=
  if !outPresent (c.out e) then 0
  else if isMma c then mmaPushes s c
  else if c.opcode = 0x10 then
    (match kPush c e with
     | 1 => (units c).length
     | 2 => (its c).length
     | _ => 0)
  else (its c).length

/-- The first failing issue check of a command whose bounds are read: configuration, owner, dark destination, bounds, negative
offset, live span (05, R146; 06, R154, R159, R176; DEDUCED, log 21). -/
def issueCheck (s : State) (m : Nat) (c : Cmd) : Check :=
  let w := m / 8
  match configFail s w c, ownerFail s m c, (outEnds w c).find? (fun p => isDark s (p.2 / 64)), boundFail s w c with
  | some n, _, _, _ => some (0x08, qDetail n)
  | none, some n, _, _ => some (0x09, qDetail n)
  | none, none, some p, _ => some (0x14, p.2 / 64)
  | none, none, none, some i => some (0x0A, i % 4096)
  | none, none, none, none =>
    match (inEnds w c).find? (fun p => (endUnits c p.1).any (fun u => u.any (fun o => decide (o < 0)))),
      (inEnds w c).find? (fun p => endLive c p.1 > qDepth s p.2) with
    | some p, _ => some (0x0A, 2 ^ 31 + p.1)
    | none, some p => some (0x08, qDetail p.2)
    | none, none => none

/-! ### Tier 2 slots at issue (10, R252) -/

/-- The slot in state st that holds Tier 2 bytes lo to hi wholly. -/
def slotHolding (s : State) (st : Nat) (lo hi : Int) : Option Nat :=
  (below 16).find? (fun k =>
    fg s MOD_T2SLOT_CTL_STATE k == st && fg s MOD_T2SLOT_RANGE_SIZE k != 0 &&
    decide (((fg s MOD_T2SLOT_RANGE_BASE k * 2 ^ 21 : Nat) : Int) ≤ lo) &&
    decide (hi ≤ (((fg s MOD_T2SLOT_RANGE_BASE k + fg s MOD_T2SLOT_RANGE_SIZE k) * 2 ^ 21 : Nat) : Int)))

/-- The Tier 2 bytes that a command's walk covers, as offsets within Tier 2: the source of a MOVE_IN or MOVE_COPY from local Tier 2,
the destination of a PUBLISH (06, R157; DEDUCED, log 33). -/
def tier2Range (s : State) (c : Cmd) : Option (Int × Int) :=
  let span := fun (base : Int) (f : List Nat → Int) =>
    let as := (its c).map (fun v => base + f v)
    (minInt 0 as, maxInt 0 as + (dTileBytes c.desc : Int))
  if c.opcode = 0x38 then some (span (offsetOf c.imm : Int) (dot (dDstStride c.desc)))
  else if (c.opcode = 0x01 ∨ c.opcode = 0x03) ∧ isLocal s c.imm then
    let r := span (offsetOf c.imm : Int) (dot (dSrcStride c.desc))
    if decide ((tier2Base : Int) ≤ r.1) && decide (r.1 < ((tier2Base + tier2Size : Nat) : Int)) then
      some (r.1 - (tier2Base : Int), r.2 - (tier2Base : Int)) else none
  else none

/-- The slot a command takes at issue, counted in its READERS or WRITERS. -/
def takeSlot (s : State) (c : Cmd) : State × Cmd :=
  match tier2Range s c with
  | none => (s, c)
  | some r =>
    let pub := c.opcode == 0x38
    match slotHolding s (if pub then 1 else 2) r.1 r.2 with
    | none => (s, c)
    | some k =>
      (if pub then fs s MOD_T2SLOT_USE_WRITERS k (fg s MOD_T2SLOT_USE_WRITERS k + 1)
       else fs s MOD_T2SLOT_USE_READERS k (fg s MOD_T2SLOT_USE_READERS k + 1), { c with slot := some k })

/-! ### Completion (05, R134, R145; 06, R163) -/

/-- The destination of a MOVE that carries a remote signal. -/
def moveDest (c : Cmd) : Nat := if c.opcode = 0x02 then c.imm else dBase2 c.desc

def remoteSignal (c : Cmd) : Bool := isMover c.opcode && c.sigEn && dRemoteSig c.desc

/-- A command that has done all it does is complete: its signal is applied, locally here or before on the destination module. -/
def finishCmd (s : State) (m : Nat) (c : Cmd) : State :=
  if remoteSignal c then markComplete s m c
  else
    match applySignal s m c with
    | (s1, none) =>
      let s2 := markComplete s1 m c
      if c.sigEn then wakeLogical s2 (if c.sigWard = 0x7F then m / 8 else c.sigWard) (classClient s2 m) else s2
    | (s1, some (code, d)) => execFault s1 m c code d

/-- Whether nothing of a command is left to do but its signal: walk done, final drains and commit done, writes acknowledged, tiles
visible (05, R134). -/
def workDone (s : State) (m : Nat) (c : Cmd) : Bool :=
  c.phase == .issued && c.iter ≥ unitCount c && (c.aux == 0 || (isMove c.opcode && c.aux == 2)) &&
  outputsVisible s (m / 8) c && (cmdTxns s m c.num).isEmpty

/-- The fence of a PUBLISH (11, R285; 19, R475): every host-core copy of the tiles that it wrote is invalidated. -/
def publishFence (s : State) (c : Cmd) : State :=
  if c.opcode ≠ 0x38 then s
  else (units c).foldl (fun t v => hostDrop t (tier2Base + (walkAddr c.imm (dDstStride c.desc) (v.headD [])).toNat) (dTileBytes c.desc)) s

/-- A command completes once its work is done; a remote signal goes out first and is acknowledged (06, R163). -/
def completeCmd (s : State) (m : Nat) (c : Cmd) : State :=
  if !workDone s m c then s
  else
  let s := publishFence s c
  if remoteSignal c && c.aux != 2 then
    let w := if c.sigWard = 0x7F then m / 8 else c.sigWard
    match issueTxn s m c.num 5 (chipOf (moveDest c)) (c.sigInc * 2 ^ 16 + w * 2 ^ 8 + c.sigFlag) 0
      [(c.sigInc * 2 ^ 16 + w * 2 ^ 8 + c.sigFlag, [])] with
    | .ok s1 => setCmd s1 m { c with aux := 2 }
    | .wait => s
    | .fault code d => execFault (denied s) m c code d
  else finishCmd s m c

/-! ### Issue (05, R132) -/

/-- Whether the next command may issue: its wait, its fence, a place in its engine's buffer. -/
def issueReady (s : State) (m : Nat) (c : Cmd) : Bool :=
  let e := engineOf s (m / 8) c
  waitMet s m c && (!c.fence || ((stream s m).cmds.head?.map Cmd.num) == some c.num) &&
  (e ≥ 10 || (ebuf s (m / 8) e).length < engineDepth e)

/-- The reservations of a command made on its queues (05, R124; 06, R154): KEEP ends take the RESV_POP that stands at issue. -/
def reserveIn (s : State) (w : Nat) (c : Cmd) (e : Nat) : State × Cmd :=
  if !inUsed c e then (s, { c with inBase := c.inBase ++ [0], inRes := c.inRes ++ [0], inPop := c.inPop ++ [0] })
  else
    let n := inQ w c e
    let q := queueRt s n
    let r := endReach (endUnits c e)
    let s1 := if inKeep (c.inp e) then s else setQueue s n { q with resvPop := q.resvPop + r * tileScale c }
    (s1, { c with inBase := c.inBase ++ [q.resvPop], inRes := c.inRes ++ [r], inPop := c.inPop ++ [0] })

def reserveOut (s : State) (w : Nat) (c : Cmd) (e : Nat) : State × Cmd :=
  if !outPresent (c.out e) then (s, { c with outBase := c.outBase ++ [0], outRes := c.outRes ++ [0], outFill := c.outFill ++ [0] })
  else
    let n := outQ w c e
    let q := queueRt s n
    let r := pushCount s c e
    (setQueue s n { q with resvPush := q.resvPush + r },
     { c with outBase := c.outBase ++ [q.resvPush], outRes := c.outRes ++ [r], outFill := c.outFill ++ [0] })

def reserveAll (s : State) (w : Nat) (c : Cmd) : State × Cmd :=
  let t := (below 4).foldl (fun (t : State × Cmd) e => reserveIn t.1 w t.2 e) (s, c)
  (below 2).foldl (fun (t : State × Cmd) e => reserveOut t.1 w t.2 e) t

/-- The highest hint level of a frame raised (16, R396). -/
def raiseHint (hs : List Nat) (n level : Nat) : List Nat :=
  let xs := hs ++ List.replicate (n + 1 - hs.length) 0
  setNth xs n (max (nth xs n 0) level)

/-- What the sequencer's own commands do at issue (05, R140, R145; 16, R396). -/
def seqEffect (s : State) (c : Cmd) : State :=
  match c.opcode with
  | 0x50 => { s with pwr := { s.pwr with hints := raiseHint s.pwr.hints (bits c.imm 7 0) (bits c.imm 11 8) } }
  | 0x58 => { s with trace := s.trace ++ [(c.tag, c.imm)] }
  | _ => s

/-- A MARK with its step-boundary bit, once complete, opens a boundary as JOURNAL does, in a job that has issued no JOURNAL (01, R32). -/
def markBoundary (s : State) (m : Nat) (c : Cmd) : State :=
  if c.opcode = 0x58 ∧ bit c.mode 0 ∧ s.watch.journaled.isEmpty ∧ (stream s m).st = .enabled then
    openBoundary { s with mc := { s.mc with marked := true } }
  else s

/-- The next command of a stream issues, or takes its load or issue fault (05, R132). With `only`, it issues only where its
opcode is that one. -/
def issueNext (s : State) (m : Nat) (only : Option Nat) : State :=
  let x := stream s m
  let w := m / 8
  if x.st ≠ .enabled ∨ !wardActive s w then s
  else
    match nextLoaded x with
    | none => s
    | some c =>
      if only.isSome ∧ only ≠ some c.opcode then s
      else
        match c.fault with
        | some (code, d) => issueFault s m c code d
        | none =>
          if !issueReady s m c then s
          else if isSeqOp c.opcode then
            let c1 := { c with phase := .issued }
            let s1 := setStream s m { x with cmds := replaceCmd x.cmds c1, waitPulse := 0 }
            markBoundary (finishCmd (seqEffect s1 c1) m c1) m c1
          else
            let c1 := { c with bounds := readBounds s w c }
            match issueCheck s m c1 with
            | some (code, d) => issueFault s m c code d
            | none =>
              let (s1, c2) := reserveAll s w c1
              let (s2, c3) := takeSlot s1 { c2 with phase := .issued }
              let e := engineOf s2 w c3
              let s3 := setEbuf (setStream s2 m { stream s2 m with cmds := replaceCmd x.cmds c3, waitPulse := 0 }) w e
                (ebuf s2 w e ++ [(m, c3.num)])
              let s4 := if c3.opcode = 0x40 then
                { s3 with watch := { s3.watch with journaled := s3.watch.journaled ++ [c3.step] } } else s3
              let (s5, c4) := popEnds s4 m w c3 (vectorsLeft c3)
              if unitCount c4 = 0 then completeCmd s5 m c4 else s5

/-- COMMAND_ISSUE (05, R132): the next command of stream instance m issues, or takes its load or issue fault. -/
def execCommandIssue (m : Nat) (s : State) : Host.Outcome State Fault Refusal := .next (observe (issueNext s m none))

/-- WAIT (05, R140): the stream's next command, a WAIT whose flag has reached its target, issues and completes. -/
def execWait (m : Nat) (s : State) : Host.Outcome State Fault Refusal := .next (observe (issueNext s m (some 0x48)))

/-- SIGNAL (05, R140): its signal is applied at issue. -/
def execSignal (m : Nat) (s : State) : Host.Outcome State Fault Refusal := .next (observe (issueNext s m (some 0x49)))

/-- HINT (16, R396): a phase level announced to the slow loop. -/
def execHint (m : Nat) (s : State) : Host.Outcome State Fault Refusal := .next (observe (issueNext s m (some 0x50)))

/-- MARK (05, R140; 01, R32): a mark written to the trace, and a step boundary where the job has issued no JOURNAL. -/
def execMark (m : Nat) (s : State) : Host.Outcome State Fault Refusal := .next (observe (issueNext s m (some 0x58)))

/-- COMMAND_COMPLETE (05, R134): command num of stream instance m completes, is signalled and retires. -/
def execCommandComplete (m num : Nat) (s : State) : Host.Outcome State Fault Refusal :=
  .next (match findCmd (stream s m).cmds num with
    | some c => observe (completeCmd s m c)
    | none => s)

/-- The client that a push into a queue wakes its ward for: the class of the producing stream, or the fabric agent (17, R420). -/
def pushClient (s : State) (n : Nat) : Nat :=
  if fg s WARD_QBIND_PROD_WARD n < 80 then classClient s (sidx (fg s WARD_QBIND_PROD_WARD n) (fg s WARD_QBIND_PROD_STREAM n)) else fabricClient

/-- A tile pushed into a queue is work present at a ward in RETAIN or OFF, or on its way there, and wherever it lets an engine go on; in IDLE
and NAP it wakes nothing by itself (17, R418, R420). -/
def wakeForPush (s : State) (n client : Nat) : State :=
  let w := n / 64
  let x := pward s (physOf s w)
  if x.st ≥ 3 || x.enter.any (fun t => t ≥ 3) then wakeLogical s w client else wakeIfWork s w client

/-- TILE_VISIBLE (05, R124): the tile at TAIL of queue instance n becomes visible once it is pushed. -/
def execTileVisible (n : Nat) (s : State) : Host.Outcome State Fault Refusal :=
  .next (if qEnabled s n && (findPushed (queueRt s n).pushed (queueRt s n).tail).isSome then observe (wakeForPush (popUnread (qShow s n) n) n (pushClient s n)) else s)

/-! ### Wait timeouts and the quiescence detector (06, R164, R166, R167) -/

/-- WAIT_TIMEOUT (06, R164): the wait of stream m's next command on an EXT flag has lasted TIMEOUT pulses. -/
def execWaitTimeout (m : Nat) (s : State) : Host.Outcome State Fault Refusal :=
  let x := stream s m
  .next (match x.st, nextLoaded x with
    | .enabled, some c =>
      let n := flagIdx (m / 8) c.waitFlag
      if waitsExt s m && c.fault.isNone && x.waitPulse ≥ fg s WARD_FCFG_TIMEOUT n then
        observe (issueFault s m c 0x20 (c.waitFlag * 2 ^ 16 + c.waitCount)) else s
    | _, _ => s)

/-- The words of WARD_SBLOCK and WARD_SBLOCK_TAG that a blocked stream's capture gives (06, R178). -/
def blockWord (b : Nat × Nat × Nat × Nat × Nat) : Nat := b.1 * 2 ^ 29 + b.2.1 % 2 ^ 7 * 2 ^ 22 + b.2.2.1 % 2 ^ 8 * 2 ^ 14
def blockTag (b : Nat × Nat × Nat × Nat × Nat) : Nat := b.2.2.2.1 % 2 ^ 16 * 2 ^ 16 + b.2.2.2.2 % 2 ^ 16

/-- FLT_STALL raised: the captures, the count, the record and the event (06, R167). -/
def stall (s : State) : State :=
  let ms := below (8 * wardCount s)
  let bs := ms.filterMap (fun m => (blockCause s m).map (fun b => (m, b)))
  let s1 := ms.foldl (fun t m => wr (wr t WARD_SBLOCK m 0) WARD_SBLOCK_TAG m 0) s
  let s2 := bs.foldl (fun t p => wr (wr t WARD_SBLOCK p.1 (BitVec.ofNat 32 (blockWord p.2))) WARD_SBLOCK_TAG p.1 (BitVec.ofNat 32 (blockTag p.2))) s1
  let s3 := wr s2 MOD_STALL_STATUS 0 (BitVec.ofNat 32 (2 ^ 31 + bs.length))
  let d := fun (k : Nat) => match bs[k]? with
    | some p => blockTag p.2 * 2 ^ 32 + blockWord p.2 + p.1
    | none => 0
  let tag := match bs with
    | p :: _ => p.2.2.2.2.1
    | [] => 0
  raiseEvent (failEntry { s3 with stalled := true } 2 tag 0 bs.length 0 noStep) 1 tag bs.length (d 0) (d 1)

/-- QUIESCENCE_STALL (06, R166): the module has been quiescent through WINDOW pulses after one. -/
def execQuiescenceStall (s : State) : Host.Outcome State Fault Refusal :=
  .next (match s.quiet with
    | some k =>
      if fg s MOD_QUIESCE_CFG_ENABLE 0 = 1 ∧ !s.stalled ∧ quiescent s ∧ k ≥ fg s MOD_QUIESCE_CFG_WINDOW 0 then stall s else s
    | none => s)

/-! ### Settling faults and aborts (06, R169 to R174) -/

/-- A stream final under a request: the requests learn its status (18, R448: 2 complete, 3 aborted, 4 faulted). -/
def tellAbort (s : State) (m status : Nat) : State :=
  let s1 := setStream s m { stream s m with lastAbort := status, req := [] }
  { s1 with mc := { s1.mc with waiting := s1.mc.waiting.map (fun x =>
      if x.streams.contains m then { x with streams := x.streams.filter (· != m), done := x.done ++ [(m, status)] } else x) } }

/-- A stream's final state: DISABLED for EN = 0 or unassignment, else the given one. -/
def endStream (s : State) (m : Nat) (toDisabled : Bool) (st : StreamSt) : State :=
  if toDisabled then disableStream s m else setStream s m { stream s m with st := st, cmds := [], abort := none }

/-- A stopped command's part of an abort counted. -/
def addHalt (s : State) (m cmds trunc : Nat) : State :=
  let x := stream s m
  setStream s m { x with repCmds := x.repCmds + cmds, repTrunc := x.repTrunc + trunc }

/-- Whether a JOURNAL of the stream is in its commit, which defers acceptance until it retires or faults (06, R170): `ext` marks one whose
commit is done. -/
def committing (s : State) (m : Nat) : Bool :=
  s.flash.commits.any (fun c => c.m == m && c.burning) || (stream s m).cmds.any (fun c => c.opcode == 0x40 && c.ext != [])

/-- An abort request accepted (06, R170): ST_COMPLETE where every available command had retired; else loading and issue stop,
loaded commands that have not issued and issued ones that have not started go, a command that could not load is none of them, executing ones stop at their stop points, and those past their walk go on to complete. -/
def acceptAbort (s : State) (m : Nat) : State :=
  let x := stream s m
  if x.st ≠ .enabled ∨ x.req.isEmpty ∨ committing s m then s
  else
    let toDis := x.req.any (fun r => r != .packet)
    let s0 := setStream s m { x with repCmds := 0, repTrunc := 0 }
    if fg s WARD_SDONE_RETIRED m = x.avail then
      let s1 := tellAbort s0 m 2
      if toDis then disableStream s1 m else s1
    else
      let cmds := x.cmds.filter (fun c => c.fault.isNone)
      let s1 := setStream s0 m { stream s0 m with st := .aborting, abort := some ⟨toDis, 0, 0, 0⟩, cmds := cmds }
      let (s2, n, t) := haltCmds s1 m (cmds.filter (fun c => c.phase != .complete))
      addHalt s2 m n t

/-- Whether nothing of an aborting or faulting stream is in progress any more. -/
def settled (s : State) (m : Nat) : Bool := (stream s m).cmds.all (fun c => c.phase != .issued)

/-- Commands that were left to end their tile stop once it has ended (06, R171). -/
def stopEnded (s : State) (m : Nat) : State :=
  let (s1, n, t) := stopCmds s m ((stream s m).cmds.filter (fun c => c.stopping && c.phase == .issued && !midTile s m c))
  addHalt s1 m n t

/-- Once nothing is in progress and every transaction is acknowledged, the stream is ABORTED or DISABLED (06, R170). -/
def settleAbort (s : State) (m : Nat) : State :=
  if (stream s m).st ≠ .aborting then s
  else
    let s1 := stopEnded s m
    if settled s1 m && (streamTxns s1 m).isEmpty then
      endStream (tellAbort s1 m 3) m (((stream s1 m).abort.map AbortRun.toDisabled).getD false) .aborted
    else s1

/-- After four frames the stream is forced to its final state; acknowledgements that come later count (06, R173). -/
def forceAbort (s : State) (m : Nat) : State :=
  let x := stream s m
  match x.st, x.abort with
  | .aborting, some a =>
    if a.pulses < 4 then s
    else
      let (s1, n, t) := stopCmds s m (x.cmds.filter (fun c => c.phase == .issued))
      let s2 := addHalt { s1 with txns := s1.txns.map (fun u => if u.m = m then { u with dead := true } else u) } m n t
      endStream (tellAbort s2 m 3) m a.toDisabled .aborted
  | _, _ => s

/-- Once every earlier command has retired or stopped, the stream reads FAULTED (06, R174). -/
def settleFault (s : State) (m : Nat) : State :=
  if (stream s m).st ≠ .faulting then s
  else
    let s1 := stopEnded s m
    if settled s1 m then
      let toDis := (stream s1 m).req.any (fun r => r != .packet)
      endStream (tellAbort s1 m 4) m toDis .faulted
    else s1

end Sys2Proof.Machine
end

