-- ==== Sys2Proof/Machine/Movers.lean ====
section
/-!
DEFINITION. The Movers (05, R131, R141; 06, R157; 10, R252; 11, R266 to R269, R284 to R286, R291, R292): reads and writes of tiers,
ward stores and doorbells, tiles over the fabric, format conversion, MOVE_IN, MOVE_OUT, MOVE_COPY and PUBLISH.
-/

namespace Sys2Proof.Machine

/-! ### Regions (11, R266, R267) -/

inductive Region where
  | tier1 | tier2 | ward (w : Nat) | ctrl | unmapped
deriving DecidableEq, Repr

/-- The region that holds n bytes from an offset on wholly; none where they leave it. -/
def regionOf (s : State) (off : Int) (n : Nat) : Region :=
  let a := off.toNat
  if off < 0 then .unmapped
  else if a + n ≤ tier1Size then .tier1
  else if tier2Base ≤ a ∧ a + n ≤ tier2Base + tier2Size then .tier2
  else if wardBase ≤ a ∧ a < wardBase + 0x1000000 * wardCount s ∧ a % 0x1000000 + n ≤ wardSize then .ward ((a - wardBase) / 0x1000000)
  else if ctrlBase ≤ a ∧ a + n ≤ ctrlBase + ctrlSize then .ctrl
  else .unmapped

/-- Transactions of n bytes from an offset: at most 256 bytes each, within one aligned block (11, R286). -/
def txnsOf : Nat → Int → Nat → List (Int × Nat)
  | 0, _, _ => []
  | f + 1, off, n =>
    if n = 0 then []
    else
      let k := min n (256 - (off % 256).toNat)
      (off, k) :: txnsOf f (off + k) (n - k)

def txns (off : Int) (n : Nat) : List (Int × Nat) := txnsOf (n / 256 + 2) off n

/-- Bits [31:0] of an offset in two's complement (06, R157). -/
def addrDetail (off : Int) : Nat := (off % 2 ^ 32).toNat

/-! ### Reads and writes of local memory -/

/-- One local read transaction of an iteration whose exact sum is `sum`: its bytes, FLT_ADDRESS with the sum as its detail, or
FLT_UNCORRECTABLE (06, R157; 11, R267, R291). `tier2` and `stores` say whether the command may read Tier 2 and ward stores. -/
def readTxn (s : State) (tier2 stores : Bool) (sum : Int) (t : Int × Nat) : Got (List Byte) :=
  let ok := match regionOf s t.1 t.2 with
    | .tier1 => true
    | .tier2 => tier2
    | .ward _ => stores
    | _ => false
  if !ok then .fault 0x11 (addrDetail sum)
  else
    match poisonDetail s t.1.toNat t.2 with
    | some d => .fault 0x12 d
    | none => .ok (memRead s t.1.toNat t.2)

def readTxns (s : State) (tier2 stores : Bool) (sum : Int) : List (Int × Nat) → Got (List Byte)
  | [] => .ok []
  | t :: ts => (readTxn s tier2 stores sum t).bind (fun a => (readTxns s tier2 stores sum ts).bind (fun b => .ok (a ++ b)))

/-- A ward-store write that overlaps an enabled queue, an enabled ring or a spill region (11, R268). -/
def storeGuarded (s : State) (w : Nat) (off n : Nat) : Bool := (storeInUse s w none20 none20 none20).any (overlaps (off, n))

/-- One local write transaction of a command: FLT_ADDRESS, a partial write to a poisoned sector, or done (11, R267, R268, R292).
`publish` gives Tier 2 and nothing else. -/
def writeTxn (s : State) (publish : Bool) (sum off : Int) (bs : List Byte) : Got State :=
  let a := off.toNat
  let ok := match regionOf s off bs.length with
    | .tier1 => !publish
    | .tier2 => publish
    | .ward w => !publish && !storeGuarded s w (a % 0x1000000) bs.length
    | _ => false
  if !ok then .fault 0x11 (addrDetail sum)
  else
    match partialPoison s a bs.length with
    | some b => .fault 0x12 (ueAt s 2 b)
    | none => .ok (memWrite s a bs)

/-- The bytes of a write in their place: host-core copies of what it writes in Tier 1 are invalidated before it is acknowledged (11, R274); of
a PUBLISH, by its fence (11, R285). -/
def moverWrite (s : State) (publish : Bool) (a : Nat) (bs : List Byte) : State :=
  let s1 := memWrite s a bs
  if publish then s1 else hostDrop s1 a bs.length

/-- Write transactions in order: those before a failing one stand (11, R267). -/
def writeTxns (s : State) (publish : Bool) (err : MemErr) (sum : Int) (bs : List Byte) : List (Int × Nat) → State × Got Unit
  | [] => (s, .ok ())
  | t :: ts =>
    match writeTxn s publish sum t.1 (bs.take t.2) with
    | .ok _ =>
      (match writeErr s err t.1.toNat (bs.take t.2).length with
       | (s1, some d) => (s1, .fault 0x12 d)
       | (s1, none) => writeTxns (moverWrite s1 publish t.1.toNat (bs.take t.2)) publish err sum (bs.drop t.2) ts)
    | .wait => (s, .wait)
    | .fault c d => (s, .fault c d)

/-! ### Tiles from a source -/

/-- A tile read from a global address: at once from local memory, over READ_REQ transactions from another chip, whose data is
taken once it has all come back (11, R267; 12, R304). err is what the read itself meets (11, R280, R283, R287, R291). `alloc` says whether
the read allocates in the shared cache (11, R273). -/
def fetchTile (s : State) (m : Nat) (c : Cmd) (base : Nat) (off : Int) (n : Nat) (err : MemErr) (tier2 stores alloc : Bool) : State × Got (List Byte) :=
  if isLocal s base then
    match readTxns s tier2 stores off (txns off n) with
    | .ok bs =>
      (match meetErr s err [(off.toNat, n)] with
       | (s1, some d) => (s1, .fault 0x12 d)
       | (s1, none) => (cacheTouches s1 alloc false (txns off n), .ok bs))
    | r => (s, r)
  else
    let mine := (cmdTxns s m c.num).filter (fun t => t.ty == 2)
    if mine.isEmpty then
      if off < 0 ∨ off + n > 2 ^ 48 then (s, .fault 0x11 (addrDetail off))
      else
        match (txns off n).foldl (fun (t : Got State) x => t.bind (fun u =>
            issueTxn u m c.num 2 (chipOf base) x.1.toNat x.2 [(x.1.toNat, [])])) (.ok s) with
        | .ok s1 => (s1, .wait)
        | .wait => (s, .wait)
        | .fault code d => (denied s, .fault code d)
    else if mine.all (fun t => t.data.isSome) then
      ({ s with txns := s.txns.filter (fun t => !mine.contains t) }, .ok (mine.flatMap (fun t => t.data.getD [])))
    else (s, .wait)

/-! ### Format conversion (05, R141) -/

/-- A value rounded to a wide format's pattern, its saturation not counted by any Mover counter (DEDUCED, log 37). -/
def wideOf (f : Nat) (m : RMode) (v : FV) : Nat :=
  match f, v with
  | 3, x => (toE48 x).1
  | _, .nan => if f = 1 then nan32 else nan16
  | 1, .fin neg n d e => b2n neg * 2 ^ 31 + min (fp32F.encodeMag m max32 n d e).1 max32
  | _, .fin neg n d e => b2n neg * 2 ^ 15 + min (bf16F.encodeMag m max16 n d e).1 max16

/-- An element's value as a conversion reads it: as FP32, which is exact but for E48, rounded to nearest even whatever SR says (02, R41);
E48 to BF16 goes on from there as FP32 to BF16 does (DESIGN CHOICE, log 37: R41 lists no step from E48 to BF16). -/
def exactElem (t : Tile) (i j : Nat) : FV := (ofFp32 (t.elem i j).1).1

/-- A tile converted from FMT_A to FMT_OUT, with its counts (05, R141; 04, R114). -/
def convertTile (s : State) (c : Cmd) (h : Hdr) (bs : List Byte) : Hdr × List Byte × NEv :=
  let t := decodeTile c.fmtA bs
  let draw := fun i => kerfDraw (jobSeed s) c.rstream (dTensor c.desc) i c.step
  let res : NEv := { codeRes := t.reservedCodes }
  let cell := fun (i j : Nat) => if i < h.rows ∧ j < h.cols then exactElem t i j else .fin false 0 1 0
  if isNarrow c.fmtOut then
    let r := quantiseTile c.fmtOut c.sr draw h.index h.rows h.cols ⟨none, true⟩ (fun i j => (ofFp32 (toFp32 (cell i j)).1).1)
    ({ h with fmt := c.fmtOut, marks := narrowMarks r.2 + (if h.transposed then mkTransposed else 0) }, encodeNarrowTile c.fmtOut r.1, r.2.add res)
  else
    let rows := (below 128).map (fun i => (below 128).map (fun j => wideOf c.fmtOut (rmodeOf c.sr draw (h.index i j)) (cell i j)))
    ({ h with fmt := c.fmtOut, marks := if h.transposed then mkTransposed else 0 }, encodeWideTile c.fmtOut rows, res)

/-- The header that a Mover stamps from its descriptor (05, R122; 06, R156; DEDUCED, log 8). -/
def stampHdr (c : Cmd) (v : List Nat) : Hdr :=
  let base := elemBaseOf c.desc v
  { rowLen := dRowLen c.desc, fmt := c.fmtOut, rows := 128, cols := colsOf (dRowLen c.desc) base, elemBase := base }

/-- The tile as it leaves, with the counts of its conversion where the formats differ (05, R141). -/
def leaving (s : State) (c : Cmd) (h : Hdr) (bs : List Byte) : Hdr × List Byte × NEv :=
  if converts c then convertTile s c h bs else (h, bs, {})

/-- The counts of a conversion, added as its tile is pushed or written (04, R113, R114): those of a narrow tile, or the reserved codes that a
conversion to a wide format read (02, R43). -/
def countLeft (s : State) (w : Nat) (c : Cmd) (n : NEv) : State :=
  if !converts c then s else if isNarrow c.fmtOut then countNarrow s w c.step n else countReserved s w c.step n.codeRes

/-! ### Tiles to a destination -/

/-- A tile written to a global address: a doorbell, local memory, or WRITE transactions to another chip (05, R131; 11, R267; 12,
R304). -/
def storeTile (s : State) (m : Nat) (c : Cmd) (base : Nat) (off : Int) (bs : List Byte) (err : MemErr) : State × Got Unit :=
  if isLocal s base then
    if inCtrl off then
      (match isDoorbell s off with
       | some k => (doorbell s k (ofBytesLE (bs.take 4)) (classClient s m), .ok ())
       | none => (s, .fault 0x11 (addrDetail off)))
    else writeTxns (cacheTouches s false false (txns off bs.length)) false err off bs (txns off bs.length)
  else if off < 0 ∨ off + bs.length > 2 ^ 48 then (s, .fault 0x11 (addrDetail off))
  else
    match (txns off bs.length).foldl (fun (t : Got State) x => t.bind (fun u =>
        issueTxn u m c.num 1 (chipOf base) x.1.toNat x.2 [(x.1.toNat, (bs.drop (x.1 - off).toNat).take x.2)])) (.ok s) with
    | .ok s1 => (s1, .ok ())
    | .wait => (s, .wait)
    | .fault code d => (denied s, .fault code d)

/-! ### The MOVE rows (06, R157) -/

/-- What follows a transfer: the next unit and the counts n of its tile, a wait, or a fault. -/
def moveAfter (s : State) (m w : Nat) (c : Cmd) (n : NEv) (r : State × Got Unit) : State :=
  match r.2 with
  | .ok _ => unitDone (countLeft r.1 w c n) m w c
  | .wait => s
  | .fault code d => execFault r.1 m c code d

/-- One tile of the MOVE that MOVER[unit] executes. A MOVE_IN that copies bytes zero-fills its tile beyond the ROWS and COLS that it stamps
(05, R122). -/
def moveStep (s : State) (w unit op : Nat) (err : MemErr) : State :=
  match jobOf s w (6 + unit % 2) op with
  | none => s
  | some (m, c) =>
    let v := (nth (units c) c.iter []).headD []
    let n := dTileBytes c.desc
    if c.stopping && !midTile s m c then s
    else if op = 0x02 then
      match readIn s w c 0 (endOffset c 0 v) with
      | .wait => s
      | .fault code d => execFault s m c code d
      | .ok (h, bs) =>
        (match meetErr s err (endRuns s w c) with
         | (s0, some d) => execFault s0 m c 0x12 d
         | (s0, none) =>
           let (_, out, ev) := leaving s0 c h (bs.take n)
           moveAfter s m w c ev (storeTile s0 m c c.imm (walkAddr c.imm (dDstStride c.desc) v) out err))
    else if op = 0x01 ∧ isDark s (outWard w (c.out 0)) then execFault s m c 0x14 (outWard w (c.out 0))
    else if op = 0x01 ∧ !canPush s w c 0 1 then s
    else
      match fetchTile s m c c.imm (walkAddr c.imm (dSrcStride c.desc) v) n err c.slot.isSome true true with
      | (s1, .wait) => s1
      | (s1, .fault code d) => execFault s1 m c code d
      | (s1, .ok bs) =>
        let (h, out, ev) := leaving s1 c (stampHdr c v) bs
        if op = 0x01 then
          let (s3, c1) := pushOut (countLeft s1 w c ev) m w c 0 h (if converts c then out else zeroFill h.fmt h.rows h.cols out)
          unitDone s3 m w c1
        else moveAfter s1 m w c ev (storeTile s1 m c (dBase2 c.desc) (walkAddr (dBase2 c.desc) (dDstStride c.desc) v) out err)

/-- MOVE_IN (06, R157): one tile of the MOVE_IN that a Mover executes; err is what its accesses meet. -/
def execMoveIn (ward unit : Nat) (err : MemErr) (s : State) : Host.Outcome State Fault Refusal := .next (observe (moveStep s ward unit 0x01 err))

/-- MOVE_OUT (06, R157). -/
def execMoveOut (ward unit : Nat) (err : MemErr) (s : State) : Host.Outcome State Fault Refusal := .next (observe (moveStep s ward unit 0x02 err))

/-- MOVE_COPY (06, R157). -/
def execMoveCopy (ward unit : Nat) (err : MemErr) (s : State) : Host.Outcome State Fault Refusal := .next (observe (moveStep s ward unit 0x03 err))

/-- One tile of a PUBLISH: from Tier 1 into its open slot; without one it faults before its first transfer (10, R252; 11, R285). -/
def publishStep (s : State) (w unit : Nat) (err : MemErr) : State :=
  match jobOf s w (6 + unit % 2) 0x38 with
  | none => s
  | some (m, c) =>
    let v := (nth (units c) c.iter []).headD []
    let t := walkAddr c.imm (dDstStride c.desc) v
    if c.slot.isNone then execFault s m c 0x11 (addrDetail t)
    else if c.stopping && !midTile s m c then s
    else
      match fetchTile s m c (dBase2 c.desc) (walkAddr (dBase2 c.desc) (dSrcStride c.desc) v) (dTileBytes c.desc) err false false false with
      | (s1, .wait) => s1
      | (s1, .fault code d) => execFault s1 m c code d
      | (s1, .ok bs) =>
        let off := t + (tier2Base : Int)
        moveAfter s1 m w c {} (writeTxns s1 true err t bs (txns off bs.length))

/-- PUBLISH (11, R285): one tile of the PUBLISH that a Mover executes. -/
def execPublish (ward unit : Nat) (err : MemErr) (s : State) : Host.Outcome State Fault Refusal := .next (observe (publishStep s ward unit err))

end Sys2Proof.Machine
end

