-- ==== Sys2Proof/Machine/Journal.lean ====
section
/-!
DEFINITION. Tier 3 (14_journal_flash.md): the step journal with its compare mode, shard images, and the background activities of the flash;
the numerics watch's registers at a JOURNAL's completion (04, R112, R113).
-/

namespace Sys2Proof.Machine

/-! ### The record (R345 to R347; 04, R112, R115) -/

/-- Items in ascending order of tensor identifier and first element index (04, R112). -/
def itemBefore (a b : UwrItem) : Bool := a.tensor < b.tensor || (a.tensor == b.tensor && a.first ≤ b.first)

def insertItem (x : UwrItem) : List UwrItem → List UwrItem
  | [] => [x]
  | y :: ys => if itemBefore x y then x :: y :: ys else y :: insertItem x ys

/-- A watch index's contributions of a step in ascending tensor identifier, then first element index; of those equal in both, in order of
arrival (R112; DESIGN CHOICE, log 69). -/
def sortItems (xs : List UwrItem) : List UwrItem := xs.foldr insertItem []

def sumE48 (xs : List Nat) : Nat := xs.foldl (fun a x => (addE48 a x).1) 0

/-- The totals DSQ and WSQ of a watch index at a step, as FP32 (04, R112). -/
def watchSums (s : State) (step i : Nat) : Nat × Nat :=
  let xs := sortItems (s.watch.items.filter (fun x => x.step == step && x.index == i))
  ((e48ToFp32 (sumE48 (xs.map UwrItem.dsq))).1, (e48ToFp32 (sumE48 (xs.map UwrItem.wsq))).1)

/-- The update-to-weight ratio (04, R112). -/
def watchRatio (d w : Nat) : Nat :=
  let x := (ofFp32 d).1
  let y := (ofFp32 w).1
  if y.isZero then (if x.isZero then 0 else max32)
  else (toFp32 (ofFp32 (toFp32 (x.div y)).1).1.sqrt).1

/-- The step totals in the record's order (R345). -/
def countBytes (t : StepTotals) : List Byte :=
  [t.flushed, t.sat, t.zblk, t.zeroed, t.satblk, t.rescue, t.nanblk, t.codeRes, t.ovf, t.nanc].flatMap (fun n => toBytesLE 4 (min n 0xFFFFFFFF))

def stepDigests (s : State) (step : Nat) : List Nat :=
  match s.watch.digests.find? (fun p => p.1 == step) with
  | some p => p.2
  | none => []

/-- The chip number that a record or hello carries: 0xFFFF for none. -/
def chipOrNone (s : State) : Nat := if fg s FAB_CHIP_VALID 0 = 1 then fg s FAB_CHIP_CHIP 0 else 0xFFFF

def numericsFlags (s : State) : Nat := fg s MOD_NUMERICS_BOUND_ONLY 0 + 2 * b2n s.fuses.attest

/-- Bytes 0 to 4,091 of a journal record but SEQ and FRAME, which are written at commit (R345); input is the 1,040 bytes of the input tile. -/
def recordBody (s : State) (step : Nat) (input : List Byte) : List Byte :=
  toBytesLE 4 0x4C4E4A56 ++ toBytesLE 2 1 ++ toBytesLE 2 (numericsFlags s) ++ toBytesLE 8 s.fuses.identity ++ toBytesLE 4 s.mc.job ++
  toBytesLE 2 (chipOrNone s) ++ toBytesLE 2 (fg s FAB_SLICE_ID 0) ++ toBytesLE 4 step ++ toBytesLE 4 (rd s JNL_IMG_CUR 0).toNat ++
  toBytesLE 8 0 ++ toBytesLE 8 0 ++ toBytesLE 8 (jobSeed s) ++ (input.drop 8).take 8 ++ input.take 4 ++
  toBytesLE 1 (fg s MOD_ACCUM_CFG_C_LOG2 0) ++ toBytesLE 1 (fg s MOD_NUMERICS_LEVEL 0) ++ toBytesLE 2 (fg s MOD_KSTORE_STATUS_LIB_ID 0) ++
  countBytes (totalsOf s.watch.totals step) ++ toBytesLE 24 0 ++
  (below 256).flatMap (fun i => let p := watchSums s step i; toBytesLE 4 p.1 ++ toBytesLE 4 p.2) ++
  (padTo 16 0 (stepDigests s step)).flatMap (toBytesLE 8) ++ (input.drop 16).take 1024 ++ toBytesLE 756 0

/-- The record as committed: SEQ, FRAME and CRC filled in (R345). -/
def sealRecord (s : State) (body : List Byte) : List Byte :=
  let bs := body.take 32 ++ toBytesLE 8 s.flash.seq ++ toBytesLE 5 (frameNum s) ++ toBytesLE 3 0 ++ body.drop 48
  bs ++ toBytesLE 4 (crc32 bs)

/-- Whether byte k of two records is compared (R347). -/
def comparedByte (k : Nat) : Bool := k == 4 || k == 5 || (24 ≤ k && k ≤ 27) || (48 ≤ k && k ≤ 4091)

/-- The first compared byte at which two records differ (R347, R356). -/
def recordDiff (a b : List Byte) : Option Nat := (below 4092).find? (fun k => comparedByte k && nth a k 0 != nth b k 0)

/-- The watch registers take the values of the step whose JOURNAL has completed (04, R113). -/
def showWatch (s : State) (step : Nat) : State :=
  (below 256).foldl (fun t i =>
    let p := watchSums s step i
    wr (wr (wr t MOD_UWR_DSQ i (BitVec.ofNat 32 p.1)) MOD_UWR_WSQ i (BitVec.ofNat 32 p.2)) MOD_UWR_RATIO i (BitVec.ofNat 32 (watchRatio p.1 p.2))) s

/-! ### JOURNAL (R343, R344, R348, R356) -/

/-- The detail of FLT_JOURNAL (R348). -/
def journalCause (code off : Nat) : Nat := code * 2 ^ 24 + off

/-- Places for records in the journal area (R337). -/
def recordPlaces : Nat := 7864320

def pfwActive (s : State) : Bool := fg s JNL_STATUS_PFW_ACTIVE 0 == 1

/-- A JOURNAL completes and opens the step boundary (R344, R356; 01, R30). -/
def journalDone (s : State) (m num step : Nat) : State :=
  let s1 := showWatch (wr s JNL_LAST_STEP 0 (BitVec.ofNat 32 step)) step
  match findCmd (stream s1 m).cmds num with
  | some c =>
    let c1 := { c with aux := 0, ext := if c.aux = 1 then [1] else [] }
    openBoundary (completeCmd (setCmd s1 m c1) m c1)
  | none => s1

/-- The next record that the MC programs (R344). -/
def burnNext (s : State) : State :=
  match s.flash.commits with
  | c :: cs => { s with flash := { s.flash with commits := { c with burning := true } :: cs } }
  | [] => s

/-- The bytes a JOURNAL reads: the first 1,040 of its input tile, zeros without one (R343). -/
def journalInput (s : State) (w : Nat) (c : Cmd) : Got (List Byte) :=
  if inUsed c 0 then (readIn s w c 0 (endOffset c 0 ((nth (units c) c.iter []).headD []))).bind (fun t => .ok (padTo 1040 0 t.2))
  else .ok (List.replicate 1040 0)

/-- The JOURNAL that a Mover executes: compared with a stored record in replay, else handed to the MC (R343, R356) (DEDUCED, log 50). -/
def journalStep (s : State) (w unit : Nat) : State :=
  match jobOf s w (6 + unit % 2) 0x40 with
  | none => s
  | some (m, c) =>
    if pfwActive s then execFault s m c 0x18 (journalCause 3 0)
    else
      match journalInput s w c with
      | .wait => s
      | .fault code d => execFault s m c code d
      | .ok input =>
        let body := recordBody s c.step input
        let stored := if fg s JNL_REPLAY_EN 0 = 1 then s.flash.records.find? (fun r => r.step == c.step) else none
        match stored with
        | some r =>
          (match recordDiff body r.bytes with
           | some k => execFault (fs (fs s JNL_STATUS_MISMATCH 0 1) JNL_STATUS_MISMATCH_OFF 0 k) m c 0x18 (journalCause 4 k)
           | none => journalDone (unitDone s m w c) m c.num c.step)
        | none =>
          if s.flash.records.length + s.flash.commits.length ≥ recordPlaces then execFault s m c 0x18 (journalCause 2 0)
          else
            let s1 := unitDone (fs s JNL_REPLAY_EN 0 0) m w { c with aux := 1 }
            let s2 := { s1 with flash := { s1.flash with commits := s1.flash.commits ++ [⟨m, c.num, c.step, body, false⟩] } }
            if s1.flash.commits.isEmpty then burnNext s2 else s2

/-- JOURNAL (R343): the JOURNAL that a Mover executes; err is what its read of the input tile meets. -/
def execJournal (ward unit : Nat) (err : MemErr) (s : State) : Host.Outcome State Fault Refusal :=
  .next (observe (withErr s ward (6 + unit % 2) 0x40 err (fun _ => []) (fun t => journalStep t ward unit)))

/-- JOURNAL_COMMIT (R344): both copies of the record being programmed are good; what the media showed meanwhile, a copy that failed and was
programmed again at another place among it, retires blocks (R339). -/
def execJournalCommit (media : List FlashEvt) (s0 : State) : Host.Outcome State Fault Refusal :=
  let s := flashEvents s0 media
  .next (match s.flash.commits with
    | c :: cs =>
      if c.burning then
        (let s1 := { s with flash := { s.flash with records := s.flash.records ++ [⟨c.step, sealRecord s c.record⟩], seq := s.flash.seq + 1, commits := cs } }
         protectIdle (observe (journalDone (burnNext s1) c.m c.num c.step)))
      else s0
    | [] => s0)

/-- JOURNAL_COMMIT_TIMEOUT (R344): 2 ms without two good copies. -/
def execJournalCommitTimeout (media : List FlashEvt) (s0 : State) : Host.Outcome State Fault Refusal :=
  let s := flashEvents s0 media
  .next (match s.flash.commits with
    | c :: cs =>
      if c.burning then
        (let s1 := burnNext { s with flash := { s.flash with commits := cs } }
         match findCmd (stream s1 c.m).cmds c.num with
         | some k => protectIdle (observe (execFault s1 c.m { k with aux := 0 } 0x18 (journalCause 1 0)))
         | none => protectIdle s1)
      else s0
    | [] => s0)

/-! ### Images (R349 to R353) -/

def imageStep (c : Cmd) : Nat := bits c.imm 31 0

/-- The module section: every logical ward's user code, user tables and parameter blocks, its bound table, then the gradient-bin table,
C_LOG2, the schedule registers and the values recorded at BEGIN (R349; DESIGN CHOICE, log 49). -/
def wardSection (s : State) (w : Nat) : List Byte :=
  memRead s (kstoreKey w 0x10000) 0x10000 ++ memRead s (kstoreKey w 0x28000) 0x8000 ++ memRead s (kstoreKey w 0x30000) 0x10000 ++
  (below 4096).flatMap (fun i => toBytesLE 4 (rd s WARD_BOUND (4096 * w + i)).toNat)

def moduleSection (s : State) (i : Image) : List Byte :=
  (below i.wards).flatMap (wardSection s) ++
  (below 256).flatMap (fun b => toBytesLE 4 (rd s MOD_GBIN_TENSOR b).toNat ++ toBytesLE 4 (rd s MOD_GBIN_CFG b).toNat) ++
  toBytesLE 4 (rd s MOD_ACCUM_CFG 0).toNat ++ toBytesLE 4 (rd s MOD_SCHED_BASE_LO 0).toNat ++ toBytesLE 4 (rd s MOD_SCHED_BASE_HI 0).toNat ++
  toBytesLE 4 (rd s MOD_SCHED_CFG 0).toNat ++ toBytesLE 8 i.seed ++ toBytesLE 4 i.cLog2 ++ toBytesLE 4 i.level ++ toBytesLE 4 i.libId ++ toBytesLE 4 i.wards

def setImg (s : State) (state cause sections : Nat) : State :=
  wr s JNL_IMG_STATUS 0 (BitVec.ofNat 32 (state * 2 ^ 29 + cause * 2 ^ 25 + sections % 256 * 2 ^ 8))

/-- An image's notification: its flag signalled by 1 (R350, R352). -/
def notifyImage (s : State) (i : Image) : State :=
  match i.notify with
  | some (w, f) => if isDark s w then s else wakeLogical (signalFlag s (flagIdx w f) 1) w 4
  | none => s

/-- The event of an image that committed or failed (18, R453, code 0x000D). -/
def imageEvent (s : State) (i : Image) : State := raiseEvent s 0x000D 0 0 i.step (rd s JNL_IMG_STATUS 0).toNat

def Image.size (i : Image) : Nat := sumNat (i.sections.map (fun x => x.data.length))

/-- Images retired: their blocks are reclaimed (R352, R353). -/
def retireImages (s : State) (xs : List Image) : State := orphan (forgetImages s (xs.map Image.step)) (sumNat (xs.map Image.size))

/-- The image being written fails; its blocks are orphaned (R352). -/
def imageFail (s : State) (cause : Nat) : State :=
  match s.flash.wip with
  | none => s
  | some i =>
    let s1 := orphan (forgetImages { s with flash := { s.flash with wip := none } } [i.step]) i.size
    imageEvent (notifyImage (setImg s1 4 cause i.sections.length) i) i

def imageAreaBytes (s : State) : Nat := s.flash.gib * 2 ^ 30

/-- The image that RANGE, MODULE and CLOSE act on: WRITING, with the same IMG_STEP (R350). -/
def writingImage (s : State) (c : Cmd) : Option Image :=
  match s.flash.wip with
  | some i => if i.step = imageStep c ∧ fg s JNL_IMG_STATUS_STATE 0 = 1 then some i else none
  | none => none

def registerSection (s : State) (i : Image) (sec : ISection) : State :=
  setImg { s with flash := { s.flash with wip := some { i with sections := i.sections ++ [sec] } } } 1 0 (i.sections.length + 1)

/-- What an IMAGE operation does: a fault, or its effect (R350, R353). -/
def imageEffect (s : State) (w : Nat) (c : Cmd) : Got State :=
  let step := imageStep c
  let d := c.desc
  let op := imageOp c
  let order : Got State := .fault 0x18 (journalCause 5 0)
  if op ≠ 5 ∧ pfwActive s then .fault 0x18 (journalCause 3 0)
  else
    match op with
    | 1 =>
      let cur := (rd s JNL_IMG_CUR 0).toNat
      if fg s JNL_STATUS_T3_DEGRADED 0 = 1 then .fault 0x18 (journalCause 7 0)
      else if s.flash.wip.isSome ∨ (cur ≠ 0xFFFFFFFF ∧ step ≤ cur) then order
      else .ok (setImg { s with flash := { s.flash with wip := some ⟨step, jobSeed s, fg s MOD_ACCUM_CFG_C_LOG2 0, fg s MOD_NUMERICS_LEVEL 0, fg s MOD_KSTORE_STATUS_LIB_ID 0, wardCount s, [], 0, 0, 0, none⟩ } } 1 0 0)
    | 2 =>
      (match writingImage s c with
       | none => order
       | some i =>
         if i.sections.length ≥ 255 then order
         else
           let offs := (its c).map (walkAddr (dBase2 d) (dSrcStride d))
           match offs.find? (fun o => !isLocal s (dBase2 d) || regionOf s o (dTileBytes d) != .tier1) with
           | some o => .fault 0x11 (addrDetail o)
           | none => .ok (registerSection s i ⟨offs.map (fun o => (o.toNat, dTileBytes d)), false, []⟩))
    | 3 =>
      (match writingImage s c with
       | none => order
       | some i =>
         let o := offsetOf (dBase2 d)
         let bs := moduleSection s i
         if i.sections.length ≥ 255 then order
         else if !isLocal s (dBase2 d) ∨ o + 2 ^ 24 > tier1Size then .fault 0x11 (o % 2 ^ 32)
         else
           match partialPoison s o bs.length with
           | some b => .fault 0x12 (ueAt s 2 b)
           | none => .ok (registerSection (moverWrite (cacheTouches s false false (txns (o : Int) bs.length)) false o bs) i ⟨[(o, bs.length)], true, []⟩))
    | 4 =>
      (match writingImage s c with
       | none => order
       | some i =>
         let i1 := { i with notify := if bit c.imm 47 then some (w, bits c.imm 55 48) else none }
         .ok (setImg { s with flash := { s.flash with wip := some i1 } } 2 0 i.sections.length))
    | _ =>
      if !(s.flash.images.any (fun i => i.step == step)) then .fault 0x18 (journalCause 6 0)
      else if s.flash.protect then .wait
      else
        let keep := s.flash.images.filter (fun i => i.step ≥ step)
        let recs := s.flash.records.filter (fun r => r.step ≥ step)
        let s1 := retireImages { s with flash := { s.flash with images := keep, records := recs } } (s.flash.images.filter (fun i => i.step < step))
        let s2 := if recs.isEmpty then wr s1 JNL_LAST_STEP 0 0xFFFFFFFF else s1
        .ok (wr s2 JNL_IMG_PREV 0 (BitVec.ofNat 32 (((keep[1]?).map Image.step).getD 0xFFFFFFFF)))

/-- The IMAGE operation op that a Mover executes: all its iterations are one registration. -/
def imageRun (s : State) (w unit op : Nat) : State :=
  match jobOf s w (6 + unit % 2) 0x41 with
  | none => s
  | some (m, c) =>
    if imageOp c ≠ op then s
    else
      match imageEffect s w c with
      | .ok s1 => setCmd s1 m { c with iter := unitCount c }
      | .wait => s
      | .fault code d => execFault s m c code d

/-- IMAGE_BEGIN (R350). -/
def execImageBegin (ward unit : Nat) (s : State) : Host.Outcome State Fault Refusal := .next (observe (imageRun s ward unit 1))
/-- IMAGE_RANGE (R350). -/
def execImageRange (ward unit : Nat) (s : State) : Host.Outcome State Fault Refusal := .next (observe (imageRun s ward unit 2))
/-- IMAGE_MODULE (R350). -/
def execImageModule (ward unit : Nat) (s : State) : Host.Outcome State Fault Refusal := .next (observe (imageRun s ward unit 3))
/-- IMAGE_CLOSE (R350). -/
def execImageClose (ward unit : Nat) (s : State) : Host.Outcome State Fault Refusal := .next (observe (imageRun s ward unit 4))
/-- IMAGE_TRIM (R353). -/
def execImageTrim (ward unit : Nat) (s : State) : Host.Outcome State Fault Refusal := .next (observe (imageRun s ward unit 5))

/-! ### Streaming and commit (R351, R352) -/

/-- The bytes of the next record that a step of at most n bytes streams: a run of the record, in order. -/
def streamRun (i : Image) (r : Nat × Nat) (n : Nat) : Nat × Nat := (r.1 + i.atByte, min n (r.2 - i.atByte))

/-- A run of the next record of the image being written goes to the image area. Its reads of Tier 1 do not allocate in the shared cache (11,
R273); an error, found or poison that stands there, fails the image and faults no stream (11, R294; R352). -/
def streamRecord (s : State) (i : Image) (sec : ISection) (r run : Nat × Nat) (err : MemErr) : State :=
  match poisonDetail s run.1 run.2, meetErr s err [run] with
  | some d, _ => imageFail (backgroundNote s d) 1
  | none, (s1, some d) => imageFail (backgroundNote s1 d) 1
  | none, (s1, none) =>
    if sumNat (s1.flash.images.map Image.size) + i.size + s1.flash.orphans + run.2 > imageAreaBytes s1 then imageFail s1 2
    else
      let i1 := { i with sections := setNth i.sections i.atSec { sec with data := sec.data ++ memRead s1 run.1 run.2 } }
      let i2 := if i.atByte + run.2 < r.2 then { i1 with atByte := i.atByte + run.2 }
        else if i.atRec + 1 < sec.recs.length then { i1 with atRec := i.atRec + 1, atByte := 0 }
        else { i1 with atSec := i.atSec + 1, atRec := 0, atByte := 0 }
      { s1 with flash := { s1.flash with wip := some i2 } }

/-- IMAGE_STREAMING (R351): a step of at most `bytes` bytes of the record that is due, under the streaming budget (engine slots and energy as
given); err is what its read meets, media what its programs meet. -/
def execImageStreaming (bytes slots energy : Nat) (err : MemErr) (media : List FlashEvt) (s : State) : Host.Outcome State Fault Refusal :=
  .next (if pfwActive s then s
    else
      match s.flash.wip with
      | none => s
      | some i =>
        match i.sections[i.atSec]? with
        | none => s
        | some sec =>
          match sec.recs[i.atRec]? with
          | none => s
          | some r =>
            let run := streamRun i r bytes
            if run.2 = 0 ∧ r.2 ≠ 0 then s
            else withBudget s actImage run.2 slots energy (fun t => observe (streamRecord (flashEvents t media) i sec r run err)))

/-- IMAGE_COMMIT (R352): the closed image's sections are read back; a mismatch, or a section that is lost, fails it, else it becomes current. -/
def execImageCommit (mismatch : Nat) (media : List FlashEvt) (s0 : State) : Host.Outcome State Fault Refusal :=
  let s := flashEvents s0 media
  .next (match s0.flash.wip with
    | none => s0
    | some i =>
      if fg s0 JNL_IMG_STATUS_STATE 0 ≠ 2 ∨ i.atSec < i.sections.length ∨ pfwActive s0 then s0
      else if mismatch ≠ 0 ∨ lostSection s i.step then observe (imageFail s 4)
      else
        let prev := s.flash.images.take 1
        let s1 := retireImages { s with flash := { s.flash with wip := none, images := i :: prev } } (s.flash.images.drop 1)
        let s2 := wr (wr s1 JNL_IMG_CUR 0 (BitVec.ofNat 32 i.step)) JNL_IMG_PREV 0 (BitVec.ofNat 32 ((prev.head?.map Image.step).getD 0xFFFFFFFF))
        observe (imageEvent (notifyImage (setImg s2 3 0 i.sections.length) i) i))

/-! ### Keeping the flash (R339 to R341) -/

/-- FLASH_REFRESH (R341): a step of the retention refresh reads pages; each of their blocks that is due is relocated, and counts. -/
def execFlashRefresh (bytes energy : Nat) (media : List FlashEvt) (s : State) : Host.Outcome State Fault Refusal :=
  .next (if pfwActive s then s
    else withBudget s actRefresh bytes 0 energy (fun t =>
      let es := media.filter (fun e => e.op == 0)
      let ks := uniques (es.map (fun e => blockKey e.slc e.block))
      let t1 := flashEvents t es
      let t2 := (ks.filter (fun k => !badBlock t1 k && relocateDue t1 k)).foldl relocate t1
      passRead (passRead t2 false (ks.filter (fun k => !slcBlock k))) true (ks.filter slcBlock)))

/-- WEAR_MANAGEMENT (R340): a step of relocation, reclamation and levelling. -/
def execWearManagement (bytes energy : Nat) (media : List FlashEvt) (s : State) : Host.Outcome State Fault Refusal :=
  .next (if pfwActive s then s else withBudget s actWear bytes 0 energy (fun t => wearStep t bytes media))

end Sys2Proof.Machine
end

