-- ==== Sys2Proof/Machine/Items.lean ====
section
/-!
DEFINITION. The configuration (18_control_plane.md, R454 to R456): items of the base and of overlays, their effective values, and when a
new value takes effect (R249; 04, R111).
-/

namespace Sys2Proof.Machine

/-- Items that may stand in the base only (R454). -/
def baseOnly (it : Nat) : Bool := it == 0x0001 || it == 0x0200 || it == 0x0201 || (0x0300 ≤ it && it ≤ 0x0303)

def knownItem (it : Nat) : Bool := (itemIn baseDefaults it).isSome

/-- A PWR_CTRL word whose fields are in range (16, PWR_CTRL). -/
def ctrlOk (v : Nat) : Bool := bits v 27 24 ≤ 11 && bits v 23 20 ≤ 11 && bits v 19 16 ≤ 11 && bits v 15 8 ≤ 100 && bits v 7 0 ≥ 1

/-- The range of an item (R454). -/
def itemOk (it v : Nat) : Bool :=
  match it with
  | 0x0001 => 300 ≤ v && v ≤ 4095
  | 0x0002 => ctrlOk v
  | 0x0003 => 4 ≤ bits v 4 0 && bits v 4 0 ≤ 16
  | 0x0004 => bits v 31 16 ≥ 1
  | 0x0005 => bits v 31 29 ≤ 4 && bits v 28 26 ≤ 4 && bits v 25 23 ≤ 4 && bits v 22 20 ≤ 4
  | 0x0006 => 1 ≤ v && v ≤ 255
  | 0x0007 => bits v 7 0 ≥ 1
  | 0x0200 => v ≤ 24
  | 0x0201 => 64 ≤ v && v ≤ 4096
  | 0x0301 => v ≤ 32
  | _ => if 0x0100 ≤ it ∧ it < 0x0170 ∧ it % 16 ≠ 0 then v ≤ 65535 else true

/-- The items that an overlay holds, none for no overlay. -/
def overlayItems (st : Store) (k : Option Nat) : List (Nat × Nat) :=
  match k with
  | none => []
  | some i => ((st.overlays.find? (fun o => o.1 == i)).map Prod.snd).getD []

/-- The effective value of an item under an overlay (R455). -/
def effective (st : Store) (k : Option Nat) (it : Nat) : Nat := (itemIn (overlayItems st k) it).getD (baseItem st.base it)

/-- The overlay in effect: none is the base alone (MC_STATUS.OVERLAY 0xFF). -/
def overlayNow (s : State) : Option Nat := if fg s MC_STATUS_OVERLAY 0 = 0xFF then none else some (fg s MC_STATUS_OVERLAY 0)

/-- The overlay in effect from the next pulse on: 0x100 in nextOvl names the base alone. -/
def overlayNext (s : State) : Option Nat :=
  match s.mc.nextOvl with
  | none => overlayNow s
  | some k => if k = 0x100 then none else some k

/-- The word of a register with the write that waits for the next pulse. -/
def laterWord (s : State) (k : Nat) : Word := ((s.pwr.nextRegs.find? (fun p => p.1 == k)).map Prod.snd).getD (sget (regReset k) s.regs k)

/-- A register write that takes effect at the next frame pulse (16, R416). -/
def atPulse (s : State) (r : Reg) (i : Nat) (v : Word) : State :=
  { s with pwr := { s.pwr with nextRegs := putLater s.pwr.nextRegs (r.key i) v } }

/-- An item's effective value on its way to its register, with the item's timing (R454). -/
def itemLater (s : State) (it v : Nat) : State :=
  let w := BitVec.ofNat 32 v
  match it with
  | 0x0002 => atPulse s PWR_CTRL 0 w
  | 0x0003 => atStep s MOD_SHADOW_CFG 0 w
  | 0x0004 => atPulse s THM_CFG 0 w
  | 0x0005 => atPulse s PWR_SVOTE 0 w
  | 0x0006 => atPulse s FAB_CFG 0 w
  | 0x0007 => atPulse s MOD_QUIESCE_CFG 0 w
  | _ =>
    if 0x0100 ≤ it ∧ it < 0x0170 then
      let a := bits it 7 4
      let old := laterWord s (PWR_FBU_LIM.key a)
      if it % 16 = 0 then atPulse s PWR_FBU_BYTES a w
      else if it % 16 = 1 then atPulse s PWR_FBU_LIM a (withField old 31 16 v)
      else atPulse s PWR_FBU_LIM a (withField old 15 0 v)
    else s

/-- The items that reach a register. -/
def regItems : List Nat := (baseDefaults.map Prod.fst).filter (fun it => !baseOnly it)

/-- An overlay applied (R249, R455): it is the one in effect from the next pulse, and every item goes to its effective value. -/
def applyOverlay (s : State) (k : Option Nat) : State :=
  let s1 := { s with mc := { s.mc with nextOvl := some (k.getD 0x100) } }
  regItems.foldl (fun t it => itemLater t it (effective s.store k it)) s1

/-- The stored configuration replaced; items whose effective value changes follow with their timing (R455). -/
def newStore (s : State) (st : Store) : State :=
  let k := overlayNext s
  let ch := regItems.filter (fun it => effective s.store k it != effective st k it)
  ch.foldl (fun t it => itemLater t it (effective st k it)) { s with store := st }

/-- The items of a list replaced or added. -/
def putItems (xs new : List (Nat × Nat)) : List (Nat × Nat) := new.foldl (fun ys p => ys.filter (fun q => q.1 != p.1) ++ [p]) xs

/-- At a frame pulse the register writes that waited take effect, and the overlay (16, R416; 10, R249); a new PWR_CTRL ends the falls of
fixed-frequency mode (16, R394). -/
def pulseRegs (s : State) : State :=
  let ctrl := s.pwr.nextRegs.any (fun p => p.1 == PWR_CTRL.key 0)
  let s1 := applyRegs s s.pwr.nextRegs
  let s2 := match s1.mc.nextOvl with
    | none => s1
    | some k => fs s1 MC_STATUS_OVERLAY 0 (if k = 0x100 then 0xFF else k)
  { s2 with pwr := { s2.pwr with nextRegs := [], stepDown := if ctrl then 0 else s2.pwr.stepDown }
            mc := { s2.mc with nextOvl := none } }

end Sys2Proof.Machine
end

