-- ==== Sys2Proof/Machine/Power.lean ====
section
/-!
DEFINITION. Power following (16_frames_power_thermal.md, R388 to R398): V/F points, ceilings, emergencies, pace notices and pace
following, the slow loop, the fast loop.
-/

namespace Sys2Proof.Machine

/-! ### V/F points (R390) -/

/-- Core clocks of points 0 to 11, MHz. -/
def pointMhz (p : Nat) : Nat := nth [500, 600, 700, 800, 900, 1000, 1050, 1100, 1150, 1200, 1250, 1300] p 1300

/-- V_CORE of points 0 to 11, mV. -/
def pointMv (p : Nat) : Nat := nth [450, 480, 510, 540, 570, 600, 620, 640, 660, 680, 700, 720] p 720

/-- V_SRAM of a point, mV: min(0.75 V, max(0.55 V, V_CORE + 0.03 V)) (17, R418). -/
def sramMv (p : Nat) : Nat := min 750 (max 550 (pointMv p + 30))

/-- Word-line underdrive and negative bit-line write assist of the arrays of a ward in ACTIVE, IDLE or NAP at V_SRAM, mV (17, R418). -/
def underdriveMv (v : Nat) : Nat := if v ≥ 660 then 40 else if v ≥ 600 then 20 else 0
def writeAssistMv (v : Nat) : Nat := if v < 600 then 80 else 0

/-- Relative dynamic power r of points 0 to 11, in thousandths. -/
def pointR (p : Nat) : Nat := nth [281, 384, 506, 648, 812, 1000, 1121, 1252, 1392, 1541, 1701, 1872] p 1872

def pointNow (s : State) : Nat := fg s PWR_VF_POINT 0

/-- Whether the slow loop sets the point: bring-up has ended its twelfth stage and the module is not in STANDBY (17, R431; 20, R489). -/
def pointFree (s : State) : Bool := fg s MOD_BOOT_STATUS_STAGE 0 != 0 && !s.mc.stages.contains 12 && !s.standby

/-! ### Emergencies (R393) -/

/-- The Class L bubble fraction of an emergency, in halves. -/
def causeHalves (c : Nat) : Nat := if c = 1 ∨ c = 4 then 1 else 2

/-- The Class L bubble fraction in effect, in halves. -/
def bubbleL (s : State) : Nat := maxNat (s.pwr.causes.map causeHalves)

/-- Emergencies 2, 3 and 5 force the host point to 0 (19, R472). -/
def hostForced (s : State) : Bool := s.pwr.causes.any (fun c => c == 2 || c == 3 || c == 5)

/-- The host point in effect follows POINT unless it is forced or a change is in progress (19, R472, R473). -/
def syncHost (s : State) : State :=
  if hostForced s then fs s MOD_HOST_CLK_CURRENT 0 0
  else if fg s MOD_HOST_CLK_CHANGING 0 = 1 then s
  else fs s MOD_HOST_CLK_CURRENT 0 (fg s MOD_HOST_CLK_POINT 0)

/-! ### The ceilings (R389, R406, R398) -/

/-- A 12-bit temperature code as a number in 0.125 °C. -/
def tempOf (c : Nat) : Int := signed 12 (c % 4096)

def stackTemp (s : State) (k : Nat) : Int := tempOf (fg s THM_STACK_CTL_CONTROL k)
def stackRate (s : State) (k : Nat) : Int := tempOf (fg s THM_STACK_CTL_RATE k)

/-- Die sensor k (0 to 3 wards, 4 square) of district d: its reading, none where it is excluded (R408). -/
def dieTemp (s : State) (d k : Nat) : Option Int :=
  let w := fg s THM_DIE_SQ_WS_EXCL d
  match k with
  | 0 => if bit w 0 then none else some (tempOf (fg s THM_DIE_W01_WS0 d))
  | 1 => if bit w 1 then none else some (tempOf (fg s THM_DIE_W01_WS1 d))
  | 2 => if bit w 2 then none else some (tempOf (fg s THM_DIE_W23_WS2 d))
  | 3 => if bit w 3 then none else some (tempOf (fg s THM_DIE_W23_WS3 d))
  | _ => if fg s THM_DIE_SQ_SQ_EXCL d = 1 then none else some (tempOf (fg s THM_DIE_SQ_SQ d))

def maxTemp (xs : List Int) : Option Int :=
  match xs with
  | [] => none
  | y :: ys => some (ys.foldl max y)

/-- The temperature of the ward at position p of district d: the higher of its adjacent sensors, sensor k lying between positions k and
k + 1; with none valid the square plus 10 °C, and with no valid die sensor the stack plus 10 °C (R404, R408). -/
def wardTemp (s : State) (d p : Nat) : Int :=
  match maxTemp (((below 4).filter (fun k => k == p || k + 1 == p)).filterMap (dieTemp s d)) with
  | some t => t
  | none =>
    match dieTemp s d 4 with
    | some t => t + 80
    | none => stackTemp s d + 80

/-- The square's temperature (R408). -/
def squareTemp (s : State) (d : Nat) : Int :=
  match dieTemp s d 4 with
  | some t => t
  | none =>
    match maxTemp ((below 4).filterMap (dieTemp s d)) with
    | some t => t + 80
    | none => stackTemp s d + 80

/-- The readings of the die sensors that set the thermal point: every valid one, and a district's substitute where none is (R406, R408). -/
def dieReadings (s : State) : List Int :=
  (below 20).flatMap (fun d =>
    let ts := (below 5).filterMap (dieTemp s d)
    if ts.isEmpty then [stackTemp s d + 80] else ts)

/-- The point a stack's control temperature allows (R406). -/
def stackPoint (t : Int) : Nat := if t < 720 then 11 else (10 - (t - 720) / 8).toNat

/-- The point a die sensor's reading allows (R406). -/
def diePoint (t : Int) : Nat := if t < 800 then 11 else if t ≥ 840 then 0 else (10 - 2 * ((t - 800) / 8)).toNat

/-- The thermal point (R406): 11 where no sensor is on its curve. -/
def thermalPoint (s : State) : Nat :=
  ((below 20).map (fun k => stackPoint (stackTemp s k)) ++ (dieReadings s).map diePoint).foldl min 11

/-- Temperatures at which Class F is bubbled at b = 1 (R405, R406). -/
def thermalFull (s : State) : Bool := (below 20).any (fun k => stackTemp s k ≥ 792) || (dieReadings s).any (fun t => t ≥ 840)

/-- R_min of pace following: the lowest RATE of the followed straggler entries (R398). -/
def paceMin (s : State) : Option Nat :=
  let ks := (below 32).filter (fun k => fg s MOD_STRAG_INFO_VALID k == 1 && fg s MOD_STRAG_INFO_PACE k == 1 &&
    (stragRt s k).heard ≤ 16 && (stragRt s k).charged ≤ 16)
  if fg s PWR_CTRL_PACE_FOLLOW 0 = 0 then none
  else
    match ks.map (fun k => (stragRt s k).rate) with
    | [] => none
    | r :: rs => some (rs.foldl min r)

/-- The pace point: the lowest point p with f(p) ≥ f(PACE_REF) × R_min / 2,048 (R398). -/
def pacePoint (s : State) : Option Nat :=
  (paceMin s).map (fun r => ((below 12).find? (fun p => pointMhz p * 2048 ≥ pointMhz (fg s PWR_CTRL_PACE_REF 0) * r)).getD 11)

/-- The configured point (R389), with the falls of fixed-frequency mode (R394). -/
def configPoint (s : State) : Nat :=
  if fg s PWR_CTRL_FIXED_EN 0 = 1 then fg s PWR_CTRL_FIXED_POINT 0 - s.pwr.stepDown
  else if fg s PWR_CTRL_BOOST_EN 0 = 1 then fg s PWR_CTRL_MAX_POINT 0 else min (fg s PWR_CTRL_MAX_POINT 0) 5

/-- L_max of the phase hints: the highest level announced for this frame and the next two (R396). -/
def hintMax (s : State) : Nat := maxNat (s.pwr.hints.take 3)

/-- Whether the predicted input power at point q is within the ceiling C, from point k with M and D in W (R389, R396):
M − max(D, L / 15 × 682 × r(k)) × (1 − r(q) / r(k)) ≤ C, cleared of fractions. -/
def powerFits (s : State) (m d k q : Nat) : Bool :=
  let dn : Int := max (d * 15000 : Int) (hintMax s * 682 * pointR k : Int)
  decide ((m : Int) * 15000 * pointR k - dn * (pointR k - pointR q : Int) ≤ (s.pwr.ceil : Int) * 15000 * pointR k)

/-- The highest point within C, 0 where none is. -/
def powerPoint (s : State) (m d : Nat) : Nat := ((below 12).reverse.find? (powerFits s m d (pointNow s))).getD 0

/-! ### Pace notices (R397) -/

/-- Whether the module is throttled: below PACE_REF for any reason but pace following, or bubbling Class L. -/
def throttled (s : State) : Bool :=
  let ref := fg s PWR_CTRL_PACE_REF 0
  let others := min (fg s PWR_VF_CEIL_THERM 0) (min (fg s PWR_VF_CEIL_POWER 0) (configPoint s))
  let paced := fg s PWR_VF_FOLLOWING 0 == 1 && decide (fg s PWR_VF_CEIL_PACE 0 < ref)
  decide (bubbleL s > 0) || (decide (pointNow s < ref) && (!paced || decide (others < ref)))

/-- The notice that blocks carry, from the time the slow loop first sets the point (R397; 20, R489). -/
def paceNotice (s : State) : State :=
  if !pointFree s then s
  else
    let p := pointNow s
    let rate := if throttled s then min 2047 (2048 * pointMhz p * (2 - bubbleL s) / (2 * pointMhz (fg s PWR_CTRL_PACE_REF 0))) else 2047
    fs s PWR_PACE_NOTICE 0 (b2n (throttled s) * 2 ^ 15 + p * 2 ^ 11 + rate)

/-- An emergency begins: PWR_EMERG, the notice, the host point (R393; 19, R472). -/
def addCause (s : State) (c : Nat) : State :=
  if s.pwr.causes.contains c then s
  else
    let s1 := { s with pwr := { s.pwr with causes := s.pwr.causes ++ [c] } }
    paceNotice (syncHost (bump (fs (fs s1 PWR_EMERG_CAUSE 0 c) PWR_VF_EMERG 0 1) PWR_EMERG_COUNT 0 1))

/-- An emergency ends. -/
def dropCause (s : State) (c : Nat) : State :=
  if !s.pwr.causes.contains c then s
  else
    let s1 := { s with pwr := { s.pwr with causes := s.pwr.causes.filter (· != c) } }
    paceNotice (syncHost (fs s1 PWR_VF_EMERG 0 (b2n (!s1.pwr.causes.isEmpty))))

/-! ### The slow loop (R391, R409) -/

/-- A set-point change begins: a fall sets the clock at once, a rise when the slew ends; while a ward is in a wake stage it waits
(R391; 15, R369). -/
def beginSlew (s : State) (goal : Nat) : State :=
  if goal = pointNow s then s
  else if wakesNow s > 0 then { s with pwr := { s.pwr with wait := some goal } }
  else
    let s1 := { s with pwr := { s.pwr with slew := some goal, wait := none } }
    if goal < pointNow s then paceNotice (fs s1 PWR_VF_POINT 0 goal) else s1

/-- A change that waited for a wake begins once no ward is in a wake stage (15, R369). -/
def slewWaited (s : State) : State :=
  match s.pwr.wait with
  | none => s
  | some p => if wakesNow s > 0 ∨ s.pwr.slew.isSome then s else beginSlew { s with pwr := { s.pwr with wait := none } } p

/-- VF_SLEW_END (R391): the set point stands; a rise sets the new clock. -/
def slewEnd (s : State) : State :=
  match s.pwr.slew with
  | none => s
  | some p => slewWaited (paceNotice (fs { s with pwr := { s.pwr with slew := none } } PWR_VF_POINT 0 p))

/-- VF_SLEW_END (R391). -/
def execVfSlewEnd (s : State) : Host.Outcome State Fault Refusal := .next (slewEnd s)

/-- The slow loop at a frame pulse, with M and D of the frame that ended (R389, R391, R409). `urgent` says that the grant taking effect is
URGENT. -/
def slowLoop (s : State) (m d : Nat) (urgent : Bool) : State :=
  let th := thermalPoint s
  let pace := pacePoint s
  let pw := powerPoint s m d
  let s1 := fs (fs (fs s PWR_VF_CEIL_THERM 0 th) PWR_VF_CEIL_PACE 0 (pace.getD 15)) PWR_VF_CEIL_POWER 0 pw
  let s2 := fs (fs (fs s1 PWR_VF_FOLLOWING 0 (b2n pace.isSome)) PWR_VF_HINT_LEVEL 0 (hintMax s)) PWR_PACE_R_MIN 0 ((paceMin s).getD 0x7FF)
  if !pointFree s2 then s2
  else
    let fixed := fg s2 PWR_CTRL_FIXED_EN 0 == 1
    let target := if fixed then min th (configPoint s2) else min (min th (pace.getD 11)) (min (configPoint s2) pw)
    let p := pointNow s2
    let hot := !urgent && (below 20).any (fun k => stackTemp s2 k > 640 && stackRate s2 k > 16)
    let rising := !urgent && (below 20).any (fun k => stackRate s2 k ≥ 12)
    let s3 := { s2 with pwr := { s2.pwr with dwell := min 255 (s2.pwr.dwell + 1) } }
    if s3.pwr.slew.isSome then paceNotice s3
    else if target < p ∨ hot then
      paceNotice (beginSlew s3 (if urgent ∧ target < p then target else p - 1))
    else if target > p ∧ s3.pwr.dwell ≥ fg s3 PWR_CTRL_RAMP_DWELL 0 ∧ !rising then
      paceNotice (beginSlew { s3 with pwr := { s3.pwr with dwell := 0 } } (p + 1))
    else paceNotice { s3 with pwr := { s3.pwr with wait := none } }

/-- WAKE_STAGE_END (15, R379): the next stage begins; after the fourth the grid is checked (within 95% or not), the clamps are
released and the fill begins; a V/F change that waited for the wake begins
(R369). -/
def execWakeStageEnd (pw grid : Nat) (s : State) : Host.Outcome State Fault Refusal :=
  let x := pward s pw
  .next (slewWaited (if x.stage = 0 ∨ x.stage ≥ 5 then s
    else if x.stage < 4 then setPward s pw { x with stage := x.stage + 1 }
    else
      let s1 := setDist s (pw / 5) { distOf s (pw / 5) with hold := false }
      if grid = 0 then physFails s1 pw 1 5
      else setPward s1 pw { x with stage := 5, late := false, pulses := 0 }))

/-! ### The fast loop (R392, R393) -/

/-- A coefficient of the estimator, pJ: refined by recalibration, else fused; 983 pJ for an ME slot clock at the FP8 rate (R402). -/
def coeffOf (s : State) (k : Nat) : Nat :=
  ((s.pwr.coeffs.find? (fun c => c.1 == k)).map Prod.snd).getD (if k = 1 then 983 else Config.coefficient k)

/-- floor(2^20 × 2^(k / 160)), for k from 0 to 159: the largest x with x^160 ≤ 2^(3200 + k). -/
def pow2Frac (k : Nat) : Nat :=
  (below 20).foldl (fun x i => let y := x + 2 ^ (19 - i); if y ^ 160 ≤ 2 ^ (3200 + k) then y else x) (2 ^ 20)

/-- Leakage of a ward or a square at a temperature in 0.125 °C, µW, rounded down: 0.85 W × (V_CORE / 0.60 V)³ × 2^((T − 85 °C) / 20 °C)
(R402). -/
def leakUw (mv : Nat) (t : Int) : Nat :=
  let n := t - 680
  let at85 := 850000 * mv ^ 3 * pow2Frac (n % 160).toNat
  if n ≥ 0 then at85 * 2 ^ (n / 160).toNat / (600 ^ 3 * 2 ^ 20) else at85 / (600 ^ 3 * 2 ^ 20 * 2 ^ (-(n / 160)).toNat)

/-- Powered wards and squares leak (R402): a ward from ACTIVE to NAP (17, R417), a square whose district is not lost. -/
def leakageUw (s : State) : Nat :=
  let mv := pointMv (pointNow s)
  if s.standby then 0
  else
    sumNat (((below 100).filter (fun p => (pward s p).st < 3)).map (fun p => leakUw mv (wardTemp s (p / 5) (p % 5)))) +
    sumNat (((below 20).filter (fun d => !distLost s d)).map (fun d => leakUw mv (squareTemp s d)))

/-- The dynamic power of activity counts over a microsecond, µW (R402). -/
def dynamicUw (s : State) (xs : List (Nat × Nat)) : Nat :=
  sumNat (xs.map (fun x => x.2 * coeffOf s x.1)) * pointMv (pointNow s) ^ 2 / 600 ^ 2

/-- Power at V_CORE, at a rail of the intermediate bus, and at V_AON, referred to the input (R402; 15, conversion chain). -/
def coreIn (uw : Nat) : Nat := uw * 10 ^ 9 / (880 * 965 * 975)
def railIn (uw : Nat) : Nat := uw * 10 ^ 6 / (965 * 975)
def aonIn (uw : Nat) : Nat := uw * 100 / 80

/-- The compute domain's dynamic power D and its Class F share F, referred to the input, and the estimated input power, in W rounded down
(R389, R392, R402; DEDUCED, log 55). -/
def dynIn (s : State) (x : FastIn) : Nat := coreIn (dynamicUw s (x.acts.map (fun a => (a.kind, a.total)))) / 10 ^ 6
def shareIn (s : State) (x : FastIn) : Nat := coreIn (dynamicUw s (x.acts.map (fun a => (a.kind, min a.classF a.total)))) / 10 ^ 6
def estimate (s : State) (x : FastIn) : Nat :=
  (coreIn (dynamicUw s (x.acts.map (fun a => (a.kind, a.total))) + leakageUw s) + railIn (sumNat (x.rails.take 6) * 1000) +
    aonIn (nth x.rails 6 0 * 1000)) / 10 ^ 6

/-- The corrected estimate E (R403). -/
def corrected (s : State) (est : Nat) : Nat := if fg s PWR_EST_DRIFT 0 = 1 then est * s.pwr.k.1 / s.pwr.k.2 else est

/-- The bubble fraction for the next microsecond in 1/64, rounded up: b = min(1, max(0, (E − C) / F′)) with F′ = F / (1 − b_prev) (R392). At
b_prev = 1, where every Class F start was withheld, it stays 1 while E exceeds C, whatever F is (DEDUCED, log 55). -/
def bubbleF (prev e c f : Nat) : Nat :=
  if prev ≥ 64 then (if e > c then 64 else 0)
  else if f = 0 ∨ e ≤ c then 0
  else min 64 (ceilDiv ((e - c) * (64 - prev)) f)

/-- BUB_F shows b; b = 1 has no code in its six bits and shows a free value (DESIGN CHOICE, log 54). -/
def showBubble (s : State) : State :=
  if s.pwr.bub < 64 then fs s PWR_VF_BUB_F 0 s.pwr.bub
  else let (v, s1) := fresh s; fs s1 PWR_VF_BUB_F 0 (v % 64)

/-- Emergency 1 by VIN_CORE current: above 660 A for 5 µs with b = 1, until below 600 A for 5 µs (R393). -/
def coreEmergency (s : State) (b vin : Nat) : State :=
  let hi := if vin > 6600 ∧ b = 64 then min 5 (s.pwr.vinHigh + 1) else 0
  let lo := if vin < 6000 then min 5 (s.pwr.vinLow + 1) else 0
  let s1 := { s with pwr := { s.pwr with vinHigh := hi, vinLow := lo } }
  if hi ≥ 5 then addCause s1 1 else if lo ≥ 5 then dropCause s1 1 else s1

/-- PWR_JOB_E shows job energy in mJ (R401). -/
def showJob (s : State) : State :=
  let e := s.pwr.jobUj / 1000
  wr (wr s PWR_JOB_E_LO 0 (BitVec.ofNat 32 e)) PWR_JOB_E_HI 0 (BitVec.ofNat 32 (e / 2 ^ 32))

/-- FAST_LOOP (R392, R393, R399, R401, R402): one microsecond measured and estimated; the next bubble fraction. Job energy is integrated sample by sample. -/
def execFastLoop (x : FastIn) (s : State) : Host.Outcome State Fault Refusal :=
  let p := s.pwr
  let est := estimate s x
  let e := corrected s est
  let b := if p.limit || thermalFull s || hostForced s then 64 else bubbleF p.bub e p.ceil (shareIn s x)
  let p1 := { p with samples := p.samples + 1, measUj := p.measUj + x.meas, estUj := p.estUj + est, dynSum := p.dynSum + dynIn s x
                     vinSum := p.vinSum + x.vin, bub := b, bubSum := p.bubSum + p.bub, bubCnt := p.bubCnt + 1, fullB := p.fullB && p.bub == 64
                     jobUj := p.jobUj + (if hasJob s && !unassigning s then x.meas else 0) }
  let s1 := x.withheld.foldl (fun t w => if w.1 < wardCount s then bump (bump t PWR_WBUB_BUB_F w.1 w.2.1) PWR_WBUB_BUB_L w.1 w.2.2 else t) { s with pwr := p1 }
  let s2 := x.lifted.foldl (fun t w => if w < wardCount s then bump t PWR_WBUB_LIFT_LIFTED w 1 else t) s1
  let s3 := x.capped.foldl (fun t w => if w.1 < wardCount s ∧ ampLimit (pward s (physOf s w.1)) < 0x28 then bump t PWR_WCAP_CAP_CLOCKS w.1 w.2 else t) s2
  .next (coreEmergency (showBubble (if hasJob s3 then showJob s3 else s3)) p.bub x.vin)

end Sys2Proof.Machine
end

