-- ==== Sys2Proof/Machine/PowerFail.lean ====
section
/-!
DEFINITION. Power failure, the conversion chain and heat (14_journal_flash.md, R358, R359; 15_power_delivery.md, R363 to R366, R382;
16_frames_power_thermal.md, R404 to R408, R412, R413).
-/

namespace Sys2Proof.Machine

/-! ### The power-fail sequence (14, R358, R359; 15, R364, R365) -/

/-- JOURNAL commands not yet programming fault with cause 0x03 (14, R358). -/
def failCommits (s : State) : State :=
  (s.flash.commits.filter (fun k => !k.burning)).foldl (fun t k =>
    match findCmd (stream t k.m).cmds k.num with
    | some c => execFault t k.m c 0x18 (journalCause 3 0)
    | none => t) s

/-- The sequence's actions: refusals and faults, a writing image failed; of the records queued for the configuration store up to 8 may still be
committed, and with the dies idle write protect is asserted (14, R358). Streaming, refresh and wear management stop while PFW_ACTIVE is 1. -/
def pfwActions (s : State) : State :=
  if pfwActive s then s
  else
    let s1 := failCommits (fs s JNL_STATUS_PFW_ACTIVE 0 1)
    let s2 := if fg s1 JNL_IMG_STATUS_STATE 0 = 1 ∨ fg s1 JNL_IMG_STATUS_STATE 0 = 2 then imageFail s1 3 else s1
    observe (protectIdle { s2 with flash := { s2.flash with pfwLeft := 8 } })

/-- A power-fail warning with VBUS at `vbus` V, where none stands: below 48 V every stream is bubbled until it ends (15, R365). In a coolant stop
it joins the sequence that runs (16, R412). -/
def pfwBegin (s : State) (vbus : Nat) : State :=
  let s1 := protectIdle (pfwActions { s with pwr := { s.pwr with warned := true } })
  if s.pwr.warned then s
  else if vbus < 48 then addCause (fs s1 PWR_CHAIN_HOLDUP_LOW 0 1) 3 else s1

/-- PFW_ASSERT (14, R358): PFW_N asserted for 10 µs, with VBUS at `vbus` V. -/
def execPfwAssert (vbus : Nat) (s : State) : Host.Outcome State Fault Refusal := .next (pfwBegin s vbus)

/-- PFW_RELEASE (14, R359): PFW_N deasserted for 16 frames with VBUS in range. During a coolant stop the refusals stay. -/
def execPfwRelease (s : State) : Host.Outcome State Fault Refusal :=
  .next (if !s.pwr.warned then s
    else
      let s1 := dropCause (bump s JNL_CNT_PFW 0 1) 3
      let s2 := { s1 with life := { s1.life with pfws := s1.life.pfws + 1 }, pwr := { s1.pwr with warned := false }
                          flash := { s1.flash with protect := false } }
      if fg s2 THM_STATUS_COOLANT_STOP 0 = 1 then s2 else fs s2 JNL_STATUS_PFW_ACTIVE 0 0)

/-- VBUS_LOW (15, R364): VBUS below 40 V for 10 µs with PFW_N deasserted. -/
def execVbusLow (vbus : Nat) (s : State) : Host.Outcome State Fault Refusal := .next (pfwBegin (fs s PWR_CHAIN_VBUS_LOW 0 1) vbus)

/-- The registers whose values the fuses and the stores give, over the reset values (20, R496; 14, R345, R350). -/
def storedRegs (s : State) : SMap Word :=
  let t : State := { s with regs := initRegs s.fuses.map s.store.base }
  let t1 := wr t JNL_LAST_STEP 0 (BitVec.ofNat 32 ((s.flash.records.getLast?.map JRec.step).getD 0xFFFFFFFF))
  let t2 := wr t1 JNL_IMG_CUR 0 (BitVec.ofNat 32 ((s.flash.images.head?.map Image.step).getD 0xFFFFFFFF))
  let t3 := wr t2 JNL_IMG_PREV 0 (BitVec.ofNat 32 (((s.flash.images.drop 1).head?.map Image.step).getD 0xFFFFFFFF))
  let t4 := wr t3 JNL_FLASH 0 (rd s JNL_FLASH 0)
  let t5 := fs (fs (fs t4 JNL_STATUS_T3_DEGRADED 0 (fg s JNL_STATUS_T3_DEGRADED 0)) JNL_IMG_STATUS_STATE 0 (fg s JNL_IMG_STATUS_STATE 0))
    JNL_IMG_STATUS_CAUSE 0 (fg s JNL_IMG_STATUS_CAUSE 0)
  let t6 := wr t5 MC_SEC 0 (rd s MC_SEC 0)
  let t7 := fs (fs t6 MC_SEC_WINDOW_S 0 0) MC_STATUS_SEAL 0 (fg s MC_STATUS_SEAL 0)
  (fs t7 MC_STATUS_BOOT_BANK 0 (fg s MC_STATUS_BOOT_BANK 0)).regs

/-- Physical wards and districts with what no reset mends: failed regulator phases and square regulators (15, R370, R373). The spares rest in
OFF (17, R423). -/
def bareWards (s : State) : SMap PWard :=
  (below 100).foldl (fun m p => sset {} m p { st := if p % 5 = 4 then 4 else 0, phases := (pward s p).phases }) []
def bareDists (s : State) : SMap Dist :=
  (below 20).foldl (fun m d => sset {} m d { lostA := (distOf s d).lostA, lostB := (distOf s d).lostB }) []

/-- The registers that show lost square regulators. -/
def lostRegs (s : State) (r : SMap Word) : SMap Word :=
  ((below 20).foldl (fun t d =>
    let x := distOf s d
    fs (fs (fs t PWR_SREG_REG_A_OK d (b2n !x.lostA)) PWR_SREG_REG_B_OK d (b2n !x.lostB)) PWR_SREG_SINGLE d (b2n (x.lostA != x.lostB)))
    { s with regs := r }).regs

/-- The configuration store after a loss of power or a reset: changes still queued are lost, and a compaction begun leaves the old half in use
(14, R360). -/
def storeAfter (st : Store) : Store :=
  let lost := fun (k : StoreRec) => (st.queue.filter (· == k)).length
  { st with
    fail := { st.fail with entries := st.fail.entries.drop (lost .entry) }
    bad := st.bad.take (st.bad.length - lost .block), repairs := st.repairs.take (st.repairs.length - lost .repair)
    queue := [], compact := none }

/-- The module without power: Tier 3, the stores, the banks and the fuses are kept, and everything else is at its reset value (15, R363;
17, R428; 20, R496). The commands that wait and the counter of free values are the model's own. -/
def powerOff (s : State) : State :=
  { State.reset with
    pending := s.pending, free := s.free, fuses := s.fuses, life := s.life, store := storeAfter s.store, banks := s.banks, board := s.board
    flash := { s.flash with commits := [], pfwLeft := 0, protect := false }
    pwards := bareWards s, dists := bareDists s
    regs := lostRegs s (storedRegs s) }

/-- Registers of the MC, of frames and power control and of the sensors, which V_AON keeps (15, R363, R367; DESIGN CHOICE, log 73). -/
def aonReg (no : Nat) : Bool :=
  (JNL_STATUS.no ≤ no && no ≤ JNL_CNT.no) || (PWR_CHAIN.no ≤ no && no ≤ THM_DIE_SQ.no) || (PWR_FBU_BYTES.no ≤ no && no ≤ PWR_FBU_STAT.no) ||
    (MOD_PSTATE.no ≤ no && no ≤ MC_PKT_CNT.no) || (MOD_BOOT_STATUS.no ≤ no && no ≤ MOD_RETURN.no)

/-- The registers of `t` with those on V_AON as in `s`; the module is not READY and no long operation runs. -/
def aonRegs (s t : State) : SMap Word :=
  let kept := s.regs.filter (fun p => aonReg (p.1 / 2 ^ 20))
  let r := kept.foldl (fun m p => sset (regReset p.1) m p.1 p.2) (t.regs.filter (fun p => !aonReg (p.1 / 2 ^ 20)))
  (fs (fs (fs { t with regs := r } MC_STATUS_READY 0 0) MC_STATUS_LONG_OP 0 0) PWR_VF_POINT 0 0).regs

/-- VBUS_STOP (15, R363): the bus converter stops and every rail except V_AON falls. The MC, the FRAME_IN receiver and the sensors go on
(15, R367; 21, R513); what stood on the other rails is lost. -/
def execVbusStop (s : State) : Host.Outcome State Fault Refusal :=
  let t := powerOff s
  .next { t with
    regs := aonRegs s t
    mc := { s.mc with longOp := none, stages := [], storing := none, waiting := [] }
    pwr := { s.pwr with slew := none, wait := none, limit := false }
    therm := s.therm }

/-! ### The converters (15, R366, R382) -/

/-- CORE_CURRENT_LIMIT (15, R366): above 600 A, b is 1 for the rest of the frame (16, R393). -/
def execCoreCurrentLimit (s : State) : Host.Outcome State Fault Refusal :=
  let s1 := fs s PWR_CHAIN_CORE_LIMIT 0 1
  .next (showBubble { s1 with pwr := { s1.pwr with limit := true, bub := 64 } })

/-- Why the module cannot take a job: a reason of the not-ready table added or removed (18, R448). -/
def addReason (s : State) (r : Nat) : State :=
  if s.mc.reasons.contains r then s else { s with mc := { s.mc with reasons := s.mc.reasons ++ [r] } }
def dropReason (s : State) (r : Nat) : State := { s with mc := { s.mc with reasons := s.mc.reasons.filter (· != r) } }

/-- CORE_CONVERTER_SHUTDOWN (15, R366): the compute domain is lost: every enabled stream faults with its own ward. -/
def execCoreConverterShutdown (current : Nat) (s : State) : Host.Outcome State Fault Refusal :=
  let s1 := loseStreams s (s.streams.map Prod.fst) (fun m => m / 8)
  let s2 := (below 100).foldl (fun t p => setPward t p { pward t p with st := 4, enter := none, clamped := false, held := none, wakeBy := none, stage := 0, napExit := false }) s1
  let s3 := (below (wardCount s2)).foldl resetEngines s2
  .next (observe (addReason (failEntry s3 0x000B 0 0 current 0 noStep) 4))

/-- BUS_CONVERTER_LIMIT (15, R382). -/
def execBusConverterLimit (s : State) : Host.Outcome State Fault Refusal := .next (fs s PWR_CHAIN_BUS_LIMIT 0 1)

/-! ### Coolant stop and trip (16, R412, R413) -/

/-- Every ward that has power enters RETAIN with all banks kept, its engines lost; the point is 0 (R412; 17, R427). -/
def retainAll (s : State) : State :=
  let s1 := (below 100).foldl (fun t p =>
    let x := pward t p
    if x.st < 3 then setPward t p { x with st := 3, kept := 0xFFF, enter := none, clamped := false, held := none, wakeBy := none, stage := 0, napExit := false } else t) s
  let s2 := (below (wardCount s1)).foldl resetEngines s1
  fs { s2 with pwr := { s2.pwr with slew := none, wait := none } } PWR_VF_POINT 0 0

/-- The sequence of R412, if it is not already running. -/
def coolantSequence (s : State) : State :=
  if fg s THM_STATUS_COOLANT_STOP 0 = 1 then s
  else
    let s1 := addCause (fs s THM_STATUS_COOLANT_STOP 0 1) 2
    observe (pfwActions (retainAll (showBubble { s1 with pwr := { s1.pwr with bub := 64 } })))

/-- A sudden coolant stop: trigger 0 COOLANT_FAIL_N, 1 the rate of a stack (R412; 18, R453; 20, R503). -/
def coolantStop (s : State) (trigger stack : Nat) : State :=
  if fg s THM_STATUS_COOLANT_STOP 0 = 1 then s
  else raiseEvent (failEntry (coolantSequence s) 0x000D 0 trigger stack (if trigger = 1 then fg s THM_STACK_CTL_RATE stack else 0) noStep) 0x0006 0 trigger stack 0

/-- COOLANT_STOP (R412): COOLANT_FAIL_N asserted for 10 µs. -/
def execCoolantStop (s : State) : Host.Outcome State Fault Refusal := .next (coolantStop { s with therm := { s.therm with coolant := true } } 0 0)

/-- A thermal trip by a sensor (stack k: 2k for A, 2k + 1 for B; district d: 40 + 5d + k, DEDUCED, log 55) and its reading (R413). -/
def thermalTrip (s : State) (sensor reading : Nat) : State :=
  if fg s THM_STATUS_TRIP 0 = 1 then s
  else
    let s1 := addCause (coolantSequence (fs s THM_STATUS_TRIP 0 1)) 5
    let s2 := { s1 with life := { s1.life with trips := s1.life.trips + 1 } }
    raiseEvent (failEntry s2 0x000E 0 sensor reading 0 noStep) 0x0007 0 sensor reading 0

/-! ### The thermal sensors (R404 to R408) -/

/-- The mean of the samples of sensor i, rounded down (R404; DEDUCED, log 55). -/
def sensorMean (xs : List (List Nat)) (i : Nat) : Int :=
  (xs.map (fun x => tempOf (nth x i 0))).foldl (· + ·) 0 / (max xs.length 1 : Int)

/-- A reading outside −20 °C to 150 °C (R407). -/
def excluded (t : Int) : Bool := t < -160 || t > 1200

/-- A temperature or a rate as a 12-bit code. -/
def tempCode (t : Int) : Nat := (max (-2048) (min 2047 t) % 4096).toNat

/-- One district's die sensors. -/
def takeDie (s : State) (xs : List (List Nat)) (d : Nat) : State :=
  let t := fun (k : Nat) => sensorMean xs (40 + 5 * d + k)
  let s1 := fs (fs s THM_DIE_W01_WS0 d (tempCode (t 0))) THM_DIE_W01_WS1 d (tempCode (t 1))
  let s2 := fs (fs s1 THM_DIE_W23_WS2 d (tempCode (t 2))) THM_DIE_W23_WS3 d (tempCode (t 3))
  let s3 := fs (fs s2 THM_DIE_SQ_SQ d (tempCode (t 4))) THM_DIE_SQ_SQ_EXCL d (b2n (excluded (t 4)))
  fs s3 THM_DIE_SQ_WS_EXCL d (sumNat ((below 4).map (fun k => b2n (excluded (t k)) * 2 ^ k)))

/-- One stack's sensors and control temperature (R407), with its warning, its lost sensors and the rate of R404; answers the state and the
control temperature. With no valid sensor in stack and district, where R407 and R408 each refer to the other, it stays (DESIGN CHOICE, log 55). -/
def takeStack (s : State) (xs : List (List Nat)) (k : Nat) : State × Int :=
  let a := sensorMean xs (2 * k)
  let b := sensorMean xs (2 * k + 1)
  let ea := excluded a
  let eb := excluded b
  let near := decide ((a - b).natAbs ≤ 48)
  let apart := if ea || eb || near then 0 else min 16 (nth s.therm.apart k 0 + 1)
  let agree := if !ea && !eb && near then min 1024 (nth s.therm.agree k 0 + 1) else 0
  let suspect := (ea != eb) || decide (apart ≥ 16) || (fg s THM_STACK_CTL_SUSPECT k == 1 && decide (agree < 1024))
  let lost := ((maxTemp ((below 5).filterMap (dieTemp s k))).map (· + 80)).getD (stackTemp s k)
  let control := if ea && eb then lost else if ea then b + 32 else if eb then a + 32 else if suspect then max a b + 32 else max a b
  let rate := match s.therm.controls[399]? with
    | some old => (control - nth old k 0) * 10
    | none => 0
  let was := stackTemp s k
  let s1 := { s with therm := { s.therm with apart := setNth s.therm.apart k apart, agree := setNth s.therm.agree k agree } }
  let s2 := fs (fs s1 THM_STACK_T_SENSOR_A k (tempCode a)) THM_STACK_T_SENSOR_B k (tempCode b)
  let s3 := fs (fs (fs s2 THM_STACK_CTL_SUSPECT k (b2n suspect)) THM_STACK_CTL_A_EXCL k (b2n ea)) THM_STACK_CTL_B_EXCL k (b2n eb)
  let s4 := fs (fs (fs s3 THM_STACK_CTL_LOST k (b2n (ea && eb))) THM_STACK_CTL_RATE k (tempCode rate)) THM_STACK_CTL_CONTROL k (tempCode control)
  let s5 := if ea && eb && fg s THM_STACK_CTL_LOST k == 0 then failEntry s4 0x000C 0 k 0 0 noStep else s4
  (if control ≥ 720 ∧ was < 720 then raiseEvent (fs s5 THM_STATUS_WARN 0 1) 0x0008 0 k (tempCode control) 0 else s5, control)

/-- The first raw sample that trips: a stack sensor at 100 °C, a die sensor at 110 °C (R413). -/
def tripSample (x : List Nat) : Option Nat := (below 140).find? (fun i => decide (tempOf (nth x i 0) ≥ if i < 40 then 800 else 880))

/-- THM_STATUS over the stacks, and emergency 4 by the die sensors (R393, R404, R407). -/
def thermSummary (s : State) : State :=
  let hottest := (maxTemp ((below 20).map (stackTemp s))).getD 0
  let s1 := fs s THM_STATUS_HOTTEST 0 (tempCode hottest)
  let s2 := fs s1 THM_STATUS_SUSPECT_ANY 0 (b2n ((below 20).any (fun k => fg s THM_STACK_CTL_SUSPECT k == 1)))
  let s3 := fs s2 THM_STATUS_SENSOR_LOST 0 (b2n ((below 20).any (fun k => fg s THM_STACK_CTL_LOST k == 1)))
  let ts := dieReadings s3
  let run := if ts.any (fun t => t ≥ 840) && pointNow s3 == 0 then min 16 (s3.therm.dieRun + 1) else 0
  let s4 := { s3 with therm := { s3.therm with dieRun := run } }
  if run ≥ 16 then addCause s4 4 else if ts.all (fun t => t < 832) then dropCause s4 4 else s4

/-- THERMAL_SAMPLE (R404): the sensors sampled, control temperatures and rates updated, the limits of R405 acted on. -/
def execThermalSample (x : ThermIn) (s : State) : Host.Outcome State Fault Refusal :=
  let flat := padTo 40 0 (x.pairs.flatMap (fun p => [p.1, p.2])) ++ padTo 100 0 x.dies.flatten
  let xs := (flat :: s.therm.samples).take 16
  let s1 := { s with therm := { s.therm with samples := xs, coolant := x.coolant } }
  let s2 := (below 20).foldl (fun t d => takeDie t xs d) s1
  let (s3, cs) := (below 20).foldl (fun (t : State × List Int) k =>
    let (u, c) := takeStack t.1 xs k
    (u, t.2 ++ [c])) (s2, [])
  let s4 := thermSummary { s3 with therm := { s3.therm with controls := (cs :: s3.therm.controls).take 400 } }
  let s5 := match tripSample flat with
    | some i => thermalTrip s4 i (nth flat i 0)
    | none => s4
  .next (match (below 20).find? (fun k => stackRate s5 k > 40) with
    | some k => coolantStop s5 1 k
    | none => s5)

end Sys2Proof.Machine
end

