-- ==== Sys2Proof/Machine/Clocks.lean ====
section
/-!
DEFINITION. Clocks, dovetail crossings, refresh, calibration and the module's votes (17_power_states_clocks.md, R422 to R425, R428, R429,
R432 to R439; 16_frames_power_thermal.md, R415; 15_power_delivery.md, R368).
-/

namespace Sys2Proof.Machine

/-! ### The module's votes (R423, R428, R429) -/

/-- Enabled streams of a class in the module. -/
def classOn (s : State) (cls : Nat) : Bool := s.streams.any (fun p => p.2.st != .disabled && fg s WARD_SCFG_CLASS p.1 == cls)

/-- A client's module vote: 0 RUN, 1 DOZE, 2 STANDBY, the deepest, where it holds none (R423). -/
def modVote (s : State) (client : Nat) : Nat :=
  match client with
  | 1 => if classOn s 0 then 0 else 2
  | 2 => if classOn s 1 then 0 else 2
  | 3 => fg s MOD_PSTATE_HOST_VOTE 0
  | 4 => if hasJob s then 1 else 2
  | 5 => if !s.txns.isEmpty || s.arrivals.any (fun p => !p.2.slots.isEmpty) then 1 else 2
  | 10 => if !s.links.due.isEmpty && budgetLeft s actCalib then 1 else 2
  | 13 => if s.flash.wip.isSome && budgetLeft s actImage then 1 else 2
  | 14 => if !s.samples.isEmpty && budgetLeft s actShadow then 1 else 2
  | _ => 2

def modClients : List Nat := [1, 2, 3, 4, 5, 10, 13, 14]

/-- The module's target and the client that sets it, the lowest code among ties (R422, R425). -/
def modTarget (s : State) : Nat × Nat :=
  modClients.foldl (fun (a : Nat × Nat) c => if modVote s c < a.1 then (modVote s c, c) else a) (2, 0)

/-- The module's state (R428): DOZE where its target allows it and every ward rests in NAP or deeper. -/
def modState (s : State) : Nat :=
  if s.standby then 2 else if (modTarget s).1 ≥ 1 ∧ (below 100).all (fun p => (pward s p).st ≥ 2) then 1 else 0

/-- A refused module entry counted with its client (R425). -/
def modRefused (s : State) (client : Nat) : State := fs (bump s MOD_PCNT_REFUSED 0 1) MOD_PCNT_REF_CLIENT 0 client

/-- A client's module vote has deepened or is withdrawn: refused where the target does not deepen to it (R425). -/
def modVoteChange (s : State) (client : Nat) : State :=
  let (t, by') := modTarget s
  if t < modVote s client then modRefused s by' else s

/-- VOTE_CHANGE on the module: a vote is deeper when it is withdrawn; a host vote took effect as it was written (R425, R440). -/
def modVoteNow (s : State) (client : Nat) : State :=
  if client ≠ 3 ∧ modClients.contains client ∧ modVote s client = 2 then modVoteChange s client else s

/-- A write of MOD_PSTATE: HOST_VOTE takes effect at once; 0b11 is ignored (R440). -/
def writePstate (s : State) (v : Word) : State :=
  let n := fieldIn v MOD_PSTATE_HOST_VOTE
  let old := fg s MOD_PSTATE_HOST_VOTE 0
  if n = 3 then s
  else
    let s1 := fs s MOD_PSTATE_HOST_VOTE 0 n
    if n > old then modVoteChange s1 3 else s1

/-- A write of WARD_VOTE_HOST: it takes effect at once; codes 5 to 7 are ignored (R440). -/
def writeWardVote (s : State) (w : Nat) (v : Word) : State :=
  let n := fieldIn v WARD_VOTE_HOST_HOST
  if n > 4 then s else wardVoteChange (fs s WARD_VOTE_HOST_HOST w n) (physOf s w) 3 (decide (n > fg s WARD_VOTE_HOST_HOST w))

/-- VOTE_CHANGE (R422, R425): a client's vote on a physical ward, or, past the wards, on the module, has changed. -/
def execVoteChange (domain client : Nat) (s : State) : Host.Outcome State Fault Refusal :=
  .next (if domain < 100 then wardVote s domain client else modVoteNow s client)

/-! ### The reference clock (R434) -/

/-- REFCLK_LOSS (R434): job assignment is refused from now on. -/
def execRefclkLoss (s : State) : Host.Outcome State Fault Refusal :=
  .next (if s.mc.reasons.contains 6 then s
    else addReason (failEntry (fs (fs s MOD_CLK_REFCLK_LOST 0 1) MOD_CLK_REFCLK_OK 0 0) 0x0011 0 0 0 0 noStep) 6)

/-- REFCLK_RETURN (R434): back for 1 s, with every crossing re-centred. -/
def execRefclkReturn (s : State) : Host.Outcome State Fault Refusal :=
  .next (if s.xings.any (fun p => p.2.late > 0) ∨ !s.mc.reasons.contains 6 then s else dropReason (fs s MOD_CLK_REFCLK_OK 0 1) 6)

/-- DROOP_STRETCH (R435): units of 1,024 stretched periods of a region: a logical ward, or district d as 80 + d. -/
def execDroopStretch (region units : Nat) (s : State) : Host.Outcome State Fault Refusal :=
  .next (if region < wardCount s then bump s WARD_CLKSTAT_STRETCH region units
    else if 80 ≤ region ∧ region < 100 then bump s DIST_CLKSTAT_STRETCH (region - 80) units else s)

/-! ### Dovetail crossings (R436 to R439) -/

def xing (s : State) (k : Nat) : Xing := sget {} s.xings k
def setXing (s : State) (k : Nat) (x : Xing) : State := { s with xings := sset {} s.xings k x }

/-- CROSSING_SLIP (R439): a word of a crossing of a region (as in DROOP_STRETCH) is `short` cycles late; the slip is counted and traced. -/
def execCrossingSlip (region crossing short : Nat) (s : State) : Host.Outcome State Fault Refusal :=
  let x := xing s crossing
  let s1 := setXing s crossing { x with late := x.late + short }
  let s2 := { s1 with slips := s1.slips ++ [(crossing, short, frameNum s)] }
  .next (if short = 0 then s
    else if region < wardCount s then bump s2 WARD_CLKSTAT_SLIPS region 1
    else if 80 ≤ region ∧ region < 100 then bump s2 DIST_CLKSTAT_SLIPS (region - 80) 1 else s2)

/-- CROSSING_RECENTRE (R439): after the pulse that follows a slip the crossing finds a cycle with no word in flight and restores L, or tries
again at the next pulse. -/
def execCrossingRecentre (crossing ok : Nat) (s : State) : Host.Outcome State Fault Refusal :=
  let x := xing s crossing
  .next (if !x.due then s
    else if ok = 0 then setXing s crossing { x with due := false }
    else setXing s crossing { x with late := 0, due := false })

/-- A crossing calibrated: L is the largest observed delay plus 2 (R437). -/
def calibrate (s : State) (district crossing delay : Nat) : State :=
  bump (setXing s crossing { lat := delay + 2 }) DIST_XCAL_RECAL (district % 20) 1

/-- CROSSING_RECAL (R437, R438). -/
def execCrossingRecal (district crossing delay : Nat) (s : State) : Host.Outcome State Fault Refusal := .next (calibrate s district crossing delay)

/-! ### Refresh and calibration (R432; 16, R415) -/

/-- TIER1_REFRESH (R432; 16, R405): rows of a stack are refreshed; nothing that a program can read changes. -/
def execTier1Refresh (_stack : Nat) (s : State) : Host.Outcome State Fault Refusal := .next s

/-- TIER2_REFRESH (R432). -/
def execTier2Refresh (_device : Nat) (s : State) : Host.Outcome State Fault Refusal := .next s

/-- CALIBRATION (16, R415): one piece of the calibration activity under its budget: 0 a crossing (unit: 2^16 × district + crossing, value: its
delay; R437), 1 the trim of a physical ward's regulator, 0 to 30 mV (15, R368), 2 sensors, 3 a coefficient of the estimator (unit: its kind, value: pJ; 16, R402, R403),
4 links. What it reads may hold an uncorrectable error (11, R294). -/
def execCalibration (kind unit value bytes slots energy : Nat) (err : MemErr) (s : State) : Host.Outcome State Fault Refusal :=
  .next (withBudget s actCalib bytes slots energy (fun t0 =>
    let t := match err with
      | .lost a => backgroundNote (markLost t0 a) (ueAt t0 1 a)
      | _ => t0
    match kind with
    | 0 => calibrate t (unit / 2 ^ 16) (unit % 2 ^ 16) value
    | 1 => if unit < 100 then setPward t unit { pward t unit with trim := min 30 value } else t
    | 3 => { t with pwr := { t.pwr with recal := true, coeffs := t.pwr.coeffs.filter (fun c => c.1 != unit) ++ [(unit, value)] } }
    | _ => t))

end Sys2Proof.Machine
end

