-- ==== Sys2Proof/Machine/Collect.lean ====
section
/-!
DEFINITION. Collectives (13_collectives.md): SEND and its windows, the arrival region and its drain, releases, REDUCE, and the counting
of waits (05, R125; 11, R290; 13, R334).
-/

namespace Sys2Proof.Machine

/-! ### The arrival region (R325 to R328) -/

def arrival (s : State) (n : Nat) : Arrival := sget {} s.arrivals n
def setArrival (s : State) (n : Nat) (a : Arrival) : State := { s with arrivals := sset {} s.arrivals n a }

/-- An arrival queue: enabled, bound to 0xFE, NRANK not 0 (R325). -/
def isArrival (s : State) (n : Nat) : Bool :=
  qEnabled s n && fg s WARD_QBIND_PROD_WARD n == 0xFE && fg s WARD_QARR_CFG_NRANK n != 0

def regionBase (s : State) (n : Nat) : Nat := fg s WARD_QARR_BASE_HI_BASE_HI n * 2 ^ 32 + fg s WARD_QARR_BASE_LO_BASE_LO n * 2 ^ 16
/-- Bytes of a region slot: SLOT × 512 and 256 for the header (R325). -/
def regionSlot (s : State) (n : Nat) : Nat := qSlotBytes s n + 256
def regionIndex (s : State) (n round rank : Nat) : Nat :=
  round % fg s WARD_QARR_CFG_WINDOW n * fg s WARD_QARR_CFG_NRANK n + rank
def regionKey (s : State) (n ix : Nat) : Nat := regionBase s n + ix * regionSlot s n

/-- Rounds from a to k, modulo 2^16. -/
def roundsPast (a k : Nat) : Nat := (k + 2 ^ 16 - a % 2 ^ 16) % 2 ^ 16

/-- Whether the destination refuses a tile, or a block of it, with REASON 0x3 (R326): ward, queue, rank, round, source chip, TID, bytes of
header and data. -/
def arrivalRefuses (s : State) (w q rank round chip tid total : Nat) : Bool :=
  let n := qidx w q
  let ix := regionIndex s n round rank
  decide (w ≥ wardCount s) || !isArrival s n || decide (rank ≥ fg s WARD_QARR_CFG_NRANK n) ||
  decide (roundsPast (fg s WARD_QARR_STAT_DRAIN_ROUND n) round ≥ fg s WARD_QARR_CFG_WINDOW n) ||
  (arrival s n).slots.any (fun x => x.index == ix && !(x.tid == tid && x.chip == chip)) ||
  decide (total > regionSlot s n) || decide (regionKey s n ix + regionSlot s n > tier1Size)

/-- What block b of a tile writes into its region slot: the header's 16 bytes into the slot's last 256, the data from its start; what a
queue slot cannot hold is not written (R322, R325). -/
def arrivalWrites (s : State) (n ix total b : Nat) (payload : List Byte) : List (Nat × List Byte) :=
  let bs := payload.take (min 256 (total - 256 * b))
  let key := regionKey s n ix
  (if b = 0 then [(key, (bs.drop 16).take (qSlotBytes s n)), (key + qSlotBytes s n, bs.take 16)]
   else [(key + 256 * b - 16, bs.take (qSlotBytes s n - (256 * b - 16)))]).filter (fun p => !p.2.isEmpty)

/-- The writes of a block done; their lines are allocated in the home slice (R325). -/
def writeArrival (s : State) (n ix total b : Nat) (payload : List Byte) : State :=
  (arrivalWrites s n ix total b payload).foldl (fun t p =>
    moverWrite (cacheTouches t true true (txns (p.1 : Int) p.2.length)) false p.1 p.2) s

/-- A poisoned sector that a block would write in part: its write is not performed (11, R292). -/
def arrivalPoison (s : State) (w q rank round total b : Nat) (payload : List Byte) : Option Nat :=
  let n := qidx w q
  (arrivalWrites s n (regionIndex s n round rank) total b payload).findSome? (fun p => partialPoison s p.1 p.2.length)

/-- A block placed: the state, and whether the tile is complete with it. -/
def placeBlock (s : State) (w q rank round chip tid total b : Nat) (home : Option Nat) (payload : List Byte) : State × Bool :=
  let n := qidx w q
  let ix := regionIndex s n round rank
  let need := ceilDiv total 256
  if b ≥ need then (s, false)
  else
    let s1 := writeArrival s n ix total b payload
    let a := arrival s1 n
    let old := (a.slots.find? (fun x => x.index == ix)).getD ⟨ix, round, rank, tid, chip, home, total, []⟩
    let got := if old.got.contains b then old.got else old.got ++ [b]
    let full := got.length == need && !(old.got.contains b)
    let chips := if full then (rank, chip) :: a.chips.filter (fun p => p.1 != rank) else a.chips
    (setArrival s1 n { slots := { old with got := got } :: a.slots.filter (fun x => x.index != ix), chips := chips }, full)

/-- The chip recorded for a rank of an arrival queue, 0xFFFF for none since enable (R334). -/
def rankChip (s : State) (n rank : Nat) : Nat := (((arrival s n).chips.find? (fun p => p.1 == rank)).map Prod.snd).getD 0xFFFF

/-- The complete tile at the drain point. -/
def drainTile (s : State) (n : Nat) : Option ASlot :=
  let k := fg s WARD_QARR_STAT_DRAIN_ROUND n
  let r := fg s WARD_QARR_STAT_DRAIN_RANK n
  (arrival s n).slots.find? (fun x =>
    x.index == regionIndex s n k r && x.round == k && x.rank == r && x.got.length == ceilDiv x.total 256)

/-! ### Windows and releases (R323, R324) -/

/-- The key of a SEND's destination: chip (0xFFFF for this module), ward, queue. -/
def sendDest (s : State) (c : Cmd) : Nat × Nat × Nat :=
  (if isLocal s c.imm then 0xFFFF else chipOf c.imm, bits c.imm 47 41, bits c.imm 39 34)

def windowIs (d : Nat × Nat × Nat) (x : Window) : Bool := x.chip == d.1 && x.ward == d.2.1 && x.queue == d.2.2

/-- Whether a SEND of stream m to a destination has sent a tile and has more to send: its entry stays (DEDUCED, log 39). -/
def sendUses (s : State) (m : Nat) (d : Nat × Nat × Nat) : Bool :=
  (stream s m).cmds.any (fun c => c.opcode == 0x30 && c.phase == .issued && 0 < c.iter && c.iter < unitCount c && sendDest s c == d)

/-- A release of round k from destination d for stream m: NEXT_REL advances; an entry with nothing left unreleased is freed (R324). -/
def releaseIn (s : State) (m : Nat) (d : Nat × Nat × Nat) (k : Nat) : State :=
  let x := stream s m
  match x.windows.find? (windowIs d) with
  | none => s
  | some e =>
    if e.nextRel ≠ k then s
    else
      let e1 := { e with nextRel := (k + 1) % 2 ^ 16, sent := e.sent.filter (· != k) }
      let rest := x.windows.filter (fun y => !windowIs d y)
      setStream s m { x with windows := if e1.sent.isEmpty && !sendUses s m d then rest else rest ++ [e1] }

/-- A release from another chip goes to the first stream whose entry awaits that round (DEDUCED, log 39). -/
def releaseFrom (s : State) (d : Nat × Nat × Nat) (k : Nat) : State :=
  match s.streams.find? (fun p => p.2.windows.any (fun e => windowIs d e && e.nextRel == k && e.sent.contains k)) with
  | some p => releaseIn s p.1 d k
  | none => s

/-- OFFSET of a release: bit 47, round, ward, queue (R323). -/
def releaseOffset (k w q : Nat) : Nat := 2 ^ 47 + k % 2 ^ 16 * 2 ^ 24 + w % 2 ^ 7 * 2 ^ 17 + q % 2 ^ 6 * 2 ^ 11

/-- A release sent to the chip that a tile came from; with no port to it, it is dropped and counted (R327; DESIGN CHOICE, log 42). -/
def sendRelease (s : State) (chip k w q : Nat) : State :=
  match egressPort s chip 0 true with
  | some p => portSend s p { ty := 4, dst := chip, src := ownChip s, slice := ownSlice s, offset := releaseOffset k w q, side := sideWord s p }
  | none => denied s

/-- Waits of the arrival unit for a free slot of its queue (R125). -/
def drainBlocked (s : State) (n : Nat) : Bool := isArrival s n && (drainTile s n).isSome && !qFree s n (queueRt s n).resvPush

/-- The arrival unit moves the tile at the drain point into the queue and advances; the region slot is free and its release goes out
(R327). A tile whose bytes are poisoned, or beyond correction as they are read, does not move (11, R291). -/
def drainStep (s : State) (n : Nat) (err : MemErr) : State :=
  match isArrival s n, drainTile s n with
  | true, some x =>
    let key := regionKey s n x.index
    let len := min (x.total - 16) (qSlotBytes s n)
    let q := queueRt s n
    if !qFree s n q.resvPush || poisoned s key len || poisoned s (key + qSlotBytes s n) 16 then s
    else
      match meetErr s err [(key, len), (key + qSlotBytes s n, 16)] with
      | (s0, some d) => noteUe s0 d 0
      | (s0, none) =>
      let s := cacheTouches s0 false false (txns (key : Int) len)
      let h := hdrOf (memRead s (key + qSlotBytes s n) 16)
      let p := q.resvPush
      let s1 := qPush (setQueue s n { q with resvPush := p + 1 }) n p { h with marks := h.marks % 0x80 + mkValid } (memRead s key len)
      let a := arrival s1 n
      let s2 := setArrival s1 n { a with slots := a.slots.filter (fun y => y.index != x.index) }
      let last := x.rank + 1 ≥ fg s2 WARD_QARR_CFG_NRANK n
      let s3 := fs (fs s2 WARD_QARR_STAT_DRAIN_RANK n (if last then 0 else x.rank + 1)) WARD_QARR_STAT_DRAIN_ROUND n
        (if last then x.round + 1 else x.round)
      let s4 := match x.home with
        | some m => releaseIn s3 m (0xFFFF, n / 64, n % 64) x.round
        | none => sendRelease s3 x.chip x.round (n / 64) (n % 64)
      wakeForPush s4 n (match x.home with
        | some m => classClient s4 m
        | none => fabricClient)
  | _, _ => s

/-- ARRIVAL_DRAIN (13, R327): the arrival unit of queue instance n. -/
def execArrivalDrain (n : Nat) (err : MemErr) (s : State) : Host.Outcome State Fault Refusal := .next (observe (drainStep s n err))

/-! ### SEND (R321, R322, R324) -/

/-- T1 OFFSET of block b of a SEND's tile (R322). -/
def sendOffset (c : Cmd) (k b : Nat) : Nat :=
  bits c.imm 31 24 * 2 ^ 40 + k % 2 ^ 16 * 2 ^ 24 + bits c.imm 47 41 * 2 ^ 17 + bits c.imm 39 34 * 2 ^ 11 + b

/-- The window entry of a destination, taken if it has none and one is free (R324). -/
def windowOf (s : State) (m : Nat) (c : Cmd) : Option (State × Window) :=
  let x := stream s m
  let d := sendDest s c
  match x.windows.find? (windowIs d) with
  | some e => some (s, e)
  | none =>
    if x.windows.length ≥ 16 then none
    else
      let e : Window := ⟨d.1, d.2.1, d.2.2, bits c.imm 15 0, []⟩
      some (setStream s m { x with windows := x.windows ++ [e] }, e)

/-- The round of the tile that a SEND sends next (R321). -/
def sendRound (c : Cmd) : Nat := (bits c.imm 15 0 + c.iter) % 2 ^ 16

/-- Whether a SEND's next tile is held by its window, or for want of a free entry (R324). -/
def windowHolds (s : State) (m : Nat) (c : Cmd) : Bool :=
  match (stream s m).windows.find? (windowIs (sendDest s c)) with
  | some e => decide (roundsPast e.nextRel (sendRound c) ≥ bits c.imm 23 16)
  | none => decide ((stream s m).windows.length ≥ 16)

/-- A tile placed by a sender of the same module: all its blocks at once, or refused (R326). -/
def sendLocal (s : State) (m : Nat) (c : Cmd) (k : Nat) (bs : List Byte) : Got State :=
  let w := bits c.imm 47 41
  let q := bits c.imm 39 34
  let r := bits c.imm 31 24
  let tid := s.nextTid % 2 ^ 16
  if arrivalRefuses s w q r k (ownChip s) tid bs.length then .fault 0x11 (sendOffset c k 0 % 2 ^ 32)
  else
    match (below (ceilDiv bs.length 256)).findSome? (fun b => arrivalPoison s w q r k bs.length b ((bs.drop (256 * b)).take 256)) with
    | some a => .fault 0x12 (ueAt s 2 a)
    | none => .ok ((below (ceilDiv bs.length 256)).foldl (fun t b =>
      (placeBlock t w q r k (ownChip s) tid bs.length b (some m) ((bs.drop (256 * b)).take 256)).1) { s with nextTid := s.nextTid + 1 })

/-- A tile sent to another chip: its SEND_DATA blocks share a TID (R322). -/
def sendRemote (s : State) (m : Nat) (c : Cmd) (k : Nat) (bs : List Byte) : Got State :=
  issueTxn s m c.num 6 (chipOf c.imm) (sendOffset c k 0) bs.length
    ((below (ceilDiv bs.length 256)).map (fun b => (sendOffset c k b, (bs.drop (256 * b)).take 256)))

/-- The next tile of the SEND that a Mover executes: held by its window, or sent and popped. `held` tells the two rows apart: the tile that
SEND found held goes out by SEND_TILE_TRANSMIT. -/
def sendStep (s : State) (w unit : Nat) (held : Bool) : State :=
  match jobOf s w (6 + unit % 2) 0x30 with
  | none => s
  | some (m, c) =>
    if (c.aux == 1) != held then s
    else
      match readIn s w c 0 (endOffset c 0 ((nth (units c) c.iter []).headD [])) with
      | .wait => s
      | .fault code d => execFault s m c code d
      | .ok (h, bs) =>
        if windowHolds s m c then setCmd s m { c with aux := 1 }
        else
          match windowOf s m c with
          | none => s
          | some (s1, e) =>
            let k := sendRound c
            let tile := h.bytes ++ padTo (dTileBytes c.desc) 0 bs
            match (if isLocal s c.imm then sendLocal s1 m c k tile else sendRemote s1 m c k tile) with
            | .wait => s1
            | .fault code d => execFault (if code = 0x15 then denied s1 else s1) m c code d
            | .ok s2 =>
              let x := stream s2 m
              let e1 := { e with sent := if e.sent.contains k then e.sent else e.sent ++ [k] }
              let s3 := setStream s2 m { x with windows := x.windows.filter (fun y => !windowIs (sendDest s c) y) ++ [e1] }
              unitDone s3 m w { c with aux := 0 }

/-- SEND (13, R321): one tile of the SEND that a Mover executes. -/
def execSend (ward unit : Nat) (err : MemErr) (s : State) : Host.Outcome State Fault Refusal :=
  .next (observe (withErr s ward (6 + unit % 2) 0x30 err (fun _ => []) (fun t => sendStep t ward unit false)))

/-- SEND_TILE_TRANSMIT (13, R324): the tile that its window held goes out. -/
def execSendTileTransmit (ward unit : Nat) (s : State) : Host.Outcome State Fault Refusal := .next (observe (sendStep s ward unit true))

/-! ### REDUCE (R329 to R331) -/

/-- The NRANK contributions of a round, in rank order. -/
def readRound (s : State) (w n base : Nat) : Nat → Got (List (Hdr × List Byte))
  | 0 => .ok []
  | k + 1 =>
    (readRound s w n base k).bind (fun ts => (readTile s n (base + k)).bind (fun t =>
      if isNarrow t.1.fmt || isWide t.1.fmt then .ok (ts ++ [t]) else .fault 0x19 (t.1.fmt * 2 ^ 16 + w * 2 ^ 8 + n % 64)))

/-- reduce_element of R330. -/
def reduceElem (xs : List (Nat × Ev)) : Nat × Ev :=
  match xs with
  | [] => (0, {})
  | x :: rest =>
    rest.foldl (fun (a : Nat × Ev) y =>
      let r := toFp32 ((ofFp32 a.1).1.add (ofFp32 y.1).1)
      (r.1, a.2.add (y.2.add r.2))) x

/-- A contribution's element: +0 outside its extent; FP32 infinities are read as the largest finite value (R330; 02, R38). -/
def contribution (h : Hdr) (t : Tile) (i j : Nat) : Nat × Ev :=
  if i < h.rows ∧ j < h.cols then
    let e := t.elem i j
    let r := ofFp32 e.1
    ((toFp32 r.1).1, e.2.add r.2)
  else (0, {})

/-- One round of the REDUCE that a ward's share of the district unit executes. -/
def reduceStep (s : State) (w : Nat) : State :=
  match jobOf s w 9 0x31 with
  | none => s
  | some (m, c) =>
    let nr := bits c.imm 7 0
    let v := (nth (units c) c.iter []).headD []
    let base := nth c.inBase 0 0 + (inOffset c.desc 0 v).toNat * nr
    if isDark s (outWard w (c.out 0)) then execFault s m c 0x14 (outWard w (c.out 0))
    else if !canPush s w c 0 1 then s
    else
      match readRound s w (inQ w c 0) base nr with
      | .wait => s
      | .fault code d => execFault s m c code d
      | .ok ts =>
        let tiles := ts.map (fun t => (t.1, decodeTile t.1.fmt t.2))
        let els := (below 16384).map (fun k => reduceElem (tiles.map (fun t => contribution t.1 t.2 (k / 128) (k % 128))))
        let h0 := (ts.headD ({}, [])).1
        let h : Hdr := { rowLen := h0.rowLen, fmt := fFp32, rows := maxNat (ts.map (fun t => t.1.rows)), cols := maxNat (ts.map (fun t => t.1.cols))
                         elemBase := h0.elemBase, marks := if h0.transposed then mkTransposed else 0 }
        let s1 := countDist s (districtOf s w) c.step (sumEv (els.map Prod.snd))
        let s2 := countReserved s1 w c.step (sumNat (tiles.map (fun t => t.2.reservedCodes)))
        let (s3, c1) := pushOut s2 m w c 0 h (encodeWideTile fFp32 (chunks 128 (els.map Prod.fst)))
        unitDone s3 m w c1

/-- REDUCE (13, R330): one round of the REDUCE that the ward's share of the district unit executes. -/
def execReduce (ward : Nat) (err : MemErr) (s : State) : Host.Outcome State Fault Refusal :=
  .next (observe (withErr s ward 9 0x31 err (fun _ => []) (fun t => reduceStep t ward)))

/-- COLL_CLEAR (13, R335): a write of 1 to CLEAR of MOD_COLL_CTL. -/
def execCollClear (s : State) : Host.Outcome State Fault Refusal := .next (clearStragglers s)

/-! ### Wait units (05, R125; 11, R290; 13, R334) -/

/-- The issued Mover command that is due to push tile p of queue n, with its stream instance. -/
def moverFor (s : State) (n p : Nat) : Option (Nat × Cmd) :=
  s.streams.findSome? (fun x => (x.2.cmds.find? (fun c =>
    c.phase == .issued && isMover c.opcode && (below 2).any (fun e => outPresent (c.out e) && outQ (x.1 / 8) c e == n &&
      decide (nth c.outBase e 0 ≤ p) && decide (p < nth c.outBase e 0 + nth c.outRes e 0)))).map (fun c => (x.1, c)))

/-- The cause of a wait for tile p of queue n, 0 for none: the Mover command due to push it has a transaction outstanding, one to another chip,
or, as `charges` gives it by queue, one of this module's while the command executes (11, R290; DESIGN CHOICE, log 30). Causes: 1 stack thermal
limit, 2 ECC correction, 3 link retry, 4 fabric, 5 Tier 2, 6 Tier 1. -/
def waitCause (s : State) (n p : Nat) (charges : List (Nat × Nat)) : Nat :=
  match moverFor s n p with
  | none => 0
  | some (m, c) =>
    let given := ((charges.find? (fun x => x.1 == n)).map Prod.snd).getD 0
    if !(cmdTxns s m c.num).isEmpty then (if 1 ≤ given ∧ given ≤ 3 then given else 4)
    else if executing s (m / 8) m c && given != 4 then given
    else 0

def chargeCause (s : State) (w cause : Nat) : State :=
  match cause with
  | 1 => bump s WARD_STALL_ERR_THERMAL w 1
  | 2 => bump s WARD_STALL_ERR_ECC w 1
  | 3 => bump s WARD_STALL_NET_RETRY w 1
  | 4 => bump s WARD_STALL_NET_FABRIC w 1
  | 5 => bump s WARD_STALL_MEM_T2 w 1
  | 6 => bump s WARD_STALL_MEM_T1 w 1
  | _ => s

/-- A consumer's wait for tile p of queue n at a boundary; on an arrival queue whose drain point tile is incomplete it is also an arrival
wait, charged to the chip recorded for the rank at the drain point (13, R334). -/
def chargeEmpty (s : State) (w n p tag : Nat) (charges : List (Nat × Nat)) : State :=
  let s1 := chargeCause (bump s WARD_QWAIT_EMPTY n 1) w (waitCause s n p charges)
  if isArrival s1 n && (drainTile s1 n).isNone then
    let chip := rankChip s1 n (fg s1 WARD_QARR_STAT_DRAIN_RANK n)
    collLast (chargeChip (bump s1 MOD_COLL_WAIT_ARR_UNITS 0 1) chip) tag chip
  else s1

/-- What engine e of a ward waits for at a boundary: every full output and every empty input (05, R125). -/
def chargeEngine (s : State) (w e : Nat) (charges : List (Nat × Nat)) : State :=
  match job s w e with
  | none => s
  | some (m, c) =>
    if c.opcode = 0x30 ∧ c.aux = 1 ∧ windowHolds s m c then
      let chip := if isLocal s c.imm then ownChip s else chipOf c.imm
      collLast (chargeChip (bump s MOD_COLL_WAIT_WIN_UNITS 0 1) chip) c.tag chip
    else
      (waitsIn s w c).foldl (fun t p => chargeEmpty t w p.1 p.2 c.tag charges)
        ((waitsOut s w c).foldl (fun t n => bump t WARD_QWAIT_FULL n 1) s)

/-- A stream's wait on an EXT flag at a boundary (13, R334). -/
def chargeFlag (s : State) (m : Nat) : State :=
  match (stream s m).st, nextLoaded (stream s m) with
  | .enabled, some c => if waitsExt s m then collLast (bump s MOD_COLL_WAIT_FLAG_UNITS 0 1) c.tag 0xFFFF else s
  | _, _ => s

/-- WAIT_UNIT_BOUNDARY (05, R125): a boundary of 1,024 core clocks of a ward; the charges give the cause of waits of local transactions by
queue (DESIGN CHOICE, log 30). A ward's count runs while its clocks are not stopped: in IDLE and NAP too, where waits stand (17, R416, R424;
DEDUCED, log 30). -/
def execWaitUnitBoundary (ward : Nat) (charges : List (Nat × Nat)) (s : State) : Host.Outcome State Fault Refusal :=
  .next (if ward < wardCount s && decide ((pward s (physOf s ward)).st ≤ 2) then
      (let s1 := (below 10).foldl (fun t e => chargeEngine t ward e charges) s
       let s2 := (wardStreams ward).foldl chargeFlag s1
       (rangeFrom (64 * ward) 64).foldl (fun t n => if drainBlocked t n then bump t WARD_QWAIT_FULL n 1 else t) s2)
    else s)

end Sys2Proof.Machine
end

