-- ==== Sys2Proof/Machine/Fabric.lean ====
section
/-!
DEFINITION. Blocks received on the ports and the ports' own events (12_fabric.md): link acceptance and retry, the ingress checks and the
answers, hello, versions and bring-up, wavelengths, and ports that go down and return.
-/

namespace Sys2Proof.Machine

/-! ### Ports and boards (R306, R307, R310) -/

/-- The strap of an 8-module board at a position of 8 or more (R306). -/
def boardBad (b : Nat) : Bool := bit b 4 && bit b 3

/-- i(a, b) of R307. -/
def peerIndex (a b : Nat) : Nat := if b < a then b else b - 1

/-- The class of port p on a board: 0 PEER, 1 UP, 2 SERVICE, 3 NONE (R306, R307). -/
def portClass (board p : Nat) : Nat :=
  if boardBad board then 3
  else if bit board 4 then (if p < 14 then 0 else 1)
  else if p < 15 then 0 else if p < 27 then 1 else 2

/-- The position that a PEER port is wired to (R307). -/
def peerAt (board p : Nat) : Nat :=
  let a := board % 16
  let i := if bit board 4 then p / 2 else p
  if i < a then i else i + 1

/-- The port of the module at position b that is wired to port p of this module (R307, R310). -/
def peerPort (board p : Nat) : Nat :=
  let i := peerIndex (peerAt board p) (board % 16)
  if bit board 4 then 2 * i + p % 2 else i

/-- Whether a neighbour's hello fits the wiring (R310): node kind, board, port. -/
def wireOk (board p kind nbBoard nbPort : Nat) : Bool :=
  match portClass board p with
  | 0 => kind == 0 && (bit nbBoard 4 == bit board 4) && nbBoard % 16 == peerAt board p && nbPort == peerPort board p
  | 1 => kind == 1
  | _ => false

/-! ### The hello message (R308) -/

/-- The hello that a module sends on port p. -/
def helloBytes (s : State) (p : Nat) : List Byte :=
  let chip := if fg s FAB_CHIP_VALID 0 = 1 then fg s FAB_CHIP_CHIP 0 else 0xFFFF
  padTo 256 0 (toBytesLE 2 1 ++ toBytesLE 1 0 ++ toBytesLE 1 p ++ toBytesLE 8 s.fuses.identity ++ toBytesLE 1 (s.board % 32) ++
    toBytesLE 1 (fg s MOD_NUMERICS_LEVEL 0) ++ toBytesLE 1 2 ++ toBytesLE 1 3 ++ toBytesLE 1 2 ++ toBytesLE 1 3 ++ toBytesLE 1 2 ++
    toBytesLE 1 s.fuses.grade ++ toBytesLE 2 chip ++ toBytesLE 2 (fg s FAB_SLICE_ID 0) ++ toBytesLE 4 (runningBank s).rev ++
    toBytesLE 1 (b2n s.fuses.attest) ++ toBytesLE 1 s.fuses.stepping)

def helloField (bs : List Byte) (at' n : Nat) : Nat := ofBytesLE ((bs.drop at').take n)

/-- A hello recorded: each is compared with the wiring; the first one is recorded whole; a later one that names another identity or port sets
NBR_CHANGED, of which only its being the own one, a loopback, is recorded, and is otherwise last reported (R309 to R311; DEDUCED, log 43). -/
def recordHello (s : State) (p : Nat) (bs : List Byte) : State :=
  let ident := helloField bs 4 8
  let own := ident == s.fuses.identity
  let kind := if own then 2 else helloField bs 2 1
  let board := helloField bs 12 1 % 32
  let pt := helloField bs 3 1
  let x := port s p
  let same := (rd s FAB_NBR_ID_LO p).toNat == ident % 2 ^ 32 && (rd s FAB_NBR_ID_HI p).toNat == ident / 2 ^ 32 && fg s FAB_NBR_INFO_PORT p == pt
  let s := fs s FAB_PORT_STATUS_WIRE_OK p (b2n (wireOk s.board p kind board pt))
  if x.known && !same then
    let s1 := fs s FAB_PORT_STATUS_NBR_CHANGED p 1
    if own then fs s1 FAB_NBR_INFO_NODE_KIND p 2 else s1
  else
    let info := pt * 2 ^ 24 + min kind 7 * 2 ^ 21 + board * 2 ^ 16 + helloField bs 15 1 % 16 * 2 ^ 12 + helloField bs 14 1 % 16 * 2 ^ 8 + helloField bs 13 1
    let s1 := wr (wr s FAB_NBR_ID_LO p (BitVec.ofNat 32 ident)) FAB_NBR_ID_HI p (BitVec.ofNat 32 (ident / 2 ^ 32))
    let s2 := wr s1 FAB_NBR_INFO p (BitVec.ofNat 32 info)
    let s3 := wr s2 FAB_NBR_CHIP p (BitVec.ofNat 32 (helloField bs 22 2 % 2 ^ 12 * 2 ^ 16 + helloField bs 20 2))
    setPort s3 p { port s3 p with known := true }

/-! ### Bring-up of a port (R311, R312, R314) -/

/-- Optical training starts afresh; the neighbour record stays (R303, R312). -/
def startTraining (s : State) (p : Nat) : State :=
  let x := port s p
  let s1 := setPort s p { step := 1, known := x.known, tries := x.tries }
  let word := (fg s1 FAB_PORT_STATUS_NBR_CHANGED p) * 2 ^ 28 + (fg s1 FAB_PORT_STATUS_WIRE_OK p) * 2 ^ 27 + fg s1 FAB_PORT_STATUS_CLASS p * 2 ^ 25
  wr s1 FAB_PORT_STATUS p (BitVec.ofNat 32 (2 ^ 29 + word))

/-- Stage 12 of the bring-up (20, R489) is the link stage. -/
def linkStage : Nat := 12

/-- Discovery ends when every port is UP, DEGRADED, HELD, DARK or DOWN: the link stage of a bring-up then raises its event (R312; 18, R453:
the port state word's layout is not given). -/
def discoveryEnd (s : State) : State :=
  let final := fun p => 2 ≤ portState s p && portState s p ≤ 6
  if s.mc.stages.contains linkStage && !(s.mc.reported) && (below 28).all final then
    let (v, s1) := fresh s
    raiseEvent { s1 with mc := { s1.mc with reported := true } } 0x000A 0 ((below 28).filter (fun p => portState s p == 3)).length v 0
  else s

/-- The port carries traffic, UP or DEGRADED, or is HELD for a neighbour that has changed (R311, R312). -/
def portReady (s : State) (p : Nat) : State :=
  let st := if fg s FAB_PORT_STATUS_NBR_CHANGED p = 1 then 5 else if fg s FAB_PORT_STATUS_LANES_FAILED p ≥ 2 then 4 else 3
  discoveryEnd (setPortState (setPort s p { port s p with step := 0, tries := 0, frames := 0 }) p st)

/-- A bring-up that gets no lock or no hello (R312): the port is DARK; where it was an attempt of a DOWN port, the port is DOWN again (R303). -/
def portDark (s : State) (p : Nat) : State :=
  let x := port s p
  discoveryEnd (setPortState (setPort s p { known := x.known, tries := x.tries }) p (if x.tries > 0 then 6 else 2))

def sendHello (s : State) (p : Nat) : State := portSend s p { ty := 8, payload := helloBytes s p }

/-- The fourth step: a hello in the negotiated version (R312). -/
def helloStep (s : State) (p ver : Nat) : State :=
  let s1 := fs (fs s FAB_PORT_STATUS_LINK_VER p ver) FAB_PORT_STATUS_V2 p (b2n (ver == 2))
  let x := port s1 p
  let y := if ver = 3 then { x with txSeq := 0, rxSeq := 0, retry := [], waiting := [] } else { x with retry := [], waiting := [] }
  sendHello (setPort s1 p { y with step := 4, heard := false }) p

/-- Negotiation once both hellos are through (R314): version 3 by SWITCH, version 2, or DOWN for good (DESIGN CHOICE, log 47). -/
def negotiate (s : State) (p : Nat) : State :=
  let x := port s p
  let common := min 3 x.nbrMax
  if common < 2 ∨ common < x.nbrMin then
    discoveryEnd (setPortState (setPort s p { known := x.known, tries := 8 }) p 6)
  else if common = 3 then
    (let s1 := portSend (setPort s p { x with step := 3 }) p { ty := 0xA }
     if x.switched then helloStep s1 p 3 else s1)
  else helloStep s p 2

/-- A bring-up step that has what it waits for goes on: a hello received and the own one acknowledged (R312). -/
def advancePort (s : State) (p : Nat) : State :=
  let x := port s p
  let acked := !(x.retry.any (fun h => h.block.ty == 8))
  if x.step = 2 ∧ x.heard ∧ acked then negotiate s p
  else if x.step = 4 ∧ x.heard ∧ acked then portReady s p
  else s

/-! ### The link layer (R299, R302, R303) -/

/-- A port that exchanges blocks: past optical training and not dark, off or down. -/
def linkLive (s : State) (p : Nat) : Bool :=
  p < 28 && ((portState s p == 1 && (port s p).step ≥ 2) || (3 ≤ portState s p && portState s p ≤ 5))

/-- ACK frees the blocks before it in the retry buffer (R302). -/
def takeAck (s : State) (p : Nat) (ack : Option Nat) : State :=
  match ack with
  | none => s
  | some a =>
    let x := port s p
    let before := fun (h : Held) => let d := (a + 2 ^ 20 - h.seq % 2 ^ 20) % 2 ^ 20; decide (0 < d) && decide (d ≤ 2 ^ 19)
    advancePort (setPort s p (drainPort { x with retry := x.retry.filter (fun h => !before h) })) p

/-- A discarded block: one RETRY_REQ names the number expected (R302). -/
def askResend (s : State) (p : Nat) : State := setPort s p { port s p with asked := some (port s p).rxSeq }

/-- A sequenced block taken or discarded by its SEQ (R302); a block that has arrived breaks the module's quiet (06, R166). -/
def takeBlock (s : State) (b : RxBlock) : State × Bool :=
  if !linkLive s b.port then (s, false)
  else if b.seq ≠ (port s b.port).rxSeq then (if (port s b.port).asked.isSome then s else askResend s b.port, false)
  else
    let x := port s b.port
    let s := bump { s with quiet := none, stalled := false } FAB_PORT_FEC_CORRECTED b.port b.corrected
    (takeAck (setPort s b.port { x with rxSeq := (x.rxSeq + 1) % 2 ^ 20, asked := none }) b.port b.ack, true)

/-- IDLE (R301, R302): it takes no SEQ; its ACK counts. -/
def execIdle (b : RxBlock) (s : State) : Host.Outcome State Fault Refusal :=
  .next (if linkLive s b.port then takeAck (bump s FAB_PORT_FEC_CORRECTED b.port b.corrected) b.port b.ack else s)

/-- Every block from a number on resent; one that has failed 8 transmissions takes the port DOWN (R302, R303). -/
def resend (s : State) (p from' : Nat) : State :=
  let x := port s p
  let s1 := takeAck s p (some from')
  let y := port s1 p
  if x.retry.isEmpty || y.retry.isEmpty then s1
  else if y.retry.any (fun h => h.sends ≥ 8) then portDown s1 p
  else
    bump (setPort s1 p { y with retry := y.retry.map (fun h => { h with sends := h.sends + 1, ack := y.rxSeq }) }) FAB_PORT_RETRY_RESENT p y.retry.length

/-- RETRY_REQ (R302): resend from the number in ACK. -/
def execRetryReq (b : RxBlock) (s : State) : Host.Outcome State Fault Refusal :=
  .next (match b.ack with
    | some a => if linkLive s b.port then observe (discoveryEnd (resend s b.port (a % 2 ^ 20))) else s
    | none => s)

/-- Whether a port still uses the framing of version 2, which the spec does not give: until SWITCH (R313, R314). -/
def framingV2 (s : State) (p : Nat) : Bool := isV2 s p || ((port s p).step != 0 && (port s p).step < 4)

/-- What a received block's bytes are worth (R300 to R302): 0 for one to discard for its CRC, a byte in a marked codeword or a reserved TYPE;
1 for one to discard for its SEQ; 2 for a good one. On a link in the framing of version 2 the row itself says that the CRC failed
(DESIGN CHOICE, log 45). -/
def blockVerdict (s : State) (p : Nat) (bytes : List Byte) (marked : Bool) : Nat :=
  if marked || framingV2 s p then 0
  else
    match parseBlock p bytes with
    | none => 0
    | some (ty, b) => if ty = 0 ∨ ty = 7 ∨ b.seq = (port s p).rxSeq then 2 else 1

/-- LINK_BLOCK_REJECT (R300 to R302): the bytes of a block received on port p, `marked` where one of them lies in an uncorrectable codeword,
are discarded and a RETRY_REQ is sent, unless the block is a good one; uncorr counts the uncorrectable codewords met. -/
def execLinkBlockReject (p : Nat) (bytes : List Byte) (marked : Bool) (uncorr : Nat) (s : State) : Host.Outcome State Fault Refusal :=
  .next (if linkLive s p then
      (let s1 := bump s FAB_PORT_FEC_UNCORR p uncorr
       match blockVerdict s p bytes marked with
       | 0 => askResend (bump s1 FAB_PORT_RETRY_CRC_FAIL p 1) p
       | 1 => askResend s1 p
       | _ => s1)
    else s)

/-- A wavelength fails (R299): the spare takes a data wavelength's place through LANE_SWAP; a second failure leaves the port DEGRADED, a
third takes it DOWN. -/
def waveFail (s : State) (p wave : Nat) : State :=
  let x := port s p
  if wave ≥ 9 ∨ x.lost.contains wave then s
  else
    let n := min 3 (fg s FAB_PORT_STATUS_LANES_FAILED p + 1)
    let ok := fg s FAB_PORT_STATUS_LANE_OK p
    let s1 := fs (fs s FAB_PORT_STATUS_LANES_FAILED p n) FAB_PORT_STATUS_LANE_OK p (if bit ok wave then ok - 2 ^ wave else ok)
    let y := { x with lost := x.lost ++ [wave] }
    if n ≥ 3 then portDown (setPort s1 p y) p
    else if wave = x.spare then setPort s1 p { y with spare := 9 }
    else if n = 1 ∧ x.spare < 9 then
      setPort s1 p (drainPort { y with spare := 9, swapping := true, waiting := { ty := 9 } :: y.waiting })
    else if portState s1 p = 3 then setPortState (setPort s1 p y) p 4
    else setPort s1 p y

/-- WAVELENGTH_FAIL (R299): wavelength `wave` of port p loses lock or has too many uncorrectable codewords; uncorr counts them. -/
def execWavelengthFail (p wave uncorr : Nat) (s : State) : Host.Outcome State Fault Refusal :=
  .next (if linkLive s p then observe (discoveryEnd (waveFail (bump s FAB_PORT_FEC_UNCORR p uncorr) p wave)) else s)

/-- LANE_SWAP (R299): the other end's part of the exchange completes a swap begun here; else the other end has found wavelength `wave` failed,
and it is swapped here too. -/
def execLaneSwap (b : RxBlock) (wave : Nat) (s : State) : Host.Outcome State Fault Refusal :=
  .next (match takeBlock s b with
    | (s1, false) => s1
    | (s1, true) =>
      let x := port s1 b.port
      if x.swapping then observe (setPort s1 b.port (drainPort { x with swapping := false }))
      else
        let s2 := waveFail s1 b.port wave
        observe (discoveryEnd (setPort s2 b.port (drainPort { port s2 b.port with swapping := false }))))

/-- ACK_TIMEOUT (R303): ACK has made no progress for 64 µs while blocks wait for it. -/
def execAckTimeout (p : Nat) (s : State) : Host.Outcome State Fault Refusal :=
  .next (if linkLive s p && !(port s p).retry.isEmpty then observe (discoveryEnd (portDown s p)) else s)

/-- PORT_RETRAIN (R303): a DOWN port retrains, one frame after it went DOWN, for up to 8 attempts, under the calibration budget. -/
def execPortRetrain (p energy : Nat) (s : State) : Host.Outcome State Fault Refusal :=
  let x := port s p
  .next (if p < 28 ∧ portState s p = 6 ∧ x.frames ≥ 1 ∧ x.tries < 8 then
      withBudget s actCalib 0 0 energy (fun t => startTraining (setPort t p { port t p with tries := x.tries + 1 }) p)
    else s)

/-- A restart asked for by a packet (R303; 18, PORT_RESET). -/
def portRestart (s : State) (p : Nat) : State :=
  if p < 28 ∧ portState s p = 6 then startTraining (setPort s p { port s p with tries := 0 }) p else s

/-! ### Bring-up events (R312, R314) -/

/-- PORT_TRAINING_END (R312): FEC lock stands on the wavelengths of a mask; on fewer than 7 the port is DARK. With all 9 locked the highest
stands spare (DESIGN CHOICE, log 44). -/
def execPortTrainingEnd (p lanes : Nat) (s : State) : Host.Outcome State Fault Refusal :=
  let ok := (below 9).filter (fun k => bit lanes k)
  .next (if p ≥ 28 ∨ (port s p).step ≠ 1 ∨ portState s p ≠ 1 then s
    else if ok.length < 7 then portDark s p
    else
      let bad := (below 9).filter (fun k => !bit lanes k)
      let s1 := fs (fs s FAB_PORT_STATUS_LANES_FAILED p bad.length) FAB_PORT_STATUS_LANE_OK p (lanes % 512)
      sendHello (setPort s1 p { port s1 p with step := 2, lost := bad, spare := if bad.isEmpty then 8 else 9 }) p)

/-- HELLO (R308 to R314). -/
def execHello (b : RxBlock) (s : State) : Host.Outcome State Fault Refusal :=
  .next (match takeBlock s b with
    | (s1, false) => s1
    | (s1, true) =>
      let s2 := recordHello s1 b.port b.payload
      let x := port s2 b.port
      let s3 := setPort s2 b.port { x with heard := true, nbrMax := helloField b.payload 15 1, nbrMin := helloField b.payload 14 1 }
      let s4 := if fg s3 FAB_PORT_STATUS_NBR_CHANGED b.port = 1 ∧ (portState s3 b.port = 3 ∨ portState s3 b.port = 4) then setPortState s3 b.port 5 else s3
      advancePort s4 b.port)

/-- SWITCH (R314): the next block goes in version 3 framing, SEQ from 0. -/
def execSwitch (b : RxBlock) (s : State) : Host.Outcome State Fault Refusal :=
  .next (match takeBlock s b with
    | (s1, false) => s1
    | (s1, true) =>
      let x := port s1 b.port
      if x.step = 3 then helloStep s1 b.port 3
      else if x.step = 2 then setPort s1 b.port { x with switched := true }
      else s1)

/-- HELLO_TIMEOUT (R312): no hello by the end of step 2. -/
def execHelloTimeout (p : Nat) (s : State) : Host.Outcome State Fault Refusal :=
  .next (if p < 28 ∧ (port s p).step = 2 then portDark s p else s)

/-- SWITCH_TIMEOUT (R314): a SWITCH unanswered after 1 ms leaves the link in version 2. -/
def execSwitchTimeout (p : Nat) (s : State) : Host.Outcome State Fault Refusal :=
  .next (if p < 28 ∧ (port s p).step = 3 then helloStep s p 2 else s)

/-- DARK_PORT_RETRY (R312): a DARK port tries again once every 1,024 frames, under the calibration budget. -/
def execDarkPortRetry (p energy : Nat) (s : State) : Host.Outcome State Fault Refusal :=
  .next (if p < 28 ∧ portState s p = 2 ∧ (port s p).frames ≥ 1024 then withBudget s actCalib 0 0 energy (fun t => startTraining t p) else s)

/-- A frame pulse ages DARK and DOWN ports and every outstanding transaction (R303, R304, R312). -/
def ageFabric (s : State) : State :=
  let s1 := (below 28).foldl (fun t p =>
    if portState t p = 2 ∨ portState t p = 6 then setPort t p { port t p with frames := min 1024 ((port t p).frames + 1) } else t) s
  { s1 with txns := s1.txns.map (fun x => { x with age := x.age + 1 }) }

/-! ### Ingress (R305, R315, R316, R319) -/

/-- A refusal given: counted, recorded, returned (R305). -/
def refuseTxn (s : State) (b : RxBlock) (reason : Nat) : State :=
  let s1 := bump s (if reason = 1 ∨ reason = 2 ∨ reason = 5 then FAB_REFUSE_SLICE_REFUSED else FAB_REFUSE_OTHER_REFUSED) 0 1
  let s2 := wr s1 FAB_LAST_REFUSAL 0 (BitVec.ofNat 32 (reason % 16 * 2 ^ 28 + b.src % 2 ^ 16))
  sendCompletion s2 b.port b.src b.tid reason

/-- The slice that a transaction carries, that of the port's register on a version 2 link (R315). -/
def sliceOf (s : State) (b : RxBlock) : Nat := if isV2 s b.port then fg s FAB_PORT_V2_SLICE b.port else b.slice

/-- The slice checks in the order of the table: 0x5, 0x1, 0x2 (R319). -/
def sliceCheck (s : State) (b : RxBlock) : Option Nat :=
  if fg s FAB_CHIP_VALID 0 = 0 ∨ ownSlice s = 0 then some 5
  else if sliceOf s b ≠ ownSlice s then some 1
  else if routeTo s b.src FAB_ROUTE_VALID = 0 ∨ routeTo s b.src FAB_ROUTE_ALLOW = 0 then some 2
  else none

/-- A block for this module on a port that carries transactions: its sideband word is heard; misrouted ones are counted (R305; 13, R335) (DEDUCED, log 45). -/
def takeTxnBlock (s : State) (b : RxBlock) : State × Bool :=
  match takeBlock s b with
  | (s1, false) => (s1, false)
  | (s1, true) =>
    if !portUsable s1 b.port then (s1, false)
    else if fg s1 FAB_CHIP_VALID 0 = 1 ∧ b.dst ≠ ownChip s1 then (bump s1 FAB_DROP_MISROUTED 0 1, false)
    else (if isV2 s1 b.port then s1 else hearPace s1 b.src b.side, true)

/-- A transaction that reaches the module: refused by slice, or handed on (R319). -/
def ingress (s : State) (b : RxBlock) (go : State → State) : State :=
  match takeTxnBlock s b with
  | (s1, false) => s1
  | (s1, true) =>
    match sliceCheck s1 b with
    | some r => refuseTxn s1 b r
    | none => go s1

/-- A refusal for a cause that no REASON names, a poisoned sector at the destination: some reason of the table (DESIGN CHOICE, log 40). -/
def refuseOpen (s : State) (b : RxBlock) : State := let (v, s1) := fresh s; refuseTxn s1 b (1 + v % 7)

/-- The registers of 12 written by packet alone (R317): a change from the bus is refused. -/
def packetOnly : List Reg := [FAB_CHIP, FAB_SLICE, FAB_ROUTE, FAB_PORT_V2]
def packetFields (r : Reg) : List Fld :=
  if r = FAB_CHIP then [FAB_CHIP_VALID, FAB_CHIP_CHIP] else if r = FAB_SLICE then [FAB_SLICE_ID]
  else if r = FAB_ROUTE then [FAB_ROUTE_VALID, FAB_ROUTE_ALLOW, FAB_ROUTE_PORTS] else [FAB_PORT_V2_SLICE]

/-- A fabric WRITE into the control space, which the region table refuses, sets WRITE_REFUSED where it would change a packet-written
register (R317). -/
def notePacketOnly (s : State) (off : Nat) (bs : List Byte) : State :=
  let hit := (below (bs.length / 4)).any (fun j =>
    match regAt (off + 4 * j - ctrlBase) with
    | some (r, i) => packetOnly.contains r && changes s i (BitVec.ofNat 32 (ofBytesLE ((bs.drop (4 * j)).take 4))) (packetFields r)
    | none => false)
  if ctrlBase ≤ off ∧ off % 4 = 0 ∧ hit then fs s FAB_CHIP_WRITE_REFUSED 0 1 else s

/-- A remote write performed, or refused (R305; 11, R267, R268, R292). -/
def remoteWrite (s : State) (b : RxBlock) (err : MemErr) : State :=
  match writeTxns (cacheTouches s false false [((b.offset : Int), b.payload.length)]) false err (b.offset : Int) b.payload [((b.offset : Int), b.payload.length)] with
  | (s1, .ok _) => sendCompletion s1 b.port b.src b.tid 0
  | (s1, .wait) => s1
  | (_, .fault 0x11 _) => refuseTxn (notePacketOnly s b.offset b.payload) b 3
  | (s1, .fault _ d) => refuseOpen (noteUe s1 d 0) b

/-- WRITE (R305; 11, R267): the payload's length is the write's (DESIGN CHOICE, log 32); err is what its own access meets. -/
def execWrite (b : RxBlock) (err : MemErr) (s : State) : Host.Outcome State Fault Refusal :=
  .next (observe (ingress s b (fun t => if b.payload.length ≤ 256 then remoteWrite t b err else refuseTxn t b 3)))

/-- A remote read answered, or refused (R305; 10, R252; 11, R267, R273, R291). -/
def remoteRead (s : State) (b : RxBlock) (len : Nat) (err : MemErr) : State :=
  let off : Int := (b.offset : Int)
  let t2 := decide (tier2Base ≤ b.offset) && decide (b.offset + len ≤ tier2Base + tier2Size)
  if t2 && (slotHolding s 2 (off - (tier2Base : Int)) (off + (len : Int) - (tier2Base : Int))).isNone then refuseTxn s b 4
  else
    match readTxn s true true off (off, len), meetErr s err [(b.offset, len)] with
    | .ok bs, (s1, none) =>
      let s2 := cacheTouches s1 true false [(off, len)]
      portSend s2 b.port { ty := 3, dst := b.src, src := ownChip s, slice := ownSlice s, tid := b.tid, offset := b.offset, side := sideWord s b.port, payload := bs }
    | .ok _, (s1, some d) => refuseOpen (noteUe s1 d 0) b
    | .wait, _ => s
    | .fault 0x11 _, _ => refuseTxn s b 3
    | .fault _ d, _ => refuseOpen (noteUe s d 0) b

/-- READ_REQ (R305): len bytes (DESIGN CHOICE, log 32); err is what its own access meets. -/
def execReadReq (b : RxBlock) (len : Nat) (err : MemErr) (s : State) : Host.Outcome State Fault Refusal :=
  .next (observe (ingress s b (fun t => if len ≤ 256 then remoteRead t b len err else refuseTxn t b 3)))

/-- A remote signal applied, or refused with REMOTE_REFUSED set where the flag exists (06, R163). -/
def remoteFlag (s : State) (b : RxBlock) : State :=
  let w := bits b.offset 14 8
  let n := flagIdx w (bits b.offset 7 0)
  let refuse := fun (t : State) (r : Nat) => refuseTxn (if w < wardCount t then fs t WARD_FCFG_REMOTE_REFUSED n 1 else t) b r
  match sliceCheck s b with
  | some r => refuse s r
  | none =>
    if w ≥ wardCount s ∨ isDark s w ∨ fg s WARD_FCFG_EXT n = 0 then refuse s 6
    else sendCompletion (flagSignal s n (bits b.offset 23 16) fabricClient) b.port b.src b.tid 0

/-- SIGNAL_BLOCK (06, R163). -/
def execSignalBlock (b : RxBlock) (s : State) : Host.Outcome State Fault Refusal :=
  .next (match takeTxnBlock s b with
    | (s1, false) => s1
    | (s1, true) => observe (remoteFlag s1 b))

/-- A block of a tile placed, or refused; the tile's last block is acknowledged (13, R323, R326). -/
def remoteTile (s : State) (b : RxBlock) (total : Nat) : State :=
  let w := bits b.offset 23 17
  let q := bits b.offset 16 11
  let r := bits b.offset 47 40
  let k := bits b.offset 39 24
  if isV2 s b.port then refuseTxn s b 7
  else if arrivalRefuses s w q r k b.src b.tid total then refuseTxn s b 3
  else if (arrivalPoison s w q r k total (bits b.offset 8 0) b.payload).isSome then refuseOpen s b
  else
    match placeBlock s w q r k b.src b.tid total (bits b.offset 8 0) none b.payload with
    | (s1, true) => sendCompletion s1 b.port b.src b.tid 0
    | (s1, false) => s1

/-- SEND_DATA (13, R326): a block of a tile of `total` bytes, header and data (DESIGN CHOICE, log 34). -/
def execSendData (b : RxBlock) (total : Nat) (s : State) : Host.Outcome State Fault Refusal :=
  .next (observe (ingress s b (fun t => remoteTile t b total)))

/-! ### Answers (R304, R305; 13, R323, R324) -/

/-- READ_DATA (R304): the bytes of an outstanding read; an answer to no outstanding one is discarded. -/
def execReadData (b : RxBlock) (s : State) : Host.Outcome State Fault Refusal :=
  .next (match takeTxnBlock s b with
    | (s1, false) => s1
    | (s1, true) =>
      match findTxn s1 b.tid b.src with
      | none => s1
      | some t =>
        if t.ty ≠ 2 then s1
        else if t.dead then observe (endTxn s1 t)
        else observe { s1 with txns := s1.txns.map (fun u => if u = t then { u with data := some (padTo u.len 0 b.payload) } else u) })

/-- The fault of a refused transaction at its source (R305). -/
def refusalFault (t : Txn) (reason : Nat) : Nat × Nat :=
  if t.ty = 5 then (0x16, t.chip) else if reason = 3 ∨ reason = 4 then (0x11, t.off % 2 ^ 32) else (0x15, t.chip)

/-- An acknowledgement, or a refusal with its REASON, for an outstanding transaction (R304, R305). -/
def answerTxn (s : State) (b : RxBlock) : State :=
  match findTxn s b.tid b.src with
  | none => s
  | some t =>
    if b.reason = 0 then observe (endTxn s t)
    else
      let s1 := wr s FAB_LAST_REFUSAL 0 (BitVec.ofNat 32 (b.reason % 16 * 2 ^ 28 + 2 ^ 27 + b.src % 2 ^ 16))
      let f := refusalFault t b.reason
      observe (if t.dead then endTxn s1 t else failTxn s1 t f.1 f.2)

/-- A COMPLETION block taken: with bit 47 of OFFSET set it is a release and acknowledges nothing (13, R323, R324). -/
def takeCompletion (s : State) (b : RxBlock) : State :=
  match takeTxnBlock s b with
  | (s1, false) => s1
  | (s1, true) =>
    if bit b.offset 47 then observe (releaseFrom s1 (b.src, bits b.offset 23 17, bits b.offset 16 11) (bits b.offset 39 24))
    else answerTxn s1 b

/-- COMPLETION (R304, R305; 13, R323). -/
def execCompletion (b : RxBlock) (s : State) : Host.Outcome State Fault Refusal := .next (takeCompletion s b)

/-- RELEASE (13, R324): a COMPLETION whose OFFSET has bit 47 set. -/
def execRelease (b : RxBlock) (s : State) : Host.Outcome State Fault Refusal := .next (takeCompletion s b)

/-- E2E_TIMEOUT (R304): a transaction to a chip unanswered for E2E_TIMEOUT frames faults with FLT_LINK. -/
def execE2eTimeout (tid chip : Nat) (s : State) : Host.Outcome State Fault Refusal :=
  .next (match findTxn s tid chip with
    | some t => if t.data.isNone && decide (t.age ≥ fg s FAB_CFG_E2E_TIMEOUT 0) then observe (failTxn s t 0x15 t.chip) else s
    | none => s)

end Sys2Proof.Machine
end

