-- ==== Sys2Proof/Machine/Pool.lean ====
section
/-!
DEFINITION. Tier 2 snapshot slots and the shared page pool (10_generation_learning.md, R250 to R260), and the kernel stores' writes
and digests (07_vector_engine.md, R186 to R188).
-/

namespace Sys2Proof.Machine

/-! ### Snapshot slots (R250, R251) -/

/-- The units of 2 MiB of a slot: start and count. -/
def slotUnits (s : State) (k : Nat) : Nat × Nat := (fg s MOD_T2SLOT_RANGE_BASE k, fg s MOD_T2SLOT_RANGE_SIZE k)

def slotState (s : State) (k : Nat) : Nat := fg s MOD_T2SLOT_CTL_STATE k

/-- The conditions that refuse a state write (R251). -/
def slotRefused (s : State) (k goal : Nat) : Bool :=
  let u := slotUnits s k
  let writers := fg s MOD_T2SLOT_USE_WRITERS k != 0
  let readers := fg s MOD_T2SLOT_USE_READERS k != 0
  match slotState s k, goal with
  | 0, 1 => u.2 == 0 || decide (u.1 + u.2 > 63488) || (below 16).any (fun j => j != k && slotState s j != 0 && overlaps u (slotUnits s j))
  | 1, 2 => writers || fg s MOD_T2SLOT_CTL_INVALID k == 1
  | 2, 1 => readers
  | 1, 0 => writers
  | 2, 0 => readers
  | a, b => a != b

/-- A write of MOD_T2SLOT_CTL (R251): VERSION can change only while the slot is OPEN; opening clears INVALID. -/
def writeSlotCtl (s : State) (k : Nat) (v : Word) : State :=
  let old := slotState s k
  let goal := fieldIn v MOD_T2SLOT_CTL_STATE
  let s1 := clearBits s MOD_T2SLOT_CTL k v
  let ver := fieldIn v MOD_T2SLOT_CTL_VERSION
  let badVer := old != 1 && ver != fg s MOD_T2SLOT_CTL_VERSION k
  let s2 := if old = 1 then fs s1 MOD_T2SLOT_CTL_VERSION k ver else s1
  let bad := slotRefused s k goal
  let s3 := if bad || badVer then fs s2 MOD_T2SLOT_CTL_REFUSED k 1 else s2
  if bad || goal == old then s3
  else
    let s4 := fs s3 MOD_T2SLOT_CTL_STATE k goal
    if goal = 1 then fs s4 MOD_T2SLOT_CTL_INVALID k 0 else s4

/-- A write of MOD_T2SLOT_RANGE: ignored while the slot is not CLOSED (10, MOD_T2SLOT_RANGE). -/
def writeSlotRange (s : State) (k : Nat) (v : Word) : State :=
  writeGuarded s MOD_T2SLOT_RANGE k v (if slotState s k = 0 then [] else [ MOD_T2SLOT_RANGE_BASE, MOD_T2SLOT_RANGE_SIZE]) MOD_T2SLOT_CTL_REFUSED k

/-- SLOT_OPEN (R251): a write of MOD_T2SLOT_CTL with STATE 1. -/
def execSlotOpen (k : Nat) (value : Word) (s : State) : Host.Outcome State Fault Refusal :=
  .next (if k < 16 then writeSlotCtl s k (withField value 31 30 1) else s)

/-- SLOT_SEAL (R251): a write with STATE 2. -/
def execSlotSeal (k : Nat) (value : Word) (s : State) : Host.Outcome State Fault Refusal :=
  .next (if k < 16 then writeSlotCtl s k (withField value 31 30 2) else s)

/-- SLOT_CLOSE (R251): a write with STATE 0. -/
def execSlotClose (k : Nat) (value : Word) (s : State) : Host.Outcome State Fault Refusal :=
  .next (if k < 16 then writeSlotCtl s k (withField value 31 30 0) else s)

/-! ### The page pool (R256 to R260) -/

def poolPages (s : State) : Nat := fg s MOD_PPOOL_CFG_PAGES 0

def pseqOf (s : State) (q : Nat) : Option PSeq := s.pool.seqs.find? (fun x => x.seq == q)

/-- A sequence that holds no page and is not marked evicted is not tracked (R257). -/
def PSeq.tracked (x : PSeq) : Bool := !x.pages.isEmpty || x.evicted

/-- The pool with a sequence's entry put, or dropped once it is untracked. -/
def putPseq (p : Pool) (x : PSeq) : Pool :=
  let rest := p.seqs.filter (fun y => y.seq != x.seq)
  { p with seqs := if x.tracked then rest ++ [x] else rest }

/-- The lowest-numbered free page. -/
def freePage (s : State) (p : Pool) : Option Nat := (below (poolPages s)).find? (fun n => !p.seqs.any (fun x => x.pages.contains n))

/-- Pages that no sequence holds (10, MOD_PPOOL_FREE). -/
def poolFree (s : State) : Nat := poolPages s - sumNat (s.pool.seqs.map (fun x => x.pages.length))

/-- The age of a stamp (R257). -/
def stampAge (p : Pool) (x : PSeq) : Nat := (p.use + 2 ^ 32 - x.stamp % 2 ^ 32) % 2 ^ 32

/-- The unpinned sequence that holds pages, other than q, whose stamp is oldest (R257). -/
def poolVictim (p : Pool) (q : Nat) : Option PSeq :=
  (p.seqs.filter (fun x => x.seq != q && !x.pin && !x.pages.isEmpty)).foldl (fun a x =>
    match a with
    | none => some x
    | some y => if stampAge p y < stampAge p x then some x else some y) none

/-- The result of an operation: STATUS, PAGE, and no victim (10, MOD_PPOOL_RESULT, MOD_PPOOL_VICTIM). -/
def poolResult (s : State) (status page : Nat) : State :=
  fs (fs (fs s MOD_PPOOL_RESULT_STATUS 0 status) MOD_PPOOL_RESULT_PAGE 0 page) MOD_PPOOL_VICTIM_VALID 0 0

/-- One more operation in USE (R256). -/
def poolUse (s : State) : State := { s with pool := { s.pool with use := (s.pool.use + 1) % 2 ^ 32 } }

/-- A page given to a sequence: its mark cleared, its stamp and pin recorded (R256, R257). -/
def poolGive (s : State) (p : Pool) (q page : Nat) : State :=
  let x := (p.seqs.find? (fun y => y.seq == q)).getD { seq := q }
  let s1 := bump s MOD_PPOOL_CNT_REPREFILL 0 (b2n x.evicted)
  poolUse { s1 with pool := putPseq p { x with pages := x.pages ++ [page], evicted := false, pin := true, stamp := p.use } }

/-- ALLOC (R256, R257): one that gets NO_PAGE changes nothing, USE included (DEDUCED, log 51). -/
def poolAlloc (s : State) (q : Nat) : State :=
  let p := s.pool
  if (pseqOf s q).isNone && decide (p.seqs.length ≥ 4096) then poolResult (poolUse s) 3 0
  else
    match freePage s p with
    | some n => poolGive (poolResult s 0 n) p q n
    | none =>
      match poolVictim p q with
      | none => poolResult s 2 0
      | some v =>
        let p1 := putPseq p { v with pages := [], evicted := true }
        match freePage s p1 with
        | none => poolResult s 2 0
        | some n =>
          let s1 := fs (fs (poolResult s 1 n) MOD_PPOOL_VICTIM_VALID 0 1) MOD_PPOOL_VICTIM_SEQ 0 v.seq
          poolGive (bump s1 MOD_PPOOL_CNT_EVICT 0 1) p1 q n

/-- TOUCH (R256). -/
def poolTouch (s : State) (q : Nat) : State :=
  let p := s.pool
  match pseqOf s q with
  | none => poolResult (poolUse s) 0 0
  | some x => poolResult (poolUse { s with pool := putPseq p { x with stamp := p.use, pin := true } }) (if x.evicted then 4 else 0) 0

/-- FREE (R256). -/
def poolRelease (s : State) (q : Nat) : State :=
  poolResult { s with pool := { s.pool with seqs := s.pool.seqs.filter (fun x => x.seq != q) } } 0 0

/-- UNPIN_ALL (R256). -/
def poolUnpin (s : State) : State :=
  poolResult { s with pool := { s.pool with seqs := s.pool.seqs.map (fun x => { x with pin := false }) } } 0 0

/-- The allocator ends an operation; without EN it is BAD_OP (R256). -/
def poolOp (s0 : State) (op q : Nat) : State :=
  let s := fs { s0 with pool := { s0.pool with op := none } } MOD_PPOOL_RESULT_BUSY 0 0
  if fg s MOD_PPOOL_CFG_EN 0 = 0 then poolResult s 5 0
  else
    match op with
    | 1 => poolAlloc s (q % 2 ^ 16)
    | 2 => poolTouch s (q % 2 ^ 16)
    | 3 => poolRelease s (q % 2 ^ 16)
    | 4 => poolUnpin s
    | _ => poolResult s 5 0

/-- A write of MOD_PPOOL_OP (R256): the operation begins, BUSY 1; while one is in progress the write is ignored and sets REFUSED. -/
def writePoolOp (s : State) (op q : Nat) : State :=
  if s.pool.op.isSome then fs s MOD_PPOOL_CFG_REFUSED 0 1
  else fs { s with pool := { s.pool with op := some (op, q) } } MOD_PPOOL_RESULT_BUSY 0 1

/-- The end of the operation in progress, if there is one (R256). -/
def endPoolOp (s : State) : State :=
  match s.pool.op with
  | none => s
  | some (op, q) => poolOp s op q

/-- A row that names an operation (R256): the operation in progress, if it is that one, ends; with none in progress it is written and ends;
while another is in progress its write is refused (DESIGN CHOICE, log 51). -/
def poolRow (s : State) (op q : Nat) : State :=
  match s.pool.op with
  | none => endPoolOp (writePoolOp s op q)
  | some (op1, q1) => if op1 = op ∧ (q1 = q ∨ op = 4) then endPoolOp s else writePoolOp s op q

/-- Every page freed, every pin and mark cleared, USE 0 (R260); an operation in progress goes on. -/
def resetPool (s : State) : State := { s with pool := { op := s.pool.op } }

def poolBase (s : State) : Nat := fg s MOD_PPOOL_BASE_HI_BASE_HI 0 * 2 ^ 32 + fg s MOD_PPOOL_BASE_LO_BASE_LO 0 * 2 ^ 16

/-- A write of MOD_PPOOL_CFG (R260). -/
def writePoolCfg (s : State) (v : Word) : State :=
  let on := fieldIn v MOD_PPOOL_CFG_EN
  if fg s MOD_PPOOL_CFG_EN 0 = 1 then
    writeGuarded s MOD_PPOOL_CFG 0 v [ MOD_PPOOL_CFG_PAGE_UNITS, MOD_PPOOL_CFG_PAGES] MOD_PPOOL_CFG_REFUSED 0
  else
    let s1 := writeFields s MOD_PPOOL_CFG 0 (withField v 31 31 0)
    if on = 0 then s1
    else
      let pages := poolPages s1
      let units := fg s1 MOD_PPOOL_CFG_PAGE_UNITS 0
      if pages = 0 ∨ units = 0 ∨ poolBase s1 + pages * units * 65536 > tier1Size then fs s1 MOD_PPOOL_CFG_REFUSED 0 1
      else resetPool (fs s1 MOD_PPOOL_CFG_EN 0 1)

/-- A write of the pool's base: ignored while EN is 1 (R260). -/
def writePoolBase (s : State) (r : Reg) (v : Word) (f : Fld) : State :=
  writeGuarded s r 0 v (if fg s MOD_PPOOL_CFG_EN 0 = 1 then [f] else []) MOD_PPOOL_CFG_REFUSED 0

/-- ALLOC (R257). -/
def execAlloc (seq : Nat) (s : State) : Host.Outcome State Fault Refusal := .next (poolRow s 1 (seq % 2 ^ 16))

/-- TOUCH (R256). -/
def execTouch (seq : Nat) (s : State) : Host.Outcome State Fault Refusal := .next (poolRow s 2 (seq % 2 ^ 16))

/-- FREE (R256). -/
def execFree (seq : Nat) (s : State) : Host.Outcome State Fault Refusal := .next (poolRow s 3 (seq % 2 ^ 16))

/-- UNPIN_ALL (R256). -/
def execUnpinAll (seq : Nat) (s : State) : Host.Outcome State Fault Refusal := .next (poolRow s 4 (seq % 2 ^ 16))

/-- POOL_ENABLE (R260): a write of MOD_PPOOL_CFG with EN 1. -/
def execPoolEnable (value : Word) (s : State) : Host.Outcome State Fault Refusal := .next (writePoolCfg s (withField value 31 31 1))

/-! ### Kernel stores (07, R186 to R188) -/

def kstoreSize : Nat := 0x40000

/-- A library region of a kernel store (07, R186). -/
def kstoreLibrary (off : Nat) : Bool := off < 0x10000 || (0x20000 ≤ off && off < 0x28000)

/-- A word written to a kernel store's memory. -/
def kstorePut (s : State) (w off : Nat) (v : Word) : State := memWrite s (kstoreKey w off) (toBytesLE 4 v.toNat)

/-- A write to one ward's kernel store (07, R187). -/
def kstoreWrite (s : State) (w off : Nat) (v : Word) : State :=
  if kstoreLibrary off || anyEnabled s w then fs s VE_KSCTL_KS_REFUSED w 1 else kstorePut s w off v

/-- A write to the broadcast window (07, R186, R187). -/
def kstoreBroadcast (s : State) (off : Nat) (v : Word) : State :=
  let ws := below (wardCount s)
  if ws.any (anyEnabled s) then fs s MOD_KSTORE_STATUS_BCAST_REFUSED 0 1
  else if kstoreLibrary off then ws.foldl (fun t w => fs t VE_KSCTL_KS_REFUSED w 1) s
  else ws.foldl (fun t w => kstorePut t w off v) s

/-- KSTORE_BROADCAST_WRITE (07, R187). -/
def execKstoreBroadcastWrite (off : Nat) (value : Word) (s : State) : Host.Outcome State Fault Refusal :=
  .next (if off < kstoreSize ∧ off % 4 = 0 then kstoreBroadcast s off value else s)

/-- A digest requested (07, VE_KSCTL). -/
def kstoreDigest (s : State) (w : Nat) : State :=
  { fs s VE_KSCTL_DIGEST_DONE w 0 with ksReq := if s.ksReq.contains w then s.ksReq else s.ksReq ++ [w] }

/-- KSTORE_DIGEST_REQ (07, R188): a write of DIGEST_REQ. -/
def execKstoreDigestReq (w : Nat) (s : State) : Host.Outcome State Fault Refusal := .next (if w < wardCount s then kstoreDigest s w else s)

/-- The digest of a ward's kernel store: the CRC-32 of its 262,144 bytes (07, VE_KSDIGEST). -/
def kstoreCrc (s : State) (w : Nat) : Nat := crc32 ((below kstoreSize).map (kstoreByte s w))

/-- KSTORE_DIGEST_DONE (07, R188). -/
def execKstoreDigestDone (w : Nat) (s : State) : Host.Outcome State Fault Refusal :=
  .next (if s.ksReq.contains w then
      fs (wr { s with ksReq := s.ksReq.filter (· != w) } VE_KSDIGEST w (BitVec.ofNat 32 (kstoreCrc s w))) VE_KSCTL_DIGEST_DONE w 1
    else s)

end Sys2Proof.Machine
end

