-- ==== Sys2Proof/Machine/VectorEngine.lean ====
section
/-!
DEFINITION. The vector engine (07_vector_engine.md): the start of a kernel invocation (VOP), each instruction of a kernel
(one command per row), QUANT, and the faults of R185. An instruction command takes effect when its ward's VE is at
an instruction word that spells exactly it; at any other moment nothing happens (DESIGN CHOICE, log 5).
-/

namespace Sys2Proof.Machine

def veRt (s : State) (w : Nat) : VeRt := sget {} s.ve w
def setVe (s : State) (w : Nat) (v : VeRt) : State := { s with ve := sset {} s.ve w v }

/-- An instruction word (07, R183). -/
def veWord (op d a b c m k : Nat) : Nat :=
  op % 256 * 2 ^ 56 + d % 64 * 2 ^ 50 + a % 64 * 2 ^ 44 + b % 64 * 2 ^ 38 + c % 64 * 2 ^ 32 + m % 256 * 2 ^ 24 + k % 2 ^ 24

def lookupReg {α : Type} (d : α) (rs : List (Nat × α)) (i : Nat) : α := ((rs.find? (fun p => p.1 == i)).map Prod.snd).getD d
def putReg {α : Type} (rs : List (Nat × α)) (i : Nat) (x : α) : List (Nat × α) := (i, x) :: rs.filter (fun p => p.1 != i)

def zeroLanes : List Nat := List.replicate 256 0
def VeRt.reg (v : VeRt) (i : Nat) : List Nat := lookupReg zeroLanes v.vr i
def VeRt.setReg (v : VeRt) (i : Nat) (x : List Nat) : VeRt := { v with vr := putReg v.vr i x }
def VeRt.xreg (v : VeRt) (i : Nat) : Nat := lookupReg 0 v.xs i
def VeRt.setX (v : VeRt) (i x : Nat) : VeRt := { v with xs := putReg v.xs i (x % 2 ^ 32) }

/-- Which fields an operation uses: D, A, B, C, M (its largest value + 1, 0 for unused), K; none for a code not in the
table (07, R183). -/
def veUses (op : Nat) : Option (Bool × Bool × Bool × Bool × Nat × Bool) :=
  match op with
  | 0x01 => some (true, true, true, false, 0, false)
  | 0x02 => some (true, true, true, false, 0, false)
  | 0x03 => some (true, true, true, false, 0, false)
  | 0x04 => some (true, true, true, true, 0, false)
  | 0x05 => some (true, true, true, false, 0, false)
  | 0x06 => some (true, true, true, false, 0, false)
  | 0x07 => some (true, true, false, false, 0, false)
  | 0x08 => some (true, true, true, false, 3, false)
  | 0x09 => some (true, true, true, true, 0, false)
  | 0x0A => some (true, true, false, false, 4, false)
  | 0x0B => some (true, true, true, false, 6, false)
  | 0x10 => some (true, true, true, false, 0, false)
  | 0x11 => some (true, true, true, false, 0, false)
  | 0x12 => some (true, true, true, true, 0, false)
  | 0x18 => some (true, true, false, false, 0, true)
  | 0x19 => some (true, true, true, false, 0, false)
  | 0x1A => some (true, true, false, false, 0, false)
  | 0x20 => some (true, true, false, false, 0, false)
  | 0x21 => some (true, true, false, false, 0, false)
  | 0x22 => some (true, true, false, false, 0, false)
  | 0x28 => some (true, true, false, false, 4, true)
  | 0x29 => some (true, true, false, false, 4, true)
  | 0x2A => some (false, true, true, false, 2, false)
  | 0x2B => some (false, false, false, false, 2, false)
  | 0x2C => some (true, false, true, false, 4, true)
  | 0x30 => some (true, true, true, false, 6, false)
  | 0x31 => some (true, false, false, false, 0, true)
  | 0x32 => some (false, true, true, false, 3, true)
  | 0x33 => some (false, false, false, false, 0, false)
  | 0x38 => some (true, true, true, true, 0, false)
  | _ => none

/-- Fields of an operation that name scalar registers: D, A, B. They are below 32. -/
def veScalar (op : Nat) : Bool × Bool × Bool :=
  match op with
  | 0x28 => (false, true, false)
  | 0x29 => (false, true, false)
  | 0x2A => (false, true, false)
  | 0x2C => (true, false, true)
  | 0x30 => (true, true, true)
  | 0x31 => (true, false, false)
  | 0x32 => (false, true, true)
  | 0x38 => (false, true, true)
  | _ => (false, false, false)

/-- An instruction well formed under R183: a listed code and unused fields 0; and, where the manual names only FCMP's other M reserved, M
within the codes of its operation and scalar register numbers below 32: any other is taken as malformed (DESIGN CHOICE, log 4). -/
def veWellFormed (w : Nat) : Bool :=
  let op := bits w 63 56
  let d := bits w 55 50
  let a := bits w 49 44
  let b := bits w 43 38
  let c := bits w 37 32
  let m := bits w 31 24
  let k := bits w 23 0
  let (xd, xa, xb) := veScalar op
  match veUses op with
  | none => false
  | some (ud, ua, ub, uc, um, uk) =>
    (ud || d == 0) && (ua || a == 0) && (ub || b == 0) && (uc || c == 0) && (if um = 0 then m == 0 else m < um) &&
    (uk || k == 0) && (!xd || d < 32) && (!xa || a < 32) && (!xb || b < 32)

/-- Clocks of an instruction (07, R183). -/
def veClocks (op : Nat) : Nat :=
  if op = 0x07 ∨ op = 0x18 ∨ op = 0x38 then 4 else if op = 0x2B then 64 else 1

/-! ### Lane operations -/

def lanes1 (f : Nat → Nat × Ev) (a : List Nat) : List Nat × Ev :=
  let rs := a.map f
  (rs.map Prod.fst, sumEv (rs.map Prod.snd))
def lanes2 (f : Nat → Nat → Nat × Ev) (a b : List Nat) : List Nat × Ev := lanes1 (fun p => f (nth a p 0) (nth b p 0)) (below 256)
def lanes3 (f : Nat → Nat → Nat → Nat × Ev) (a b c : List Nat) : List Nat × Ev :=
  lanes1 (fun p => f (nth a p 0) (nth b p 0) (nth c p 0)) (below 256)

/-- A value's order with -0 below +0 (07, FMIN). -/
def belowZ : FV → FV → Bool
  | .fin s 0 _ _, .fin s' 0 _ _ => s && !s'
  | x, y => x.lt y

/-- FMIN and FMAX: the lesser or greater, -0 below +0; a NaN gives the canonical NaN. -/
def pick32 (less : Bool) (a b : Nat) : Nat × Ev :=
  let (x, ex) := ofFp32 a
  let (y, ey) := ofFp32 b
  if x.isNan || y.isNan then (nan32, ex.add ey)
  else
    let z := if belowZ y x then (if less then y else x) else (if less then x else y)
    ((toFp32 z).1, ex.add ey)

/-- FCMP: bit 0 of the lane is the mask; the manual does not print a mask lane's other 31 bits, and they are open
(DESIGN CHOICE, log 4). A NaN compares false (IEEE 754-2019). -/
def fcmp32 (m a b : Nat) : Nat × Ev :=
  let (x, ex) := ofFp32 a
  let (y, ey) := ofFp32 b
  let t := if x.isNan || y.isNan then false
    else match m with
      | 0 => x.lt y
      | 1 => !(y.lt x)
      | _ => !(x.lt y) && !(y.lt x)
  (Config.unstated 3 (b2n t) m % 2 ^ 31 * 2 + b2n t, ex.add ey)

/-- A signed 32-bit integer lane. -/
def int32 (a : Nat) : Int := signed 32 (a % 2 ^ 32)
def ofInt32 (v : Int) : Nat := (v % 2 ^ 32).toNat

/-- CVT 2: toward zero, saturating; the integer of a NaN is not stated (DESIGN CHOICE, log 4). -/
def toInt32 (a : Nat) : Nat × Ev :=
  let (x, ex) := ofFp32 a
  match x with
  | .nan => (Config.unstated 4 a 0 % 2 ^ 32, ex)
  | .fin neg n d e =>
    let q := n * pow2 e / (d * pow2 (-e))
    (if neg then ofInt32 (-(min q (2 ^ 31) : Nat)) else min q (2 ^ 31 - 1), ex)

def ofInt32Fp (a : Nat) : Nat × Ev :=
  let v := int32 a
  toFp32 (.fin (decide (v < 0)) v.natAbs 1 0)

/-- BF16 lane k of a register: two to a 32-bit lane, the even one low (DEDUCED, log 18). -/
def bfLane (a : List Nat) (k : Nat) : Nat := bits (nth a (k / 2) 0) (16 * (k % 2) + 15) (16 * (k % 2))
def packBf (ls : List Nat) : List Nat := (below 256).map (fun i => nth ls (2 * i) 0 + nth ls (2 * i + 1) 0 * 2 ^ 16)
def bf512 (f : Nat → Nat × Ev) : List Nat × Ev :=
  let rs := (below 512).map f
  (packBf (rs.map Prod.fst), sumEv (rs.map Prod.snd))

/-- BFMA of one lane. -/
def bfma16 (a b c : Nat) : Nat × Ev :=
  let (x, ex) := ofBf16 a
  let (y, ey) := ofBf16 b
  let (z, ez) := ofBf16 c
  let (r, er) := toBf16 ((x.mul y).add z)
  (r, ex.add (ey.add (ez.add er)))

/-- CVT by M (07, R183): BF16 lane i holds the conversion of FP32 lane i (DEDUCED, log 18). -/
def cvtLanes (m : Nat) (a : List Nat) : List Nat × Ev :=
  match m with
  | 0 => let rs := (below 256).map (fun i => let (x, ex) := ofFp32 (nth a i 0); let (r, er) := toBf16 x; (r, ex.add er))
         (packBf (rs.map Prod.fst), sumEv (rs.map Prod.snd))
  | 1 => lanes1 (fun i => let (x, ex) := ofBf16 (bfLane a i); let (r, er) := toFp32 x; (r, ex.add er)) (below 256)
  | 2 => lanes1 toInt32 a
  | _ => lanes1 ofInt32Fp a

/-- VINT and XALU: 32-bit integer operations; a shift by 32 or more is not stated (DESIGN CHOICE, log 4). -/
def intOp (m a b : Nat) : Nat :=
  match m with
  | 0 => (a + b) % 2 ^ 32
  | 1 => (a + 2 ^ 32 - b % 2 ^ 32) % 2 ^ 32
  | 2 => a &&& b
  | 3 => a ||| b
  | 4 => if b < 32 then a * 2 ^ b % 2 ^ 32 else Config.unstated 5 a b % 2 ^ 32
  | _ => if b < 32 then a / 2 ^ b else Config.unstated 6 a b % 2 ^ 32

/-- SCALB: A × 2^B with one rounding. -/
def scalb32 (a b : Nat) : Nat × Ev :=
  let (x, ex) := ofFp32 a
  let (r, er) := toFp32 (x.mul (.fin false 1 1 (int32 b)))
  (r, ex.add er)

/-- FREXP: the fraction in [1, 2) with its sign, and the exponent; of zero and of the exponent of a NaN the manual
states nothing (DESIGN CHOICE, log 4). -/
def frexpFrac (a : Nat) : Nat × Ev :=
  let (x, ex) := ofFp32 a
  match x with
  | .nan => (nan32, ex)
  | .fin _ 0 _ _ => (Config.unstated 7 a 0 % 2 ^ 32, ex)
  | .fin s n d e => ((toFp32 (.fin s n d (-floorLog2 n d))).1, if e = e then ex else ex)
def frexpExp (a : Nat) : Nat :=
  match (ofFp32 a).1 with
  | .nan => Config.unstated 8 a 0 % 2 ^ 32
  | .fin _ 0 _ _ => Config.unstated 8 a 1 % 2 ^ 32
  | .fin _ n d e => ofInt32 (floorLog2 n d + e)

/-- One level of the tree sum: adjacent pairs, the lower index on the left (07, R184). -/
def pairSum : List Nat → List Nat × Ev
  | a :: b :: rest =>
    let (r, e) := fadd32 a b
    let (rs, es) := pairSum rest
    (r :: rs, e.add es)
  | xs => (xs, {})

def treeSum : Nat → List Nat → List Nat × Ev
  | 0, xs => (xs, {})
  | n + 1, xs => let (ys, e) := pairSum xs; let (zs, es) := treeSum n ys; (zs, e.add es)

/-- The row sum of 128 lanes by the fixed tree of 7 levels (07, R184). -/
def rowSum (xs : List Nat) : Nat × Ev := let (r, e) := treeSum 7 xs; (nth r 0 0, e)

def rowMax (xs : List Nat) : Nat × Ev :=
  match xs with
  | [] => (0, {})
  | x :: rest => rest.foldl (fun a y => let (r, e) := pick32 false a.1 y; (r, a.2.add e)) (x, {})

/-- The lowest lane index holding the row maximum; of a row with a NaN the manual states none (DESIGN CHOICE, log 4). -/
def rowIdx (xs : List Nat) : Nat :=
  let m := (rowMax xs).1
  if (ofFp32 m).1.isNan then Config.unstated 9 0 0 % 128
  else
    let v := (ofFp32 m).1
    xs.findIdx (fun x => let y := (ofFp32 x).1; !(belowZ v y) && !(belowZ y v))

/-- A row operation on both rows of a register, its result in every lane of the row. -/
def onRows (f : List Nat → Nat × Ev) (a : List Nat) : List Nat × Ev :=
  let (x, e) := f (padTo 128 0 (a.take 128))
  let (y, e') := f (padTo 128 0 (a.drop 128))
  (List.replicate 128 x ++ List.replicate 128 y, e.add e')

/-! ### Tiles of an invocation -/

/-- The length of the run in progress: level 0's count, or its bound where it is ragged (07, R179). -/
def runLength (c : Cmd) : Nat :=
  if kIter c = 1 then (runOf c).length else levelCount c.desc c.bounds 0 ((nth (runOf c) 0 []).drop 1)

/-- The vector whose header push number k of an invocation stamps: its run's, or, of an empty run, that of level 0's start. -/
def pushVec (c : Cmd) (k : Nat) : List Nat :=
  ((runOf c)[k]?).getD (nth (runOf c) 0 (0 :: (((levelRuns c)[c.iter]?).map Prod.fst).getD []))

/-- The tile at position k of the run on input end e (07, R179, R185; DEDUCED, log 19); none outside the run or on an absent
end. -/
def veTile (s : State) (w : Nat) (c : Cmd) (e k : Nat) : Option (Got (Hdr × List Byte)) :=
  if !inUsed c e then none
  else ((runOf c)[k]?).map (fun v => readIn s w c e (inOffset c.desc e v))

/-- The format a VE input is decoded in: its header's, else the command's operand format (DEDUCED, log 19). -/
def veFmt (c : Cmd) (e : Nat) (h : Hdr) : Nat :=
  if h.fmt ≠ 0 then h.fmt else if e = 0 then c.fmtA else if e = 1 then c.fmtB else fFp32

/-- Columns a wide tile's slot holds when it is smaller than a full tile (DEDUCED, log 20). -/
def wideCols (fmt slotBytes : Nat) : Nat := min 128 (slotBytes / (16 * elemBits fmt))

/-- The tile in a slot's bytes: a wide one has the columns its slot holds. -/
def slotTile (fmt : Nat) (bs : List Byte) : Tile :=
  if isNarrow fmt then decodeTile fmt bs else ⟨fmt, decodeWideTile fmt (max 1 (wideCols fmt bs.length)) bs, []⟩

/-- Row i of a tile decoded to 128 FP32 lanes. -/
def rowLanes (t : Tile) (i : Nat) : List Nat × Ev :=
  let ls := padTo 128 (0, ({} : Ev)) (t.line i)
  (ls.map Prod.fst, sumEv (ls.map Prod.snd))

/-- Two rows of a tile decoded to FP32 lanes. -/
def tileLanes (fmt : Nat) (bs : List Byte) (pair : Nat) : List Nat × Ev :=
  let t := slotTile fmt bs
  let (x, e) := rowLanes t (2 * pair)
  let (y, e') := rowLanes t (2 * pair + 1)
  (x ++ y, e.add e')

/-- Row i of a slot's bytes as 128 raw 32-bit lanes. -/
def rawRow (t : Tile) (i : Nat) : List Nat := padTo 128 0 (nth t.wide i [])

/-- Two rows as raw 32-bit lanes. -/
def rawLanes (bs : List Byte) (pair : Nat) : List Nat :=
  let t := slotTile fFp32 bs
  rawRow t (2 * pair) ++ rawRow t (2 * pair + 1)

/-- The staging tile's element. -/
def stageElem (st : List (Nat × List Nat)) (i j : Nat) : Nat :=
  nth (lookupReg zeroLanes st (i / 2)) (128 * (i % 2) + j) 0

/-- A staging tile narrowed to a format: bytes, header marks and events (07, R181; 04, R114), its elements indexed by the header `idx`, zero
and uncounted outside the ROWS and COLS of its own header (05, R122; 02, R51). Raw lanes in FP32. -/
def narrowStage (s : State) (c : Cmd) (fmt : Nat) (st : List (Nat × List Nat)) (idx own : Hdr) (slotBytes : Nat) :
    List Byte × NEv × Ev :=
  let tensor := bits c.imm 47 16
  let draw := fun i => kerfDraw (jobSeed s) c.rstream tensor i c.step
  if isNarrow fmt then
    let (bl, ne) := quantiseTile fmt c.sr draw idx.index own.rows own.cols ⟨none, true⟩ (fun i j => (ofFp32 (stageElem st i j)).1)
    let ev := sumEv ((below own.rows).map (fun i => sumEv ((below own.cols).map (fun j => (ofFp32 (stageElem st i j)).2))))
    (encodeNarrowTile fmt bl, ne, ev)
  else
    let cols := wideCols fmt slotBytes
    let cell := fun (i j : Nat) =>
      let x := if i < own.rows ∧ j < own.cols then stageElem st i j else 0
      match fmt with
      | 2 =>
        let (v, ev) := ofFp32 x
        if c.sr then (let (r, past) := narrowBf16 (.sr (draw (idx.index i j))) v; (r, ev.add { ovf := b2n past }))
        else (let (r, er) := toBf16 v; (r, ev.add er))
      | 3 => fp32ToE48 x
      | _ => (x, {})
    let rows := (below 128).map (fun i => (below cols).map (cell i))
    (encodeWideTile fmt (rows.map (fun r => r.map Prod.fst)), {}, sumEv (rows.map (fun r => sumEv (r.map Prod.snd))))

/-- VE_STATUS (07). -/
def veStatus (s : State) (w : Nat) (c : Cmd) (busy : Bool) : State :=
  fs (fs s VE_STATUS_TAG w c.tag) VE_STATUS_BUSY w (b2n busy)

/-- A kernel fault: FLT_KERNEL with the instruction index (07, R185). -/
def kernelFault (s : State) (m : Nat) (c : Cmd) (pc : Nat) : State := veStatus (execFault s m c 0x17 pc) (m / 8) c false

/-- Field K of a header, as LDH reads it (07, R183): the manual does not number the fields; here they count in the order of the header's
table, from 0: ROW_LEN, PTAG, MARKS, FMT, ROWS, COLS, then ELEM_BASE in two halves, the low one first; past them the result is open
(DESIGN CHOICE, log 4). -/
def hdrField (h : Hdr) (k : Nat) : Nat :=
  match k with
  | 0 => h.rowLen
  | 1 => h.ptag
  | 2 => h.marks
  | 3 => h.fmt
  | 4 => h.rows
  | 5 => h.cols
  | 6 => h.elemBase % 2 ^ 32
  | 7 => h.elemBase / 2 ^ 32
  | _ => Config.unstated 11 k (ofBytesLE h.bytes)

/-- Reserved T2 codes in two rows of a tile (02, R43). -/
def rowCodes (fmt : Nat) (bs : List Byte) (pair : Nat) : Nat :=
  let t := decodeTile fmt bs
  { t with blocks := (t.blocks.drop (2 * pair)).take 2 }.reservedCodes

/-- What one instruction does to the VE: a new VE state with events and reserved codes read, a push, the end of the invocation, or a fault. -/
inductive VeOut where
  | go (v : VeRt) (e : Ev) (codes : Nat := 0)
  | stop (code detail : Nat)
  | push (e : Nat)
  | done

/-- The instruction's effect on the VE, at the word of the program counter (07, R183). -/
def veInstr (s : State) (w : Nat) (c : Cmd) (v : VeRt) (word : Nat) : VeOut :=
  let op := bits word 63 56
  let d := bits word 55 50
  let a := bits word 49 44
  let b := bits word 43 38
  let cc := bits word 37 32
  let m := bits word 31 24
  let k := bits word 23 0
  let va := v.reg a
  let vb := v.reg b
  let next := fun (x : VeRt) => { x with pc := v.pc + 1, count := v.count + 1 }
  let put := fun (r : List Nat × Ev) => VeOut.go (next (v.setReg d r.1)) r.2
  let bad := VeOut.stop 0x17 v.pc
  match op with
  | 0x01 => put (lanes2 fadd32 va vb)
  | 0x02 => put (lanes2 fsub32 va vb)
  | 0x03 => put (lanes2 fmul32 va vb)
  | 0x04 => put (lanes3 ffma32 va vb (v.reg cc))
  | 0x05 => put (lanes2 (pick32 true) va vb)
  | 0x06 => put (lanes2 (pick32 false) va vb)
  | 0x07 => put (lanes1 fsqrt32 va)
  | 0x08 => put (lanes2 (fcmp32 m) va vb)
  | 0x09 => put ((below 256).map (fun i => if bit (nth (v.reg cc) i 0) 0 then nth va i 0 else nth vb i 0), {})
  | 0x0A => put (cvtLanes m va)
  | 0x0B => put ((below 256).map (fun i => intOp m (nth va i 0) (nth vb i 0)), {})
  | 0x10 => put (bf512 (fun i => opBf16 (bfLane va i) (bfLane vb i) FV.add))
  | 0x11 => put (bf512 (fun i => opBf16 (bfLane va i) (bfLane vb i) FV.mul))
  | 0x12 => put (bf512 (fun i => bfma16 (bfLane va i) (bfLane vb i) (bfLane (v.reg cc) i)))
  | 0x18 =>
    if va.all (fun x => k + 4 * x + 4 ≤ 0x10000) then
      match va.findSome? (fun x => poisonDetail s (kstoreKey w (0x20000 + k + 4 * x)) 4) with
      | some dt => .stop 0x12 dt
      | none => put (va.map (fun x => kstoreWord s w (0x20000 + k + 4 * x) 4), {})
    else bad
  | 0x19 => put (lanes2 scalb32 va vb)
  | 0x1A =>
    let (fr, e) := lanes1 frexpFrac va
    let v1 := v.setReg d fr
    .go (next (if d < 63 then v1.setReg (d + 1) (va.map frexpExp) else v1)) e
  | 0x20 => put (onRows rowSum va)
  | 0x21 => put (onRows rowMax va)
  | 0x22 => put (onRows (fun r => (rowIdx r, {})) va)
  | 0x28 =>
    (match veTile s w c m k with
     | some (.ok (h, bs)) =>
       if v.xreg a < 64 then
         let r := tileLanes (veFmt c m h) bs (v.xreg a)
         .go (next (v.setReg d r.1)) r.2 (rowCodes (veFmt c m h) bs (v.xreg a))
       else put ((below 256).map (fun i => Config.unstated 10 (v.xreg a) i % 2 ^ 32), {})
     | some (.fault code dt) => .stop code dt
     | some .wait => bad
     | none => bad)
  | 0x29 =>
    (match veTile s w c m k with
     | some (.ok (_, bs)) =>
       if v.xreg a < 64 then put (rawLanes bs (v.xreg a), {})
       else put ((below 256).map (fun i => Config.unstated 10 (v.xreg a) i % 2 ^ 32), {})
     | some (.fault code dt) => .stop code dt
     | some .wait => bad
     | none => bad)
  | 0x2A =>
    let p := v.xreg a
    if p < 64 then
      .go (next (if m = 0 then { v with stage0 := putReg v.stage0 p vb } else { v with stage1 := putReg v.stage1 p vb })) {}
    else .go (next v) {} -- a row pair that the tile has not: nothing is stored (DESIGN CHOICE, log 4)
  | 0x2B => .push m
  | 0x2C =>
    (match veTile s w c m (v.xreg b) with
     | some (.ok (h, _)) => .go (next (v.setX d (hdrField h k))) {}
     | some (.fault code dt) => .stop code dt
     | some .wait => bad
     | none => bad)
  | 0x30 => .go (next (v.setX d (intOp m (v.xreg a) (v.xreg b)))) {}
  | 0x31 =>
    match poisonDetail s (kstoreKey w (0x30000 + 64 * bits c.imm 63 48 + 4 * (k % 16))) 4 with
    | some dt => .stop 0x12 dt
    | none => .go (next (v.setX d (if k < 16 then paramWord s w (bits c.imm 63 48) k else Config.unstated 12 k 0))) {}
  | 0x32 =>
    let x := v.xreg a
    let y := v.xreg b
    let t := match m with
      | 0 => x == y
      | 1 => x != y
      | _ => decide (int32 x < int32 y)
    .go { v with pc := if t then k else v.pc + 1, count := v.count + 1 } {}
  | 0x33 => .done
  | _ =>
    put ((below 256).map (fun i =>
      kerfDraw (jobSeed s) (v.xreg a % 2 ^ 16) (bits c.imm 47 16) (v.xreg b % 2 ^ 16 * 2 ^ 32 + nth (v.reg cc) i 0) c.step), {})

/-- The header that push number `made` of an invocation stamps on output end e (05, R122; 06, R156). -/
def pushHdr (c : Cmd) (e made : Nat) : Hdr :=
  let base := elemBaseOf c.desc (pushVec c made)
  { rowLen := dRowLen c.desc, fmt := pushFmt c e, rows := 128, cols := colsOf (dRowLen c.desc) base, elemBase := base }

/-- A staging tile pushed on output end e as push number `made`, with the columns its kernel fixes and what follows it in its slot (07, R181,
R197; 04, R114). -/
def pushStage (s : State) (m w : Nat) (c : Cmd) (e made : Nat) (st : List (Nat × List Nat)) (cols : Option Nat) (tail : List Byte) : State :=
  let h := pushHdr c e made
  let own := { h with cols := cols.getD h.cols }
  let idx := match veTile s w c 0 made with
    | some (.ok (h, _)) => h
    | _ => own
  let (bs, ne, ev) := narrowStage s c own.fmt st idx own (qSlotBytes s (outQ w c e))
  let s1 := if isNarrow own.fmt then countNarrow s w c.step ne else s
  let (s2, _) := pushOut (countVe s1 w c.step ev) m w c e { own with marks := narrowMarks ne } (bs ++ tail)
  bump s2 VE_BUSY_CLOCKS w 64

/-- The PUSH of output end e (07, R181, R183): a fault past the header's count or on an absent end, a wait while
the slot is not free. An invocation that is to stop ends with the tile (06, R171). -/
def vePush (s : State) (m w : Nat) (c : Cmd) (v : VeRt) (e : Nat) : State :=
  let made := if e = 0 then v.push0 else v.push1
  if made ≥ pushesDue c e ∨ !outPresent (c.out e) then kernelFault s m c v.pc
  else if isDark s (outWard w (c.out e)) then execFault s m c 0x14 (outWard w (c.out e))
  else if !canPush s w c e 1 then s
  else
    let s1 := pushStage s m w c e made (if e = 0 then v.stage0 else v.stage1) none []
    let v1 := if e = 0 then { v with push0 := made + 1, stage0 := [] } else { v with push1 := made + 1, stage1 := [] }
    setVe s1 w (if c.stopping then {} else { v1 with pc := v.pc + 1, count := v.count + 1 })

/-- The end of an invocation: all pushes made, else FLT_KERNEL (07, R185). -/
def veEnd (s : State) (m w : Nat) (c : Cmd) (v : VeRt) : State :=
  if v.push0 < pushesDue c 0 ∨ v.push1 < pushesDue c 1 then kernelFault s m c v.pc
  else
    let s1 := bump (setVe s w {}) VE_BUSY_CLOCKS w 1
    let s2 := unitDone s1 m w c
    if c.iter + 1 ≥ unitCount c then veStatus s2 w c false else s2

/-- One instruction of an active invocation, of the command that the VE executes. -/
def veStep (s : State) (m w : Nat) (c : Cmd) (v : VeRt) (word : Nat) : State :=
  if v.count ≥ 2 ^ 24 then kernelFault s m c v.pc
  else
    match veInstr s w c v word with
    | .go v' e k => setVe (countReserved (countVe (bump s VE_BUSY_CLOCKS w (veClocks (bits word 63 56))) w c.step e) w c.step k) w v'
    | .stop 0x17 pc => kernelFault s m c pc
    | .stop code d => veStatus (execFault s m c code d) w c false
    | .push e => vePush s m w c v e
    | .done => veEnd s m w c v

/-- The bytes of the instruction word at an invocation's program counter. -/
def fetchRun (w : Nat) (v : VeRt) : Nat × Nat := (kstoreKey w (8 * v.pc), 8)

/-- Whether an invocation stands at instruction `word`: of a user kernel, in a word that can be read. -/
def veAt (s : State) (w : Nat) (v : VeRt) (word : Nat) : Bool :=
  v.active && decide (v.pc < 0x4000) && kstoreWord s w (8 * v.pc) 8 == word && veWellFormed word && !poisoned s (fetchRun w v).1 8

/-- The instruction row `word` on ward w: its effect when that word stands at the VE's program counter. -/
def veRow (s : State) (w word : Nat) : State :=
  let v := veRt s w
  match jobOf s w 4 0x10 with
  | none => s
  | some (m, c) => if veAt s w v word && !isLibrary c then observe (veStep s m w c v word) else s

/-- The bytes of the tile at position k of the run on input end e. -/
def veTileRuns (s : State) (w : Nat) (c : Cmd) (e k : Nat) : List (Nat × Nat) :=
  if !inUsed c e then []
  else (((runOf c)[k]?).map (fun u => slotRuns s (inQ w c e) (nth c.inBase e 0 + (inOffset c.desc e u).toNat))).getD []

/-- An instruction row that reads a tile: err is what its read of that tile's slot meets (11, R287, R291). -/
def veReadRow (s : State) (w word e k : Nat) (err : MemErr) : State :=
  let v := veRt s w
  match jobOf s w 4 0x10 with
  | none => s
  | some (m, c) =>
    if veAt s w v word && !isLibrary c then
      match meetErr s err (veTileRuns s w c e k) with
      | (s1, some d) => observe (veStatus (execFault s1 m c 0x12 d) w c false)
      | (s1, none) => observe (veStep s1 m w c v word)
    else s

/-- The next invocation of the command that the VE executes starts once its input tiles are visible (07, R179). -/
def veStart (s : State) (m w : Nat) (c : Cmd) : State :=
  if c.stopping || !inputsVisible s w c (runOf c) then s
  else
    let blk := bits c.imm 63 48
    match poisonDetail s (kstoreKey w (0x30000 + 64 * blk)) 64 with
    | some d => execFault s m c 0x12 d
    | none =>
      let xs := [(0, c.iter % 2 ^ 32), (1, runLength c)] ++ (below 16).map (fun k => (16 + k, paramWord s w blk k))
      veStatus (setVe s w { active := true, stream := m, num := c.num, xs := xs, pc := bits c.imm 15 0 + 1 }) w c true

/-- What stops an invocation of a user kernel where it stands: a malformed word, the code region's end or the instruction limit (R185), a
word that cannot be read (11, R291). -/
def veCheck (s : State) (m w : Nat) (c : Cmd) (v : VeRt) : State :=
  match poisonDetail s (fetchRun w v).1 8 with
  | some d => if v.pc < 0x4000 then veStatus (execFault s m c 0x12 d) w c false else kernelFault s m c v.pc
  | none => if v.pc ≥ 0x4000 ∨ !veWellFormed (kstoreWord s w (8 * v.pc) 8) ∨ v.count ≥ 2 ^ 24 then kernelFault s m c v.pc else s

/-! ### QUANT (05, R144; 02, R50) -/

/-- One tile of a QUANT. -/
def quantStep (s : State) (w : Nat) : State :=
  match jobOf s w 4 0x28 with
  | none => s
  | some (m, c) =>
    match nth (units c) c.iter [] with
    | [] => s
    | v :: _ =>
      match readIn s w c 0 (inOffset c.desc 0 v) with
      | .wait => s
      | .fault code d => execFault s m c code d
      | .ok (h, bs) =>
        if h.fmt ≠ c.fmtA then execFault s m c 0x19 (h.fmt * 2 ^ 16 + w * 2 ^ 8 + inQueue (c.inp 0))
        else if isDark s (outWard w (c.out 0)) then execFault s m c 0x14 (outWard w (c.out 0))
        else if !canPush s w c 0 1 then s
        else
          let t := decodeTile h.fmt bs
          let tr := bit c.mode 9
          let src := fun (i j : Nat) => if tr then (j, i) else (i, j)
          let cell := fun (i j : Nat) =>
            let (a, b) := src i j
            if a < h.rows ∧ b < h.cols then
              (let e := t.elem a b
               let r := ofFp32 e.1
               (r.1, e.2.add r.2))
            else (.fin false 0 1 0, {})
          let rows := if tr then h.cols else h.rows
          let cols := if tr then h.rows else h.cols
          let pol : QPolicy := ⟨if bit c.mode 8 then some (bits c.mode 7 0) else none, fg s WARD_SCFG_NO_RESCUE m == 0⟩
          let draw := fun i => kerfDraw (jobSeed s) c.rstream (bits c.imm 31 0) i c.step
          let (bl, ne) := quantiseTile c.fmtOut c.sr draw (fun i j => let (a, b) := src i j; h.index a b) rows cols pol
            (fun i j => (cell i j).1)
          let ev := sumEv ((below 128).map (fun i => sumEv ((below 128).map (fun j => (cell i j).2))))
          let out : Hdr := { h with fmt := c.fmtOut, rows := rows, cols := cols,
                                    marks := narrowMarks ne + (if h.transposed != tr then mkTransposed else 0) }
          let s1 := countVe (countNarrow (bump s VE_BUSY_CLOCKS w 192) w c.step ne) w c.step ev
          let (s2, c2) := pushOut s1 m w c 0 out (encodeNarrowTile c.fmtOut bl)
          veStatus (unitDone s2 m w c2) w c2 (decide (c2.iter + 1 < unitCount c2))

/-- QUANT (05, R144): one tile of the QUANT that the ward's VE executes. -/
def execQuant (ward : Nat) (err : MemErr) (s : State) : Host.Outcome State Fault Refusal :=
  .next (observe (withErr s ward 4 0x28 err (fun _ => []) (fun t => quantStep t ward)))

/-! ### One command per instruction (07, R183): the row's word, run when it stands at the program counter -/

/-- FADD. -/
def execFadd (ward d a b : Nat) (s : State) : Host.Outcome State Fault Refusal :=
  .next (veRow s ward (veWord 0x1 d a b 0 0 0))

/-- FSUB. -/
def execFsub (ward d a b : Nat) (s : State) : Host.Outcome State Fault Refusal :=
  .next (veRow s ward (veWord 0x2 d a b 0 0 0))

/-- FMUL. -/
def execFmul (ward d a b : Nat) (s : State) : Host.Outcome State Fault Refusal :=
  .next (veRow s ward (veWord 0x3 d a b 0 0 0))

/-- FFMA. -/
def execFfma (ward d a b c : Nat) (s : State) : Host.Outcome State Fault Refusal :=
  .next (veRow s ward (veWord 0x4 d a b c 0 0))

/-- FMIN. -/
def execFmin (ward d a b : Nat) (s : State) : Host.Outcome State Fault Refusal :=
  .next (veRow s ward (veWord 0x5 d a b 0 0 0))

/-- FMAX. -/
def execFmax (ward d a b : Nat) (s : State) : Host.Outcome State Fault Refusal :=
  .next (veRow s ward (veWord 0x6 d a b 0 0 0))

/-- FSQRT. -/
def execFsqrt (ward d a : Nat) (s : State) : Host.Outcome State Fault Refusal :=
  .next (veRow s ward (veWord 0x7 d a 0 0 0 0))

/-- FCMP. -/
def execFcmp (ward d a b m : Nat) (s : State) : Host.Outcome State Fault Refusal :=
  .next (veRow s ward (veWord 0x8 d a b 0 m 0))

/-- FSEL. -/
def execFsel (ward d a b c : Nat) (s : State) : Host.Outcome State Fault Refusal :=
  .next (veRow s ward (veWord 0x9 d a b c 0 0))

/-- CVT. -/
def execCvt (ward d a m : Nat) (s : State) : Host.Outcome State Fault Refusal :=
  .next (veRow s ward (veWord 0xa d a 0 0 m 0))

/-- VINT. -/
def execVint (ward d a b m : Nat) (s : State) : Host.Outcome State Fault Refusal :=
  .next (veRow s ward (veWord 0xb d a b 0 m 0))

/-- BADD. -/
def execBadd (ward d a b : Nat) (s : State) : Host.Outcome State Fault Refusal :=
  .next (veRow s ward (veWord 0x10 d a b 0 0 0))

/-- BMUL. -/
def execBmul (ward d a b : Nat) (s : State) : Host.Outcome State Fault Refusal :=
  .next (veRow s ward (veWord 0x11 d a b 0 0 0))

/-- BFMA. -/
def execBfma (ward d a b c : Nat) (s : State) : Host.Outcome State Fault Refusal :=
  .next (veRow s ward (veWord 0x12 d a b c 0 0))

/-- TLU. -/
def execTlu (ward d a k : Nat) (s : State) : Host.Outcome State Fault Refusal :=
  .next (veRow s ward (veWord 0x18 d a 0 0 0 k))

/-- SCALB. -/
def execScalb (ward d a b : Nat) (s : State) : Host.Outcome State Fault Refusal :=
  .next (veRow s ward (veWord 0x19 d a b 0 0 0))

/-- FREXP. -/
def execFrexp (ward d a : Nat) (s : State) : Host.Outcome State Fault Refusal :=
  .next (veRow s ward (veWord 0x1a d a 0 0 0 0))

/-- RSUM. -/
def execRsum (ward d a : Nat) (s : State) : Host.Outcome State Fault Refusal :=
  .next (veRow s ward (veWord 0x20 d a 0 0 0 0))

/-- RMAX. -/
def execRmax (ward d a : Nat) (s : State) : Host.Outcome State Fault Refusal :=
  .next (veRow s ward (veWord 0x21 d a 0 0 0 0))

/-- RIDX. -/
def execRidx (ward d a : Nat) (s : State) : Host.Outcome State Fault Refusal :=
  .next (veRow s ward (veWord 0x22 d a 0 0 0 0))

/-- LDT. -/
def execLdt (ward d a m k : Nat) (err : MemErr) (s : State) : Host.Outcome State Fault Refusal :=
  .next (veReadRow s ward (veWord 0x28 d a 0 0 m k) m k err)

/-- LDR. -/
def execLdr (ward d a m k : Nat) (err : MemErr) (s : State) : Host.Outcome State Fault Refusal :=
  .next (veReadRow s ward (veWord 0x29 d a 0 0 m k) m k err)

/-- STT (DEDUCED, log 66). -/
def execStt (ward a b m : Nat) (s : State) : Host.Outcome State Fault Refusal :=
  .next (veRow s ward (veWord 0x2a 0 a b 0 m 0))

/-- PUSH. -/
def execPush (ward m : Nat) (s : State) : Host.Outcome State Fault Refusal :=
  .next (veRow s ward (veWord 0x2b 0 0 0 0 m 0))

/-- LDH. -/
def execLdh (ward d b m k : Nat) (s : State) : Host.Outcome State Fault Refusal :=
  .next (veRow s ward (veWord 0x2c d 0 b 0 m k))

/-- XALU. -/
def execXalu (ward d a b m : Nat) (s : State) : Host.Outcome State Fault Refusal :=
  .next (veRow s ward (veWord 0x30 d a b 0 m 0))

/-- XLDP. -/
def execXldp (ward d k : Nat) (s : State) : Host.Outcome State Fault Refusal :=
  .next (veRow s ward (veWord 0x31 d 0 0 0 0 k))

/-- BR. -/
def execBr (ward a b m k : Nat) (s : State) : Host.Outcome State Fault Refusal :=
  .next (veRow s ward (veWord 0x32 0 a b 0 m k))

/-- END. -/
def execEndKernel (ward : Nat) (s : State) : Host.Outcome State Fault Refusal :=
  .next (veRow s ward (veWord 0x33 0 0 0 0 0 0))

/-- KERF. -/
def execKerf (ward d a b c : Nat) (s : State) : Host.Outcome State Fault Refusal :=
  .next (veRow s ward (veWord 0x38 d a b c 0 0))

end Sys2Proof.Machine
end

