-- ==== Sys2Proof/Machine/Memory.lean ====
section
/-!
DEFINITION. Memory upkeep and atomics (11_memory_tiers.md, R275, R276, R279, R283, R288, R293, R294; 19_host_cores.md, R479), and the
shadow check (04_numerics_contract.md, R108 to R111).
-/

namespace Sys2Proof.Machine

/-! ### Host cores and PCIe as requesters (19, R474, R479, R486) -/

/-- A hart takes an exception: 2 illegal instruction, 5 load access fault, 6 store or AMO address misaligned, 7 store or AMO access
fault. -/
def hostTrap (s : State) (hart cause : Nat) : State := { s with host := { s.host with traps := s.host.traps ++ [(hart, cause)] } }

/-- A hart's register written; register 0 reads 0 and discards writes. -/
def hostReg (s : State) (hart rd v : Nat) : State :=
  if rd % 32 = 0 then s else { s with host := { s.host with regs := sset 0 s.host.regs (32 * hart + rd % 32) v } }

/-- A PCIe completion sent. -/
def tlp (s : State) (status v : Nat) : State := { s with host := { s.host with tlps := s.host.tlps ++ [(status, v)] } }

/-! ### Atomics (11, R275, R276) -/

/-- Operand formats: 0 INT32, 1 INT64, 2 unsigned 32, 3 unsigned 64, 4 FP32, 5 BF16. -/
def atomBytes (fmt : Nat) : Nat := if fmt = 1 ∨ fmt = 3 then 8 else if fmt = 5 then 2 else 4

/-- What an atomic stores: the operation, the old value and the operands (11, R275). -/
inductive AtomOp where
  | add | max | min | swap | cas
deriving DecidableEq, Repr

/-- The larger or smaller of two FP32 codes, as the VE's FMAX and FMIN; BF16 codes are the upper halves of FP32 codes. -/
def atomPick (less : Bool) (fmt a b : Nat) : Nat :=
  if fmt = 4 then (pick32 less a b).1 else (pick32 less (a * 2 ^ 16) (b * 2 ^ 16)).1 / 2 ^ 16

/-- The value that is stored, and the events of an ADD's result: it saturates, or is a NaN created (R276; infinite operands do not count). -/
def atomValue (op : AtomOp) (fmt old v cmp : Nat) : Nat × Ev :=
  let w := 8 * atomBytes fmt
  let less := fun (a b : Nat) => if fmt = 0 ∨ fmt = 1 then decide (signed w a < signed w b) else decide (a < b)
  match op with
  | .add =>
    if fmt = 4 then toFp32 ((ofFp32 old).1.add (ofFp32 v).1)
    else if fmt = 5 then toBf16 ((ofBf16 old).1.add (ofBf16 v).1) else ((old + v) % 2 ^ w, {})
  | .max => (if fmt ≥ 4 then atomPick false fmt old v else if less old v then v else old, {})
  | .min => (if fmt ≥ 4 then atomPick true fmt old v else if less v old then v else old, {})
  | .swap => (v, {})
  | .cas => (if old = cmp then v else old, {})

/-- Formats an operation has (11, R275). -/
def atomFmtOk (op : AtomOp) (fmt : Nat) : Bool :=
  match op with
  | .add => fmt == 0 || fmt == 1 || fmt == 4 || fmt == 5
  | .max => fmt ≤ 5
  | .min => fmt ≤ 5
  | .swap => fmt ≤ 3
  | .cas => fmt ≤ 3

/-- Sources: a hart 0 to 31, 32 PCIe in endpoint mode, 33 the MC. PCIe has ADD, SWAP and CAS of integers (11, R275). -/
def atomSourceOk (s : State) (src : Nat) (op : AtomOp) (fmt : Nat) : Bool :=
  src < 32 || src == 33 || (src == 32 && fg s MOD_PCIE_CFG_MODE 0 == 0 && fmt ≤ 3 && !(op == .max || op == .min))

/-- The answer to a source: a hart's rd takes the old value (a 32-bit integer sign-extended, as the AMO instructions do), PCIe a
completion; the MC keeps it to itself. -/
def atomAnswer (s : State) (src rd fmt old : Nat) : State :=
  if src < 32 then hostReg s src rd (if fmt = 0 ∨ fmt = 2 then (signed 32 old % 2 ^ 64).toNat else old)
  else if src = 32 then tlp s 0 old else s

/-- The refusal of a source: an exception, or Completer Abort. -/
def atomRefuse (s : State) (src cause : Nat) : State := if src < 32 then hostTrap s src cause else if src = 32 then tlp s 4 0 else s

/-- An atomic on a Tier 1 address: a misaligned one and one elsewhere are refused; one that meets an uncorrectable error delivers
nothing (11, R275, R276, R291; 19, R479). It is not performed in the harts' caches: their copies are invalidated, and the hart's own earlier
stores are visible before it (DEDUCED, log 53). -/
def atomic (s : State) (op : AtomOp) (src rd addr fmt v cmp : Nat) (err : MemErr) : State :=
  if !atomFmtOk op fmt || !atomSourceOk s src op fmt then s
  else
    let n := atomBytes fmt
    if addr % n ≠ 0 then atomRefuse s src 6
    else if addr + n > tier1Size then atomRefuse s src 7
    else
      match poisonDetail s addr n, meetErr s err [(addr, n)] with
      | some d, _ => atomRefuse (noteUe s d 0) src 7
      | none, (s1, some d) => atomRefuse (noteUe s1 d 0) src 7
      | none, (s1, none) =>
      let s := if src < 32 then hostFence s1 src else s1
      let old := ofBytesLE (memRead s addr n)
      let (x, e) := atomValue op fmt old (v % 2 ^ (8 * n)) (cmp % 2 ^ (8 * n))
      let d := t1Stack s addr
      let s1 := bump (bump s DIST_ATOMIC_OVERFLOW d e.ovf) DIST_ATOMIC_NAN_CREATED d e.nanc
      atomAnswer (moverWrite (cacheTouch s1 addr true true) false addr (toBytesLE n x)) src rd fmt old

/-- ATOMIC_ADD (11, R275). -/
def execAtomicAdd (src rd addr fmt v : Nat) (err : MemErr) (s : State) : Host.Outcome State Fault Refusal := .next (atomic s .add src rd addr fmt v 0 err)

/-- ATOMIC_MAX (11, R275). -/
def execAtomicMax (src rd addr fmt v : Nat) (err : MemErr) (s : State) : Host.Outcome State Fault Refusal := .next (atomic s .max src rd addr fmt v 0 err)

/-- ATOMIC_MIN (11, R275). -/
def execAtomicMin (src rd addr fmt v : Nat) (err : MemErr) (s : State) : Host.Outcome State Fault Refusal := .next (atomic s .min src rd addr fmt v 0 err)

/-- ATOMIC_SWAP (11, R275). -/
def execAtomicSwap (src rd addr fmt v : Nat) (err : MemErr) (s : State) : Host.Outcome State Fault Refusal := .next (atomic s .swap src rd addr fmt v 0 err)

/-- ATOMIC_CAS (11, R275). -/
def execAtomicCas (src rd addr fmt v cmp : Nat) (err : MemErr) (s : State) : Host.Outcome State Fault Refusal := .next (atomic s .cas src rd addr fmt v cmp err)

/-- AMOFADD.S (19, R479). -/
def execAmofaddS (hart rd addr v : Nat) (err : MemErr) (s : State) : Host.Outcome State Fault Refusal := .next (atomic s .add (hart % 32) rd addr 4 v 0 err)

/-- AMOFADD.B (19, R479). -/
def execAmofaddB (hart rd addr v : Nat) (err : MemErr) (s : State) : Host.Outcome State Fault Refusal := .next (atomic s .add (hart % 32) rd addr 5 v 0 err)

/-- AMOFMAX.S (half 0) and AMOFMAX.B (19, R479). -/
def execAmofmax (hart rd addr v half : Nat) (err : MemErr) (s : State) : Host.Outcome State Fault Refusal :=
  .next (atomic s .max (hart % 32) rd addr (4 + half % 2) v 0 err)

/-- AMOFMIN.S (half 0) and AMOFMIN.B (19, R479). -/
def execAmofmin (hart rd addr v half : Nat) (err : MemErr) (s : State) : Host.Outcome State Fault Refusal :=
  .next (atomic s .min (hart % 32) rd addr (4 + half % 2) v 0 err)

/-! ### Patrol scrub (11, R287, R288, R293, R294) -/

/-- The class of a store by its code: 0 Tier 1, 1 Tier 2, 2 SRAM. -/
def scrubClass (store : Nat) : Nat := if store ≤ 3 then 0 else if store ≤ 6 then 1 else 2

/-- The bytes of one unit of a store: a stack, a device, a ward store, an ME's accumulators, a slice, a descriptor memory, a kernel store
(11, the protection table: default bytes per frame times frames of the default pass; 06, R150; 07, R186). -/
def scrubUnitSize (store : Nat) : Nat :=
  match store with
  | 7 => wardSize
  | 8 => 0x80000
  | 9 => sliceSize
  | 10 => 0x8000
  | 11 => kstoreSize
  | _ => if store ≤ 3 then tier1Size / 20 else tier2Size / 32

/-- The units of a store: those of the logical wards in effect. -/
def scrubUnits (s : State) (store : Nat) : Nat :=
  match store with
  | 7 => wardCount s
  | 8 => 4 * wardCount s
  | 9 => 20
  | 10 => wardCount s
  | 11 => wardCount s
  | _ => if store ≤ 3 then 20 else 32

/-- The stores of a class, each under one code. -/
def classStores (c : Nat) : List Nat := if c = 0 then [1] else if c = 1 then [4] else [7, 8, 9, 10, 11]

/-- The unit of a store in the list of places: the store under its class's code, times 2^12, and the unit. -/
def scrubKey (store unit : Nat) : Nat := (if store ≤ 3 then 1 else if store ≤ 6 then 4 else store) * 2 ^ 12 + unit

/-- Where byte k of a unit, in the order of its scrub, stands in memory. -/
def scrubAddr (s : State) (store unit k : Nat) : Nat :=
  match store with
  | 7 => wardStoreKey unit k
  | 8 => accumKey unit k
  | 9 => sliceKey unit k
  | 10 => descKey unit 0 + k
  | 11 => kstoreKey unit k
  | _ => if store ≤ 3 then t1Offset (fg s MOD_T1_CFG_LOCAL_GIB 0) unit k else tier2Base + (k / 256 * 32 + unit) * 256 + k % 256

/-- The place of a location (11, R295) in the order of its unit's scrub, with the unit that holds it. -/
def scrubPlace (s : State) (store unit loc : Nat) : Nat × Nat :=
  if store ≤ 3 then (t1Stack s loc, t1Local s loc) else if store ≤ 6 then (t2Device loc, loc / 256 / 32 * 256 + loc % 256) else (unit, loc)

def scrubOf (s : State) (c : Nat) : Scrub := nth s.scrubs c {}
def setScrub (s : State) (c : Nat) (x : Scrub) : State := { s with scrubs := setNth s.scrubs c x }

/-- How far the pass in progress has read a unit. -/
def scrubPos (s : State) (store unit : Nat) : Nat := sget 0 (scrubOf s (scrubClass store)).places (scrubKey store unit)

/-- Whether a pass has read every location of every store of a class (R288). -/
def scrubWhole (s : State) (c : Nat) : Bool :=
  (classStores c).all (fun store => (below (scrubUnits s store)).all (fun u => decide (scrubPos s store u ≥ scrubUnitSize store)))

/-- The scrub's place in a unit moved on; a pass that has read everything counts, modulo 256, and the next begins. -/
def scrubMove (s : State) (store unit n : Nat) : State :=
  let c := scrubClass store
  let x := scrubOf s c
  let s1 := setScrub s c { x with places := sset 0 x.places (scrubKey store unit) (scrubPos s store unit + n) }
  if !scrubWhole s1 c then s1
  else
    let f := if c = 0 then MOD_SCRUB_STATUS_T1_PASSES else if c = 1 then MOD_SCRUB_STATUS_T2_PASSES else MOD_SCRUB_STATUS_SRAM_PASSES
    fs (setScrub s1 c {}) f 0 (fg s1 f 0 + 1)

/-- A frame passes over the scrubs: a pass past twice its length, or an SRAM pass past 2^17 frames, is late (11, R288). -/
def scrubFrame (s : State) : State :=
  (below 3).foldl (fun t c =>
    let x := scrubOf t c
    let top := if c = 2 then 2 ^ 17 else 2 ^ 25
    let f := if c = 0 then MOD_SCRUB_STATUS_T1_LATE else if c = 1 then MOD_SCRUB_STATUS_T2_LATE else MOD_SCRUB_STATUS_SRAM_LATE
    let t1 := setScrub t c { x with age := x.age + 1 }
    if x.age + 1 > top then fs t1 f 0 1 else t1) s

/-- A location beyond correction that the scrub finds (11, R293, R294): poisoned or marked; of a line of the shared cache, a clean one is
refetched and counts as a correction, a dirty one is written back with its sectors poisoned, and a way that holds nothing loses nothing. A
sector that is poisoned already is no error. -/
def scrubUe (s : State) (store unit loc : Nat) : State :=
  let a := scrubAddr s store unit (scrubPlace s store unit loc).2
  let d := ueAt s 1 a
  let lost := if a < 2 ^ 61 && poisoned s (sectorOf a) (sectorSize a) then s else backgroundNote (markLost s a) d
  if store ≠ 9 then lost
  else
    let set := loc % 0x80000 / 256
    let way := loc / 0x80000
    if !(freeWays (slicePins s unit) set).contains way then lost
    else
      match (heldLines s (unit * 2048 + set)).find? (fun l => l.way == way) with
      | none => s
      | some l =>
        let s1 := dropLine s (unit * 2048 + set) way
        if !l.dirty then noteCorrected s1 a 1
        else
          let t1 := t1Offset (fg s MOD_T1_CFG_LOCAL_GIB 0) unit (l.block * 256)
          backgroundNote (poisonAt (noteWorn s1 a) t1 256) d

/-- PATROL_SCRUB (11, R288): a step of at most `bytes` bytes in a unit of a store (by R295), from where its pass stands, under the scrub's
budget; it finds `corrected` words to correct and, with uncorr not 0, an uncorrectable one at the location loc of its run. -/
def execPatrolScrub (store unit loc bytes energy corrected uncorr : Nat) (s : State) : Host.Outcome State Fault Refusal :=
  let n := min bytes (scrubUnitSize store - scrubPos s store unit)
  let place := scrubPlace s store unit loc
  .next (if store = 0 ∨ store > 11 ∨ unit ≥ scrubUnits s store ∨ n = 0 then s
    else withBudget s actScrub n 0 energy (fun t =>
      let t1 := noteCorrected t (scrubAddr t store unit 0) corrected
      let t2 := if uncorr ≠ 0 ∧ place.1 = unit ∧ scrubPos s store unit ≤ place.2 ∧ place.2 < scrubPos s store unit + n
        then scrubUe t1 store unit loc else t1
      observe (scrubMove t2 store unit n)))

/-! ### Links of the tiers (11, R279, R280, R283) -/

/-- At a frame's end a Tier 2 device past 64 resends is due for retraining in a following frame; the counts start afresh (R283). -/
def linksFrame (s : State) : State :=
  let due := (below 32).filter (fun k => sget 0 s.links.resent (1024 + k) > 64 && !s.links.due.contains k)
  { s with links := { resent := [], due := s.links.due ++ due } }

/-- T2_RETRAIN (R283): a device that is due is retrained, under the calibration budget. -/
def execT2Retrain (device energy : Nat) (s : State) : Host.Outcome State Fault Refusal :=
  .next (if s.links.due.contains device then
      withBudget s actCalib 0 0 energy (fun t =>
        bump { t with links := { t.links with due := t.links.due.filter (· != device) } } MOD_T2_DEV_RETRAINS device 1)
    else s)

/-- A write of MOD_T1_CFG (R279): NEXT_LOCAL_GIB is kept while a job is assigned, and against a value above 24. -/
def writeT1Cfg (s : State) (v : Word) : State :=
  let g := fieldIn v MOD_T1_CFG_NEXT_LOCAL_GIB
  if g > 24 then fs (writeFields s MOD_T1_CFG 0 (withField v 12 8 (fg s MOD_T1_CFG_NEXT_LOCAL_GIB 0))) MOD_T1_CFG_WRITE_REFUSED 0 1
  else writeGuarded s MOD_T1_CFG 0 v (if hasJob s then [ MOD_T1_CFG_NEXT_LOCAL_GIB] else []) MOD_T1_CFG_WRITE_REFUSED 0

/-! ### The shadow check (04, R108 to R111) -/

/-- Σ in FP32 in order from +0. -/
def sum32 (xs : List Nat) : Nat := xs.foldl (fun a x => (fadd32 a x).1) 0

/-- D of R109, in FP32: none where it goes to bucket 15 outright, as where the sum of r squared underflows to 0 while every y is 0 and some r
is not (DESIGN CHOICE, log 69). -/
def shadowDeviation (y r : List Nat) : Option Nat :=
  let ps := y.zip r
  if (y ++ r).any (fun x => (ofFp32 x).1.isNan) then none
  else if ps.all (fun p => (fsub32 p.1 p.2).1 % 2 ^ 31 == 0) then some 0
  else
    let num := sum32 (ps.map (fun p => let d := (fsub32 p.1 p.2).1; (fmul32 d d).1))
    let den := sum32 (r.map (fun x => (fmul32 x x).1))
    if den % 2 ^ 31 = 0 then none else some (fsqrt32 (fdiv32 num den).1).1

/-- The bucket of a deviation: by its FP32 exponent, D < 2^-16 in 0 and D ≥ 2^-2 in 15 (R109). -/
def shadowBucket (d : Option Nat) : Nat :=
  match d with
  | none => 15
  | some w =>
    let e := bits w 30 23
    if e < 111 then 0 else min 15 (e - 110)

/-- A sample counted in its group's histogram and checks, with WARN, ALERT and the event of an ALERT (R110). -/
def countSample (s : State) (x : Sample) : State :=
  let g := bits x.tag 15 8
  let b := shadowBucket (shadowDeviation x.y x.r)
  let h := if b % 2 = 1 then MOD_SHADOW_HIST_BUCKET_ODD else MOD_SHADOW_HIST_BUCKET_EVEN
  let s1 := bump (bump s h (8 * g + b / 2) 1) MOD_SHADOW_GRP_CNT_CHECKED g 1
  let s2 := if b ≥ fg s1 MOD_SHADOW_GRP_CFG_WARN_BUCKET g then fs s1 MOD_SHADOW_GRP_CNT_WARN g 1 else s1
  if b ≥ fg s2 MOD_SHADOW_GRP_CFG_ALERT_BUCKET g then raiseEvent (fs s2 MOD_SHADOW_GRP_CNT_ALERT g 1) 0x0002 x.tag x.ward x.step g else s2

/-- SHADOW_SAMPLE (R108): the oldest sample is checked on the district's free physical ward, once that ward is ACTIVE (17, R423) and the shadow
budget has the engine slots and the energy it takes; it is skipped with no free ward, or where a copy meets an uncorrectable error (err 1) (R111; DEDUCED, log 52). -/
def execShadowSample (slots energy err : Nat) (s : State) : Host.Outcome State Fault Refusal :=
  .next (match s.samples with
    | [] => s
    | x :: rest =>
      let free := freeWards s (districtOf s x.ward)
      if free.isEmpty then skipSample { s with samples := rest } x.tag
      else if (pward s (free.headD 0)).st ≠ 0 ∨ (pward s (free.headD 0)).stage ≠ 0 then s
      else withBudget s actShadow 0 slots energy (fun t =>
        let t1 := { t with samples := rest }
        if err = 1 then skipSample t1 x.tag else countSample t1 x))

/-- A write of MOD_SHADOW_CFG or of a group's configuration waits for the step boundary; an N_LOG2 outside 4 to 16 is ignored (R111,
MOD_SHADOW_CFG). -/
def writeShadowCfg (s : State) (v : Word) : State :=
  let n := fieldIn v MOD_SHADOW_CFG_N_LOG2
  let now := ((s.mc.stepRegs.find? (fun p => p.1 == MOD_SHADOW_CFG.key 0)).map Prod.snd).getD (rd s MOD_SHADOW_CFG 0)
  atStep s MOD_SHADOW_CFG 0 (writeWord MOD_SHADOW_CFG now (if 4 ≤ n ∧ n ≤ 16 then v else withField v 4 0 (fieldIn now MOD_SHADOW_CFG_N_LOG2)))

def writeShadowGrp (s : State) (g : Nat) (v : Word) : State := atStep s MOD_SHADOW_GRP_CFG g (writeWord MOD_SHADOW_GRP_CFG (rd s MOD_SHADOW_GRP_CFG g) v)

/-- A write of MOD_SHADOW_GRP_CNT: clearing ALERT clears SKIPPED and CHECKED too (04, MOD_SHADOW_GRP_CNT). -/
def writeShadowCnt (s : State) (g : Nat) (v : Word) : State :=
  let s1 := writeFields s MOD_SHADOW_GRP_CNT g v
  if fieldIn v MOD_SHADOW_GRP_CNT_ALERT = 1 then fs (fs s1 MOD_SHADOW_GRP_CNT_SKIPPED g 0) MOD_SHADOW_GRP_CNT_CHECKED g 0 else s1

end Sys2Proof.Machine
end

