-- ==== Sys2Proof/Machine/Frames.lean ====
section
/-!
DEFINITION. Frames (16_frames_power_thermal.md, R383 to R388, R394, R395, R400, R403, R409 to R411): the frame pulse and its word, the loss
of the frame input, synthesised frames, and everything that a frame's opening does.
-/

namespace Sys2Proof.Machine

/-! ### The frame that ends (R394, R395, R400, R403) -/

/-- Mean input power of the frame that ends, and its mean uncorrected estimate, W (R416). -/
def measW (s : State) : Nat := s.pwr.measUj / max s.pwr.samples 1
def estW (s : State) : Nat := s.pwr.estUj / max s.pwr.samples 1

/-- The highest stack control temperature and die sensor reading as 16-bit codes. -/
def stackCode (s : State) : Nat := temp16 (fg s THM_STATUS_HOTTEST 0)
def dieCode (s : State) : Nat := (hottestDie s % 2 ^ 16).toNat

/-- Whether measured power exceeded the received grant; no grant has been received before the first good word. -/
def overGrant (s : State) : Bool := s.pwr.goodWord && decide (measW s > fg s PWR_GRANT_GRANT_RX 0)

/-- FLAGS of the energy record (R400). -/
def recFlags (s : State) : Nat :=
  let target := min (configPoint s) (min (fg s PWR_VF_CEIL_POWER 0) (fg s PWR_VF_CEIL_PACE 0))
  b2n (frameSynth s) + 2 * b2n s.pwr.badWord + 4 * b2n s.pwr.urgent + 8 * b2n (!s.pwr.causes.isEmpty) +
  16 * b2n (decide (fg s PWR_VF_CEIL_THERM 0 < target)) + 32 * b2n (overGrant s) + 64 * fg s PWR_VF_FOLLOWING 0 +
  128 * (fg s PWR_PACE_NOTICE 0 / 2 ^ 15)

/-- The energy record of the frame that ends (R400); `len` is its length in µs. -/
def closeRecord (s : State) (len : Nat) : State :=
  let p := s.pwr
  let r : ERec :=
    { frame := frameNum s, flags := recFlags s, grant := fg s PWR_GRANT_GRANT_EFF 0, meas := p.measUj / 1000
      est := corrected s p.estUj / 1000, point := pointNow s, bubF := p.bubSum / max p.bubCnt 1, stackT := stackCode s, dieT := dieCode s
      period := len, job := if hasJob s then p.jobUj / 1000 else 0 }
  let s1 := fs (fs s PWR_POWER_MEAS 0 (min 0xFFFF (measW s))) PWR_POWER_EST 0 (min 0xFFFF (estW s))
  let s2 := fs s1 PWR_CHAIN_VIN_CORE_I 0 (min 0xFFFF (p.vinSum / max p.samples 1))
  { s2 with pwr := { p with ring := (p.ring ++ [r]).drop (p.ring.length + 1 - 1024) }
            life := { s2.life with frames := s2.life.frames + b2n (!frameSynth s), energy := s2.life.energy + p.measUj / 1000 } }

/-- ENVELOPE_SHORT raised, once in an episode (R394, R395). -/
def envelopeShort (s : State) : State :=
  if fg s PWR_ENV_SHORT_NOW 0 = 1 then s
  else raiseEvent (fs (fs s PWR_ENV_SHORT 0 1) PWR_ENV_SHORT_NOW 0 1) 0x0003 0 0 (fg s PWR_GRANT_GRANT_RX 0) (measW s)

/-- Over-grant frames: the count, ENVELOPE_SHORT in and out of fixed-frequency mode, the falls of fixed mode (R394, R395). -/
def envelope (s : State) : State :=
  let past := overGrant s
  let fixed := fg s PWR_CTRL_FIXED_EN 0 == 1
  let run := if past && fixed then s.pwr.overRun + 1 else 0
  let low := if past && !fixed && pointNow s == 0 && s.pwr.fullB then min 64 (s.pwr.shortRun + 1) else 0
  let s1 := bump s PWR_ENV_OVER_FRAMES 0 (b2n past)
  let s2 := { s1 with pwr := { s1.pwr with overRun := run % 64, shortRun := low } }
  let s3 := if past then s2 else fs s2 PWR_ENV_SHORT_NOW 0 0
  if fixed then
    if run = 64 then
      let s4 := envelopeShort s3
      if fg s4 PWR_CTRL_STEP_DOWN 0 = 1 ∧ configPoint s4 > 0 then
        bump { s4 with pwr := { s4.pwr with stepDown := s4.pwr.stepDown + 1 } } PWR_ENV_STEPDOWNS 0 1
      else s4
    else s3
  else if low ≥ 64 then envelopeShort s3 else s3

/-- The estimator's error over the last 16 frames: drift raised, k taken, drift cleared (R403). -/
def driftCheck (s : State) : State :=
  let xs := ((estW s, measW s) :: s.pwr.ests).take 16
  let s1 := { s with pwr := { s.pwr with ests := xs } }
  let e := sumNat (xs.map Prod.fst)
  let m := sumNat (xs.map Prod.snd)
  if xs.length < 16 ∨ m = 0 then s1
  else
    let err : Int := (e : Int) - m
    let pct : Int := max (-128) (min 127 (err * 100 / m))
    let code := (pct % 256).toNat
    let near := decide (err.natAbs * 100 ≤ 6 * m)
    let k : Nat × Nat := if m * 2 < e then (1, 2) else if m > 2 * e then (2, 1) else (m, e)
    let kCode := min 255 (128 * k.1 / k.2)
    let settled := if near then min 64 (s1.pwr.settled + 1) else 0
    let s2 := fs { s1 with pwr := { s1.pwr with settled := settled } } PWR_EST_ERR 0 code
    if fg s2 PWR_EST_DRIFT 0 = 1 then
      if s2.pwr.recal && settled ≥ 64 then fs (fs { s2 with pwr := { s2.pwr with k := (1, 1) } } PWR_EST_DRIFT 0 0) PWR_EST_K 0 0x80
      else fs { s2 with pwr := { s2.pwr with k := k } } PWR_EST_K 0 kCode
    else if err.natAbs * 100 > 12 * m then
      let s3 := fs (fs s2 PWR_EST_DRIFT 0 1) PWR_EST_DRIFT_SEEN 0 1
      raiseEvent (fs { s3 with pwr := { s3.pwr with k := k, recal := false } } PWR_EST_K 0 kCode) 0x0004 0 0 code kCode
    else s2

/-! ### The frame that opens -/

/-- The frame number that a new frame shows: it continues from the last (R386). -/
def setFrameNum (s : State) (n : Nat) : State :=
  fs (wr s PWR_FRAME_NUM_LO 0 (BitVec.ofNat 32 n)) PWR_FRAME_NUM_HI_FRAME_HI 0 (n / 2 ^ 32)

/-- The lowest envelope (R388). -/
def minGrant : Nat := 300

def setGrant (s : State) (g : Nat) : State := fs s PWR_GRANT_GRANT_EFF 0 (max minGrant (min 0xFFF g))

/-- The grant that takes effect (R385); answers whether it is URGENT. -/
def takeGrant (s : State) : State × Bool :=
  match s.pwr.next with
  | none => (s, false)
  | some (g, u) => (setGrant { s with pwr := { s.pwr with next := none } } g, u)

/-- The power ceiling C: lowered at once, raised by at most 8 W per ms unless the grant is URGENT (R389, R409). -/
def moveCeiling (s : State) (len : Nat) (urgent : Bool) : State :=
  let g := fg s PWR_GRANT_GRANT_EFF 0
  { s with pwr := { s.pwr with ceil := if urgent then g else min g (s.pwr.ceil + 8 * len / 1000) } }

/-- The grant of a synthesised frame k of a loss that began at the grant g (R387): linear to the lost-frame grant at the eighth. -/
def lostGrant (s : State) (g k : Nat) : State :=
  let n := min k 8
  if s.pwr.goodWord then setGrant s ((100 * g * (8 - n) + fg s PWR_GRANT_GRANT_RX 0 * fg s PWR_CTRL_LOST_PCT 0 * n) / 800) else s

/-- A synthesised frame's grant, in a loss (R387). -/
def lostStep (s : State) : State :=
  match s.pwr.lossFrom with
  | some (g, k) => lostGrant s g k
  | none => s

/-- Temperature of a physical ward (R404, R408). -/
def physTemp (s : State) (p : Nat) : Int := wardTemp s (p / 5) (p % 5)

/-- The physical ward of a list with the highest (or lowest) temperature, the lower position among ties. -/
def pickWard (better : Int → Int → Bool) (s : State) (ps : List Nat) : Option Nat :=
  match ps with
  | [] => none
  | p :: rest => some (rest.foldl (fun b q => if better (physTemp s q) (physTemp s b) then q else b) p)

/-- A district's rotation, with ROT_EN set (R410): a difference past ROT_DELTA for 16 frames pre-wakes the coolest free ward. -/
def rotateCheck (s : State) (d : Nat) : State :=
  let x := { distOf s d with since := min 0xFFFF ((distOf s d).since + 1) }
  let held := (rangeFrom (5 * d) 5).filter (fun p => (logicalAt s p).isSome)
  match pickWard (fun a b => decide (a > b)) s held, pickWard (fun a b => decide (a < b)) s (freeWards s d) with
  | some h, some c =>
    let past := fg s THM_CFG_ROT_EN 0 == 1 && decide (physTemp s h - physTemp s c > (fg s THM_CFG_ROT_DELTA 0 : Int))
    let hot := if past then min 16 (x.hot + 1) else 0
    let s1 := setDist s d { x with hot := hot }
    if hot ≥ 16 ∧ x.rotate.isNone ∧ x.since ≥ fg s THM_CFG_ROT_MIN 0 then
      match logicalAt s h with
      | some w => wakeWard (setDist s1 d { x with hot := hot, rotate := some (w - firstWard s d, c % 5) }) c 4
      | none => s1
    else s1
  | _, _ => setDist s d { x with hot := 0 }

/-- COOLANT_DEGRADED (R411): after 1,024 frames with the thermal point below the power point. -/
def coolantCheck (s : State) : State :=
  let th := fg s PWR_VF_CEIL_THERM 0
  let run := if th < fg s PWR_VF_CEIL_POWER 0 then min 1024 (s.pwr.hotRun + 1) else 0
  let s1 := { s with pwr := { s.pwr with hotRun := run } }
  if run = 1024 ∧ s.pwr.hotRun < 1024 then
    let k := ((below 20).find? (fun i => fg s THM_STACK_CTL_CONTROL i == fg s THM_STATUS_HOTTEST 0)).getD 0
    raiseEvent (fs s1 THM_STATUS_COOLANT_DEGRADED 0 1) 0x0005 0 0 th k
  else s1

/-- A deferred wake that meets a pulse holds the district's other wards (15, R381). -/
def lateWakes (s : State) : State :=
  s.pwards.foldl (fun t p =>
    let x := pward t p.1
    if !x.late then t
    else
      let d := p.1 / 5
      let t1 := setPward t p.1 { x with pulses := x.pulses + 1 }
      if (distOf t1 d).hold then t1 else bump (setDist t1 d { distOf t1 d with hold := true }) PWR_WAKE_WAKE_BUBBLED d 1) s

/-- What counts frames: waits on EXT flags (06, R164), aborts (06, R173), quiescence (06, R166), the straggler entries (16, R398), stream
faults in the failure record (20, R502), crossings that slipped (17, R439). -/
def countFrames (s : State) : State :=
  let s1 := { s with streams := smapVals {} (fun m x => { x with
      waitPulse := if waitsExt s m then x.waitPulse + 1 else x.waitPulse
      abort := x.abort.map (fun a => { a with pulses := a.pulses + 1 }) }) s.streams }
  let s2 := (below 32).foldl (fun t k =>
    let x := stragRt t k
    { t with strag := sset {} t.strag k { x with heard := min 255 (x.heard + 1), charged := min 255 (x.charged + 1) } }) s1
  { s2 with
    quiet := if quiescent s2 ∧ fg s2 MOD_QUIESCE_CFG_ENABLE 0 = 1 then some (match s2.quiet with | none => 0 | some k => k + 1) else s2.quiet
    store := { s2.store with fail := { s2.store.fail with faults := 0 } }
    xings := smapVals {} (fun _ x => if x.late > 0 then { x with due := true } else x) s2.xings }

/-- The measurements of a frame start afresh. -/
def freshFrame (s : State) : State :=
  { s with pwr := { s.pwr with
      samples := 0, measUj := 0, estUj := 0, dynSum := 0, vinSum := 0, bubSum := 0, bubCnt := 0, fullB := true, limit := false
      badWord := false, hints := s.pwr.hints.drop 1 } }

/-- A frame opens (R383, R387): the ended frame is accounted, the frame number goes on, and everything scheduled by frames happens; an
operation of the page pool, which takes 1 µs at most, has ended by then (10, R256). `len` is the length of the frame that ended, µs. -/
def openFrame (s : State) (synth : Bool) (len : Nat) : State :=
  let m := measW s
  let d := s.pwr.dynSum / max s.pwr.samples 1
  let s1 := driftCheck (envelope (closeRecord (endPoolOp s) len))
  let s2 := fs (setFrameNum s1 ((frameNum s1 + 1) % 2 ^ 40)) PWR_FRAME_STATUS_SYNTH 0 (b2n synth)
  let (s3, urgent) := takeGrant (pulseRegs s2)
  let s4 := moveCeiling { (if synth then lostStep s3 else s3) with pwr := { s3.pwr with urgent := urgent } } len urgent
  let s5 := coolantCheck (slowLoop (countFrames (freshFrame s4)) m d urgent)
  let s6 := lateWakes (if pointFree s5 then (below 20).foldl rotateCheck s5 else s5)
  observe (ageFabric (linksFrame (passFrame (scrubFrame (refillBudgets s6)))))

/-! ### The rows -/

/-- FRAME_PULSE (R383, R385, R387): a pulse `since` µs after the last accepted one (before the first, after the frame in progress began). -/
def execFramePulse (since : Nat) (s : State) : Host.Outcome State Fault Refusal :=
  let p := s.pwr
  .next (if p.seen ∧ since < 500 then bump s PWR_FRAME_STATUS_RUNT 0 1
    else
      let s1 := if p.awaits then bump { s with pwr := { p with badWord := true } } PWR_FRAME_STATUS_CRC_FAIL 0 1 else s
      let s2 := if p.seen ∧ !frameSynth s then fs s1 PWR_FRAME_PERIOD_PERIOD 0 (min 0xFFFF since) else s1
      let gone := match p.lossFrom with
        | some (_, k + 1) => 4000 + k * fg s PWR_FRAME_PERIOD_PERIOD 0
        | _ => 0
      let s3 := openFrame s2 false (since - gone)
      { s3 with pwr := { s3.pwr with lossFrom := none, awaits := true, seen := true } })

/-- FRAME_WORD (R384 to R386): the word that follows an accepted pulse. -/
def execFrameWord (word : Nat) (s : State) : Host.Outcome State Fault Refusal :=
  let w := word % 2 ^ 64
  let bytes := (below 7).map (fun i => bits w (63 - 8 * i) (56 - 8 * i))
  let s1 := { s with pwr := { s.pwr with awaits := false } }
  .next (if !s.pwr.awaits then s
    else if crc8 bytes ≠ bits w 7 0 then bump { s1 with pwr := { s1.pwr with badWord := true } } PWR_FRAME_STATUS_CRC_FAIL 0 1
    else
      let n := bits w 63 24
      let g := bits w 23 12
      let hold := bit w 10
      let jump := match s.pwr.lastNum with
        | some k => n != (k + 1) % 2 ^ 40
        | none => false
      let s2 := fs (setFrameNum s1 n) PWR_GRANT_FLAGS 0 (bits w 11 8)
      let s3 := if jump then fs s2 PWR_FRAME_STATUS_JUMP 0 1 else s2
      let s4 := if hold then s3 else fs s3 PWR_GRANT_GRANT_RX 0 g
      { s4 with pwr := { s4.pwr with lastNum := some n, goodWord := true, next := if hold then none else some (g, bit w 11) } })

/-- FRAME_LOSS (R387): no pulse accepted for 4 ms. A grant announced for a pulse that never came is dropped. -/
def execFrameLoss (s : State) : Host.Outcome State Fault Refusal :=
  .next (if !s.pwr.seen ∨ s.pwr.lossFrom.isSome then s
    else
      let s1 := raiseEvent (fs s PWR_FRAME_STATUS_LOST 0 1) 0x0009 0 0 (s.pwr.lastNum.getD 0) 0
      { s1 with pwr := { s1.pwr with next := none, lossFrom := some (fg s PWR_GRANT_GRANT_EFF 0, 0) } })

/-- FRAME_SYNTH (R387, R388): a frame synthesised in a loss, or before the first pulse. -/
def execFrameSynth (s : State) : Host.Outcome State Fault Refusal :=
  .next (match s.pwr.lossFrom with
    | some (g, k) =>
      let s1 := bump s PWR_FRAME_PERIOD_SYNTH_CNT 0 1
      let s2 := if s1.pwr.awaits then bump { s1 with pwr := { s1.pwr with awaits := false, badWord := true } } PWR_FRAME_STATUS_CRC_FAIL 0 1 else s1
      openFrame { s2 with pwr := { s2.pwr with lossFrom := some (g, k + 1) } } true
        (if k = 0 then 4000 else fg s PWR_FRAME_PERIOD_PERIOD 0)
    | none => if s.pwr.seen then s else openFrame (bump s PWR_FRAME_PERIOD_SYNTH_CNT 0 1) true 1000)

end Sys2Proof.Machine
end

