-- ==== Sys2Proof/Machine/HostCores.lean ====
section
/-!
DEFINITION. The host complex and its PCIe port (19_host_cores.md, R471 to R488; 21_pins_electrical.md, R519): harts, the host clock, flag
watches, PCIe modes and reset, and the host block device.
-/

namespace Sys2Proof.Machine

/-! ### Harts (R483, R484) -/

def hostEntry : Nat := bootBase
def hostTree : Nat := 0x0077FFF00000

/-- A hart starts at the boot-stage entry with its number in a0 (x10) and the devicetree's address in a1 (x11) (R483) (DESIGN CHOICE, log 64). -/
def startHart (s : State) (h : Nat) : State :=
  let running := fg s MOD_HOST_RUN_RUNNING 0
  if h ≥ fg s MOD_HOST_CLK_CORES 0 ∨ bit running h then s
  else hostReg (hostReg (fs s MOD_HOST_RUN_RUNNING 0 (running + 2 ^ h)) h 10 h) h 11 hostTree

/-- The handoff (R483): the boot stage and the devicetree are copied into the top of Tier 1, and hart 0 starts. -/
def handoff (s : State) : State :=
  let m := sdropRange bootBase (bootBase + bootSize) s.mem
  startHart { s with boot := true, mem := m, poison := s.poison.filter (fun p => !(bootBase ≤ p * 4 && p * 4 < bootBase + bootSize)) } 0

/-- MOD_HOST_RELEASE written: each bit starts a hart, ignored for one that runs or is not present. -/
def releaseHarts (s : State) (v : Word) : State := (below 32).foldl (fun t h => if bit v.toNat h then startHart t h else t) s

/-- A write of MOD_HOST_RELEASE, which has an effect once stage 8 has handed off to hart 0, and not in STANDBY (R483, R484; 20, R489). -/
def writeRelease (s : State) (v : Word) : State :=
  if fg s MOD_BOOT_STATUS_STAGE 0 = 0 ∨ s.mc.stages.contains 8 ∨ s.standby then s else releaseHarts s v

/-- HART_RELEASE (R483, R484). -/
def execHartRelease (value : Word) (s : State) : Host.Outcome State Fault Refusal := .next (writeRelease s value)

/-- HART_STOP (R484): a hart's hart-stop call. Its core is power-gated: what its caches and its stores held is in memory first (DEDUCED, log 64). -/
def execHartStop (hart : Nat) (s : State) : Host.Outcome State Fault Refusal :=
  let running := fg s MOD_HOST_RUN_RUNNING 0
  let s1 := hostFence s hart
  let s2 := { s1 with host := { s1.host with lines := s1.host.lines.filter (fun l => l.hart != hart), resv := s1.host.resv.filter (fun r => r.1 != hart) } }
  .next (if hart < 32 ∧ bit running hart then fs s2 MOD_HOST_RUN_RUNNING 0 (running - 2 ^ hart) else s)

/-! ### The host clock (R472, R473) -/

/-- A change of host point begins: a fall lowers the clock at once, a rise raises it when the change ends. -/
def beginHostPoint (s : State) (p : Nat) : State :=
  let s1 := fs s MOD_HOST_CLK_POINT 0 p
  if hostForced s1 ∨ p = fg s1 MOD_HOST_CLK_CURRENT 0 then s1
  else
    let s2 := fs s1 MOD_HOST_CLK_CHANGING 0 1
    if p < fg s2 MOD_HOST_CLK_CURRENT 0 then fs s2 MOD_HOST_CLK_CURRENT 0 p else s2

/-- A write of MOD_HOST_CLK (R472, R473): POINT of 5 to 7 is ignored; a write during a change is kept. -/
def writeHostClk (s : State) (v : Word) : State :=
  let p := fieldIn v MOD_HOST_CLK_POINT
  if p > 4 then s
  else if fg s MOD_HOST_CLK_CHANGING 0 = 1 then { s with host := { s.host with next := some p } }
  else beginHostPoint s p

/-- HOST_POINT_WRITE (R473). -/
def execHostPointWrite (value : Word) (s : State) : Host.Outcome State Fault Refusal := .next (writeHostClk s value)

/-- HOST_POINT_CHANGE_END (R473): the clock is the new point's; a write kept during the change is applied. -/
def execHostPointChangeEnd (s : State) : Host.Outcome State Fault Refusal :=
  .next (if fg s MOD_HOST_CLK_CHANGING 0 = 0 then s
    else
      let s1 := syncHost (fs s MOD_HOST_CLK_CHANGING 0 0)
      match s1.host.next with
      | none => s1
      | some p => beginHostPoint { s1 with host := { s1.host with next := none } } p)

/-! ### Interrupts and flag watches (R480, R481) -/

/-- The APLIC's wired sources that are asserted (R480). -/
def aplicSources (s : State) : List Nat :=
  (if fg s MC_MBOX_DONE 0 = 1 then [1] else []) ++ (if unacked s > 0 then [2] else []) ++
  (if s.streams.any (fun p => p.2.st == .faulted) then [3] else []) ++ (if fg s MOD_STALL_STATUS_STALL 0 = 1 then [4] else []) ++
  (if pfwActive s then [9] else [])

/-- A write of MOD_IRQ_WATCH; one that names no logical ward in effect is ignored (R481). -/
def writeWatch (s : State) (k : Nat) (v : Word) : State :=
  if fieldIn v MOD_IRQ_WATCH_WARD ≥ wardCount s then clearBits s MOD_IRQ_WATCH k v else writeFields s MOD_IRQ_WATCH k v

/-- FLAG_WATCH_FIRE (R481): watch k, armed and satisfied, sends its message once and clears EN. -/
def execFlagWatchFire (k : Nat) (s : State) : Host.Outcome State Fault Refusal :=
  let n := flagIdx (fg s MOD_IRQ_WATCH_WARD k) (fg s MOD_IRQ_WATCH_FLAG k)
  .next (if k < 256 ∧ fg s MOD_IRQ_WATCH_EN k = 1 ∧ fg s MOD_IRQ_WATCH_WARD k < wardCount s ∧ flagReached s n (fg s MOD_IRQ_DEST_TARGET k) then
      let s1 := fs (fs s MOD_IRQ_WATCH_EN k 0) MOD_IRQ_WATCH_FIRED k 1
      { s1 with host := { s1.host with msgs := s1.host.msgs ++ [(rd s1 MOD_IRQ_DEST k).toNat] } }
    else s)

/-- Job assignment and unassignment clear EN of every watch (R481). -/
def clearWatches (s : State) : State := (below 256).foldl (fun t k => fs t MOD_IRQ_WATCH_EN k 0) s

/-! ### PCIe (R485, R486; 21, R519) -/

/-- A write of MOD_PCIE_CFG (R485): MODE changes only while the link is in Detect and, in endpoint mode, PERST_N is asserted. A write of
the MODE in effect changes nothing; as a root port the module drives PERST_N low from the write on (DEDUCED, log 75). -/
def writePcie (s : State) (v : Word) : State :=
  let s1 := fs (clearBits s MOD_PCIE_CFG 0 v) MOD_PCIE_CFG_MWIN 0 (fieldIn v MOD_PCIE_CFG_MWIN)
  let now := fg s1 MOD_PCIE_CFG_MODE 0
  let mode := fieldIn v MOD_PCIE_CFG_MODE
  if mode = now then s1
  else if !s1.host.detect ∨ (now = 0 ∧ !s1.host.perst) then fs s1 MOD_PCIE_CFG_MODE_REFUSED 0 1
  else fs { s1 with host := { s1.host with perst := true } } MOD_PCIE_CFG_MODE 0 mode

/-- PCIE_CLKOUT_P and PCIE_CLKOUT_N: driven with a copy of REFCLK in root-port mode, at high impedance in endpoint mode (21, R518). -/
def clkoutDriven (s : State) : Bool := fg s MOD_PCIE_CFG_MODE 0 == 1

/-- ALERT_N: low while an event is unacknowledged; THERMTRIP_N: low from a trip until V_AON falls (21, R512, R513; 18, R453). -/
def alertAsserted (s : State) : Bool := unacked s != 0
def thermtripAsserted (s : State) : Bool := fg s THM_STATUS_TRIP 0 == 1

/-- PCIE_MODE_WRITE (R485). -/
def execPcieModeWrite (value : Word) (s : State) : Host.Outcome State Fault Refusal := .next (writePcie s value)

/-- PERST_ASSERT (R485; 21, R519): in endpoint mode the link resets, to Detect. -/
def execPerstAssert (s : State) : Host.Outcome State Fault Refusal :=
  .next (if fg s MOD_PCIE_CFG_MODE 0 = 1 then s
    else fs { s with host := { s.host with perst := true, detect := true } } MOD_PCIE_CFG_LINK_UP 0 0)

/-- PERST_DEASSERT (R485; 21, R519): training begins, but in STANDBY, where PCIe is off; in root-port mode the module itself releases
PERST_N. -/
def execPerstDeassert (s : State) : Host.Outcome State Fault Refusal :=
  .next (if s.host.perst then { s with host := { s.host with perst := false, detect := s.standby } } else s)

/-- PCIE_LINK_UP (21, R519): training reaches L0. -/
def execPcieLinkUp (s : State) : Host.Outcome State Fault Refusal :=
  .next (if s.host.perst ∨ s.host.detect then s else fs s MOD_PCIE_CFG_LINK_UP 0 1)

/-! ### The host block device (R488; 14, R361) -/

def blockBytes : Nat := 4096

/-- Capacity in logical blocks: 6,144 GiB less the image area (14, R361). -/
def nvmeBlocks (s : State) : Nat := (6144 - s.flash.gib) * 2 ^ 18

/-- Completion codes of the NVM Express Base Specification 2.0 (PRESUMED, log 57). -/
def nvOk : Nat := 0
def nvTransfer : Nat := 0x04
def nvPowerLoss : Nat := 0x05
def nvProtected : Nat := 0x20
def nvRange : Nat := 0x80
def nvBadQueue : Nat := 0x101
def nvUnread : Nat := 0x281

def nvmeDone (s : State) (q status : Nat) : State := { s with host := { s.host with done := s.host.done ++ [(q, status)] } }

/-- A command on an I/O queue that exists, with its status. -/
def onQueue (s : State) (q : Nat) (f : State → State × Nat) : State :=
  if s.host.queues.contains q then (let (s1, st) := f s; nvmeDone s1 q st) else s

/-- The device writes its answer to host memory in Tier 1; what it writes in part must not be poisoned (11, R273, R292). -/
def nvmeAnswer (s : State) (dest : Nat) (bs : List Byte) (err : MemErr) : State × Nat :=
  if dest + bs.length > tier1Size then (s, nvTransfer)
  else
    match partialPoison s dest bs.length, writeErr s err dest bs.length with
    | some b, _ => (noteUe s (ueAt s 2 b) 0, nvTransfer)
    | none, (s1, some d) => (noteUe s1 d 0, nvTransfer)
    | none, (s1, none) => (moverWrite (cacheTouches s1 true true (txns (dest : Int) bs.length)) false dest bs, nvOk)

/-- The device reads host memory in Tier 1: nothing where it meets an error or poison (11, R273, R291). -/
def nvmeFetch (s : State) (src n : Nat) (err : MemErr) : State × Option (List Byte) :=
  if src + n > tier1Size then (s, none)
  else
    match poisonDetail s src n, meetErr s err [(src, n)] with
    | some d, _ => (noteUe s d 0, none)
    | none, (s1, some d) => (noteUe s1 d 0, none)
    | none, (s1, none) => (cacheTouches s1 true false (txns (src : Int) n), some (memRead s1 src n))

/-- Bytes that the manual does not give: free values. -/
def freeBytes (s : State) (n : Nat) : List Byte × State :=
  ((below n).map (fun i => (Config.freeValue (s.free + i)).setWidth 8), { s with free := s.free + n })

/-- The data of Identify: the capacity of the namespace, the write cache's absence and the one namespace; the rest is not given. -/
def identifyBytes (s : State) (cns : Nat) (fill : List Byte) : List Byte :=
  let put := fun (at' : Nat) (bs xs : List Byte) => xs.take at' ++ bs ++ xs.drop (at' + bs.length)
  if cns = 0 then
    (let n := toBytesLE 8 (nvmeBlocks s)
     put 128 (toBytesLE 4 (12 * 2 ^ 16)) (put 25 [0, 0] (put 0 (n ++ n ++ n) fill)))
  else if cns = 1 then put 525 [0] (put 516 (toBytesLE 4 1) fill)
  else fill

/-- NVME_IDENTIFY (R488), on the admin queue, 0: CNS 0 the namespace, 1 the controller. -/
def execNvmeIdentify (_queue cns dest : Nat) (s : State) : Host.Outcome State Fault Refusal :=
  let (fill, s1) := freeBytes s 4096
  let (s2, st) := nvmeAnswer s1 dest (identifyBytes s cns fill) .none
  .next (nvmeDone s2 0 st)

/-- NVME_CREATE_IO_QUEUE (R488): an I/O queue pair, 1 to 32. -/
def execNvmeCreateIoQueue (queue : Nat) (s : State) : Host.Outcome State Fault Refusal :=
  .next (if queue = 0 ∨ queue > 32 ∨ s.host.queues.contains queue then nvmeDone s 0 nvBadQueue
    else nvmeDone { s with host := { s.host with queues := s.host.queues ++ [queue] } } 0 nvOk)

/-- NVME_DELETE_IO_QUEUE (R488). -/
def execNvmeDeleteIoQueue (queue : Nat) (s : State) : Host.Outcome State Fault Refusal :=
  .next (if s.host.queues.contains queue then nvmeDone { s with host := { s.host with queues := s.host.queues.filter (· != queue) } } 0 nvOk
    else nvmeDone s 0 nvBadQueue)

/-- NVME_GET_LOG_PAGE (R488): the SMART page, whose percentage used is the wear of the user region; the rest is not given. -/
def execNvmeGetLogPage (_queue dest : Nat) (s : State) : Host.Outcome State Fault Refusal :=
  let (fill, s1) := freeBytes s 512
  let page := fill.take 5 ++ [BitVec.ofNat 8 (fg s JNL_FLASH_WEAR_USER 0)] ++ fill.drop 6
  let (s2, st) := nvmeAnswer s1 dest page .none
  .next (nvmeDone s2 0 st)

/-- NVME_READ (R488): blocks from lba on to host memory; a block that the media have lost (14, R338) gives none. -/
def execNvmeRead (queue lba blocks dest : Nat) (err : MemErr) (media : List FlashEvt) (s : State) : Host.Outcome State Fault Refusal :=
  .next (onQueue s queue (fun t =>
    if lba + blocks > nvmeBlocks t then (t, nvRange)
    else
      let u := flashEvents t media
      if lostHost u lba blocks then (u, nvUnread)
      else nvmeAnswer u dest (readBytes (fun _ => 0) u.flash.host (lba * blockBytes) (blocks * blockBytes)) err))

/-- NVME_WRITE (R488; 14, R358, R361): acknowledged once programmed; failed back during a power-fail sequence, protected while Tier 3 is
degraded. What its programs meet retires blocks at once (14, R339). -/
def execNvmeWrite (queue lba blocks src : Nat) (err : MemErr) (media : List FlashEvt) (s : State) : Host.Outcome State Fault Refusal :=
  .next (onQueue s queue (fun t =>
    let n := blocks * blockBytes
    if pfwActive t then (t, nvPowerLoss)
    else if fg t JNL_STATUS_T3_DEGRADED 0 = 1 then (t, nvProtected)
    else if lba + blocks > nvmeBlocks t then (t, nvRange)
    else
      match nvmeFetch t src n err with
      | (u, none) => (u, nvTransfer)
      | (u, some bs) =>
        let v := findHost (flashEvents u media) lba blocks
        ({ v with flash := { v.flash with host := writeBytes (fun _ => 0) v.flash.host (lba * blockBytes) bs } }, nvOk)))

/-- NVME_FLUSH (R488): there is no volatile write cache: it completes at once. -/
def execNvmeFlush (queue : Nat) (s : State) : Host.Outcome State Fault Refusal := .next (onQueue s queue (fun t => (t, nvOk)))

/-- NVME_DATASET_MANAGEMENT with deallocate (R488; 14, R361): what deallocated blocks read as is not given: free values. -/
def execNvmeDatasetManagement (queue lba blocks : Nat) (s : State) : Host.Outcome State Fault Refusal :=
  .next (onQueue s queue (fun t =>
    if fg t JNL_STATUS_T3_DEGRADED 0 = 1 then (t, nvProtected)
    else if lba + blocks > nvmeBlocks t then (t, nvRange)
    else
      let (bs, t1) := freeBytes t (blocks * blockBytes)
      let u := findHost t1 lba blocks
      ({ u with flash := { u.flash with host := writeBytes (fun _ => 0) u.flash.host (lba * blockBytes) bs } }, nvOk)))

end Sys2Proof.Machine
end

