-- ==== Sys2Proof/Machine/Bringup.lean ====
section
/-!
DEFINITION. Bring-up, resets, ward self-test and ward reset, STANDBY, erasing, return and the maker's test modes
(20_bringup_spares_return.md, R489 to R506; 18_control_plane.md, R459, R462 to R464; 17_power_states_clocks.md, R429 to R431).
-/

namespace Sys2Proof.Machine

/-! ### The shim table (R493, R496; 17, R419) -/

/-- A district's good physical positions and good context banks, in ascending order. -/
def goodWards (s : State) (d : Nat) : List Nat := (below 5).filter (fun p => !physFailed s (5 * d + p))
def goodBanks (s : State) (d : Nat) : List Nat := (below 5).filter (fun b => !bankFailed s d b)

/-- One district's rebuild (R493): good wards and banks in ascending order, the count the lowest of the fused count, the good wards and the
good banks; the rest rest in OFF. -/
def rebuildDistrict (s : State) (d : Nat) : State :=
  let ws := goodWards s d
  let bs := goodBanks s d
  let n := min (nth s.fuses.map d 0) (min ws.length bs.length)
  let s1 := fs (fs s PWR_SREG_LOGICAL d n) PWR_SREG_NEXT_LOGICAL d n
  let s2 := setDist s1 d { distOf s1 d with map := padTo 4 7 (ws.take n), banks := padTo 4 7 (bs.take n), take := [], rotate := none, hot := 0 }
  (below 5).foldl (fun t p =>
    let x := pward t (5 * d + p)
    setPward t (5 * d + p) { st := if (ws.take n).contains p then 0 else 4, phases := x.phases, trim := x.trim }) s2

/-- The rebuilt table, with no ward dark (R493). -/
def rebuildShim (s : State) : State :=
  let s1 := (below 20).foldl rebuildDistrict s
  (below 80).foldl (fun t w => fs t PWR_WREG_DARK w 0) s1

/-! ### Erasing (18, R462; R504) -/

/-- Zeros with valid check bytes in a run of memory. -/
def zeroRange (s : State) (lo hi : Nat) : State :=
  { s with mem := sdropRange lo hi s.mem, poison := s.poison.filter (fun p => !(lo ≤ p * 4 && p * 4 < hi)) }

/-- SECURE_ERASE's work (18, R462): host device, images and journal erased, Tier 1 and Tier 2 zero, every Tier 2 slot closed. -/
def secureErase (s : State) : State :=
  let s1 := { s with flash := { s.flash with records := [], commits := [], wip := none, images := [], host := [], lost := [], orphans := 0 }, boot := false }
  let s2 := zeroRange (zeroRange s1 0 tier1Size) tier2Base (tier2Base + tier2Size)
  let s3 := (below 16).foldl (fun t k => fs t MOD_T2SLOT_CTL_STATE k 0) s2
  wr (wr (wr (wr s3 JNL_LAST_STEP 0 0xFFFFFFFF) JNL_IMG_CUR 0 0xFFFFFFFF) JNL_IMG_PREV 0 0xFFFFFFFF) JNL_IMG_STATUS 0 0

/-- Steps 3 and 4 of R504: keys and policy erased, base and overlays at their defaults but for items 0x0300 to 0x0303. -/
def wipeStore (s : State) : State :=
  let keep := s.store.base.filter (fun p => 0x0300 ≤ p.1 && p.1 ≤ 0x0303)
  let s1 := newStore s { s.store with base := keep, overlays := stdOverlays, keys := [], policy := none }
  fs s1 MC_SEC_KEYS_VALID 0 0

/-! ### Boot banks (18, R463, R464) -/

def bankBytes (b : Bank) (at' n : Nat) : List Byte := readBytes (fun _ => 0) b.image at' n
def bankWord (b : Bank) (at' n : Nat) : Nat := ofBytesLE (bankBytes b at' n)

/-- The header's size and the body's (18, R463). -/
def headerSize : Nat := 512
def bodyLength (b : Bank) : Nat := bankWord b 12 4

/-- The signature and the digests of an image (18, R463, R464). -/
def bankSigned (s : State) (b : Bank) : Bool :=
  b.maker ||
  (bankWord b 0 4 == 0x57464D43 && decide (headerSize + bodyLength b ≤ b.length) &&
   Config.sha384 (bankBytes b 64 97) == s.fuses.keyDigest && Config.ecdsaP384 (bankBytes b 64 97) (bankBytes b 0 256) (bankBytes b 256 96) &&
   Config.sha384 (bankBytes b headerSize (bodyLength b)) == bankBytes b 16 48)

/-- An image that the boot ROM runs (18, R464). -/
def bankGood (s : State) (b : Bank) : Bool := bankSigned s b && decide (b.secver ≥ s.fuses.secverMin)

def bankOf (s : State) (k : Nat) : Bank := nth s.banks k {}
def setBank (s : State) (k : Nat) (b : Bank) : State := { s with banks := setNth s.banks k b }

/-- The bank with the valid and higher activation, bank A among equals. -/
def selectBank (s : State) : Option Nat :=
  match (bankOf s 0).activation, (bankOf s 1).activation with
  | none, none => none
  | some _, none => some 0
  | none, some _ => some 1
  | some a, some b => if b > a then some 1 else some 0

/-- A bank runs: its image is the verified one. -/
def runBank (s : State) (k fallback : Nat) : State :=
  let s1 := setBank s k { bankOf s k with standing := 2 }
  fs (fs (fs s1 MC_STATUS_BOOT_BANK 0 k) MC_STATUS_FALLBACK 0 fallback) MC_STATUS_ACT_PENDING 0 0

/-- The boot ROM's choice (18, R464): the selected bank, the other with FALLBACK and its event, or recovery mode. -/
def bootSelect (s : State) : State :=
  match selectBank s with
  | none => { s with mc := { s.mc with recovery := true } }
  | some k =>
    if bankGood s (bankOf s k) then runBank s k 0
    else
      let s1 := setBank s k { bankOf s k with standing := 4 }
      if bankGood s1 (bankOf s1 (1 - k)) then raiseEvent (runBank s1 (1 - k) 1) 0x000F 0 (1 - k) (bankOf s k).rev 0
      else { s1 with mc := { s1.mc with recovery := true } }

/-! ### The seal (18, R459) -/

/-- A trip of the seal (18, R459). -/
def sealTrip (s : State) : State :=
  let n := min 15 (s.fuses.sealTrips + 1)
  let s1 := { s with fuses := { s.fuses with sealTrips := n } }
  let s2 := fs (fs (fs s1 MC_STATUS_SEAL 0 2) MC_SEC_SEAL_TRIPS 0 n) MC_SEC_KEYS_REFUSED 0 1
  raiseEvent (failEntry s2 0x000F 0 0 n 0 noStep) 0x000E 0 0 n 0

/-! ### Bring-up (R489 to R491) -/

def allStages : List Nat := rangeFrom 1 12

/-- The fixed start and the latest end of each stage, µs (20, cold-start timeline). -/
def stageStart (k : Nat) : Nat := nth [0, 0, 50000, 55000, 55000, 59950, 59950, 59950, 459950, 459950, 460155, 462155, 462155] k 0
def stageEnd (k : Nat) : Nat :=
  nth [0, 50000, 55000, 155000, 59950, 459950, 359950, 159950, 479950, 460155, 462155, 1962155, 5462155] k 0

/-- The stages that a stage's start follows (20, cold-start timeline). -/
def stageAfter (k : Nat) : List Nat := nth [[], [], [1], [2], [2], [4], [4], [4], [3, 5], [4, 5], [9], [10], [10]] k []

/-- A partly written image is found FAILED, cause 5, at a reset (14, R354); IMAGE_GIB changes with the base configuration, and the image area
and the host device then lose their contents (14, R361). -/
def flashAfter (s : State) : State :=
  let gib := baseItem s.store.base 0x0201
  let s1 := match s.flash.wip with
    | some i => setImg (orphan (forgetImages { s with flash := { s.flash with wip := none } } [i.step]) i.size) 4 5 0
    | none => s
  if gib = s1.flash.gib then s1
  else wr (wr { s1 with flash := { s1.flash with gib := gib, images := [], host := [], lost := [], orphans := 0 } } JNL_IMG_CUR 0 0xFFFFFFFF) JNL_IMG_PREV 0 0xFFFFFFFF

/-- Bring-up begins: twelve stages to end, and the Tier 1 placement of the next training (11, R279) (DEDUCED, log 56). -/
def beginBringup (s : State) (cold : Bool) (gib : Nat) : State :=
  let s1 := fs (fs (flashAfter s) MOD_T1_CFG_LOCAL_GIB 0 gib) MOD_T1_CFG_NEXT_LOCAL_GIB 0 (baseItem s.store.base 0x0200)
  let lost := (below 20).any (distLost s1)
  { s1 with
    mc := { s1.mc with stages := allStages, reported := false, isCold := cold, reasons := s1.mc.reasons ++ (if lost then [5] else []) }
    pwr := { s1.pwr with ceil := fg s1 PWR_GRANT_GRANT_EFF 0 } }

/-- At the first cold start the factory marks on the packages are read into the bad-block table (14, R339). -/
def readMarks (s : State) : State :=
  if s.store.marked then s else { s with store := { s.store with bad := s.store.bad ++ s.flash.marks, marked := true } }

/-- COLD_START (R489): VBUS above 38 V. BOARD_ID is sampled (12, R306), and the seal loop (closed: 1; 18, R459). -/
def execColdStart (board loop : Nat) (s : State) : Host.Outcome State Fault Refusal :=
  let s1 := { powerOff (readMarks s) with board := board % 32, life := { s.life with colds := s.life.colds + 1 } }
  let s2 := beginBringup s1 true (baseItem s.store.base 0x0200)
  let s3 := (below 28).foldl (fun t p => fs t FAB_PORT_STATUS_CLASS p (portClass (board % 32) p)) s2
  let s4 := if boardBad (board % 32) then failEntry s3 0x0010 0 0 (board % 32) 0 noStep else s3
  let s5 := fs s4 MC_STATUS_LOOP_CLOSED 0 (b2n (loop == 1))
  .next (if fg s5 MC_STATUS_SEAL 0 = 1 ∧ loop ≠ 1 then sealTrip s5 else s5)

/-- READY, once every stage has ended and no interrupted erase has still to resume (R489; 18, R462, R464). -/
def becomeReady (s : State) : State :=
  if !s.mc.stages.isEmpty ∨ s.store.resume.isSome ∨ s.mc.recovery then s
  else
    let s1 := fs s MC_STATUS_READY 0 1
    let b := runningBank s1
    if fg s1 MC_STATUS_FALLBACK 0 = 0 ∧ b.secver > s1.fuses.secverMin then { s1 with fuses := { s1.fuses with secverMin := b.secver } } else s1

/-- Stage 12 begins (R490; 12, R312): each port with a class trains; an invalid BOARD_ID ends the stage at once. -/
def beginLinks (s : State) : State :=
  if boardBad s.board then { s with mc := { s.mc with stages := s.mc.stages.filter (· != 12) } }
  else (below 28).foldl (fun t p => if portClass t.board p = 3 then t else startTraining t p) s

/-- What a stage leaves (R489, R490): `findings` are the stage's failures: of stage 5 (32 × stack + channel, failed connections) of channels that
cannot be repaired (11, R280), of stage 7 (physical core, 0) of host cores (19, R471). -/
def endStage (s : State) (k : Nat) (findings : List (Nat × Nat)) : State :=
  match k with
  | 1 => bootSelect s
  | 5 =>
    let s1 := findings.foldl (fun t f => failEntry t 7 0 (f.1 / 32) (f.1 % 32) f.2 noStep) s
    if findings.isEmpty then s1 else addReason s1 3
  | 7 =>
    fs (findings.foldl (fun t f => failEntry t 0x0014 0 f.1 0 0 noStep) s) MOD_HOST_CLK_CORES 0 (min 32 (34 - findings.length))
  | 8 => handoff s
  | 9 =>
    let s1 := rebuildShim s
    (below (wardCount s1)).foldl (fun t w => zeroBanks (resetEngines t w) w 0) s1
  | 10 => beginLinks (fs (fs (fs s MOD_CLK_REFCLK_OK 0 (b2n !(s.mc.reasons.contains 6))) MOD_CLK_CAL_DONE 0 1) MOD_SELFTEST_RUNNING 0 1)
  | _ => s

/-- BRINGUP_STAGE_DONE (R489, R490): stage k ends, `elapsed` ms from the start. -/
def execBringupStageDone (stage elapsed : Nat) (findings : List (Nat × Nat)) (s : State) : Host.Outcome State Fault Refusal :=
  let begun := maxNat (allStages.filter (fun k => stageStart k ≤ elapsed * 1000))
  .next (if !s.mc.stages.contains stage ∨ (stageAfter stage).any s.mc.stages.contains ∨ s.mc.recovery ∨ s.mc.held ∨
      (stage = 11 ∧ fg s MOD_SELFTEST_RUNNING 0 = 1) then s
    else
      let s1 := { s with mc := { s.mc with stages := s.mc.stages.filter (· != stage) } }
      let s2 := fs (fs s1 MOD_BOOT_STATUS_STAGE 0 begun) MOD_BOOT_STATUS_ELAPSED 0 (min 0xFFFF elapsed)
      let s3 := endStage (if elapsed * 1000 > stageEnd stage then fs s2 MOD_BOOT_STATUS_LATE 0 1 else s2) stage findings
      let s4 := match s3.store.resume with
        | some op => if s3.mc.stages.isEmpty ∧ s3.mc.longOp.isNone then fs { s3 with mc := { s3.mc with longOp := some op } } MC_STATUS_LONG_OP 0 1 else s3
        | none => s3
      observe (becomeReady s4))

/-! ### Ward self-test (R492, R493, R499) -/

/-- The unit code that a finding's record and repair take: 9 is a context bank found by its march test, 10 one found by its library digest
(07, R188; 17, R419). -/
def findingUnit (u : Nat) : Nat := if u = 10 then 9 else u
def findingCode (u : Nat) : Nat := if u = 9 then 1 else u

/-- The spares that serve a place of a unit, and which places share them (R492, R500; 03, R84): 8 rows for each ward-store bank or ME accumulator
and for each shared-cache way, 4 for a descriptor memory or a kernel store, a column for each 32 of an ME, a phase for a regulator, a way for a
slice; the engines, kerf units and clocks have none. A square's own findings name what their units hold. The
numbering of places is the model's (DESIGN CHOICE, log 74). -/
def sparesAt (unit loc : Nat) : Nat × Nat :=
  match unit with
  | 1 => (8, loc / 2 ^ 16)
  | 2 => (1, loc / 32)
  | 5 => (1, 0)
  | 7 => if loc < 2 ^ 16 then (1, 0) else (8, loc / 2 ^ 16)
  | 8 => (256, 0)
  | 9 => (4, loc / 2 ^ 16)
  | _ => (0, 0)

/-- What a finding amounts to: a repair beyond the spares of its place is a failed unit, and so is a library copy that differs (R492, R500; 03,
R84, R85; 07, R188). -/
def judge (s : State) (f : Finding) : Finding :=
  let (n, group) := sparesAt f.unit f.loc
  let used := (allRepairs s).filter (fun r =>
    r.unit == f.unit && r.district == f.district && r.pos == f.pos && (sparesAt r.unit r.loc).2 == group && r.loc != f.loc)
  if used.length ≥ n then { f with result := 2 } else f

/-- One finding recorded (R493, R503; 02, R60; 07, R188). -/
def takeFinding (s : State) (f : Finding) : State :=
  let d := f.district
  let pos := f.pos
  let u := f.unit
  let r := f.result
  let rep : Repair := ⟨d, pos, findingUnit u, r == 2, f.loc⟩
  let s1 := recordRepair s rep
  let bankWard := (below (logicalOf s d)).find? (fun i => nth (distOf s d).banks i 7 == pos)
  if u = 10 then
    match bankWard with
    | some i => failEntry s1 4 0 (firstWard s d + i) (fg s MOD_KSTORE_STATUS_LIB_ID 0) 0 noStep
    | none => failEntry s1 0x0013 0 d r (pos + 256) noStep
  else
    let s2 := failEntry s1 0x0013 0 d r (pos + findingCode u * 256) noStep
    match logicalAt s (5 * d + pos) with
    | some w => if u = 4 ∧ r = 2 then failEntry s2 3 0 w 0 0 noStep else s2
    | none => s2

/-- Findings judged and recorded in order. -/
def takeFindings (s : State) (fs' : List Finding) : State × List Finding :=
  fs'.foldl (fun t f => let g := judge t.1 f; (takeFinding t.1 g, t.2 ++ [g])) (s, [])

/-- The library loaded and every ward's copy compared: `bad` are the findings of copies that differ, which fail their context banks; their
wards move at the next module reset (07, R188; 17, R419). -/
def loadLibrary (s : State) (bad : List Finding) : State :=
  let s1 := fs { s with libLoaded := true } MOD_KSTORE_STATUS_LIB_OK 0 (b2n bad.isEmpty)
  (takeFindings s1 bad).1

/-- Ward stores, accumulators, descriptor memories and kernel stores zero-filled (R492). -/
def afterTest (s : State) : State :=
  let s1 := zeroRange (zeroRange s wardBase ctrlBase) (descKey 0 0) (ctrlBase + ctrlSize)
  { s1 with me := [], ve := [], ue := [] }

/-- The end of a ward self-test: findings recorded, the shim table rebuilt, MOD_SELFTEST and MOD_KERF_STATUS (R492, R493; 02, R60). -/
def selfTestEnd (s : State) (findings : List Finding) : State :=
  let (t, found) := takeFindings s (findings.filter (fun f => f.unit != 10))
  let digests := findings.filter (fun f => f.unit == 10)
  let s1 := loadLibrary (afterTest (rebuildShim t)) digests
  let bad := (found.filter (fun f => f.result == 2)).length + digests.length
  let added := (s1.store.repairs.filter (fun r => !r.failed)).length - (s.store.repairs.filter (fun r => !r.failed)).length
  let word := 2 ^ 31 + b2n (bad == 0) * 2 ^ 30 + min 255 added * 2 ^ 16 + min 255 bad * 2 ^ 8
  let s2 := fs (fs (wr s1 MOD_SELFTEST 0 (BitVec.ofNat 32 word)) MOD_KERF_STATUS_SELFTEST_DONE 0 1) MOD_KERF_STATUS_SELFTEST_PASS 0 1
  if (below 20).any (distLost s2) then addReason s2 5 else s2

/-- WARD_SELF_TEST_END (R493, R499): the self-test of stage 11 or of SELF_TEST ends. -/
def execWardSelfTestEnd (findings : List Finding) (s : State) : Host.Outcome State Fault Refusal :=
  .next (if fg s MOD_SELFTEST_RUNNING 0 = 1 then observe (selfTestEnd s findings) else s)

/-! ### Warm and module reset (R494 to R497) -/

/-- JOURNAL records whose programming has begun complete in flash (R494). -/
def finishBurning (s : State) : Flash :=
  let f := { s.flash with commits := [], pfwLeft := 0, protect := false }
  match s.flash.commits with
  | c :: _ => if c.burning then { f with records := f.records ++ [⟨c.step, sealRecord s c.record⟩], seq := f.seq + 1 } else f
  | [] => f

/-- Where a Tier 1 byte is found after a change of placement: DRAM keeps it in its place (11, R278, R279). -/
def t1Moved (s : State) (g a : Nat) : Nat := if a < tier1Size then t1Offset g (t1Stack s a) (t1Local s a) else a

/-- The bytes of Tier 1 and Tier 2 that a reset keeps (R496), under the next placement. The boot stage's own bytes are copied again at
handoff. -/
def keptMem (s : State) (g : Nat) : SMap Byte :=
  let cells := s.mem.filter (fun p => p.1 < wardBase)
  if g = fg s MOD_T1_CFG_LOCAL_GIB 0 then cells else cells.foldl (fun m p => sset 0 m (t1Moved s g p.1) p.2) []

/-- What a warm or module reset leaves (R494 to R497). `coolant` says that COOLANT_STOP stays beside the trip: RESET_N leaves both in effect, a
module reset the trip alone (R494; 16, R412, R413). A root port drives PERST_N low again (21, R519). -/
def resetState (s : State) (coolant : Bool) : State :=
  let g := fg s MOD_T1_CFG_NEXT_LOCAL_GIB 0
  let stop := coolant && fg s THM_STATUS_COOLANT_STOP 0 == 1
  let trip := fg s THM_STATUS_TRIP 0 == 1
  let t : State :=
    { State.reset with
      pending := s.pending, free := s.free, fuses := s.fuses, store := storeAfter s.store, banks := s.banks, board := s.board
      life := { s.life with resets := s.life.resets + 1 }
      flash := finishBurning s
      mem := keptMem s g, boot := s.boot && g == fg s MOD_T1_CFG_LOCAL_GIB 0
      poison := (s.poison.filter (fun p => p * 4 < wardBase)).map (fun p => t1Moved s g (p * 4) / 4)
      worn := s.worn, pwards := bareWards s, dists := bareDists s
      mc := { State.reset.mc with events := s.mc.events, evseq := s.mc.evseq, acked := s.mc.acked, replies := s.mc.replies, maker := s.mc.maker
                                  reasons := s.mc.reasons.filter (· == 6) }
      therm := { State.reset.therm with coolant := s.therm.coolant }
      pwr := { State.reset.pwr with ring := s.pwr.ring, causes := (if stop then [2] else []) ++ (if trip then [5] else []) }
      host := { State.reset.host with perst := s.host.perst || fg s MOD_PCIE_CFG_MODE 0 == 1, tlps := s.host.tlps, msgs := s.host.msgs, traps := s.host.traps } }
  let t1 := { t with regs := lostRegs s (storedRegs { s with flash := t.flash }) }
  let t2 := wr t1 MOD_CLK 0 (withField (rd s MOD_CLK 0) 29 29 0)
  let t3 := (below 28).foldl (fun u p => fs u FAB_PORT_STATUS_CLASS p (portClass s.board p)) t2
  let t4 := fs (fs (fs t3 THM_STATUS_COOLANT_STOP 0 (b2n stop)) THM_STATUS_TRIP 0 (b2n trip)) PWR_VF_EMERG 0 (b2n (stop || trip))
  fs t4 MC_STATUS_LOOP_CLOSED 0 (fg s MC_STATUS_LOOP_CLOSED 0)

/-- WARM_RESET (R494): RESET_N low for 10 µs: nothing runs until it is released. -/
def execWarmReset (s : State) : Host.Outcome State Fault Refusal :=
  let g := fg s MOD_T1_CFG_NEXT_LOCAL_GIB 0
  let s1 := beginBringup (resetState s true) false g
  .next { s1 with mc := { s1.mc with held := true } }

/-- RESET_RELEASE (R494): bring-up starts. -/
def execResetRelease (s : State) : Host.Outcome State Fault Refusal := .next { s with mc := { s.mc with held := false } }

/-- A module reset (R495). -/
def moduleReset (s : State) : State := beginBringup (resetState s false) false (fg s MOD_T1_CFG_NEXT_LOCAL_GIB 0)

/-! ### Ward reset (R498) -/

/-- A START is refused (R498). -/
def wardResetBad (s : State) (w : Nat) : Bool :=
  let x := pward s (physOf s w)
  (wardStreams w).any (fun m => (stream s m).st != .disabled) ||
  (rangeFrom (64 * w) 64).any (fun n => qEnabled s n && qHome s n == 0) ||
  fg s WARD_RST_BUSY w == 1 || x.wakeBy.isSome || x.stage != 0 || x.napExit || isDark s w

/-- A write of WARD_RST (R498): its fields take effect by their access codes, TEST too where START is 0 or refused (00, R12, R534); with an
accepted START the ward enters OFF, its wake is requested, and the TEST written with it is kept for its end. -/
def writeWardRst (s : State) (w : Nat) (v : Word) : State :=
  let s1 := writeFields s WARD_RST w v
  if fieldIn v WARD_RST_START = 0 then s1
  else if wardResetBad s1 w then fs s1 WARD_RST_REFUSED w 1
  else
    let s2 := fs (fs s1 WARD_RST_BUSY w 1) WARD_RST_RESULT w 0
    let p := physOf s2 w
    resetEngines (setPward s2 p { pward s2 p with st := 4, test := fieldIn v WARD_RST_TEST == 1, enter := none, clamped := false, held := none, wakeBy := some 4, late := false, pulses := 0 }) w

/-- WARD_RESET (R498): a word with START written to WARD_RST of logical ward w. -/
def execWardReset (ward : Nat) (value : Word) (s : State) : Host.Outcome State Fault Refusal :=
  .next (if ward < wardCount s then writeWardRst s ward (withField value 31 31 1) else s)

/-- WARD_RESET_COMPLETE (R498): the ward is ACTIVE again; `findings` are those of its test; an unrepairable ward goes
dark (15, R376; 02, R60). -/
def execWardResetComplete (ward : Nat) (findings : List Finding) (s : State) : Host.Outcome State Fault Refusal :=
  let p := physOf s ward
  .next (if !(ward < wardCount s) ∨ fg s WARD_RST_BUSY ward = 0 ∨ (pward s p).st ≠ 0 then s
    else
      let (s1, fs') := takeFindings s (if (pward s p).test then findings.map (fun f => { f with district := p / 5, pos := p % 5 }) else [])
      let bad := fs'.any (fun f => f.result == 2)
      let s2 := fs (fs (fs s1 WARD_RST_BUSY ward 0) WARD_RST_DONE ward 1) WARD_RST_RESULT ward (if bad then 3 else if fs'.isEmpty then 1 else 2)
      if !bad then s2
      else
        goDark s2 ward 3)

/-! ### STANDBY (17, R429 to R431) -/

/-- The registers of the logical wards' contexts, which STANDBY loses; the regulators' registers are not part of them (17, R419). -/
def contextRegs : List Nat := ((regTable.filter (fun r => r.perWard != 0)).filter (fun r => r.no != PWR_WREG.no)).map (fun r => r.no)

/-- Every logical ward's context, the shared cache and the host cores at their cold-start values (17, R430). -/
def loseContexts (s : State) : State :=
  let s1 := zeroRange (zeroRange (zeroRange s wardBase ctrlBase) (descKey 0 0) (ctrlBase + ctrlSize)) sliceBase (sliceBase + 20 * sliceSize)
  let s2 := { s1 with
    regs := s1.regs.filter (fun p => !contextRegs.contains (p.1 / 2 ^ 20))
    streams := [], queues := [], engines := [], me := [], ve := [], ue := [], arrivals := [], ksReq := [], samples := []
    cache := [], lines := []
    host := { s1.host with regs := [], next := none, queues := [], lines := [], stores := [], resv := [] } }
  wr (wr s2 MOD_HOST_RUN 0 0) MOD_HOST_CLK 0 (withField MOD_HOST_CLK.resetWord 5 0 (fg s MOD_HOST_CLK_CORES 0))

/-- The wake from STANDBY (17, R430, R431): contexts at their cold-start values, the library reloaded and checked (`bad` as for the
self-test), wards staged, crossings calibrated, ports in bring-up, the host cores handed off. -/
def standbyWake (s : State) (bad : List Finding) : State :=
  let s0 := loseContexts { s with standby := false }
  let s1 := { s0 with host := { s0.host with detect := s0.host.perst }, xings := smapVals {} (fun _ x => { x with late := 0, due := false }) s0.xings }
  let s2 := (below 20).foldl (fun t d => (distOf t d).map.foldl (fun u p => if p < 5 ∧ !physFailed u (5 * d + p) then setPward u (5 * d + p) { pward u (5 * d + p) with st := 0 } else u) t) s1
  let s3 := fs (loadLibrary s2 (bad.filter (fun f => f.unit == 10))) MOD_CLK_CAL_DONE 0 1
  let s4 := (below 28).foldl (fun t p => if portClass t.board p = 3 then t else startTraining t p) s3
  observe (handoff s4)

/-- The rails of STANDBY: wards off, ports dark, PCIe off with its link in Detect, the point at 0 (17, R428, R429). -/
def standbyRails (s : State) : State :=
  let s1 := (below 100).foldl (fun t p => setPward t p { st := 4, phases := (pward t p).phases, trim := (pward t p).trim }) s
  let s2 := (below 28).foldl (fun t p => setPortState (setPort t p { known := (port t p).known }) p 0) s1
  { fs (fs s2 PWR_VF_POINT 0 0) MOD_PCIE_CFG_LINK_UP 0 0 with standby := true, host := { s2.host with detect := true } }

/-- STANDBY_ENTRY (17, R425, R429): refused with a job assigned or a hart running. An event before the DRAMs enter self-refresh aborts the entry
and is counted with its client; after one that comes later the wake begins at once. -/
def execStandbyEntry (event : Option (Bool × Nat)) (s : State) : Host.Outcome State Fault Refusal :=
  .next (if s.standby ∨ (modTarget s).1 < 2 then s
    else if hasJob s ∨ fg s MOD_HOST_RUN_RUNNING 0 ≠ 0 then modRefused s 6
    else match event with
      | none => standbyRails s
      | some (false, client) => fs (bump s MOD_PCNT_ABORTED 0 1) MOD_PCNT_ABT_CLIENT 0 client
      | some (true, _) => standbyWake (standbyRails s) [])

/-- STANDBY_WAKE (17, R431): a vote for DOZE or RUN. -/
def execStandbyWake (findings : List Finding) (s : State) : Host.Outcome State Fault Refusal :=
  .next (if s.standby ∧ (modTarget s).1 < 2 then standbyWake s findings else s)

/-! ### The maker's test modes (R506) -/

/-- MAKER_TEST_MODE_ENTRY (R506): only during cold start. -/
def execMakerTestModeEntry (s : State) : Host.Outcome State Fault Refusal :=
  .next (if s.mc.stages.isEmpty ∨ !s.mc.isCold then s
    else
      let s1 := if s.store.returnReady then s else wipeStore (secureErase s)
      let s2 := failEntry s1 0x0016 0 0 0 0 noStep
      { s2 with fuses := { s2.fuses with attest := false }, mc := { s2.mc with maker := true } })

end Sys2Proof.Machine
end

