-- ==== Sys2Proof/Machine/FoldUnit.lean ====
section
/-!
DEFINITION. FOLD on the spill and fold unit of a ward or the district unit (03_matrix_engines.md, R80 to R82; 05, R143;
04, R535; 13, R331).
-/

namespace Sys2Proof.Machine

/-- A partial's element as E48: FP32 or E48 by its header, +0 outside its extent (03, R80). -/
def partialAt (h : Hdr) (rows : List (List Nat)) (i j : Nat) : Nat × Ev :=
  if i < h.rows ∧ j < h.cols then
    let v := nth (nth rows i []) j 0
    if h.fmt = fE48 then ((toE48 (ofE48 v)).1, {}) else fp32ToE48 v
  else (0, {})

/-- The partials of one iteration in rank order, one of each present end (03, R81; DEDUCED, log 6). -/
def readPartials (s : State) (w : Nat) (c : Cmd) (v : List Nat) : List Nat → Got (List (Hdr × List (List Nat)))
  | [] => .ok []
  | e :: es =>
    (readIn s w c e (inOffset c.desc e v)).bind (fun t =>
      if t.1.fmt = fFp32 ∨ t.1.fmt = fE48 then
        (readPartials s w c v es).bind (fun ts =>
          .ok ((t.1, decodeWideTile t.1.fmt 128 (padTo (tileBytes t.1.fmt) 0 t.2)) :: ts))
      else .fault 0x19 (t.1.fmt * 2 ^ 16 + w * 2 ^ 8 + inQueue (c.inp e)))

/-- fold of R80 on one element: E48 sums in rank order, then the conversion. -/
def foldElem (fmt : Nat) (ps : List (Nat × Ev)) : Nat × Ev :=
  match ps with
  | [] => (0, {})
  | p :: rest =>
    let t := rest.foldl (fun (a : Nat × Ev) q => let r := addE48 a.1 q.1; (r.1, a.2.add (q.2.add r.2))) p
    let r := match fmt with
      | 1 => e48ToFp32 t.1
      | 2 => e48ToBf16 t.1
      | _ => (t.1, {})
    (r.1, t.2.add r.2)

/-- One output tile of a FOLD (03, R80). -/
def foldTile (s : State) (m w e : Nat) (c : Cmd) (v : List Nat) (ps : List (Hdr × List (List Nat))) : State :=
  let els := (below 16384).map (fun k => foldElem c.fmtOut (ps.map (fun p => partialAt p.1 p.2 (k / 128) (k % 128))))
  let h0 := (ps.headD ({}, [])).1
  let h : Hdr := { rowLen := dRowLen c.desc, fmt := c.fmtOut, rows := maxNat (ps.map (fun p => p.1.rows))
                   cols := maxNat (ps.map (fun p => p.1.cols)), elemBase := elemBaseOf c.desc v
                   marks := if h0.transposed then mkTransposed else 0 }
  let ev := sumEv (els.map Prod.snd)
  let s1 := if e = 9 then countDist s (districtOf s w) c.step ev else countFold s w c.step ev
  let (s2, c1) := pushOut s1 m w c 0 h (encodeWideTile c.fmtOut (chunks 128 (els.map Prod.fst)))
  unitDone s2 m w c1

/-- The next output tile of the FOLD that engine e executes. -/
def foldStep (s : State) (w e : Nat) : State :=
  match jobOf s w e 0x20 with
  | none => s
  | some (m, c) =>
    let v := (nth (units c) c.iter []).headD []
    if !canPush s w c 0 1 then s
    else if isDark s (outWard w (c.out 0)) then execFault s m c 0x14 (outWard w (c.out 0))
    else
      match readPartials s w c v ((below 4).filter (inUsed c)) with
      | .ok ps => foldTile s m w e c v ps
      | .wait => s
      | .fault code d => execFault s m c code d

/-- FOLD (03, R80): one output tile of the FOLD that the ward's spill and fold unit (unit 0) or its share of the
district unit (unit 1) executes. -/
def execFold (ward unit : Nat) (err : MemErr) (s : State) : Host.Outcome State Fault Refusal :=
  .next (observe (withErr s ward (8 + unit % 2) 0x20 err (fun _ => []) (fun t => foldStep t ward (8 + unit % 2))))

end Sys2Proof.Machine
end

