-- ==== Sys2Proof/Machine/Bus.lean ====
section
/-!
DEFINITION. The register bus (00_scope.md, R12 to R14, R534; 18_control_plane.md, R452; 19_host_cores.md, R474, R482): what a word written to
an offset of the control space does, by its register's rules, and what a read of one returns.
-/

namespace Sys2Proof.Machine

/-! ### Memories of the control space (06, R150; 07, R186; 19, R482) -/

def descBase : Nat := 0x1000000
def kstoreBase : Nat := 0x2000000
def broadcastBase : Nat := 0x3800000
def mboxRequest : Nat := 0xB10000
def mboxReply : Nat := 0xB12000
def mboxSize : Nat := 4120

/-- What stands at an offset: a descriptor word, a word of a ward's kernel store, of the broadcast window, of the mailbox buffers, or
nothing of these. -/
inductive BusMem where
  | desc | kstore (w off : Nat) | broadcast (off : Nat) | request | reply | absent | none
deriving DecidableEq, Repr

def busMem (s : State) (off : Nat) : BusMem :=
  if descBase ≤ off ∧ off < descBase + 80 * 0x8000 then (if (off - descBase) / 0x8000 < wardCount s then .desc else .absent)
  else if kstoreBase ≤ off ∧ off < kstoreBase + 80 * 0x40000 then
    (if (off - kstoreBase) / 0x40000 < wardCount s then .kstore ((off - kstoreBase) / 0x40000) ((off - kstoreBase) % 0x40000) else .absent)
  else if broadcastBase ≤ off ∧ off < broadcastBase + 0x40000 then .broadcast (off - broadcastBase)
  else if mboxRequest ≤ off ∧ off < mboxRequest + mboxSize then .request
  else if mboxReply ≤ off ∧ off < mboxReply + mboxSize then .reply
  else .none

/-- Whether instance i of a register belongs to a logical ward beyond the count (R87 and its like: reads 0, writes ignored). -/
def beyond (s : State) (r : Reg) (i : Nat) : Bool := r.perWard != 0 && decide (i / r.perWard ≥ wardCount s)

/-- Whether an offset stands in a register block of a logical ward beyond the count, its reserved offsets included (01, R533). A ward's blocks
follow each other from a multiple of their stride. -/
def absentBlock (s : State) (off : Nat) : Bool :=
  regTable.any (fun r => r.perWard != 0 &&
    decide (r.base / r.stride * r.stride + r.stride * r.perWard * wardCount s ≤ off) &&
    decide (off < r.base / r.stride * r.stride + r.stride * r.count))

/-! ### Writes with rules of their own -/

/-- Whether any stream of the module is enabled. -/
def moduleEnabled (s : State) : Bool := (below (wardCount s)).any (anyEnabled s)

/-- A register written only while no job is assigned, or only while no stream is enabled: a change is refused (R534). -/
def writeUnless (s : State) (no : Bool) (r : Reg) (i : Nat) (v : Word) (guarded : List Fld) (flag : Fld) (flagIx : Nat) : State :=
  writeGuarded s r i v (if no then guarded else []) flag flagIx

/-- MOD_ACCUM_CFG (03, R72). -/
def writeAccum (s : State) (v : Word) : State :=
  let c := fieldIn v MOD_ACCUM_CFG_C_LOG2
  let s1 := clearBits s MOD_ACCUM_CFG 0 v
  if c = fg s1 MOD_ACCUM_CFG_C_LOG2 0 then s1
  else
    let out := c < 8 || c > 16
    let s2 := if hasJob s1 then fs s1 MOD_ACCUM_CFG_WRITE_REFUSED 0 1 else s1
    let s3 := if out then fs s2 MOD_ACCUM_CFG_RANGE_REFUSED 0 1 else s2
    if hasJob s1 || out then s3 else fs s3 MOD_ACCUM_CFG_C_LOG2 0 c

/-- ME_SPILL: SLOTS of 9 to 15 is ignored (03, ME_SPILL). -/
def writeSpill (s : State) (n : Nat) (v : Word) : State :=
  writeFields s ME_SPILL n (if fieldIn v ME_SPILL_SLOTS > 8 then withField v 3 0 (fg s ME_SPILL_SLOTS n) else v)

/-- Other valid bins that name the same tensor (08, R208). -/
def gbinClash (s : State) (b : Nat) : Bool :=
  (below 256).any (fun k => k != b && fg s MOD_GBIN_CFG_VALID k == 1 && rd s MOD_GBIN_TENSOR k == rd s MOD_GBIN_TENSOR b &&
    (fg s MOD_GBIN_CFG_ORD k == fg s MOD_GBIN_CFG_ORD b || fg s MOD_GBIN_CFG_USES k != fg s MOD_GBIN_CFG_USES b ||
     fg s MOD_GBIN_CFG_SPLIT k != fg s MOD_GBIN_CFG_SPLIT b))

/-- MOD_GBIN_CFG (08, R208). -/
def writeGbin (s : State) (b : Nat) (v : Word) : State :=
  let g := [ MOD_GBIN_CFG_VALID, MOD_GBIN_CFG_ORD, MOD_GBIN_CFG_USES, MOD_GBIN_CFG_SPLIT]
  if moduleEnabled s then writeGuarded s MOD_GBIN_CFG b v g MOD_GBIN_STAT_REFUSED b
  else
    let s1 := writeFields s MOD_GBIN_CFG b v
    let uses := fg s1 MOD_GBIN_CFG_USES b
    if fieldIn v MOD_GBIN_CFG_VALID = 0 then s1
    else if uses = 0 ∨ fg s1 MOD_GBIN_CFG_ORD b ≥ uses ∨ gbinClash s1 b then fs (fs s1 MOD_GBIN_CFG_VALID b 0) MOD_GBIN_STAT_REFUSED b 1
    else s1

/-- PWR_CTRL: it takes effect at the next pulse; a field out of range keeps its value (16, R416, PWR_CTRL). -/
def writePwrCtrl (s : State) (v : Word) : State :=
  let old := laterWord s (PWR_CTRL.key 0)
  let keep := fun (w : Word) (f : Fld) (ok : Nat → Bool) => if ok (fieldIn w f) then w else withField w f.hi f.lo (fieldIn old f)
  let w1 := keep v PWR_CTRL_FIXED_POINT (fun x => x ≤ 11)
  let w2 := keep w1 PWR_CTRL_PACE_REF (fun x => x ≤ 11)
  let w3 := keep w2 PWR_CTRL_MAX_POINT (fun x => x ≤ 11)
  let w4 := keep w3 PWR_CTRL_LOST_PCT (fun x => x ≤ 100)
  atPulse s PWR_CTRL 0 (writeWord PWR_CTRL old (keep w4 PWR_CTRL_RAMP_DWELL (fun x => x ≥ 1)))

/-- THM_CFG: at the next pulse; ROT_MIN of 0 is ignored (16, THM_CFG). -/
def writeThm (s : State) (v : Word) : State :=
  let old := laterWord s (THM_CFG.key 0)
  let v1 := if fieldIn v THM_CFG_ROT_MIN = 0 then withField v 31 16 (fieldIn old THM_CFG_ROT_MIN) else v
  atPulse s THM_CFG 0 (writeWord THM_CFG old v1)

/-- A budget register of an activity, at the next pulse; activity 7 is reserved (16, R414, R416). -/
def writeBudget (s : State) (r : Reg) (a : Nat) (v : Word) : State :=
  if a ≥ 7 then s else atPulse s r a (writeWord r (laterWord s (r.key a)) v)

/-- PWR_SVOTE: codes 5 to 7 leave their field (17, R440). -/
def writeSvote (s : State) (v : Word) : State :=
  let keep := fun (w : Word) (f : Fld) => if fieldIn w f ≤ 4 then w else withField w f.hi f.lo (fg s f 0)
  let w := [PWR_SVOTE_L_WAIT, PWR_SVOTE_L_IDLE, PWR_SVOTE_F_WAIT, PWR_SVOTE_F_IDLE].foldl keep v
  writeFields s PWR_SVOTE 0 w

/-- MC_MBOX (19, R482): DONE and REFUSED clear first and LEN takes its value; GO while BUSY or DONE is 1 is ignored and sets REFUSED; else the
packet of LEN bytes in the request buffer is queued with the MC. -/
def writeMbox (s : State) (v : Word) : State :=
  let s1 := writeFields s MC_MBOX 0 v
  if fieldIn v MC_MBOX_GO = 0 then s1
  else if fg s1 MC_MBOX_BUSY 0 = 1 ∨ fg s1 MC_MBOX_DONE 0 = 1 then fs s1 MC_MBOX_REFUSED 0 1
  else
    let n := fieldIn v MC_MBOX_LEN
    let s2 := fs s1 MC_MBOX_BUSY 0 1
    { s2 with mc := { s2.mc with inbox := s2.mc.inbox ++ [((3, 0), memRead s2 (ctrlBase + mboxRequest) (min n mboxSize))] } }

/-- A write of a register with the access codes alone whose named field keeps its value at 0 (06, 12). -/
def writeNonzero (s : State) (r : Reg) (i : Nat) (v : Word) (f : Fld) : State :=
  writeFields s r i (if fieldIn v f = 0 then withField v f.hi f.lo (fg s f i) else v)

def writePacketOnly (s : State) (r : Reg) (i : Nat) (v : Word) : State :=
  writeGuarded s r i v (packetFields r) FAB_CHIP_WRITE_REFUSED 0

/-- A word written to instance i of a register. `locked` holds while IMG_RESTORE runs (18, R452). -/
def writeReg (s : State) (r : Reg) (i : Nat) (v : Word) (locked : Bool) : State :=
  if r = MOD_KERF_SEED_LO then writeUnless s (hasJob s) r i v [ MOD_KERF_SEED_LO_SEED_LO] MOD_KERF_STATUS_SEED_WRITE_REFUSED 0
  else if r = MOD_KERF_SEED_HI then writeUnless s (hasJob s) r i v [ MOD_KERF_SEED_HI_SEED_HI] MOD_KERF_STATUS_SEED_WRITE_REFUSED 0
  else if r = MOD_ACCUM_CFG then writeAccum s v
  else if r = ME_SPILL then writeSpill s i v
  else if r = MOD_SHADOW_CFG then writeShadowCfg s v
  else if r = MOD_SHADOW_GRP_CFG then writeShadowGrp s i v
  else if r = MOD_SHADOW_GRP_CNT then writeShadowCnt s i v
  else if r = WARD_QCFG then writeQcfg s i v
  else if r = WARD_QBIND then writeQbind s i v
  else if r = WARD_QARR_CFG then writeQarr s r i v [WARD_QARR_CFG_WINDOW, WARD_QARR_CFG_NRANK]
  else if r = WARD_QARR_BASE_LO then writeQarr s r i v [WARD_QARR_BASE_LO_BASE_LO]
  else if r = WARD_QARR_BASE_HI then writeQarr s r i v [WARD_QARR_BASE_HI_BASE_HI]
  else if r = WARD_SCFG then writeScfg s i v locked
  else if r = WARD_SRING_LO then writeStreamReg s r i v [WARD_SRING_LO_BASE_LO]
  else if r = WARD_SRING_HI then writeStreamReg s r i v [WARD_SRING_HI_BASE_HI]
  else if r = WARD_SSTEP then writeStreamReg s r i v [WARD_SSTEP_STEP]
  else if r = WARD_SDBELL then doorbell s i v.toNat hostClient
  else if r = WARD_FLAG then writeFlag s i v
  else if r = WARD_FSIG then flagSignal s i (fieldIn v WARD_FSIG_INC) hostClient
  else if r = WARD_FCFG then writeFcfg s i v
  else if r = MOD_QUIESCE_CFG then writeNonzero s r i v MOD_QUIESCE_CFG_WINDOW
  else if r = VE_KSCTL then
    (let s1 := clearBits s r i v
     if fieldIn v VE_KSCTL_DIGEST_REQ = 1 then kstoreDigest s1 i else s1)
  else if r = MOD_GBIN_TENSOR then writeUnless s (moduleEnabled s) r i v [ MOD_GBIN_TENSOR_TENSOR] MOD_GBIN_STAT_REFUSED i
  else if r = MOD_GBIN_CFG then writeGbin s i v
  else if r = MOD_SCHED_BASE_LO then writeUnless s (hasJob s) r i v [ MOD_SCHED_BASE_LO_BASE_LO] MOD_SCHED_CFG_WRITE_REFUSED 0
  else if r = MOD_SCHED_BASE_HI then writeUnless s (hasJob s) r i v [ MOD_SCHED_BASE_HI_BASE_HI] MOD_SCHED_CFG_WRITE_REFUSED 0
  else if r = MOD_SCHED_CFG then writeUnless s (hasJob s) r i v [ MOD_SCHED_CFG_GROUPS] MOD_SCHED_CFG_WRITE_REFUSED 0
  else if r = MOD_T2SLOT_RANGE then writeSlotRange s i v
  else if r = MOD_T2SLOT_CTL then writeSlotCtl s i v
  else if r = MOD_PPOOL_BASE_LO then writePoolBase s r v MOD_PPOOL_BASE_LO_BASE_LO
  else if r = MOD_PPOOL_BASE_HI then writePoolBase s r v MOD_PPOOL_BASE_HI_BASE_HI
  else if r = MOD_PPOOL_CFG then writePoolCfg s v
  else if r = MOD_PPOOL_OP then writePoolOp s (fieldIn v MOD_PPOOL_OP_OP) (fieldIn v MOD_PPOOL_OP_SEQ)
  else if r = MOD_T1_CFG then writeT1Cfg s v
  else if packetOnly.contains r then writePacketOnly s r i v
  else if r = FAB_CFG then writeNonzero s r i v FAB_CFG_E2E_TIMEOUT
  else if r = MOD_COLL_CTL then (if fieldIn v MOD_COLL_CTL_CLEAR = 1 then clearStragglers s else s)
  else if r = JNL_REPLAY then (if moduleEnabled s then s else writeFields s r i v)
  else if r = PWR_CTRL then writePwrCtrl s v
  else if r = THM_CFG then writeThm s v
  else if r = PWR_FBU_BYTES then writeBudget s r i v
  else if r = PWR_FBU_LIM then writeBudget s r i v
  else if r = WARD_VOTE_HOST then writeWardVote s i v
  else if r = MOD_PSTATE then writePstate s v
  else if r = PWR_SVOTE then writeSvote s v
  else if r = MOD_IRQ_WATCH then writeWatch s i v
  else if r = MC_MBOX then writeMbox s v
  else if r = MOD_HOST_CLK then writeHostClk s v
  else if r = MOD_HOST_RELEASE then writeRelease s v
  else if r = MOD_PCIE_CFG then writePcie s v
  else if r = WARD_RST then writeWardRst s i v
  else writeFields s r i v

/-- A word written to a control-space offset; words are aligned. -/
def busWrite (s : State) (off : Nat) (v : Word) (locked : Bool) : State :=
  if off % 4 ≠ 0 then s
  else
    match busMem s off with
    | .desc => memWrite s (ctrlBase + off) (toBytesLE 4 v.toNat)
    | .kstore w o => kstoreWrite s w o v
    | .broadcast o => kstoreBroadcast s o v
    | .request => memWrite s (ctrlBase + off) (toBytesLE 4 v.toNat)
    | .reply => s
    | .absent => s
    | .none =>
      match regAt off with
      | some (r, i) => if beyond s r i then s else writeReg s r i v locked
      | none => s

/-! ### Reads -/

/-- Whether a stream's next command is held at issue by its wait. -/
def heldByWait (s : State) (m : Nat) : Bool :=
  match nextLoaded (stream s m) with
  | some c => c.fault.isNone && !waitMet s m c
  | none => false

/-- WARD_SSTAT.STATE: IDLE once every available command has retired, WAITING while the next command is held at issue by its wait (05,
WARD_SSTAT). -/
def streamState (s : State) (m : Nat) : Nat :=
  match (stream s m).st with
  | .disabled => 0
  | .enabled => if isIdle s m then 1 else if heldByWait s m then 3 else 2
  | .aborting => 4
  | .faulting => 4
  | .faulted => 5
  | .aborted => 6

/-- The six bits of one group of ME_REPAIR: repair in use and the failed column, fused at test or found in the field (03, R84, R86). -/
def columnRepair (s : State) (n g : Nat) : Nat :=
  let w := n / 4
  let at' := 128 * (n % 4) + 32 * g
  match (allRepairs s).find? (fun r => r.unit == 2 && !r.failed && r.district == districtOf s w && r.pos == physPos s w && r.loc / 32 * 32 == at') with
  | some r => 32 + r.loc % 32
  | none => 0

/-- FULL of JNL_STATUS: fewer than 1,024 free record places (14). -/
def journalFull (s : State) : Bool := decide (recordPlaces - s.flash.records.length < 1024)

/-- IN_PROGRESS of MOD_RETURN (20, R504): PREPARE_RETURN runs or waits to resume. -/
def returning (s : State) : Bool := s.mc.longOp == some 0xA3 || s.store.resume == some 0xA3

/-- SPARE_IN, CAPPED and LIMIT of a regulator, by its failed phases (15, R370, R371). -/
def regulatorWord (s : State) (w : Nat) (old : Word) : Word :=
  let x := pward s (physOf s w)
  let n := x.phases
  let limit := ampLimit x
  let w1 := withField (withField old 31 28 n) 27 27 (b2n (decide (n ≥ 1) && !x.swap))
  withField (withField (withField w1 26 26 (b2n (limit < 0x28))) 19 12 limit) 4 0 x.trim

/-- Whether an entry is in progress, a wake in progress or deferred. -/
def wardBusy (x : PWard) : Bool := x.wakeBy.isSome || x.stage != 0

/-- WARD_PSTATE (17): TARGET and LIMITER read their reset values until the module is READY, and then what the votes give (00, R14; 17, R422; DESIGN
CHOICE, log 70). -/
def pstateWord (s : State) (w : Nat) (old : Word) : Word :=
  let p := physOf s w
  let x := pward s p
  let (t, by') := if fg s MC_STATUS_READY 0 = 1 then wardTarget s p else (0, 0)
  let w1 := withField (withField (withField old 31 29 x.st) 28 26 t) 25 25 (b2n (wardBusy x || x.napExit))
  withField (withField (withField w1 24 24 (b2n x.enter.isSome)) 23 20 by') 2 0 (physPos s w)

/-- MOD_PSTATE (17): TARGET and LIMITER as in WARD_PSTATE (DESIGN CHOICE, log 70). -/
def mstateWord (s : State) (old : Word) : Word :=
  let (t, by') := if fg s MC_STATUS_READY 0 = 1 then modTarget s else (0, 0)
  withField (withField (withField old 31 30 (modState s)) 29 28 t) 27 24 by'

/-- DIST_REPAIR (20). -/
def repairWord (s : State) (d : Nat) : Word :=
  let m := (distOf s d).map
  let failed := sumNat ((below 5).map (fun p => b2n (physFailed s (5 * d + p)) * 2 ^ p))
  let used := (allRepairs s).filter (fun r => !r.failed && r.district == d)
  let rows := (used.filter (fun r => r.unit == 1 || r.unit == 9 || (r.unit == 7 && r.loc ≥ 2 ^ 16))).length
  let way := used.any (fun r => r.unit == 7 && r.loc < 2 ^ 16)
  BitVec.ofNat 32 (nth m 3 7 % 8 * 2 ^ 29 + nth m 2 7 % 8 * 2 ^ 26 + nth m 1 7 % 8 * 2 ^ 23 + nth m 0 7 % 8 * 2 ^ 20 + failed * 2 ^ 15 +
    b2n way * 2 ^ 14 + min 255 rows)

/-- A register's word with the fields that show other state. -/
def regView (s : State) (r : Reg) (i : Nat) : Word :=
  let v := rd s r i
  let q := queueRt s i
  if r = WARD_QPTR then BitVec.ofNat 32 (q.tail % 2 ^ 16 * 2 ^ 16 + q.head % 2 ^ 16)
  else if r = WARD_QRESV then BitVec.ofNat 32 (q.resvPop % 2 ^ 16 * 2 ^ 16 + q.resvPush % 2 ^ 16)
  else if r = WARD_QSTAT then withField v 7 0 (q.tail - q.head)
  else if r = WARD_SSTAT then
    (let st := streamState s i
     withField (withField v 31 29 st) 23 16 (if st = 5 then fg s WARD_SFAULT_CODE i else 0))
  else if r = ME_REPAIR then
    BitVec.ofNat 32 (columnRepair s i 3 * 2 ^ 18 + columnRepair s i 2 * 2 ^ 12 + columnRepair s i 1 * 2 ^ 6 + columnRepair s i 0)
  else if r = MOD_NUMERICS then withField v 15 15 (b2n s.fuses.attest)
  else if r = MOD_PPOOL_FREE then BitVec.ofNat 32 (poolFree s)
  else if r = JNL_STATUS then withField (withField v 30 30 (fg s JNL_REPLAY_EN 0)) 28 28 (b2n (journalFull s))
  else if r = DIST_PIN then
    (let pins := slicePins s i
     BitVec.ofNat 32 (fullSets pins * 2 ^ 20 + ceilDiv (sumNat (pins.map Prod.snd)) 1024))
  else if r = PWR_WREG then regulatorWord s i v
  else if r = PWR_SREG then withField v 2 0 (spareCount s i)
  else if r = WARD_PSTATE then pstateWord s i v
  else if r = MOD_PSTATE then mstateWord s v
  else if r = MC_SEC then (if fg s MC_SEC_KEYS_REFUSED 0 = 1 then withField v 27 24 0 else v)
  else if r = MC_EVENT then withField v 31 16 (unacked s)
  else if r = MOD_FAILREC then withField (withField v 31 31 (b2n s.store.fail.closed)) 7 0 s.store.fail.entries.length
  else if r = MOD_RETURN then BitVec.ofNat 32 (b2n s.store.returnReady * 2 ^ 31 + b2n (returning s) * 2 ^ 30)
  else if r = DIST_REPAIR then repairWord s i
  else if r = FAB_ROUTE then (if i = 0xFFFF ∨ (fg s FAB_CHIP_VALID 0 = 1 ∧ i = ownChip s) then 0 else v)
  else v

/-- The bits that a read returns: those of fields but the write-only ones. -/
def readMask (r : Reg) : Nat := sumNat ((r.fields.filter (fun f => f.acc != .wo)).map (fun f => 2 ^ (f.hi + 1) - 2 ^ f.lo))

/-- A word whose bits outside the mask are free values (00, R12, R13; DESIGN CHOICE, log 3). -/
def withOpenBits (s : State) (v mask : Nat) : Word × State :=
  if mask = 2 ^ 32 - 1 then (BitVec.ofNat 32 v, s)
  else
    let (x, s1) := fresh s
    (BitVec.ofNat 32 ((v &&& mask) ||| (x % 2 ^ 32 &&& (2 ^ 32 - 1 - mask))), s1)

/-- What a read leaves in a register: its RC fields at their reset values (00, R12). -/
def afterRead (s : State) (r : Reg) (i : Nat) : State :=
  wr s r i (r.fields.foldl (fun w f => if f.acc = .rc then withField w f.hi f.lo f.reset else w) (rd s r i))

/-- A read of instance i of a register. -/
def readReg (s : State) (r : Reg) (i : Nat) : Word × State :=
  let (v, s1) := withOpenBits s (regView s r i).toNat (readMask r)
  (v, afterRead s1 r i)

/-- A read of a control-space word; a reserved offset reads a free value (00, R13), in a block of a ward beyond the count 0 (01, R533). -/
def busRead (s : State) (off : Nat) : Word × State :=
  match busMem s off with
  | .desc => (BitVec.ofNat 32 (ofBytesLE (memRead s (ctrlBase + off) 4)), s)
  | .kstore w o => (BitVec.ofNat 32 (kstoreWord s w o 4), s)
  | .request => (BitVec.ofNat 32 (ofBytesLE (memRead s (ctrlBase + off) 4)), s)
  | .reply => (BitVec.ofNat 32 (ofBytesLE (memRead s (ctrlBase + off) 4)), s)
  | .absent => (0, s)
  | .broadcast _ => withOpenBits s 0 0
  | .none =>
    match regAt off with
    | none => if absentBlock s off then (0, s) else withOpenBits s 0 0
    | some (r, i) =>
      if beyond s r i then (0, s) else readReg s r i

end Sys2Proof.Machine
end

