-- ==== Sys2Proof/Machine/Packets.lean ====
section
/-!
DEFINITION. The packet path of the management controller (18_control_plane.md, R441 to R449, R457; 19_host_cores.md, R482): framing, the
queue, the checks that every packet passes, replies and the kept replies.
-/

namespace Sys2Proof.Machine

/-! ### Requests (R444) -/

def byteAt (bs : List Byte) (i : Nat) : Nat := (nth bs i 0).toNat
def numAt (bs : List Byte) (i n : Nat) : Nat := ofBytesLE ((bs.drop i).take n)

/-- A request with the source it came from: a transport (0 SMBus, 1 PCIe, 2 Ethernet, 3 mailbox) and a peer on it. -/
structure Req where
  src : Nat × Nat
  raw : List Byte
deriving DecidableEq, Repr

def Req.ver (r : Req) : Nat := byteAt r.raw 0
def Req.op (r : Req) : Nat := byteAt r.raw 1
def Req.seq (r : Req) : Nat := numAt r.raw 2 2
def Req.tier (r : Req) : Nat := byteAt r.raw 6
def Req.crc (r : Req) : Nat := numAt r.raw (r.raw.length - 4) 4
/-- The parameter bytes. -/
def Req.par (r : Req) : List Byte := (r.raw.drop 8).take (r.raw.length - 12)

/-- A packet's size is 12 + LENGTH bytes and its CRC holds (R445). -/
def framed (raw : List Byte) : Bool :=
  12 ≤ raw.length && raw.length == 12 + numAt raw 4 2 && crc32 (raw.take (raw.length - 4)) == numAt raw (raw.length - 4) 4

/-! ### Status codes (R448) -/

def stOk : Nat := 0
def stAccepted : Nat := 1
def stComplete : Nat := 2
def stAborted : Nat := 3
def stFaulted : Nat := 4
def stNotEnabled : Nat := 5
def stVersion : Nat := 0x10
def stBadOpcode : Nat := 0x11
def stBadParam : Nat := 0x12
def stTransport : Nat := 0x13
def stBusy : Nat := 0x14
def stJobAssigned : Nat := 0x15
def stNoJob : Nat := 0x16
def stNotReady : Nat := 0x17
def stTooManyWards : Nat := 0x18
def stFeature : Nat := 0x19
def stImageMismatch : Nat := 0x1A
def stNeedOwner : Nat := 0x1B
def stNoPresence : Nat := 0x1C
def stSealOpen : Nat := 0x1D
def stKeysRefused : Nat := 0x1E
def stSignature : Nat := 0x1F
def stRollback : Nat := 0x20
def stPolicy : Nat := 0x21
def stStoreFail : Nat := 0x22
def stPfw : Nat := 0x23

def mgmtMin : Nat := 1
def mgmtMax : Nat := 2

/-! ### Replies (R444, R446, R482) -/

/-- A reply goes to its source; the mailbox's into the reply buffer, with DONE. -/
def sendReply (s : State) (src : Nat × Nat) (bs : List Byte) : State :=
  if src.1 = 3 then fs (fs (memWrite s (ctrlBase + mboxReply) bs) MC_MBOX_BUSY 0 0) MC_MBOX_DONE 0 1
  else sendPacket s src bs

/-- The newest 16 replies of each source are kept. -/
def keepReply (s : State) (k : Kept) : State :=
  let mine := s.mc.kept.filter (fun x => x.source == k.source)
  let rest := s.mc.kept.filter (fun x => x.source != k.source)
  { s with mc := { s.mc with kept := rest ++ (k :: mine).take 16 } }

/-- A request answered; a STATUS of 0x0010 or above counts in REFUSED. -/
def reply (s : State) (r : Req) (status detail : Nat) (data : List Byte) (keep : Bool) : State :=
  let ver := if mgmtMin ≤ r.ver ∧ r.ver ≤ mgmtMax then r.ver else mgmtMax
  let bs := replyBytes ver r.op r.seq r.tier status (detail % 2 ^ 16) data
  let s1 := if status ≥ 0x10 then bump s MC_PKT_CNT_REFUSED 0 1 else s
  let s2 := if keep then keepReply s1 ⟨r.src, r.seq, r.crc, bs⟩ else s1
  sendReply s2 r.src bs

/-! ### Opcodes (R449) -/

/-- The parameter size of the opcodes of one size. -/
def fixedSize (op : Nat) : Option Nat :=
  match op with
  | 0x00 => some 0 | 0x01 => some 0 | 0x02 => some 0 | 0x10 => some 4 | 0x12 => some 4 | 0x13 => some 4 | 0x20 => some 0 | 0x21 => some 4
  | 0x22 => some 12 | 0x30 => some 24 | 0x31 => some 0 | 0x32 => some 4 | 0x40 => some 8 | 0x41 => some 4 | 0x42 => some 0 | 0x50 => some 4
  | 0x52 => some 4 | 0x53 => some 0 | 0x54 => some 4 | 0x55 => some 4 | 0x60 => some 4 | 0x61 => some 4 | 0x62 => some 0 | 0x70 => some 0
  | 0x71 => some 4 | 0x72 => some 4 | 0x80 => some 8 | 0x82 => some 0 | 0x83 => some 4 | 0x84 => some 128 | 0x90 => some 0 | 0x91 => some 104
  | 0x92 => some 0 | 0x93 => some 0 | 0x94 => some 0 | 0xA0 => some 4 | 0xA1 => some 0 | 0xA2 => some 4 | 0xA3 => some 0 | 0xA4 => some 8
  | _ => none

/-- The opcodes whose size follows a count: where the count stands, its bytes, the size before the items, an item's size, the most items. -/
def countedSize (op : Nat) : Option (Nat × Nat × Nat × Nat × Nat) :=
  match op with
  | 0x11 => some (1, 1, 4, 8, 64)
  | 0x51 => some (2, 2, 4, 4, 1000)
  | 0xA5 => some (4, 2, 8, 4, 1000)
  | _ => none

def knownOp (op : Nat) : Bool := (fixedSize op).isSome || (countedSize op).isSome || op == 0x81

/-- A wrong LENGTH: the offset of the first failing parameter byte (R448, R449; DEDUCED, log 58). -/
def sizeBad (op : Nat) (p : List Byte) : Option Nat :=
  let at' := fun (need : Nat) => if p.length = need then none else some (min p.length need)
  match fixedSize op, countedSize op with
  | some n, _ => at' n
  | none, some (off, nb, base, item, top) =>
    if p.length < off + nb then some p.length
    else
      let n := numAt p off nb
      if n = 0 ∨ n > top then some off else at' (base + item * n)
  | none, none => if 8 ≤ p.length ∧ p.length ≤ 4004 ∧ p.length % 4 = 0 then none else some (min p.length 4004 / 4 * 4)

/-- Owner opcodes; FW_ACTIVATE runs at either tier (R449, R457). -/
def ownerOps : List Nat := [0x91, 0x92, 0x93, 0x94, 0xA3]

/-- Long operations, and the opcodes that one refuses while it runs (R447). -/
def longOps : List Nat := [0x72, 0x82, 0xA1, 0x94, 0xA3]
def heldOps : List Nat := longOps ++ [0x30, 0x31, 0xA0, 0x80, 0x81, 0x83, 0x91, 0x92, 0x93]

/-- What a transport carries (R441). -/
def carried (transport op tier : Nat) : Bool :=
  let g := op / 16
  match transport with
  | 0 => g != 5 && tier ≤ 1
  | 1 => g != 5 && tier == 0
  | 2 => decide (tier ≤ 1)
  | _ => (g == 0 || g == 4 || g == 6 || op == 0x32 || op == 0x70 || op == 0x71) && tier == 0

/-- Whether the MC takes packets from a transport: PCIe in endpoint mode with its link up, Ethernet with an address set; in STANDBY SMBus and
Ethernet alone; none while RESET_N is low (R441, R443; 17, R430; 20, R494). -/
def reachable (s : State) (transport : Nat) : Bool :=
  !s.mc.held &&
  (match transport with
   | 0 => true
   | 1 => fg s MOD_PCIE_CFG_MODE 0 == 0 && fg s MOD_PCIE_CFG_LINK_UP 0 == 1 && !s.standby
   | 2 => baseItem s.store.base 0x0300 != 0
   | 3 => !s.standby
   | _ => false)

/-! ### Parameters (R448: the first failing byte) -/

/-- Parameter bytes that are 0 in every request of an opcode (R449). -/
def zeroBytes (op : Nat) : List Nat :=
  match op with
  | 0x10 => [1, 2, 3] | 0x11 => [2, 3] | 0x12 => [1, 2, 3] | 0x13 => [1, 2, 3] | 0x22 => [1, 2, 3] | 0x32 => [2, 3] | 0x40 => [5, 6, 7]
  | 0x54 => [1, 2, 3] | 0x55 => [1] | 0x60 => [2, 3] | 0x61 => [2, 3] | 0x83 => [1, 2, 3] | 0x84 => rangeFrom 17 15
  | 0x91 => [2, 3, 101, 102, 103] | 0xA0 => [1, 2, 3] | 0xA2 => [2, 3] | 0xA4 => [6, 7] | 0xA5 => [6, 7]
  | _ => []

/-- Item k of a CFG_WRITE: its ITEM known and allowed in the target, its bytes 2 and 3 zero, its VALUE in range (R454). -/
def itemChecks (p : List Byte) (k : Nat) : List (Nat × Bool) :=
  let o := 4 + 8 * k
  let it := numAt p o 2
  [(o, knownItem it && (byteAt p 0 == 0xFE || !baseOnly it)), (o + 2, byteAt p (o + 2) == 0), (o + 3, byteAt p (o + 3) == 0),
   (o + 4, itemOk it (numAt p (o + 4) 4))]

/-- Whether a register word of a REG_WRITE is one that only group 0x5 writes (R452). -/
def packetWord (off : Nat) : Bool :=
  match regAt off with
  | some (r, _) => packetOnly.contains r
  | none => false

/-- Range checks of an opcode's parameters: offset and whether it holds. -/
def rangeChecks (s : State) (op : Nat) (p : List Byte) : List (Nat × Bool) :=
  let b := byteAt p
  let count := fun (o n top : Nat) => (o, decide (1 ≤ numAt p o n) && decide (numAt p o n ≤ top))
  match op with
  | 0x10 => [(0, b 0 ≤ 15 || b 0 == 0xFE || b 0 == 0xFD)]
  | 0x11 => (0, b 0 ≤ 15 || b 0 == 0xFE) :: (below (b 1)).flatMap (itemChecks p)
  | 0x12 => [(0, b 0 ≤ 15)]
  | 0x13 => [(0, b 0 ≤ 15 || b 0 == 0xFF)]
  | 0x22 => [(0, b 0 ≤ 6)]
  | 0x32 => [count 0 2 64]
  | 0x40 => [count 4 1 64]
  | 0x50 => [(0, numAt p 0 2 ≤ 0xFFEF), (2, numAt p 2 2 ≤ 0xFFF)]
  | 0x51 => [(0, numAt p 0 2 + numAt p 2 2 ≤ 0x10000)]
  | 0x52 => [(0, numAt p 0 2 + numAt p 2 2 ≤ 0x10000), count 2 2 1000]
  | 0x54 => [(0, b 0 < 28)]
  | 0x55 => [(0, b 0 < 28), (2, numAt p 2 2 ≤ 0xFFF)]
  | 0x60 => [(0, b 0 < wardCount s), (1, b 1 ≤ 7)]
  | 0x61 => [(0, b 0 < wardCount s), (1, b 1 ≤ 7)]
  | 0x80 => [(0, numAt p 0 4 ≤ 64 * 2 ^ 20 + headerSize)]
  | 0x83 => [(0, b 0 ≤ 1)]
  | 0x84 => [(16, b 16 ≤ 3)]
  | 0x91 => [(0, b 0 ≤ 3), (1, b 1 ≤ 1)]
  | 0xA0 => [(0, b 0 ≤ 1)]
  | 0xA2 => [(0, b 0 ≤ 63), count 1 1 64]
  | 0xA4 => [(0, numAt p 0 4 % 4 == 0 && numAt p 0 4 + 4 * numAt p 4 2 ≤ ctrlSize), count 4 2 1000]
  | 0xA5 =>
    (0, numAt p 0 4 % 4 == 0 && numAt p 0 4 + 4 * numAt p 4 2 ≤ ctrlSize) ::
      (below (numAt p 4 2)).map (fun i => (8 + 4 * i, !packetWord (numAt p 0 4 + 4 * i)))
  | _ => []

/-- The lowest offset among failing parameter checks. -/
def paramBad (s : State) (op : Nat) (p : List Byte) : Option Nat :=
  let fails := ((zeroBytes op).filter (fun o => byteAt p o != 0)) ++ ((rangeChecks s op p).filter (fun c => !c.2)).map Prod.fst
  match fails with
  | [] => none
  | o :: os => some (os.foldl min o)

/-! ### The checks at execution (R441, R445, R447, R449, R457, R464; DEDUCED, log 58) -/

/-- The checks of the header: version, TIER, byte 7, what version 1 carries, and the opcode (R445, R449). -/
def headerBad (r : Req) : Option (Nat × Nat) :=
  let vers := (stVersion, mgmtMin * 256 + mgmtMax)
  let g := r.op / 16
  if r.ver < mgmtMin ∨ r.ver > mgmtMax then some vers
  else if r.tier > 1 then some (stBadParam, 6)
  else if byteAt r.raw 7 ≠ 0 then some (stBadParam, 7)
  else if r.ver = 1 ∧ (!(g == 0 || g == 2 || g == 4) ∨ r.tier ≠ 0) then some vers
  else if !knownOp r.op then some (stBadOpcode, 0)
  else none

/-- Whether boot recovery answers an opcode (R464). -/
def recoveryOp (r : Req) : Bool := r.src.1 == 0 && (r.op ≤ 2 || r.op / 16 == 8)

/-- The checks of the Owner tier in their order (R457). -/
def ownerBad (s : State) (r : Req) : Option (Nat × Nat) :=
  if !(ownerOps.contains r.op || (r.op == 0x83 && r.tier == 1)) then none
  else if r.tier = 0 then some (stNeedOwner, 0)
  else if fg s MC_STATUS_LOOP_CLOSED 0 = 0 then some (stSealOpen, 0)
  else if fg s MC_STATUS_PRESENCE_OPEN 0 = 0 then some (stNoPresence, 0)
  else none

/-- The first check that a request fails, before the rules of its own opcode. JOB_ASSIGN has its own order (R450). -/
def refusal (s : State) (r : Req) : Option (Nat × Nat) :=
  match headerBad r with
  | some x => some x
  | none =>
    if !carried r.src.1 r.op r.tier then some (stTransport, 0)
    else if s.mc.recovery ∧ !recoveryOp r then some (stNotReady, 9)
    else
      match sizeBad r.op r.par with
      | some o => some (stBadParam, o)
      | none =>
        match ownerBad s r with
        | some x => some x
        | none =>
          match s.mc.longOp with
          | some op => if heldOps.contains r.op then some (stBusy, op) else (paramBad s r.op r.par).map (fun o => (stBadParam, o))
          | none => (paramBad s r.op r.par).map (fun o => (stBadParam, o))

/-! ### Into the queue (R445, R447, R482) -/

/-- A packet comes in: a badly framed one is discarded and counted, and frees the mailbox; one that finds 32 in the queue receives ST_BUSY at
once. -/
def takePacket (s : State) (src : Nat × Nat) (raw : List Byte) : State :=
  if !framed raw then
    (let s1 := bump s MC_PKT_CNT_CRC_FAIL 0 1
     if src.1 = 3 then fs s1 MC_MBOX_BUSY 0 0 else s1)
  else if s.mc.inbox.length ≥ 32 then reply s ⟨src, raw⟩ stBusy 0 [] false
  else { s with mc := { s.mc with inbox := s.mc.inbox ++ [(src, raw)] } }

/-- A register write; a packet that it submits through the mailbox comes in. -/
def busStep (s : State) (off : Nat) (v : Word) (locked : Bool) : State :=
  let s1 := busWrite s off v locked
  if s1.mc.inbox.length ≤ s.mc.inbox.length then s1
  else
    match s1.mc.inbox.getLast? with
    | some (src, raw) => takePacket { s1 with mc := { s1.mc with inbox := s.mc.inbox } } src raw
    | none => s1

/-- Several words read by the registers' rules (R452). -/
def readRegs (s : State) : List (Reg × Nat) → List Byte × State
  | [] => ([], s)
  | (r, i) :: rs =>
    let (v, s1) := readReg s r i
    let (bs, s2) := readRegs s1 rs
    (toBytesLE 4 v.toNat ++ bs, s2)

/-- What an opcode does: its STATUS, DETAIL and data, or no reply yet. -/
abbrev Answer := Option (Nat × Nat × List Byte)

def okData (s : State) (bs : List Byte) : State × Answer := (s, some (stOk, 0, bs))
def ok (s : State) : State × Answer := okData s []
def refuse (s : State) (status detail : Nat) : State × Answer := (s, some (status, detail, []))

end Sys2Proof.Machine
end

