-- ==== Sys2Proof/Machine/HostMem.lean ====
section
/-!
DEFINITION. Accesses of host cores and over PCIe (19_host_cores.md, R474 to R479, R486, R487; 11_memory_tiers.md, R268, R273, R274, R284,
R291, R292), and the rows by which they start streams and signal flags (05, R131; 06, R162).
-/

namespace Sys2Proof.Machine

/-! ### A hart's caches (19, R475, R476) -/

def hartRuns (s : State) (hart : Nat) : Bool := bit (fg s MOD_HOST_RUN_RUNNING 0) hart

def hartLine (s : State) (hart line : Nat) : Option HLine := s.host.lines.find? (fun l => l.hart == hart && l.line == line)

/-- A line brought into a hart's caches, if it is not there: it fails on poison or an error (11, R291). A dirty copy of another hart is written
back first and stays, clean (DESIGN CHOICE, log 72). Lines of Tier 2 are never held in the shared cache (11, R272). -/
def fillLine (s : State) (hart : Nat) (err : MemErr) (line : Nat) : State × Option Nat :=
  if (hartLine s hart line).isSome then (s, none)
  else
    match poisonDetail s (line * 64) 64, meetErr s err [(line * 64, 64)] with
    | some d, _ => (s, some d)
    | none, (s1, some d) => (s1, some d)
    | none, (s1, none) =>
      let s2 := cacheTouches s1 true false [((line * 64 : Nat), 64)]
      let clean := s2.host.lines.map (fun l => if l.line = line then { l with dirty := false } else l)
      let data := if line * 64 < tier1Size then [] else memRead s2 (line * 64) 64
      ({ s2 with host := { s2.host with lines := clean ++ [{ hart := hart, line := line, data := data }] } }, none)

/-- The lines of n bytes from a on brought in, in order, up to one that fails. -/
def fillLines (s : State) (hart : Nat) (err : MemErr) (a n : Nat) : State × Option Nat :=
  (linesOf a n).foldl (fun t k => match t.2 with | some _ => t | none => fillLine t.1 hart err k) (s, none)

/-- The bytes a hart's load takes: of Tier 1 those of memory with its own stores that wait over them, of Tier 2 those of its copies (R475). -/
def hartBytes (s : State) (hart a n : Nat) : List Byte :=
  if a < tier1Size then
    let own := (s.host.stores.filter (fun x => x.hart == hart)).foldl (fun t x => memWrite t x.addr x.bytes) s
    memRead own a n
  else ((linesOf a n).flatMap (fun k => ((hartLine s hart k).map HLine.data).getD [])).drop (a % 64) |>.take n

/-- A line given up by a hart's caches: what it changed is written back through the shared cache (R475). -/
def evictLine (s : State) (hart line : Nat) : State :=
  match hartLine s hart line with
  | none => s
  | some l =>
    let s1 := { s with host := { s.host with lines := s.host.lines.filter (fun x => x != l), resv := s.host.resv.filter (fun r => r != (hart, line)) } }
    if l.dirty then cacheTouches s1 true true [((line * 64 : Nat), 64)] else s1

/-- An uncorrectable error in a line of a hart's caches (R476): a clean one is discarded, to be fetched again; of a dirty one the Tier 1 sector
is poisoned, and a load that meets it takes an access fault. -/
def hartCacheError (s : State) (hart a : Nat) (atLoad : Bool) : State :=
  match hartLine s hart (a / 64) with
  | none => s
  | some l =>
    let s1 := { s with host := { s.host with lines := s.host.lines.filter (fun x => x != l) } }
    if !l.dirty then s1
    else
      let s2 := poisonAt s1 (a / 64 * 64) 64
      if atLoad then hostTrap s2 hart 5 else s2

/-! ### Loads and stores (19, R474) -/

/-- I/O ranges beside ward stores and the control space: IMSICs and APLIC, the block device's controller, the IOMMU, and in root-port mode the
PCIe ranges. What their registers hold follows other standards. -/
def hostDevice (s : State) (a n : Nat) : Bool :=
  let within := fun (lo size : Nat) => lo ≤ a && a + n ≤ lo + size
  within 0x310000000000 (32 * 0x2000) || within 0x310100000000 0x8000 || within 0x310200000000 0x4000 || within 0x310300000000 0x1000 ||
  (fg s MOD_PCIE_CFG_MODE 0 == 1 && (within 0x320000000000 0x10000000 || within 0x400000000000 0x10000000000))

def sizeOk (n : Nat) : Bool := n == 1 || n == 2 || n == 4 || n == 8

/-- What a load puts into rd. -/
def loaded (sx : Bool) (n v : Nat) : Nat := if sx then (signed (8 * n) v % 2 ^ 64).toNat else v

/-- A hart's stores to ward stores, one strongly ordered channel, take effect before its load there (R475). -/
def drainWard (s : State) (hart : Nat) : State :=
  let (mine, rest) := s.host.stores.partition (fun x => x.hart == hart && decide (x.addr ≥ wardBase))
  mine.foldl showStore { s with host := { s.host with stores := rest } }

/-- A load (R474): from Tier 1 and Tier 2 through the caches, from a ward store or the control space at once; elsewhere, or where it meets an
uncorrectable error, an access fault (11, R291). A device's register gives a free value (DESIGN CHOICE, log 72). -/
def hostLoad (s : State) (hart rd a n : Nat) (sx : Bool) (err : MemErr) : State :=
  let bad := fun (t : State) (d : Nat) => hostTrap (noteUe t d 0) hart 5
  let cached :=
    match fillLines s hart err a n with
    | (s1, some d) => bad s1 d
    | (s1, none) => hostReg s1 hart rd (loaded sx n (ofBytesLE (hartBytes s1 hart a n)))
  match regionOf s (a : Int) n with
  | .tier1 => cached
  | .tier2 => cached
  | .ward _ =>
    let s1 := drainWard s hart
    (match poisonDetail s1 a n, meetErr s1 err [(a, n)] with
     | some d, _ => bad s1 d
     | none, (s2, some d) => bad s2 d
     | none, (s2, none) => hostReg s2 hart rd (loaded sx n (ofBytesLE (memRead s2 a n))))
  | .ctrl =>
    if n = 4 ∧ a % 4 = 0 then (let (v, s1) := busRead s (a - ctrlBase); hostReg s1 hart rd (loaded sx n v.toNat)) else hostTrap s hart 5
  | .unmapped => if hostDevice s a n then (let (v, s1) := fresh s; hostReg s1 hart rd (v % 2 ^ (8 * n))) else hostTrap s hart 5

/-- A store (R474): to Tier 1 and to a ward store, by the write rule of 11, R268, it waits to become visible (R477); to the control space it
takes effect at once; to Tier 2 it takes an access fault (11, R284), as elsewhere. -/
def hostStore (s : State) (hart a n v : Nat) (err : MemErr) : State :=
  let wait := fun (t : State) => { t with host := { t.host with stores := t.host.stores ++ [⟨hart, a, toBytesLE n v⟩] } }
  match regionOf s (a : Int) n with
  | .tier1 =>
    (match fillLines s hart err a n with
     | (s1, some d) => hostTrap (noteUe s1 d 0) hart 7
     | (s1, none) => wait s1)
  | .ward w => if storeGuarded s w (a % 0x1000000) n then hostTrap s hart 7 else wait s
  | .ctrl => if n = 4 ∧ a % 4 = 0 then busStep s (a - ctrlBase) (BitVec.ofNat 32 v) false else hostTrap s hart 7
  | .tier2 => hostTrap s hart 7
  | .unmapped => if hostDevice s a n then s else hostTrap s hart 7

/-- LR (R479): a load of Tier 1 that reserves its line, in the hart's own caches. -/
def hostLr (s : State) (hart rd a n : Nat) (err : MemErr) : State :=
  if a % n ≠ 0 then hostTrap s hart 4
  else if a + n > tier1Size then hostTrap s hart 5
  else
    let s1 := hostLoad s hart rd a n true err
    if s1.host.traps.length > s.host.traps.length then s1
    else { s1 with host := { s1.host with resv := s1.host.resv.filter (fun r => r.1 != hart) ++ [(hart, a / 64)] } }

/-- SC (R479): with the reservation held it stores and rd takes 0; else rd takes 1 (PRESUMED, log 72). The reservation is given up. -/
def hostSc (s : State) (hart rd a n v : Nat) (err : MemErr) : State :=
  if a % n ≠ 0 then hostTrap s hart 6
  else if a + n > tier1Size then hostTrap s hart 7
  else
    let s1 := { s with host := { s.host with resv := s.host.resv.filter (fun r => r.1 != hart) } }
    if !s.host.resv.contains (hart, a / 64) then hostReg s1 hart rd 1
    else
      match fillLines s1 hart err a n with
      | (s2, some d) => hostTrap (noteUe s2 d 0) hart 7
      | (s2, none) => hostReg (showStore (hostFence s2 hart) ⟨hart, a, toBytesLE n v⟩) hart rd 0

/-- Store k of those of a hart that wait becomes visible, unless an earlier one overlaps it or both go to ward stores (R475). -/
def storeVisible (s : State) (hart k : Nat) : State :=
  let mine := s.host.stores.filter (fun x => x.hart == hart)
  match mine[k]? with
  | none => s
  | some x =>
    if (mine.take k).any (fun y => overlaps (y.addr, y.bytes.length) (x.addr, x.bytes.length) || (decide (wardBase ≤ y.addr) && decide (wardBase ≤ x.addr))) then s
    else showStore { s with host := { s.host with stores := s.host.stores.filter (fun y => y.hart != hart) ++ mine.eraseIdx k } } x

/-! ### PCIe (19, R486, R487) -/

/-- Where an access over PCIe goes: a control-space offset, a module offset, or nowhere. -/
inductive PcieTo where
  | ctrl (off : Nat) | mem (a : Nat) | none
deriving DecidableEq, Repr

/-- BAR0 and BAR2 in endpoint mode, a device's access in root-port mode, with the link up (R486, R487). -/
def pcieTo (s : State) (window a n : Nat) : PcieTo :=
  if fg s MOD_PCIE_CFG_LINK_UP 0 = 0 then .none
  else if fg s MOD_PCIE_CFG_MODE 0 = 1 then (if window = 2 then .mem a else .none)
  else if window = 0 ∧ a + n ≤ 0x4000000 then .ctrl a
  else if window = 1 ∧ a + n ≤ 2 ^ 36 then .mem (fg s MOD_PCIE_CFG_MWIN 0 * 2 ^ 30 + a)
  else .none

/-- Whether PCIe may read a region, or write it, in the mode in effect (R486, R487; 11, R268, R284). -/
def pcieMay (s : State) (write : Bool) (a n : Nat) : Bool :=
  let root := fg s MOD_PCIE_CFG_MODE 0 == 1
  match regionOf s (a : Int) n with
  | .tier1 => true
  | .tier2 => !write
  | .ward w => !root && !(write && storeGuarded s w (a % 0x1000000) n)
  | _ => false

/-- A read over PCIe: a completion with data, Unsupported Request in an unmapped part, Completer Abort on an error (R486; 11, R291). -/
def pcieRead (s : State) (window a n : Nat) (err : MemErr) : State :=
  match pcieTo s window a n with
  | .none => if fg s MOD_PCIE_CFG_LINK_UP 0 = 1 then tlp s 1 0 else s
  | .ctrl off => if n = 4 ∧ off % 4 = 0 then (let (v, s1) := busRead s off; tlp s1 0 v.toNat) else tlp s 1 0
  | .mem b =>
    if !pcieMay s false b n then tlp s 1 0
    else
      match poisonDetail s b n, meetErr s err [(b, n)] with
      | some d, _ => tlp (noteUe s d 0) 4 0
      | none, (s1, some d) => tlp (noteUe s1 d 0) 4 0
      | none, (s1, none) => tlp (cacheTouches s1 true false (txns (b : Int) n)) 0 (ofBytesLE (memRead s1 b n))

/-- A PCIe write that is refused is discarded and logged as an Unsupported Request (11, R284). -/
def pcieLost (s : State) : State := { s with host := { s.host with urs := s.host.urs + 1 } }

/-- A write over PCIe: to the control window by the registers' rules, to Tier 1 and, as an endpoint, to ward stores; to Tier 2 and elsewhere it
is discarded and logged (R486, R487; 11, R268, R284, R292). -/
def pcieWrite (s : State) (window a : Nat) (bs : List Byte) (err : MemErr) : State :=
  match pcieTo s window a bs.length with
  | .none => if fg s MOD_PCIE_CFG_LINK_UP 0 = 1 then pcieLost s else s
  | .ctrl off => if bs.length = 4 ∧ off % 4 = 0 then busStep s off (BitVec.ofNat 32 (ofBytesLE bs)) false else pcieLost s
  | .mem b =>
    if !pcieMay s true b bs.length then pcieLost s
    else
      match partialPoison s b bs.length, writeErr s err b bs.length with
      | some p, _ => pcieLost (noteUe s (ueAt s 2 p) 0)
      | none, (s1, some d) => pcieLost (noteUe s1 d 0)
      | none, (s1, none) => moverWrite (cacheTouches s1 true true (txns (b : Int) bs.length)) false b bs

/-! ### The accesses before a command -/

/-- One access. A hart that does not run makes none. -/
def hostOp (s : State) (o : HostOp) : State :=
  match o with
  | .load h rd a n sx err => if hartRuns s h ∧ sizeOk n then hostLoad s h rd a n sx err else s
  | .store h a n v err => if hartRuns s h ∧ sizeOk n then hostStore s h a n v err else s
  | .loadReserved h rd a n err => if hartRuns s h ∧ (n = 4 ∨ n = 8) then hostLr s h rd a n err else s
  | .storeConditional h rd a n v err => if hartRuns s h ∧ (n = 4 ∨ n = 8) then hostSc s h rd a n v err else s
  | .fence h => hostFence s h
  | .visible h k => storeVisible s h k
  | .evict h a => evictLine s h (a / 64)
  | .cacheError h a atLoad => hartCacheError s h a atLoad
  | .pcieRead w a n err => pcieRead s w a n err
  | .pcieWrite w a bs err => pcieWrite s w a bs err

/-- The accesses in order. A command reads what is visible when it loads or executes: a store that no FENCE has followed may stay older bytes
to it (R477). -/
def hostOps (s : State) (os : List HostOp) : State := os.foldl hostOp s

/-! ### The rows -/

/-- DOORBELL_WRITE (05, R131; R477): AVAIL written to WARD_SDBELL of stream instance m, after the accesses `before` it. -/
def execDoorbellWrite (m avail : Nat) (before : List HostOp) (s : State) : Host.Outcome State Fault Refusal :=
  let t := hostOps s before
  .next (if m / 8 < wardCount t then observe (doorbell t m (avail % 2 ^ 32) hostClient) else t)

/-- FLAG_SIGNAL_WRITE (06, R162; R477): INC written to WARD_FSIG of flag instance n, after the accesses `before` it. -/
def execFlagSignalWrite (n inc : Nat) (before : List HostOp) (s : State) : Host.Outcome State Fault Refusal :=
  let t := hostOps s before
  .next (if n / 256 < wardCount t then observe (flagSignal t n inc hostClient) else t)

end Sys2Proof.Machine
end

