-- ==== Sys2Proof/Machine/LibFn.lean ====
section
/-!
DEFINITION. The elementary functions of the standard library (04_numerics_contract.md, R103). The manual bounds each result and fixes no bits:
a result is a free value among the FP32 values within the bound of the exact result (DESIGN CHOICE, log 15). The exact results are computed
here in fixed point to some 500 bits, far past what an FP32 value can tell.
-/

namespace Sys2Proof.Machine

/-! ### Fixed point: a number r stands for r / 2^512 -/

def fixP : Nat := 512

/-- A value in fixed point, toward zero; NaN as 0. -/
def toFix : FV → Int
  | .nan => 0
  | .fin s n d e =>
    let m : Nat := n * pow2 (e + fixP) / (d * pow2 (-(e + fixP)))
    if s then -(m : Int) else m

def ofFix (x : Int) : FV := .fin (decide (x < 0)) x.natAbs 1 (-(fixP : Int))

def mulFix (a b : Int) : Int := a * b / 2 ^ fixP

/-- Σ of the terms of a series: each from the one before it and its number. -/
def seriesFix (next : Nat → Int → Int) : Nat → Nat → Int → Int
  | 0, _, _ => 0
  | n + 1, k, t => t + seriesFix next n (k + 1) (next (k + 1) t)

/-- Σ z^(2i+1) / (2i+1), the inverse hyperbolic tangent of z below 1/3; with `alt` its signs alternate: the inverse tangent. -/
def atanFix (alt : Bool) (z : Int) : Nat → Nat → Int → Int
  | 0, _, _ => 0
  | n + 1, k, p => p / (2 * (k : Int) + 1) + atanFix alt z n (k + 1) (let q := mulFix (mulFix p z) z; if alt then -q else q)

/-- The natural logarithm of 2, and pi by Machin's formula. -/
def ln2Fix : Int := 2 * (let z : Int := 2 ^ fixP / 3; atanFix false z 180 0 z)
def piFix : Int :=
  let a : Int := 2 ^ fixP / 5
  let b : Int := 2 ^ fixP / 239
  16 * atanFix true a 240 0 a - 4 * atanFix true b 80 0 b

/-! ### Exact results, as values to some 500 bits -/

/-- e^x. Far outside the range of FP32 a power of two on the same side stands for it. -/
def expV (v : FV) : FV :=
  match v with
  | .nan => .nan
  | .fin s n d e =>
    if n = 0 then .fin false 1 1 0
    else if floorLog2 n d + e ≥ 10 then .fin false 1 1 (if s then -2000 else 2000)
    else
      let x := toFix v
      let k := x / ln2Fix
      let r := x - k * ln2Fix
      .fin false (seriesFix (fun i t => mulFix t r / (i : Int)) 120 0 (2 ^ fixP)).toNat 1 (k - fixP)

/-- The natural logarithm of a positive value. -/
def logV (v : FV) : FV :=
  match v with
  | .fin false (n + 1) d e =>
    let l := floorLog2 (n + 1) d
    let num := (n + 1) * pow2 (-l)
    let den := d * pow2 l
    let z : Int := ((num - den) * 2 ^ fixP / (num + den) : Nat)
    ofFix ((l + e) * ln2Fix + 2 * atanFix false z 180 0 z)
  | _ => .nan

def FV.one : FV := .fin false 1 1 0

/-- 1 / (1 + e^-x). -/
def sigmoidV (v : FV) : FV := FV.one.div (FV.one.add (expV v.neg))

/-- tanh, by the exponential of twice the magnitude. -/
def tanhV (v : FV) : FV :=
  match v with
  | .nan => .nan
  | .fin s n d e =>
    if n = 0 then .fin s 0 1 0
    else
      let q := expV (.fin false n d (e + 1))
      let r := (q.add FV.one.neg).div (q.add FV.one)
      if s then r.neg else r

/-- log (1 + e^x); of a large x, x itself. -/
def softplusV (v : FV) : FV :=
  if (FV.ofNat 200).lt v then v else logV (FV.one.add (expV v))

def siluV (v : FV) : FV := v.mul (sigmoidV v)

/-- The normal distribution function, by its series about 0; past 15 in magnitude it is 1, or too small for FP32. -/
def phiV (v : FV) : FV :=
  if (FV.ofNat 15).lt v then FV.one
  else if (FV.ofNat 15).lt v.neg then .fin false 1 1 (-2000)
  else
    let x := toFix v
    let sum := seriesFix (fun i t => mulFix (mulFix t x) x / (2 * (i : Int) + 1)) 1200 0 x
    let half := toFix (expV ((v.mul v).mul (.fin true 1 1 (-1))))
    let c : Int := (isqrt ((2 ^ (3 * fixP) : Nat) / (2 * piFix.toNat)) : Nat)
    ofFix (2 ^ (fixP - 1) + mulFix (mulFix sum half) c)

/-- x Φ(x), the erf form of GELU. -/
def geluV (v : FV) : FV := v.mul (phiV v)

/-! ### Results within a bound -/

/-- The exponent of ulp32 at a magnitude (04, R95). -/
def ulpExp (n d : Nat) (e : Int) : Int := if n = 0 then -149 else max (floorLog2 n d + e - 23) (-149)

/-- Whether FP32 magnitude code k lies within b ulp32 of a magnitude. -/
def withinUlp (b : Nat) (n d : Nat) (e : Int) (k : Nat) : Bool :=
  let m := fp32F.magnitude k
  let diff := ((FV.fin false m.1 1 m.2).add (.fin true n d e)).abs
  !((FV.fin false b 1 (ulpExp n d e)).lt diff)

/-- The FP32 magnitude codes within b ulp32 of a magnitude. -/
def ulpCodes (b n d : Nat) (e : Int) : List Nat :=
  let c := (fp32F.encodeMag .rne max32 n d e).1
  (rangeFrom (c - 2 * b) (4 * b + 1)).filter (fun k => decide (k ≤ max32) && withinUlp b n d e k)

/-- Function `fn` of an operand pattern with exact result v: a free value within b ulp32, of the exact result's sign; past the largest finite
value it saturates (R103; 02, R37). -/
def libValue (fn b x : Nat) (v : FV) : Nat × Ev :=
  match v with
  | .nan => (nan32, {})
  | .fin s n d e =>
    let sign := b2n s * 2 ^ 31
    let c := fp32F.encodeMag .rne max32 n d e
    if c.1 > max32 then (sign + max32, { ovf := 1 })
    else
      let ks := ulpCodes b n d e
      (sign + nth ks (Config.libValue fn x % max 1 ks.length) c.1, {})

/-- A library function of one operand: its value on the numbers, its events of reading the operand (02, R38). -/
def libFn (fn b : Nat) (f : FV → FV) (x : Nat) : Nat × Ev :=
  let (v, ev) := ofFp32 x
  let (r, er) := libValue fn b x (f v)
  (r, ev.add er)

/-- exp: of a zero exactly 1.0 (07, R189). -/
def expLib (x : Nat) : Nat × Ev := if x % 2 ^ 31 = 0 then (one32, {}) else libFn 1 2 expV x

/-- log: of a zero minus the largest finite value, counted; of a negative number a NaN, created (R103; 02, R39). -/
def logLib (x : Nat) : Nat × Ev :=
  match (ofFp32 x).1 with
  | .fin _ 0 _ _ => (2 ^ 31 + max32, { ovf := 1 })
  | .fin true _ _ _ => (nan32, { nanc := 1 })
  | _ => libFn 2 2 logV x

/-- The reciprocal: of a zero the largest finite value of its sign, counted (R103). -/
def recipLib (x : Nat) : Nat × Ev :=
  match (ofFp32 x).1 with
  | .fin s 0 _ _ => (b2n s * 2 ^ 31 + max32, { ovf := 1 })
  | _ => libFn 3 1 (fun v => FV.one.div v) x

/-- The reciprocal square root: of a zero as the reciprocal; of a negative number a NaN, created (R103; 02, R39). -/
def rsqrtLib (x : Nat) : Nat × Ev :=
  match (ofFp32 x).1 with
  | .fin s 0 _ _ => (b2n s * 2 ^ 31 + max32, { ovf := 1 })
  | .fin true _ _ _ => (nan32, { nanc := 1 })
  | _ => libFn 4 1 (fun v => (FV.one.div v).sqrt) x

/-- The activations by their number in the library's order: SiLU, GELU, tanh, sigmoid, ReLU, softplus (07, R189; R103). -/
def actLib (k x : Nat) : Nat × Ev :=
  match k with
  | 0 => libFn 5 3 siluV x
  | 1 => libFn 6 4 geluV x
  | 2 => libFn 7 2 tanhV x
  | 3 => libFn 8 2 sigmoidV x
  | 4 =>
    let (v, ev) := ofFp32 x
    match v with
    | .nan => (nan32, ev)
    | .fin s _ _ _ => if s then (0, ev) else ((toFp32 v).1, ev)
  | _ => libFn 9 3 softplusV x

end Sys2Proof.Machine
end

