-- ==== Sys2Proof/Machine/Library.lean ====
section
/-!
DEFINITION. The kernels of the standard library (07_vector_engine.md, R189 to R200), and VOP. The manual gives what each kernel computes, not its
instructions: an invocation of a library kernel runs by VOP events alone, each of which pushes the next tile due on an output end whose slot is
free, the last of which ends it (DESIGN CHOICE, log 15). What the manual bounds and does not fix is a free value (LibFn).
-/

namespace Sys2Proof.Machine

/-! ### What a kernel reads and makes -/

/-- An input tile: its header, its decoded elements, its raw 32-bit lanes, and the bytes after it in its slot. -/
structure LibIn where
  hdr  : Hdr
  tile : Tile
  raw  : Tile
  tail : List Byte

/-- An output tile by rows of 128 lanes, the columns its header names where the kernel fixes them, and the bytes that follow it. -/
structure LibTile where
  row  : Nat → List Nat × Ev
  cols : Option Nat := none
  tail : List Byte := []

/-- What a kernel makes of its inputs: a tile for each end and push, or FLT_KERNEL. -/
abbrev LibOut := Option (Nat → Nat → LibTile)

def LibIn.row (x : LibIn) (i : Nat) : List Nat × Ev := rowLanes x.tile i

/-- Lane j of row i, with its events of reading. -/
def LibIn.lane (x : LibIn) (i j : Nat) : Ew := nth (x.tile.line i) j (0, {})
def LibIn.rawLane (x : LibIn) (i j : Nat) : Nat := nth (rawRow x.raw i) j 0

/-- A tile's column offset: ELEM_BASE modulo ROW_LEN (07, R192, R195). -/
def LibIn.offset (x : LibIn) : Nat := if x.hdr.rowLen = 0 then 0 else x.hdr.elemBase % x.hdr.rowLen

/-- Values with events, taken apart and put together. -/
def lanesOf (xs : List Ew) : List Nat × Ev := (xs.map Prod.fst, sumEv (xs.map Prod.snd))
def cells (f : Nat → Ew) : List Nat × Ev := lanesOf ((below 128).map f)
def Ew.plus (x : Ew) (e : Ev) : Ew := (x.1, x.2.add e)

/-- A row whose first columns are given; the others are +0 (07, R193). -/
def headRow (xs : List Ew) : List Nat × Ev := let r := lanesOf xs; (padTo 128 0 r.1, r.2)

def negMax : Nat := 2 ^ 31 + max32

/-! ### Normalisation (07, R190) -/

/-- The row's scale s: the squares' row sums added in tile order. -/
def rmsScale (xs : List LibIn) (eps invN i : Nat) : Ew :=
  let sq := xs.map (fun x => let r := cells (fun j => let v := x.lane i j; emul v (pv v.1)); (Ew.plus (rowSum r.1) r.2))
  let q := match sq with
    | [] => pv 0
    | a :: rest => rest.foldl eadd a
  op1 rsqrtLib (eadd (emul q (pv invN)) (pv eps))

/-- KE_RMSNORM: its gain is the first row of the gain tile (DEDUCED, log 15). -/
def rmsTile (xs gs : List LibIn) (eps invN t : Nat) : LibTile :=
  { row := fun i =>
      let s := rmsScale xs eps invN i
      let r := cells (fun j =>
        match xs[t]?, gs[t]? with
        | some x, some g => emul (emul (pv (x.lane i j).1) (pv s.1)) (if i = 0 then g.lane 0 j else pv (g.lane 0 j).1)
        | _, _ => pv 0)
      (r.1, if t = 0 then r.2.add s.2 else r.2) }

/-! ### Attention softmax (07, R192, R193) -/

/-- A score that takes part: not masked, and within the COLS of its tile (the last DEDUCED, log 15). -/
def scoreTakes (mode qbase kbase : Nat) (x : LibIn) (i j : Nat) : Bool :=
  decide (j < x.hdr.cols) && !(mode == 1 && decide (qbase + i < kbase + x.offset + j))

/-- The values a of a row: c times each score that takes part. -/
def scoreRow (c mode qbase kbase : Nat) (x : LibIn) (i : Nat) : List (Option Ew) :=
  (below 128).map (fun j => if scoreTakes mode qbase kbase x i j then some (emul (pv c) (x.lane i j)) else none)

/-- The greatest of m and the values. -/
def maxRow (m : Nat) (as : List (Option Ew)) : Ew := as.foldl (fun r a => match a with | some x => op2 (pick32 false) r (pv x.1) | none => r) (pv m)

/-- p of each value, for the maximum m: exactly +0 where masked. -/
def expRow (m : Nat) (as : List (Option Ew)) : List Ew :=
  as.map (fun a => match a with | some x => op1 expLib (esub (pv x.1) (pv m)) | none => pv 0)

def readEv (as : List (Option Ew)) : Ev := sumEv (as.map (fun a => match a with | some x => x.2 | none => {}))

/-- A row's running state after a block: m, l, alpha, and the block's p (07, R193). -/
structure RowState where
  m     : Nat
  l     : Nat
  alpha : Nat
  p     : List Nat
  ev    : Ev

def blockRow (m l : Nat) (as : List (Option Ew)) : RowState :=
  let mb := maxRow negMax as
  let mn := pick32 false m mb.1
  let alpha := op1 expLib (esub (pv m) (pv mn.1))
  let p := lanesOf (expRow mn.1 as)
  let l' := eadd (emul (pv alpha.1) (pv l)) (rowSum p.1)
  ⟨mn.1, l'.1, alpha.1, p.1, (readEv as).add (mb.2.add (mn.2.add (alpha.2.add (p.2.add l'.2))))⟩

def lseOf (m l : Nat) : Ew := if l % 2 ^ 31 = 0 then pv negMax else eadd (pv m) (logLib l)

/-- KE_SOFTMAX_ROW of a row: m over all its tiles, then l with that m. -/
def softmaxRow (rows : List (List (Option Ew))) : RowState :=
  let m := rows.foldl (fun r as => op2 (pick32 false) r (maxRow negMax as)) (pv negMax)
  let ls := rows.map (fun as => lanesOf (expRow m.1 as))
  let l := ls.foldl (fun r p => eadd r (Ew.plus (rowSum p.1) p.2)) (pv 0)
  ⟨m.1, l.1, one32, [], (sumEv (rows.map readEv)).add (m.2.add l.2)⟩

def softmaxOut (xs : List LibIn) (c mode qbase kbase : Nat) (e k : Nat) : LibTile :=
  let rowsOf := fun i => xs.map (fun x => scoreRow c mode qbase kbase x i)
  if e = 0 then
    { row := fun i =>
        let rows := rowsOf i
        let st := softmaxRow rows
        let as := nth rows k []
        let r := lanesOf ((expRow st.m as).zip as |>.map (fun pa =>
          match pa.2 with
          | some _ => if st.l % 2 ^ 31 = 0 then pv 0 else emul (pv pa.1.1) (recipLib st.l)
          | none => pv 0))
        (r.1, if k = 0 then r.2.add st.ev else r.2) }
  else { row := fun i => let st := softmaxRow (rowsOf i); headRow [lseOf st.m st.l], cols := some 1 }

/-- KE_ATTN_INIT: the alpha of its state is not stated (DESIGN CHOICE, log 15). -/
def attnInit (e : Nat) : LibTile :=
  if e = 0 then { row := fun i => headRow [pv negMax, pv 0, pv (Config.unstated 15 0 i % 2 ^ 32)], cols := some 128 }
  else { row := fun _ => headRow [] }

/-- KE_ATTN_BLOCK: P_b, and the new state. -/
def attnBlock (x st : LibIn) (c mode qbase kbase e : Nat) : LibTile :=
  let next := fun i => blockRow (st.lane i 0).1 (st.lane i 1).1 (scoreRow c mode qbase kbase x i)
  if e = 0 then { row := fun i => let r := next i; (r.p, r.ev) }
  else { row := fun i => let r := next i; headRow [pv r.m, pv r.l, pv r.alpha], cols := some 128 }

/-- KE_ATTN_MERGE: O = ffma(alpha, O, O_b). -/
def attnMerge (ob o st : LibIn) : LibTile :=
  { row := fun i => cells (fun j =>
      let x := o.lane i j
      let y := ob.lane i j
      let a := st.lane i 2
      Ew.plus (ffma32 a.1 x.1 y.1) (x.2.add y.2)) }

/-- KE_ATTN_FINAL: the output, and the row log-sum-exp. -/
def attnFinal (o st : LibIn) (e : Nat) : LibTile :=
  if e = 0 then
    { row := fun i =>
        let l := (st.lane i 1).1
        cells (fun j => if l % 2 ^ 31 = 0 then pv 0 else emul (o.lane i j) (recipLib l)) }
  else { row := fun i => headRow [lseOf (st.lane i 0).1 (st.lane i 1).1], cols := some 1 }

/-! ### The loss (07, R195) -/

/-- Whether a target id falls on column j of a logit tile. -/
def isTarget (x : LibIn) (id j : Nat) : Bool := decide (j < x.hdr.cols) && x.offset + j == id

/-- KE_XENT_BLOCK: columns past the tile's COLS hold no logit (DEDUCED, log 15). -/
def xentBlock (x st : LibIn) : LibTile :=
  { row := fun i =>
      let as := (below 128).map (fun j => if j < x.hdr.cols then some (x.lane i j) else none)
      let r := blockRow (st.lane i 0).1 (st.lane i 1).1 as
      let id := st.rawLane i 3
      let z := match (below 128).find? (isTarget x id) with
        | some j => (x.lane i j).1
        | none => st.rawLane i 2
      let out := headRow [pv r.m, pv r.l, pv z, pv id]
      (out.1, out.2.add r.ev)
    cols := some 128 }

/-- KE_XENT_FINAL: the loss of each row. -/
def xentFinal (st : LibIn) : LibTile :=
  { row := fun i => headRow [esub (eadd (pv (st.lane i 0).1) (logLib (st.lane i 1).1)) (pv (st.rawLane i 2))], cols := some 1 }

/-- KE_XENT_GRAD: at the target column the last step is one FFMA. -/
def xentGrad (x st : LibIn) (invN : Nat) : LibTile :=
  { row := fun i => cells (fun j =>
      let q := emul (op1 expLib (esub (x.lane i j) (pv (st.lane i 0).1))) (recipLib (st.lane i 1).1)
      if isTarget x (st.rawLane i 3) j then Ew.plus (ffma32 q.1 invN (invN ^^^ 2 ^ 31)) q.2 else emul q (pv invN)) }

/-! ### Activations and derivatives (07, R197, R198) -/

def flagCode : Nat := 0x2D

/-- x_min and y_min of SiLU (0) and GELU (1), the FP32 values nearest the printed ones. -/
def xMin (k : Nat) : Nat := (toFp32 (.fin true (if k = 0 then 12784645 else 7517915) 10000000 0)).1
def yMin (k : Nat) : Nat := (toFp32 (.fin true (if k = 0 then 2784645 else 1699712) 10000000 0)).1

def less32 (a b : Nat) : Bool := (ofFp32 a).1.lt (ofFp32 b).1

/-- 2·y_min − v: the reflection of a saved output, its own inverse but for its rounding. -/
def reflect32 (k v : Nat) : Ew := esub (emul (pv 0x40000000) (pv (yMin k))) (pv v)

/-- Whether the group of element (i, j), eight elements of a row, has an input left of the minimum. -/
def groupFlag (k : Nat) (x : LibIn) (i j : Nat) : Bool :=
  (rangeFrom (j / 8 * 8) 8).any (fun h => less32 (x.lane i h).1 (xMin k))

/-- The flag area of a saved tile: byte b covers elements 16b to 16b + 15 in row-major order (07, R197). -/
def flagArea (k : Nat) (x : LibIn) : List Byte :=
  (below 1024).map (fun b =>
    let i := b / 8
    let j := 16 * (b % 8)
    BitVec.ofNat 8 (b2n (groupFlag k x i j) + 2 * b2n (groupFlag k x i (j + 8)) + 4 * flagCode))

/-- Whether an activation's saved tile has flags: SiLU's and GELU's (07, R189). -/
def hasFlags (k : Nat) : Bool := decide (k < 2)

/-- The saved tile of an activation. -/
def savedTile (k : Nat) (x : LibIn) : LibTile :=
  { row := fun i => cells (fun j =>
      let v := (x.lane i j).1
      let y := actLib k v
      if hasFlags k && groupFlag k x i j && less32 v (xMin k) then Ew.plus (reflect32 k y.1) {} else pv y.1)
    tail := if hasFlags k then flagArea k x else [] }

/-- An activation: y, and its saved tile. -/
def activation (k : Nat) (x : LibIn) (e : Nat) : LibTile :=
  if e = 0 then { row := fun i => cells (fun j => op1 (actLib k) (x.lane i j)) } else savedTile k x

/-- KE_SWIGLU: h = silu(g) × u, and the saved silu(g). -/
def swiglu (g u : LibIn) (e : Nat) : LibTile :=
  if e = 0 then { row := fun i => cells (fun j => emul (op1 (actLib 0) (g.lane i j)) (u.lane i j)) } else savedTile 0 g

/-- Whether every flag byte of a saved tile carries its code. -/
def flagsGood (x : LibIn) : Bool := (padTo 1024 0 (x.tail.take 1024)).all (fun b => bits b.toNat 7 2 == flagCode)

/-- A saved element read back: the output y, and whether it is on the left branch (07, R198). -/
def savedRead (k : Nat) (x : LibIn) (i j : Nat) : Ew × Bool :=
  let v := x.lane i j
  let b := (nth x.tail (8 * i + j / 16) 0).toNat
  if hasFlags k && bit b (j / 8 % 2) && less32 v.1 (yMin k) then (Ew.plus (reflect32 k v.1) v.2, true) else (v, false)

/-- An incoming gradient times the derivative at a saved output. ReLU's derivative is 1 or 0; of the others the manual names the formula and
not its roundings: the result is free (DESIGN CHOICE, log 15). -/
def derivative (k : Nat) (dy : Ew) (y : Ew) (left : Bool) : Ew :=
  if k = 4 then emul dy (y.1 |> fun v => (if less32 0 v then one32 else 0, y.2))
  else (Config.libDerivative (2 * k + b2n left) dy.1 y.1 % 2 ^ 32, dy.2.add y.2)

/-- A derivative kernel. -/
def derivTile (k : Nat) (dy x : LibIn) : LibOut :=
  if hasFlags k && !flagsGood x then none
  else some (fun _ _ => { row := fun i => cells (fun j => let r := savedRead k x i j; derivative k (dy.lane i j) r.1 r.2) })

/-- KE_SWIGLU_BWD: du = dh × silu(g); of dg the manual names the formula's derivative only, and its elements are free (DESIGN CHOICE, log 15). -/
def swigluBwd (dh x u : LibIn) : LibOut :=
  if !flagsGood x then none
  else some (fun e _ => { row := fun i => cells (fun j =>
    let r := savedRead 0 x i j
    let d := dh.lane i j
    let x := u.lane i j
    if e = 0 then (Config.libDerivative (12 + b2n r.2) (d.1 * 2 ^ 32 + x.1) r.1.1 % 2 ^ 32, d.2.add (x.2.add r.1.2))
    else emul (pv d.1) (pv r.1.1)) })

/-! ### Token sampling (07, R199, R200) -/

/-- The k of a sampler: 0 is read as 63; past 63 it is not stated (DESIGN CHOICE, log 15). -/
def sampleK (k : Nat) : Nat := if k = 0 then 63 else if k ≤ 63 then k else Config.unstated 16 k 0 % 63 + 1

/-- Candidate a before candidate b: by value descending, then by id ascending (07, R199). -/
def candBefore (a b : Nat × Nat) : Bool :=
  let x := (ofFp32 a.1).1
  let y := (ofFp32 b.1).1
  y.lt x || (!(x.lt y) && decide (a.2 < b.2))

def insertCand (a : Nat × Nat) : List (Nat × Nat) → List (Nat × Nat)
  | [] => [a]
  | b :: rest => if candBefore a b then a :: b :: rest else b :: insertCand a rest

/-- The candidates a state row holds. -/
def candRow (st : LibIn) (k i : Nat) : List (Nat × Nat) := (below k).map (fun n => (st.rawLane i n, st.rawLane i (63 + n)))

/-- KE_SAMPLE_BLOCK: of 1/τ = 0 the logits themselves are ordered (DEDUCED, log 15); columns past the k candidates are not stated. -/
def sampleBlock (x st : LibIn) (invTau k : Nat) : LibTile :=
  { row := fun i =>
      let zs := (below 128).map (fun j =>
        if j < x.hdr.cols then some (if invTau % 2 ^ 31 = 0 then x.lane i j else emul (x.lane i j) (pv invTau)) else none)
      let r := blockRow (st.lane i 126).1 (st.lane i 127).1 zs
      let seen := (zs.zip (below 128)).foldl
        (fun cs zj => match zj.1 with | some z => insertCand (z.1, x.offset + zj.2) cs | none => cs) (candRow st k i)
      let top := seen.take k
      let open_ := fun (c : Nat) => Config.unstated 17 i c % 2 ^ 32
      let vals := (below 63).map (fun n => if n < k then (nth top n (0, 0)).1 else open_ n)
      let ids := (below 63).map (fun n => if n < k then (nth top n (0, 0)).2 % 2 ^ 32 else open_ (63 + n))
      (vals ++ ids ++ [r.m, r.l], r.ev)
    cols := some 128 }

/-- The shortest prefix of ps whose sum reaches top-p: its length and its sum (07, R200). -/
def topPrefix (topP : Nat) : List Nat → Nat → Nat → Ev → Nat × Nat × Ev
  | [], n, cum, e => (n, cum, e)
  | p :: rest, n, cum, e =>
    let r := fadd32 cum p
    if less32 r.1 topP then topPrefix topP rest (n + 1) r.1 (e.add r.2) else (n + 1, r.1, e.add r.2)

/-- The candidate a threshold falls on: the first whose running sum is past it, else the last (07, R200). -/
def thresholdAt (t : Nat) : List Nat → Nat → Nat → Ev → Nat × Ev
  | [], i, _, e => (i - 1, e)
  | [_], i, _, e => (i, e)
  | p :: rest, i, acc, e =>
    let r := fadd32 acc p
    if less32 t r.1 then (i, e.add r.2) else thresholdAt t rest (i + 1) r.1 (e.add r.2)

/-- KE_SAMPLE_FINAL: the token of a row; 1/τ is parameter word 0 and the row key holds the sequence and the position in columns 0 and 1
(DEDUCED, log 15). -/
def sampleToken (s : State) (c : Cmd) (st key : LibIn) (invTau k topP sampler i : Nat) : Ew :=
  let cs := candRow st k i
  let id := fun (n : Nat) => (nth cs n (0, 0)).2
  if invTau % 2 ^ 31 = 0 then pv (id 0)
  else
    let m := st.rawLane i 126
    let rl := recipLib (st.rawLane i 127)
    let ps := lanesOf (cs.map (fun v => emul (op1 expLib (esub (pv v.1) (pv m))) rl))
    let (n, cum, e1) := topPrefix topP ps.1 0 0 {}
    let element := key.rawLane i 0 % 2 ^ 16 * 2 ^ 32 + key.rawLane i 1
    let d := kerfUniform (kerf (jobSeed s) (0xF100 + sampler) (bits c.imm 47 16) element c.step)
    let t := fmul32 d cum
    let (j, e2) := thresholdAt t.1 (ps.1.take n) 0 0 {}
    (id j, ps.2.add (e1.add (t.2.add e2)))

def sampleFinal (s : State) (c : Cmd) (st key : LibIn) (invTau k topP sampler : Nat) : LibTile :=
  { row := fun i => headRow [sampleToken s c st key invTau k topP sampler i], cols := some 1 }

/-! ### An invocation -/

/-- Input tile k of end e: `none` for an absent end, a fault for one that cannot be read. -/
def libIn (s : State) (w : Nat) (c : Cmd) (e k : Nat) : Got LibIn :=
  match veTile s w c e k with
  | none => .fault 0x17 (Config.unstated 13 (bits c.imm 15 0) c.iter)
  | some .wait => .wait
  | some (.fault code d) => .fault code d
  | some (.ok (h, bs)) =>
    let f := veFmt c e h
    .ok ⟨h, slotTile f bs, slotTile fFp32 bs, bs.drop (tileBytes f)⟩

/-- The input tiles of an end over the run. -/
def libIns (s : State) (w : Nat) (c : Cmd) (e : Nat) : List Nat → Got (List LibIn)
  | [] => .ok []
  | k :: ks => (libIn s w c e k).bind (fun x => (libIns s w c e ks).bind (fun xs => .ok (x :: xs)))

/-- What the kernel of a command makes of the invocation's tiles (07, R189). -/
def libOut (s : State) (w : Nat) (c : Cmd) : Got LibOut :=
  let entry := bits c.imm 15 0
  let par := fun k => paramWord s w (bits c.imm 63 48) k
  let ks := below (runOf c).length
  let one := fun (f : LibIn → LibOut) => (libIn s w c 0 0).bind (fun x => .ok (f x))
  let two := fun (f : LibIn → LibIn → LibOut) => (libIn s w c 0 0).bind (fun x => (libIn s w c 1 0).bind (fun y => .ok (f x y)))
  let three := fun (f : LibIn → LibIn → LibIn → LibOut) =>
    (libIn s w c 0 0).bind (fun x => (libIn s w c 1 0).bind (fun y => (libIn s w c 2 0).bind (fun z => .ok (f x y z))))
  match entry with
  | 0x100 => (libIns s w c 0 ks).bind (fun xs => (libIns s w c 1 ks).bind (fun gs =>
      .ok (some (fun _ t => rmsTile xs gs (par 0) (par 1) t))))
  | 0x200 => (libIns s w c 0 ks).bind (fun xs => .ok (some (fun e k => softmaxOut xs (par 0) (par 1) (par 2) (par 3) e k)))
  | 0x210 => .ok (some (fun e _ => attnInit e))
  | 0x211 => two (fun x st => some (fun e _ => attnBlock x st (par 0) (par 1) (par 2) (par 3) e))
  | 0x212 => three (fun ob o st => some (fun _ _ => attnMerge ob o st))
  | 0x213 => two (fun o st => some (fun e _ => attnFinal o st e))
  | 0x300 => two (fun x st => some (fun _ _ => xentBlock x st))
  | 0x301 => one (fun st => some (fun _ _ => xentFinal st))
  | 0x302 => two (fun x st => some (fun _ _ => xentGrad x st (par 0)))
  | 0x400 => two (fun g u => some (fun e _ => swiglu g u e))
  | 0x401 => three swigluBwd
  | 0x500 => two (fun x st => some (fun _ _ => sampleBlock x st (par 0) (sampleK (par 1))))
  | 0x501 => two (fun st key => some (fun _ _ => sampleFinal s c st key (par 0) (sampleK (par 1)) (par 2) (par 3)))
  | _ =>
    if entry < 0x420 then one (fun x => some (fun e _ => activation (entry - 0x410) x e))
    else two (fun dy x => derivTile (entry - 0x420) dy x)

/-- Reserved T2 codes that an invocation reads (02, R43). -/
def libCodes (s : State) (w : Nat) (c : Cmd) : Nat :=
  sumNat ((below 4).map (fun e => if !inUsed c e then 0 else
    sumNat ((below (runOf c).length).map (fun k => match libIn s w c e k with | .ok x => x.tile.reservedCodes | _ => 0))))

/-- A tile's 128 rows as a staging tile, with its events. -/
def LibTile.stage (t : LibTile) : List (Nat × List Nat) × Ev :=
  let rows := (below 128).map t.row
  ((below 64).map (fun p => (p, (nth rows (2 * p) ([], {})).1 ++ (nth rows (2 * p + 1) ([], {})).1)), sumEv (rows.map Prod.snd))

/-- The output end whose tile is pushed next: the first with a tile due and a free slot. -/
def libEnd (s : State) (w : Nat) (c : Cmd) (v : VeRt) : Option Nat :=
  if v.push0 < pushesDue c 0 ∧ canPush s w c 0 1 then some 0
  else if v.push1 < pushesDue c 1 ∧ canPush s w c 1 1 then some 1
  else none

/-- A VOP event of a library kernel's invocation: its next push, or its end. -/
def libStep (s : State) (m w : Nat) (c : Cmd) (v : VeRt) : State :=
  match libOut s w c with
  | .wait => s
  | .fault code d => veStatus (execFault s m c code d) w c false
  | .ok none => kernelFault s m c (Config.unstated 13 (bits c.imm 15 0) c.iter)
  | .ok (some out) =>
    if v.push0 ≥ pushesDue c 0 ∧ v.push1 ≥ pushesDue c 1 then
      veEnd (bump (countReserved s w c.step (libCodes s w c)) VE_BUSY_CLOCKS w (Config.unstated 14 (bits c.imm 15 0) c.iter)) m w c v
    else
      match libEnd s w c v with
      | none => s
      | some e =>
        if isDark s (outWard w (c.out e)) then execFault s m c 0x14 (outWard w (c.out e))
        else
          let made := if e = 0 then v.push0 else v.push1
          let t := out e made
          let (st, ev) := t.stage
          let s1 := pushStage (countVe s w c.step ev) m w c e made st t.cols t.tail
          setVe s1 w (if c.stopping then {} else if e = 0 then { v with push0 := made + 1 } else { v with push1 := made + 1 })

/-- VOP (05, R140; 07, R179): an event of the VOP that the ward's VE executes. Its first starts an invocation; in a user kernel's invocation
the instruction rows act, and VOP finds what stops it. -/
def vopEvent (s : State) (w : Nat) (err : MemErr) : State :=
  match jobOf s w 4 0x10 with
  | none => s
  | some (m, c) =>
    let v := veRt s w
    let reads := fun (runs : List (Nat × Nat)) (go : State → State) =>
      match meetErr s err runs with
      | (s1, some d) => veStatus (execFault s1 m c 0x12 d) w c false
      | (s1, none) => go s1
    if !(v.active && v.stream == m && v.num == c.num) then
      reads [(kstoreKey w (0x30000 + 64 * bits c.imm 63 48), 64)] (fun t => veStart t m w c)
    else if isLibrary c then reads (endRuns s w c) (fun t => libStep t m w c v)
    else reads [fetchRun w v] (fun t => veCheck t m w c v)

def execVop (ward : Nat) (err : MemErr) (s : State) : Host.Outcome State Fault Refusal := .next (observe (vopEvent s ward err))

end Sys2Proof.Machine
end

