-- ==== Sys2Proof/Machine/Requests.lean ====
section
/-!
DEFINITION. What each opcode does but job assignment, aborts, firmware and security: identity, versions and status, configuration, power,
energy, events, counters, the fabric group, stream, journal, failure-record and register reads and writes (18_control_plane.md, R449,
R452 to R456; 12_fabric.md, R303, R311, R317, R318).
-/

namespace Sys2Proof.Machine

/-! ### Group 0x0 (R449) -/

def features : Nat := 0x1F
def nextLogical (s : State) : List Nat := (below 20).map (fg s PWR_SREG_NEXT_LOGICAL)
/-- LOGICAL: the sum of NEXT_LOGICAL (R449; 15, R378). -/
def availableWards (s : State) : Nat := sumNat (nextLogical s)

/-- The identity record. -/
def identityRecord (s : State) : List Byte :=
  let f := s.fuses
  let flags := b2n f.attest + 2 * b2n (decide (f.sealTrips > 0)) + 4 * fg s MC_STATUS_DEBUG 0
  toBytesLE 8 f.identity ++ toBytesLE 1 f.grade ++ toBytesLE 1 (availableWards s) ++ toBytesLE 1 f.fibre ++ toBytesLE 1 f.stepping ++
  (padTo 20 0 f.map).flatMap (toBytesLE 1) ++ (nextLogical s).flatMap (toBytesLE 1) ++ toBytesLE 4 f.enterprise ++ toBytesLE 1 flags ++
  toBytesLE 7 0

def otherBank (s : State) : Nat := 1 - fg s MC_STATUS_BOOT_BANK 0

/-- The version record. -/
def versionRecord (s : State) : List Byte :=
  let o := bankOf s (otherBank s)
  [fg s MOD_NUMERICS_LEVEL 0, 2, 3, 2, 3, mgmtMin, mgmtMax, fg s MC_STATUS_BOOT_BANK 0].flatMap (toBytesLE 1) ++
  toBytesLE 4 (runningBank s).rev ++ toBytesLE 4 (if o.standing = 0 then 0 else o.rev) ++ toBytesLE 1 o.standing ++
  toBytesLE 1 s.fuses.secverMin ++ toBytesLE 2 (fg s MOD_KSTORE_STATUS_LIB_ID 0) ++ toBytesLE 8 features ++ toBytesLE 4 0

def getStatus (s : State) : State × Answer :=
  let (w, s1) := readRegs s [(MC_STATUS, 0)]
  okData s1 (w ++ toBytesLE 4 s.mc.job ++ toBytesLE 1 (modState s) ++ toBytesLE 1 s.mc.lastOp ++ toBytesLE 2 s.mc.lastStat ++ toBytesLE 4 0)

/-! ### Group 0x1: configuration (R454 to R456) -/

def itemBytes (x : Nat × Nat) : List Byte := toBytesLE 2 x.1 ++ toBytesLE 2 0 ++ toBytesLE 4 x.2

/-- CFG_READ: the items of an overlay, of the base, or the effective ones. -/
def cfgRead (s : State) (p : List Byte) : State × Answer :=
  let t := byteAt p 0
  let all := baseDefaults.map Prod.fst
  let items :=
    if t = 0xFE then all.map (fun it => (it, baseItem s.store.base it))
    else if t = 0xFD then all.map (fun it => (it, effective s.store (overlayNow s) it))
    else overlayItems s.store (some t)
  okData s (items.flatMap itemBytes)

def cfgItems (p : List Byte) : List (Nat × Nat) := (below (byteAt p 1)).map (fun k => (numAt p (4 + 8 * k) 2, numAt p (8 + 8 * k) 4))

def setOverlay (xs : List (Nat × List (Nat × Nat))) (k : Nat) (items : List (Nat × Nat)) : List (Nat × List (Nat × Nat)) :=
  xs.filter (fun o => o.1 != k) ++ (if items.isEmpty then [] else [(k, items)])

/-- CFG_WRITE: stored; an effective value that it changes, or that a direct register write has overridden, takes effect with the item's
timing (R455). NEXT_LOCAL_GIB is also what MOD_T1_CFG shows for the next training (11, R279). -/
def cfgWrite (s : State) (p : List Byte) : State × Answer :=
  let t := byteAt p 0
  let new := cfgItems p
  let st := s.store
  let st1 := if t = 0xFE then { st with base := putItems st.base new } else { st with overlays := setOverlay st.overlays t (putItems (overlayItems st (some t)) new) }
  let s1 := newStore s st1
  let k := overlayNext s
  let live := if t = 0xFE ∨ k = some t then (new.map Prod.fst).filter regItems.contains else []
  let s2 := live.foldl (fun u it => itemLater u it (effective st1 k it)) s1
  ok (match itemIn new 0x0200 with
    | some g => fs s2 MOD_T1_CFG_NEXT_LOCAL_GIB 0 g
    | none => s2)

/-- CFG_RESTORE: overlays 0 to 4 to their standard contents, 5 to 15 emptied, one overlay by its packet. -/
def cfgRestore (s : State) (p : List Byte) : State × Answer :=
  let k := byteAt p 0
  let std := ((stdOverlays.find? (fun o => o.1 == k)).map Prod.snd).getD []
  ok (newStore s { s.store with overlays := setOverlay s.store.overlays k std })

def ovlApply (s : State) (p : List Byte) : State × Answer := ok (applyOverlay s (if byteAt p 0 = 0xFF then none else some (byteAt p 0)))

/-! ### Groups 0x2, 0x3 and 0x4 (R449, R453; 16, R400) -/

def pwrRead (s : State) : State × Answer :=
  let (bs, s1) := readRegs s [(PWR_GRANT, 0), (PWR_VF, 0), (PWR_POWER, 0), (THM_STATUS, 0)]
  okData s1 bs

def pwrCtrlWrite (s : State) (p : List Byte) : State × Answer := ok (writePwrCtrl s (BitVec.ofNat 32 (numAt p 0 4)))

def budgetWrite (s : State) (p : List Byte) : State × Answer :=
  let a := byteAt p 0
  ok (writeBudget (writeBudget s PWR_FBU_BYTES a (BitVec.ofNat 32 (numAt p 4 4))) PWR_FBU_LIM a (BitVec.ofNat 32 (numAt p 8 2 * 2 ^ 16 + numAt p 10 2)))

/-- An energy record's 32 bytes (16, R400). -/
def ERec.bytes (e : ERec) : List Byte :=
  toBytesLE 5 e.frame ++ toBytesLE 1 e.flags ++ toBytesLE 2 e.grant ++ toBytesLE 4 e.meas ++ toBytesLE 4 e.est ++ toBytesLE 1 e.point ++
  toBytesLE 1 e.bubF ++ toBytesLE 2 e.stackT ++ toBytesLE 2 e.dieT ++ toBytesLE 2 e.period ++ toBytesLE 8 e.job

def energyRead (s : State) (p : List Byte) : State × Answer :=
  let n := numAt p 0 2
  okData s ((s.pwr.ring.drop (s.pwr.ring.length - n)).flatMap ERec.bytes)

def eventRead (s : State) (p : List Byte) : State × Answer :=
  okData s (((s.mc.events.filter (fun e => e.seq ≥ numAt p 0 4)).take (byteAt p 4)).flatMap Event.bytes)

/-- EVENT_ACK: every event up to and including its EVSEQ. -/
def eventAck (s : State) (p : List Byte) : State × Answer :=
  ok { s with mc := { s.mc with acked := max s.mc.acked (min (numAt p 0 4 + 1) s.mc.evseq) } }

def countersRead (s : State) : State × Answer :=
  let l := s.life
  okData s (toBytesLE 8 l.frames ++ toBytesLE 4 l.colds ++ toBytesLE 4 l.resets ++ toBytesLE 4 l.pfws ++ toBytesLE 4 l.trips ++ toBytesLE 8 l.energy)

/-! ### Group 0x5 (12, R303, R311, R317, R318) -/

def fabAssign (s : State) (p : List Byte) : State × Answer :=
  if hasJob s then refuse (fs s FAB_CHIP_WRITE_REFUSED 0 1) stJobAssigned 0
  else ok (fs (fs (fs s FAB_CHIP_CHIP 0 (numAt p 0 2)) FAB_CHIP_VALID 0 1) FAB_SLICE_ID 0 (numAt p 2 2))

/-- A routing-table entry written whole; the ports that it names are released (R311). -/
def routeEntry (s : State) (c : Nat) (v : Word) : State :=
  let put := fun (w : Word) (f : Fld) => withField w f.hi f.lo (fieldIn v f)
  let s1 := wr s FAB_ROUTE c (put (put (put 0 FAB_ROUTE_VALID) FAB_ROUTE_ALLOW) FAB_ROUTE_PORTS)
  (below 28).foldl (fun t p =>
    if bit v.toNat p && fg t FAB_PORT_STATUS_NBR_CHANGED p == 1 then
      (let t1 := fs t FAB_PORT_STATUS_NBR_CHANGED p 0
       if portState t1 p = 5 then portReady t1 p else t1)
    else t) s1

def routeWrite (s : State) (p : List Byte) : State × Answer :=
  ok ((below (numAt p 2 2)).foldl (fun t i => routeEntry t (numAt p 0 2 + i) (BitVec.ofNat 32 (numAt p (4 + 4 * i) 4))) s)

def routeRead (s : State) (p : List Byte) : State × Answer :=
  let (bs, s1) := readRegs s ((rangeFrom (numAt p 0 2) (numAt p 2 2)).map (fun c => (FAB_ROUTE, c)))
  okData s1 bs

def nbrPorts (s : State) : List Nat → List Byte × State
  | [] => ([], s)
  | p :: ps =>
    let (bs, s1) := readRegs s [(FAB_PORT_STATUS, p), (FAB_NBR_ID_LO, p), (FAB_NBR_ID_HI, p), (FAB_NBR_INFO, p), (FAB_NBR_CHIP, p)]
    let (more, s2) := nbrPorts s1 ps
    (bs ++ toBytesLE 12 0 ++ more, s2)

def nbrRead (s : State) : State × Answer :=
  let (bs, s1) := nbrPorts s (below 28)
  okData s1 bs

def portReset (s : State) (p : List Byte) : State × Answer := ok (portRestart s (byteAt p 0))
def portV2Slice (s : State) (p : List Byte) : State × Answer := ok (fs s FAB_PORT_V2_SLICE (byteAt p 0) (numAt p 2 2))

/-! ### Reads of groups 0x6, 0x7, 0x9 and 0xA -/

/-- The stream instance of a request. -/
def streamOf (p : List Byte) : Nat := 8 * byteAt p 0 + byteAt p 1

def streamRead (s : State) (p : List Byte) : State × Answer :=
  let m := streamOf p
  let (bs, s1) := readRegs s [(WARD_SSTAT, m), (WARD_SFAULT, m), (WARD_SFAULT_DETAIL, m), (WARD_SFAULT_INDEX, m)]
  okData s1 bs

def jnlStatusRead (s : State) : State × Answer :=
  let (bs, s1) := readRegs s [(JNL_STATUS, 0), (JNL_LAST_STEP, 0), (JNL_IMG_STATUS, 0), (JNL_IMG_CUR, 0), (JNL_IMG_PREV, 0), (JNL_FLASH, 0)]
  okData s1 bs

/-- JNL_READ: a stored record; a step without one is a parameter out of range (DEDUCED, log 58). -/
def jnlRead (s : State) (p : List Byte) : State × Answer :=
  match s.flash.records.find? (fun r => r.step == numAt p 0 4) with
  | some r => okData s r.bytes
  | none => refuse s stBadParam 0

def failRead (s : State) (p : List Byte) : State × Answer :=
  okData s (((s.store.fail.entries.drop (byteAt p 0)).take (byteAt p 1)).flatMap FailEntry.bytes)

def readWords (s : State) : List Nat → List Byte × State
  | [] => ([], s)
  | o :: os =>
    let (v, s1) := busRead s o
    let (bs, s2) := readWords s1 os
    (toBytesLE 4 v.toNat ++ bs, s2)

/-- REG_READ (R452). -/
def regRead (s : State) (p : List Byte) : State × Answer :=
  let (bs, s1) := readWords s ((below (numAt p 4 2)).map (fun i => numAt p 0 4 + 4 * i))
  okData s1 bs

/-- REG_WRITE (R452): words in ascending offset; while IMG_RESTORE runs no stream is enabled. -/
def regWrite (s : State) (p : List Byte) : State × Answer :=
  ok ((below (numAt p 4 2)).foldl (fun t i =>
    busStep t (numAt p 0 4 + 4 * i) (BitVec.ofNat 32 (numAt p (8 + 4 * i) 4)) (s.mc.longOp == some 0x72)) s)

end Sys2Proof.Machine
end

