-- ==== Sys2Proof/Machine/Admin.lean ====
section
/-!
DEFINITION. Job assignment and unassignment, stream aborts by packet, image restore, firmware, keys, the seal and the presence window, long
operations and module reset (18_control_plane.md, R447, R450, R451, R457 to R469; 14_journal_flash.md, R355; 20, R499, R504, R505).
-/

namespace Sys2Proof.Machine

/-! ### Job assignment (R450) -/

/-- Why the module cannot take a job, by the not-ready table. -/
def notReady (s : State) : Option Nat :=
  if fg s MC_STATUS_READY 0 = 0 then some 1
  else if fg s MOD_KERF_STATUS_SELFTEST_DONE 0 = 1 ∧ fg s MOD_KERF_STATUS_SELFTEST_PASS 0 = 0 then some 2
  else
    match [3, 4, 5, 6].find? s.mc.reasons.contains with
    | some r => some r
    | none =>
      if fg s THM_STATUS_COOLANT_STOP 0 = 1 ∨ fg s THM_STATUS_TRIP 0 = 1 then some 7
      else if fg s MC_STATUS_DEBUG 0 = 1 then some 8 else none

/-- The checks of JOB_ASSIGN in their order. -/
def assignBad (s : State) (p : List Byte) : Option (Nat × Nat) :=
  let wards := byteAt p 13
  let ov := byteAt p 15
  let missing := numAt p 16 8 - (numAt p 16 8 &&& features)
  if hasJob s then some (stJobAssigned, 0)
  else
    match notReady s with
    | some r => some (stNotReady, r)
    | none =>
      if byteAt p 12 < 8 ∨ byteAt p 12 > 16 then some (stBadParam, 12)
      else if wards = 0 ∨ wards > s.fuses.grade then some (stBadParam, 13)
      else if byteAt p 14 > 1 then some (stBadParam, 14)
      else if ov ≠ 0xFF ∧ (overlayItems s.store (some ov)).isEmpty then some (stBadParam, 15)
      else if wards > availableWards s then some (stTooManyWards, availableWards s)
      else if missing ≠ 0 then some (stFeature, lowBit missing)
      else if pfwActive s then some (stPfw, 0)
      else none

/-- Every flag of the module set to 0 (06, R162). -/
def clearFlags (s : State) : State := { s with regs := s.regs.filter (fun p => p.1 / 2 ^ 20 != WARD_FLAG.no) }

/-- RETURN_READY cleared and the failure record unsealed (20, R505). -/
def unprepare (s : State) : State :=
  let s1 := { s with store := { s.store with returnReady := false, fail := { s.store.fail with closed := false } } }
  if s.store.returnReady || s.store.fail.closed then queueRecord s1 .own else s1

/-- The steps of an assignment (R450; 04, R115; 19, R481; 20, R505). -/
def assignJob (s : State) (p : List Byte) : State :=
  let s0 := unprepare (if s.standby then standbyWake s [] else s)
  let s1 := wr (wr s0 MOD_KERF_SEED_LO 0 (BitVec.ofNat 32 (numAt p 4 4))) MOD_KERF_SEED_HI 0 (BitVec.ofNat 32 (numAt p 8 4))
  let s2 := fs (fs s1 MOD_ACCUM_CFG_C_LOG2 0 (byteAt p 12)) MOD_NUMERICS_BOUND_ONLY 0 (byteAt p 14)
  let s3 := clearWatches (clearStragglers (resetPool (clearFlags { s2 with watch := {} })))
  let s4 := if byteAt p 15 = 0xFF then s3 else applyOverlay s3 (some (byteAt p 15))
  showJob (fs { s4 with mc := { s4.mc with job := numAt p 0 4 }, pwr := { s4.pwr with jobUj := 0 } } MC_STATUS_JOB 0 1)

def jobAssign (s : State) (p : List Byte) : State × Answer :=
  match assignBad s p with
  | some (st, d) => refuse s st d
  | none => ok (assignJob s p)

/-! ### Aborts and unassignment by packet (R447, R451; 06, R169, R170) -/

/-- A stop asked of a stream: its status where it is final already (06, R169), else the request waits (DEDUCED, log 36). -/
def askStop (s : State) (m : Nat) (by' : AbortBy) : State × Option Nat :=
  let off := by' != .packet
  match (stream s m).st with
  | .disabled => (s, some stNotEnabled)
  | .faulted => (if off then disableStream s m else s, some stFaulted)
  | .aborted => (if off then disableStream s m else s, some stAborted)
  | _ => (requestAbort s m by', none)

/-- The stop asked of several streams: those it waits for, and the statuses so far. -/
def askStops (s : State) (by' : AbortBy) (ms : List Nat) : State × List Nat × List (Nat × Nat) :=
  ms.foldl (fun (t : State × List Nat × List (Nat × Nat)) m =>
    let (u, st) := askStop t.1 m by'
    match st with
    | some k => (u, t.2.1, t.2.2 ++ [(m, k)])
    | none => (u, t.2.1 ++ [m], t.2.2)) (s, [], [])

def enabledStreams (s : State) : List Nat := (s.streams.filter (fun p => p.2.st != .disabled)).map Prod.fst

/-- A request whose reply waits for streams. -/
def waitFor (s : State) (r : Req) (ms : List Nat) (done : List (Nat × Nat)) : State :=
  { s with mc := { s.mc with waiting := s.mc.waiting ++ [{ source := r.src, request := r.raw, streams := ms, done := done }] } }

def streamAbort (s : State) (r : Req) : State × Answer :=
  let m := streamOf r.par
  let (s1, ms, done) := askStops s .packet [m]
  (waitFor s1 r ms done, none)

def abortAll (s : State) (r : Req) : State × Answer :=
  let (s1, ms, done) := askStops s .packet (enabledStreams s)
  (waitFor s1 r ms done, none)

/-- JOB_UNASSIGN and the unassignment of MODULE_RESET, accepted. -/
def unassign (s : State) (r : Req) : State × Answer :=
  let (s1, ms, done) := askStops s .unassign (enabledStreams s)
  (waitFor s1 r ms done, none)

def jobUnassign (s : State) (r : Req) : State × Answer := if hasJob s then unassign s r else refuse s stNoJob 0

/-- Unassignment ends once every stream is final (R451; 04, R115; 10, R260; 19, R481). The pending shim changes of a job that had no step
boundary of its own apply now (01, R32). -/
def finishUnassign (s : State) : State :=
  let s1 := fs (fs s MC_STATUS_JOB 0 0) MOD_NUMERICS_BOUND_ONLY 0 0
  let s2 := { s1 with mc := { s1.mc with job := 0, marked := false }, watch := { s1.watch with totals := [], items := [] } }
  clearWatches (resetPool (if s.watch.journaled.isEmpty && !s.mc.marked then openBoundary s2 else s2))

def statusCount (done : List (Nat × Nat)) (k : Nat) : Nat := (done.filter (fun d => d.2 == k)).length

/-- The data of a STREAM_ABORT reply (R449). -/
def abortData (s : State) (m status : Nat) : List Byte :=
  let x := stream s m
  let halted := status == stAborted
  toBytesLE 2 (fg s WARD_SSTAT_LAST_TAG m) ++ toBytesLE 2 0 ++ toBytesLE 4 (fg s WARD_SDONE_RETIRED m) ++
  toBytesLE 4 (if halted then x.repCmds else 0) ++ toBytesLE 4 (if halted then x.repTrunc else 0)

/-- One waiting request whose streams are all final is answered (R447, R451, R469) (DEDUCED, log 68). -/
def answerOne (s : State) (w : Waiting) : State :=
  let r : Req := ⟨w.source, w.request⟩
  match r.op with
  | 0x60 =>
    let m := streamOf r.par
    let st := ((w.done.find? (fun d => d.1 == m)).map Prod.snd).getD stNotEnabled
    reply s r st (if st = stFaulted then fg s WARD_SFAULT_CODE m else 0) (abortData s m st) true
  | 0x62 =>
    reply s r stOk 0 ([stComplete, stAborted, stFaulted].flatMap (fun k => toBytesLE 2 (statusCount w.done k)) ++ toBytesLE 2 0) true
  | 0x31 =>
    let data := toBytesLE 8 (s.pwr.jobUj / 1000) ++ toBytesLE 2 (statusCount w.done stAborted) ++ toBytesLE 2 (statusCount w.done stFaulted) ++
      toBytesLE 4 s.mc.job
    reply (finishUnassign s) r stOk 0 data true
  | _ => moduleReset (reply (finishUnassign s) r stOk 0 [] true)

/-- Every waiting request whose streams are final is answered, in order. -/
def answerWaiting (s : State) : State :=
  let due := s.mc.waiting.filter (fun w => w.streams.isEmpty)
  due.foldl answerOne { s with mc := { s.mc with waiting := s.mc.waiting.filter (fun w => !w.streams.isEmpty) } }

/-! ### Module reset (R469; 16, R412) -/

/-- COOLANT_STOP allows the reset only with COOLANT_FAIL_N deasserted and every sensor below 85 °C (16, R412). -/
def coolEnough (s : State) : Bool := !s.therm.coolant && ((s.therm.samples.head?).getD []).all (fun t => decide (tempOf t < 680))

def moduleResetReq (s : State) (r : Req) : State × Answer :=
  let off := byteAt r.par 0 == 1
  if hasJob s ∧ !off then refuse s stJobAssigned 0
  else if fg s THM_STATUS_COOLANT_STOP 0 = 1 ∧ !coolEnough s then refuse s stNotReady 7
  else if hasJob s then unassign s r
  else (moduleReset (reply s r stOk 0 [] true), none)

/-! ### Long operations (R447) -/

def startLong (s : State) (op param : Nat) : State × Answer :=
  (fs { s with mc := { s.mc with longOp := some op, longParam := param } } MC_STATUS_LONG_OP 0 1, some (stAccepted, 0, []))

/-- IMG_RESTORE: the image of the step, checked against the module (14, R355). -/
def restoreBad (s : State) (step : Nat) : Option Nat :=
  match s.flash.images.find? (fun i => i.step == step) with
  | none => some 6
  | some i =>
    if i.cLog2 ≠ fg s MOD_ACCUM_CFG_C_LOG2 0 then some 1
    else if i.level ≠ fg s MOD_NUMERICS_LEVEL 0 then some 2
    else if i.libId ≠ fg s MOD_KSTORE_STATUS_LIB_ID 0 then some 3
    else if i.seed ≠ jobSeed s then some 4
    else if i.wards > s.fuses.grade then some 5
    else none

def imgRestore (s : State) (p : List Byte) : State × Answer :=
  match restoreBad s (numAt p 0 4) with
  | some d => refuse s stImageMismatch d
  | none => startLong s 0x72 (numAt p 0 4)

/-- The bytes of a Tier 1 section written back to its recorded offsets. -/
def restoreRecs (s : State) : List (Nat × Nat) → List Byte → State
  | [], _ => s
  | (off, n) :: rs, bs => restoreRecs (memWrite s off (bs.take n)) rs (bs.drop n)

def wardSectionBytes : Nat := 0x10000 + 0x8000 + 0x10000 + 0x4000

/-- One logical ward's part of the module section written back (14, R349, R355). -/
def restoreWard (s : State) (w : Nat) (bs : List Byte) : State :=
  let s1 := memWrite s (kstoreKey w 0x10000) (bs.take 0x10000)
  let s2 := memWrite s1 (kstoreKey w 0x28000) ((bs.drop 0x10000).take 0x8000)
  let s3 := memWrite s2 (kstoreKey w 0x30000) ((bs.drop 0x18000).take 0x10000)
  (below 4096).foldl (fun t i => wr t WARD_BOUND (4096 * w + i) (BitVec.ofNat 32 (numAt bs (0x28000 + 4 * i) 4))) s3

/-- The module section written back: wards, gradient bins, C_LOG2 and the schedule registers. -/
def restoreModule (s : State) (wards : Nat) (bs : List Byte) : State :=
  let s1 := (below wards).foldl (fun t w => restoreWard t w (bs.drop (w * wardSectionBytes))) s
  let o := wards * wardSectionBytes
  let word := fun (k : Nat) => BitVec.ofNat 32 (numAt bs (o + 4 * k) 4)
  let s2 := (below 256).foldl (fun t b => wr (wr t MOD_GBIN_TENSOR b (word (2 * b))) MOD_GBIN_CFG b (word (2 * b + 1))) s1
  let s3 := wr (wr s2 MOD_ACCUM_CFG 0 (word 512)) MOD_SCHED_BASE_LO 0 (word 513)
  wr (wr s3 MOD_SCHED_BASE_HI 0 (word 514)) MOD_SCHED_CFG 0 (word 515)

def restoreImage (s : State) (step : Nat) : State :=
  match s.flash.images.find? (fun i => i.step == step) with
  | none => s
  | some i => i.sections.foldl (fun t sec => if sec.isModule then restoreModule t i.wards sec.data else restoreRecs t sec.recs sec.data) s

/-! ### Firmware (R463 to R467) -/

/-- FW_STAGE_BEGIN erases the bank not running, with an activation that waited in it (R465). -/
def fwStageBegin (s : State) (p : List Byte) : State × Answer :=
  ok (setBank (fs s MC_STATUS_ACT_PENDING 0 0) (otherBank s) { length := numAt p 0 4, rev := numAt p 4 4, standing := 1 })

/-- FW_STAGE_DATA, into a bank that is staging and within its length (DEDUCED, log 58). -/
def fwStageData (s : State) (p : List Byte) : State × Answer :=
  let b := bankOf s (otherBank s)
  let off := numAt p 0 4
  let bs := p.drop 4
  if b.standing ≠ 1 ∨ off + bs.length > b.length then refuse s stBadParam 0
  else ok (setBank s (otherBank s) { b with image := writeBytes (fun _ => 0) b.image off bs })

def fwStageEnd (s : State) : State × Answer := startLong s 0x82 0

/-- The staged image verified (R464, R465): its final status, and the bank. -/
def verifyStaged (s : State) : State × Nat :=
  let k := otherBank s
  let b := bankOf s k
  let b1 := { b with rev := bankWord b 4 4, secver := bankWord b 8 2 }
  if !bankSigned s b1 then (setBank s k { b with standing := 4 }, stSignature)
  else if b1.secver < s.fuses.secverMin then (setBank s k { b1 with standing := 4 }, stRollback)
  else (setBank s k { b1 with standing := 2 }, stOk)

/-- The key of a slot, none while user keys are refused (R460). -/
def userKey (s : State) (k : Nat) : Option (List Byte) :=
  if fg s MC_SEC_KEYS_REFUSED 0 = 1 then none else (s.store.keys.find? (fun x => x.1 == k)).map Prod.snd

/-- A policy record's signature holds under its slot's key (R467). -/
def policyGood (s : State) (p : List Byte) : Bool :=
  match userKey s (byteAt p 16) with
  | some key => Config.ecdsaP384 key (p.take 32) ((p.drop 32).take 96)
  | none => false

/-- The stored policy record admits a revision (R467). -/
def policyAdmits (s : State) (rev : Nat) : Bool :=
  match s.store.policy with
  | none => false
  | some p => policyGood s p && decide (numAt p 0 4 ≤ rev) && decide (rev ≤ numAt p 4 4) && (numAt p 8 8 == 0 || numAt p 8 8 == s.fuses.identity)

def fwActivate (s : State) (r : Req) : State × Answer :=
  let k := otherBank s
  let b := bankOf s k
  let force := byteAt r.par 0 == 1
  if b.standing ≠ 2 then refuse s stBadParam 0
  else if hasJob s ∧ !force then refuse s stJobAssigned 0
  else if force ∧ r.tier = 0 then refuse s stNeedOwner 0
  else if r.tier = 0 ∧ !policyAdmits s b.rev then refuse s stPolicy 0
  else ok (fs (setBank s k { b with activation := some (((runningBank s).activation.getD 0) + 1), standing := 3 }) MC_STATUS_ACT_PENDING 0 1)

def fwPolicy (s : State) (p : List Byte) : State × Answer :=
  if fg s MC_SEC_KEYS_REFUSED 0 = 1 then refuse s stKeysRefused 0
  else if !policyGood s p then refuse s stSignature 0
  else ok { s with store := { s.store with policy := some p } }

/-! ### Keys, seal, debug, erasing (R457 to R462; 20, R499, R504, R505) -/

def secRead (s : State) : State × Answer :=
  let (w, s1) := readRegs s [(MC_SEC, 0)]
  okData s1 (w ++ (below 4).flatMap (fun k => match userKey s k with
    | some key => padTo 48 0 (Config.sha384 key)
    | none => List.replicate 48 0))

def keysValid (keys : List (Nat × List Byte)) : Nat := sumNat ((below 4).map (fun k => b2n (keys.any (fun x => x.1 == k)) * 2 ^ k))

def keyProvision (s : State) (p : List Byte) : State × Answer :=
  if fg s MC_STATUS_SEAL 0 = 2 then refuse s stKeysRefused 0
  else
    let k := byteAt p 0
    let old := if fg s MC_SEC_KEYS_REFUSED 0 = 1 then [] else s.store.keys.filter (fun x => x.1 != k)
    let keys := if byteAt p 1 = 0 then old ++ [(k, (p.drop 4).take 97)] else old
    let s1 := unprepare { s with store := { s.store with keys := keys } }
    ok (fs (fs s1 MC_SEC_KEYS_REFUSED 0 0) MC_SEC_KEYS_VALID 0 (keysValid keys))

def sealRearm (s : State) : State × Answer := ok (fs { s with mc := { s.mc with sealOpen := 0 } } MC_STATUS_SEAL 0 1)

def debugUnlock (s : State) : State × Answer := if hasJob s then refuse s stJobAssigned 0 else ok (fs s MC_STATUS_DEBUG 0 1)

def startErase (s : State) (op : Nat) : State × Answer := startLong { s with store := { s.store with resume := some op } } op 0

def secureEraseReq (s : State) : State × Answer := if hasJob s then refuse s stJobAssigned 0 else startErase s 0x94

/-- PREPARE_RETURN writes its entry and seals the record as it starts (20, R504). -/
def prepareReturn (s : State) : State × Answer :=
  if hasJob s then refuse s stJobAssigned 0
  else
    let s1 := failEntry s 0x0015 0 0 0 0 noStep
    startErase { s1 with store := { s1.store with fail := { s1.store.fail with closed := true } } } 0xA3

/-- SELF_TEST; stage 11 of a bring-up has the self-test already (DEDUCED, log 58). -/
def selfTest (s : State) : State × Answer :=
  if hasJob s then refuse s stJobAssigned 0
  else if fg s MOD_SELFTEST_RUNNING 0 = 1 then refuse s stBusy 0
  else startLong (fs s MOD_SELFTEST_RUNNING 0 1) 0xA1 0

/-- A long operation's end: its work and its final status; `mismatch` says that a CRC read back during IMG_RESTORE failed, as that of a section
that the media have lost does (14, R338). -/
def longWork (s : State) (op mismatch : Nat) : State × Nat :=
  match op with
  | 0x72 => if mismatch ≠ 0 ∨ lostSection s s.mc.longParam then (s, stImageMismatch) else (restoreImage s s.mc.longParam, stOk)
  | 0x82 => verifyStaged s
  | 0x94 => (secureErase s, stOk)
  | 0xA3 =>
    let s1 := wipeStore (secureErase s)
    ({ s1 with store := { s1.store with returnReady := true } }, stOk)
  | _ => (s, stOk)

/-- The running long operation ends and raises OP_DONE (R447; 18, R462; 20, R504). -/
def endLong (s : State) (mismatch : Nat) : State :=
  match s.mc.longOp with
  | none => s
  | some op =>
    if op = 0xA1 ∧ fg s MOD_SELFTEST_RUNNING 0 = 1 then s
    else
      let (s1, st) := longWork s op mismatch
      let s2 := { s1 with mc := { s1.mc with longOp := none, longParam := 0, lastOp := op, lastStat := st }
                          store := { s1.store with resume := if op = 0x94 ∨ op = 0xA3 then none else s1.store.resume } }
      becomeReady (raiseEvent (fs s2 MC_STATUS_LONG_OP 0 0) 0x0010 0 op st 0)

end Sys2Proof.Machine
end

