-- ==== Sys2Proof/Machine/Mgmt.lean ====
section
/-!
DEFINITION. The rows of the management controller: every command packet, the mailbox, register writes, the presence and seal pins, MCTP
control messages, ARP, ICMP and the Alert Response Address (18_control_plane.md; 19_host_cores.md, R482; 21_pins_electrical.md, R512), and
the events that settle faults and aborts, whose replies it sends (06_loops_flags_faults.md, R170 to R174).
-/

namespace Sys2Proof.Machine

/-! ### Execution in queue order (R446, R447) -/

/-- What a request that passes the common checks does. -/
def perform (s : State) (r : Req) : State × Answer :=
  let p := r.par
  match r.op with
  | 0x00 => okData s (identityRecord s)
  | 0x01 => okData s (versionRecord s)
  | 0x02 => getStatus s
  | 0x10 => cfgRead s p
  | 0x11 => cfgWrite s p
  | 0x12 => cfgRestore s p
  | 0x13 => ovlApply s p
  | 0x20 => pwrRead s
  | 0x21 => pwrCtrlWrite s p
  | 0x22 => budgetWrite s p
  | 0x30 => jobAssign s p
  | 0x31 => jobUnassign s r
  | 0x32 => energyRead s p
  | 0x40 => eventRead s p
  | 0x41 => eventAck s p
  | 0x42 => countersRead s
  | 0x50 => fabAssign s p
  | 0x51 => routeWrite s p
  | 0x52 => routeRead s p
  | 0x53 => nbrRead s
  | 0x54 => portReset s p
  | 0x55 => portV2Slice s p
  | 0x60 => streamAbort s r
  | 0x61 => streamRead s p
  | 0x62 => abortAll s r
  | 0x70 => jnlStatusRead s
  | 0x71 => jnlRead s p
  | 0x72 => imgRestore s p
  | 0x80 => fwStageBegin s p
  | 0x81 => fwStageData s p
  | 0x82 => fwStageEnd s
  | 0x83 => fwActivate s r
  | 0x84 => fwPolicy s p
  | 0x90 => secRead s
  | 0x91 => keyProvision s p
  | 0x92 => sealRearm s
  | 0x93 => debugUnlock s
  | 0x94 => secureEraseReq s
  | 0xA0 => moduleResetReq s r
  | 0xA1 => selfTest s
  | 0xA2 => failRead s p
  | 0xA3 => prepareReturn s
  | 0xA4 => regRead s p
  | 0xA5 => regWrite s p
  | _ => refuse s stBadOpcode 0

/-- The kept reply to a request that has been executed before (R446). -/
def keptFor (s : State) (r : Req) : Option Kept := s.mc.kept.find? (fun k => k.source == r.src && k.seq == r.seq && k.crc == r.crc)

/-- Whether a request is a retry of one whose reply still waits for streams. -/
def alreadyWaits (s : State) (r : Req) : Bool := s.mc.waiting.any (fun w => w.source == r.src && w.request == r.raw)

/-- The packets whose change the configuration store keeps: it is made, and acknowledged, once its record stands in two copies (R454, R467; 14,
R360). -/
def storedOps : List Nat := [0x11, 0x12, 0x84]

/-- A request that has passed its checks waits for its record; with the flash write-protected it fails at once (R454; 14, R358, R360). -/
def storeLater (s : State) (r : Req) : State :=
  if s.flash.protect then reply s r stStoreFail 0 [] true
  else queueRecord { s with mc := { s.mc with storing := some (r.src, r.raw) } } .packet

/-- The request whose record the configuration store was to take: done and acknowledged, or answered ST_STORE_FAIL (R454). -/
def endStoring (s : State) (good : Bool) : State :=
  match s.mc.storing with
  | none => s
  | some (src, raw) =>
    let r : Req := ⟨src, raw⟩
    let s1 := { s with mc := { s.mc with storing := none } }
    if !good then reply s1 r stStoreFail 0 [] true
    else
      match perform s1 r with
      | (s2, some (st, d, data)) => reply s2 r st d data true
      | (s2, none) => s2

/-- One request executed (R446 to R449). -/
def execute (s : State) (r : Req) : State :=
  match keptFor s r with
  | some k => sendReply s r.src k.reply
  | none =>
    if alreadyWaits s r then s
    else
      match refusal s r with
      | some (st, d) => reply s r st d [] true
      | none =>
        match perform s r with
        | (s1, some (st, d, data)) => if storedOps.contains r.op && st == stOk then storeLater s r else reply s1 r st d data true
        | (s1, none) => s1

/-- The queue executed as far as it goes: requests behind an unassignment, or one whose record is not yet stored, wait for it (R447, R451; 14,
R360). The fuel bounds the requests. -/
def serve : Nat → State → State
  | 0, s => answerWaiting s
  | n + 1, s =>
    let s1 := answerWaiting s
    if unassigning s1 || s1.mc.held || s1.mc.storing.isSome then s1
    else
      match s1.mc.inbox with
      | [] => s1
      | (src, raw) :: rest => serve n (execute { s1 with mc := { s1.mc with inbox := rest } } ⟨src, raw⟩)

/-- A packet whose record the write-protected flash will not take (14, R358, R360). -/
def failStoring (s : State) : State :=
  if s.flash.protect then endStoring { s with store := { s.store with queue := s.store.queue.filter (· != .packet) } } false else s

/-- What follows an event that the MC may have been waiting for. -/
def serveAll (s : State) : State := observe (serve 64 (failStoring s))

/-- A packet of an opcode received on a transport from a peer. A badly framed one, or one of another opcode, is not this row's. -/
def receive (op transport peer : Nat) (packet : List Byte) (s : State) : State :=
  if !reachable s transport || byteAt packet 1 != op || !framed packet then s else serveAll (takePacket s (transport, peer) packet)

/-! ### The packet rows (R449) -/

/-- GET_IDENTITY (R449). -/
def execGetIdentity (transport peer : Nat) (packet : List Byte) (s : State) : Host.Outcome State Fault Refusal :=
  .next (receive 0x00 transport peer packet s)

/-- GET_VERSIONS (R449). -/
def execGetVersions (transport peer : Nat) (packet : List Byte) (s : State) : Host.Outcome State Fault Refusal :=
  .next (receive 0x01 transport peer packet s)

/-- GET_STATUS (R449). -/
def execGetStatus (transport peer : Nat) (packet : List Byte) (s : State) : Host.Outcome State Fault Refusal :=
  .next (receive 0x02 transport peer packet s)

/-- CFG_READ (R454). -/
def execCfgRead (transport peer : Nat) (packet : List Byte) (s : State) : Host.Outcome State Fault Refusal :=
  .next (receive 0x10 transport peer packet s)

/-- CFG_WRITE (R454). -/
def execCfgWrite (transport peer : Nat) (packet : List Byte) (s : State) : Host.Outcome State Fault Refusal :=
  .next (receive 0x11 transport peer packet s)

/-- CFG_RESTORE (R455). -/
def execCfgRestore (transport peer : Nat) (packet : List Byte) (s : State) : Host.Outcome State Fault Refusal :=
  .next (receive 0x12 transport peer packet s)

/-- OVL_APPLY (R455). -/
def execOvlApply (transport peer : Nat) (packet : List Byte) (s : State) : Host.Outcome State Fault Refusal :=
  .next (receive 0x13 transport peer packet s)

/-- PWR_READ (R449). -/
def execPwrRead (transport peer : Nat) (packet : List Byte) (s : State) : Host.Outcome State Fault Refusal :=
  .next (receive 0x20 transport peer packet s)

/-- PWR_CTRL_WRITE (R455). -/
def execPwrCtrlWrite (transport peer : Nat) (packet : List Byte) (s : State) : Host.Outcome State Fault Refusal :=
  .next (receive 0x21 transport peer packet s)

/-- BUDGET_WRITE (R414). -/
def execBudgetWrite (transport peer : Nat) (packet : List Byte) (s : State) : Host.Outcome State Fault Refusal :=
  .next (receive 0x22 transport peer packet s)

/-- JOB_ASSIGN (R450). -/
def execJobAssign (transport peer : Nat) (packet : List Byte) (s : State) : Host.Outcome State Fault Refusal :=
  .next (receive 0x30 transport peer packet s)

/-- JOB_UNASSIGN (R451). -/
def execJobUnassign (transport peer : Nat) (packet : List Byte) (s : State) : Host.Outcome State Fault Refusal :=
  .next (receive 0x31 transport peer packet s)

/-- ENERGY_READ (R400). -/
def execEnergyRead (transport peer : Nat) (packet : List Byte) (s : State) : Host.Outcome State Fault Refusal :=
  .next (receive 0x32 transport peer packet s)

/-- EVENT_READ (R453). -/
def execEventRead (transport peer : Nat) (packet : List Byte) (s : State) : Host.Outcome State Fault Refusal :=
  .next (receive 0x40 transport peer packet s)

/-- EVENT_ACK (R453). -/
def execEventAck (transport peer : Nat) (packet : List Byte) (s : State) : Host.Outcome State Fault Refusal :=
  .next (receive 0x41 transport peer packet s)

/-- COUNTERS_READ (R449). -/
def execCountersRead (transport peer : Nat) (packet : List Byte) (s : State) : Host.Outcome State Fault Refusal :=
  .next (receive 0x42 transport peer packet s)

/-- FAB_ASSIGN (R318). -/
def execFabAssign (transport peer : Nat) (packet : List Byte) (s : State) : Host.Outcome State Fault Refusal :=
  .next (receive 0x50 transport peer packet s)

/-- ROUTE_WRITE (R318). -/
def execRouteWrite (transport peer : Nat) (packet : List Byte) (s : State) : Host.Outcome State Fault Refusal :=
  .next (receive 0x51 transport peer packet s)

/-- ROUTE_READ (R449). -/
def execRouteRead (transport peer : Nat) (packet : List Byte) (s : State) : Host.Outcome State Fault Refusal :=
  .next (receive 0x52 transport peer packet s)

/-- NBR_READ (R449). -/
def execNbrRead (transport peer : Nat) (packet : List Byte) (s : State) : Host.Outcome State Fault Refusal :=
  .next (receive 0x53 transport peer packet s)

/-- PORT_RESET (R303). -/
def execPortReset (transport peer : Nat) (packet : List Byte) (s : State) : Host.Outcome State Fault Refusal :=
  .next (receive 0x54 transport peer packet s)

/-- PORT_V2_SLICE (R315). -/
def execPortV2Slice (transport peer : Nat) (packet : List Byte) (s : State) : Host.Outcome State Fault Refusal :=
  .next (receive 0x55 transport peer packet s)

/-- STREAM_ABORT (R169). -/
def execStreamAbort (transport peer : Nat) (packet : List Byte) (s : State) : Host.Outcome State Fault Refusal :=
  .next (receive 0x60 transport peer packet s)

/-- STREAM_READ (R449). -/
def execStreamRead (transport peer : Nat) (packet : List Byte) (s : State) : Host.Outcome State Fault Refusal :=
  .next (receive 0x61 transport peer packet s)

/-- ABORT_ALL (R169). -/
def execAbortAll (transport peer : Nat) (packet : List Byte) (s : State) : Host.Outcome State Fault Refusal :=
  .next (receive 0x62 transport peer packet s)

/-- JNL_STATUS_READ (R449). -/
def execJnlStatusRead (transport peer : Nat) (packet : List Byte) (s : State) : Host.Outcome State Fault Refusal :=
  .next (receive 0x70 transport peer packet s)

/-- JNL_READ (R449). -/
def execJnlRead (transport peer : Nat) (packet : List Byte) (s : State) : Host.Outcome State Fault Refusal :=
  .next (receive 0x71 transport peer packet s)

/-- IMG_RESTORE (R355). -/
def execImgRestore (transport peer : Nat) (packet : List Byte) (s : State) : Host.Outcome State Fault Refusal :=
  .next (receive 0x72 transport peer packet s)

/-- FW_STAGE_BEGIN (R465). -/
def execFwStageBegin (transport peer : Nat) (packet : List Byte) (s : State) : Host.Outcome State Fault Refusal :=
  .next (receive 0x80 transport peer packet s)

/-- FW_STAGE_DATA (R465). -/
def execFwStageData (transport peer : Nat) (packet : List Byte) (s : State) : Host.Outcome State Fault Refusal :=
  .next (receive 0x81 transport peer packet s)

/-- FW_STAGE_END (R465). -/
def execFwStageEnd (transport peer : Nat) (packet : List Byte) (s : State) : Host.Outcome State Fault Refusal :=
  .next (receive 0x82 transport peer packet s)

/-- FW_ACTIVATE (R466). -/
def execFwActivate (transport peer : Nat) (packet : List Byte) (s : State) : Host.Outcome State Fault Refusal :=
  .next (receive 0x83 transport peer packet s)

/-- FW_POLICY (R467). -/
def execFwPolicy (transport peer : Nat) (packet : List Byte) (s : State) : Host.Outcome State Fault Refusal :=
  .next (receive 0x84 transport peer packet s)

/-- SEC_READ (R449). -/
def execSecRead (transport peer : Nat) (packet : List Byte) (s : State) : Host.Outcome State Fault Refusal :=
  .next (receive 0x90 transport peer packet s)

/-- KEY_PROVISION (R460). -/
def execKeyProvision (transport peer : Nat) (packet : List Byte) (s : State) : Host.Outcome State Fault Refusal :=
  .next (receive 0x91 transport peer packet s)

/-- SEAL_REARM (R459). -/
def execSealRearm (transport peer : Nat) (packet : List Byte) (s : State) : Host.Outcome State Fault Refusal :=
  .next (receive 0x92 transport peer packet s)

/-- DEBUG_UNLOCK (R461). -/
def execDebugUnlock (transport peer : Nat) (packet : List Byte) (s : State) : Host.Outcome State Fault Refusal :=
  .next (receive 0x93 transport peer packet s)

/-- SECURE_ERASE (R462). -/
def execSecureErase (transport peer : Nat) (packet : List Byte) (s : State) : Host.Outcome State Fault Refusal :=
  .next (receive 0x94 transport peer packet s)

/-- MODULE_RESET (R469). -/
def execModuleReset (transport peer : Nat) (packet : List Byte) (s : State) : Host.Outcome State Fault Refusal :=
  .next (receive 0xA0 transport peer packet s)

/-- SELF_TEST (R499). -/
def execSelfTest (transport peer : Nat) (packet : List Byte) (s : State) : Host.Outcome State Fault Refusal :=
  .next (receive 0xA1 transport peer packet s)

/-- FAIL_READ (R502). -/
def execFailRead (transport peer : Nat) (packet : List Byte) (s : State) : Host.Outcome State Fault Refusal :=
  .next (receive 0xA2 transport peer packet s)

/-- PREPARE_RETURN (R504). -/
def execPrepareReturn (transport peer : Nat) (packet : List Byte) (s : State) : Host.Outcome State Fault Refusal :=
  .next (receive 0xA3 transport peer packet s)

/-- REG_READ (R452). -/
def execRegRead (transport peer : Nat) (packet : List Byte) (s : State) : Host.Outcome State Fault Refusal :=
  .next (receive 0xA4 transport peer packet s)

/-- REG_WRITE (R452). -/
def execRegWrite (transport peer : Nat) (packet : List Byte) (s : State) : Host.Outcome State Fault Refusal :=
  .next (receive 0xA5 transport peer packet s)

/-- PACKET_REJECT (R445, R449): a packet that is discarded for its CRC or size, or refused for its header or its opcode. -/
def execPacketReject (transport peer : Nat) (packet : List Byte) (s : State) : Host.Outcome State Fault Refusal :=
  .next (if reachable s transport && (!framed packet || (headerBad ⟨(transport, peer), packet⟩).isSome) then serveAll (takePacket s (transport, peer) packet) else s)

/-- LONG_OP_COMPLETE (R447): the background operation finishes. -/
def execLongOpComplete (mismatch : Nat) (media : List FlashEvt) (s : State) : Host.Outcome State Fault Refusal :=
  .next (if s.mc.held then s else serveAll (endLong (flashEvents s media) mismatch))

/-! ### The configuration store (14, R360) -/

/-- The half in use: the one whose switch record is valid, with the higher generation. -/
def storeHalf (st : Store) : Nat :=
  match nth st.gens 0 none, nth st.gens 1 none with
  | none, some _ => 1
  | some a, some b => if b > a then 1 else 0
  | _, _ => 0

/-- Records that a half holds. -/
def halfRecords : Nat := 1024

/-- The live entries that a compaction copies: base items, overlay items, policy, failure record, bad-block table, repairs (DESIGN CHOICE, log
48). -/
def liveEntries (s : State) : Nat :=
  s.store.base.length + sumNat (s.store.overlays.map (fun o => o.2.length)) + b2n s.store.policy.isSome + s.store.fail.entries.length +
  s.store.bad.length + s.store.repairs.length

/-- A record of a compaction held in two copies: an entry copied, or, last, the switch record, with which the other half is in use. -/
def compactStep (s : State) (left : Nat) : State :=
  let st := s.store
  if left > 0 then { s with store := { st with compact := some (left - 1) } }
  else
    let h := storeHalf st
    { s with store := { st with gens := setNth st.gens (1 - h) (some ((nth st.gens h none).getD 0 + 1))
                                recs := min (halfRecords - 1) (liveEntries s + 1), compact := none } }

/-- A record of the configuration store, the oldest change that waits or one of the module's own counts, is held in two copies, or not: a
packet's change is then made and acknowledged, or fails. A half that holds 1,024 records is compacted first. In a power-fail sequence 8 records
at most are committed (R358). -/
def storeRecord (s : State) (good : Bool) : State :=
  let left := if s.flash.pfwLeft > 0 then { s with flash := { s.flash with pfwLeft := s.flash.pfwLeft - 1 } } else s
  match s.store.compact, decide (s.store.recs ≥ halfRecords) with
  | some n, _ => if good then compactStep left n else left
  | none, true => if good then compactStep left (liveEntries s) else left
  | none, false =>
    let s1 := if good then { left with store := { left.store with recs := left.store.recs + 1, queue := left.store.queue.drop 1 } } else left
    match s.store.queue.head? with
    | some .packet => endStoring { s1 with store := { s1.store with queue := s.store.queue.drop 1 } } good
    | _ => s1

/-- CONFIG_RECORD_COMMIT (14, R360): the programming of a record ends; `good` where both copies are held; media is what the flash met. With the
flash write-protected nothing is programmed, and a packet that waits fails (14, R358). -/
def execConfigRecordCommit (good : Bool) (media : List FlashEvt) (s : State) : Host.Outcome State Fault Refusal :=
  .next (if s.flash.protect then serveAll s else serveAll (protectIdle (storeRecord (flashEvents s media) good)))

/-! ### The mailbox and the register bus (19, R482; 00, R534) -/

/-- MAILBOX_GO (19, R482): GO written with the request's length. -/
def execMailboxGo (value : Word) (s : State) : Host.Outcome State Fault Refusal := .next (serveAll (busStep s 0x2A10 (withField value 31 31 1) false))

/-- MAILBOX_RELEASE (19, R482): 1 written to DONE. -/
def execMailboxRelease (s : State) : Host.Outcome State Fault Refusal := .next (serveAll (busStep s 0x2A10 (BitVec.ofNat 32 (2 ^ 29 + fg s MC_MBOX_LEN 0)) false))

/-- REGISTER_WRITE (00, R12, R534): a word written to a control-space offset by a host core or over PCIe, after the accesses `before` it. -/
def execRegisterWrite (offset : Nat) (value : Word) (before : List HostOp) (s : State) : Host.Outcome State Fault Refusal :=
  .next (serveAll (busStep (hostOps s before) offset value false))

/-! ### Presence and seal (R458, R459) -/

/-- PRESENCE_ASSERT (R458): PRESENCE_N has been asserted for 50 ms. -/
def execPresenceAssert (s : State) : Host.Outcome State Fault Refusal :=
  .next (fs (fs { s with mc := { s.mc with present := true, windowMs := 0 } } MC_STATUS_PRESENCE_OPEN 0 1) MC_SEC_WINDOW_S 0 30)

/-- PRESENCE_DEASSERT (R458): the window's 30 s begin to run. -/
def execPresenceDeassert (s : State) : Host.Outcome State Fault Refusal :=
  .next (if s.mc.present then { s with mc := { s.mc with present := false, windowMs := 30000 } } else s)

/-- PRESENCE_WINDOW_CLOSE (R458). -/
def execPresenceWindowClose (s : State) : Host.Outcome State Fault Refusal :=
  .next (if s.mc.present then s else fs (fs { s with mc := { s.mc with windowMs := 0 } } MC_STATUS_PRESENCE_OPEN 0 0) MC_SEC_WINDOW_S 0 0)

/-- A millisecond of the MC's REFCLK timer passes for the presence window (R458). -/
def windowTick (s : State) : State :=
  if s.mc.windowMs = 0 then s
  else
    let n := s.mc.windowMs - 1
    fs { s with mc := { s.mc with windowMs := n } } MC_SEC_WINDOW_S 0 (ceilDiv n 1000)

/-- SEAL_CHECK (R459): the loop sampled each millisecond (closed: 1); open at 10 checks in a row while ARMED it trips. -/
def execSealCheck (loop : Nat) (s : State) : Host.Outcome State Fault Refusal :=
  let s1 := windowTick (fs s MC_STATUS_LOOP_CLOSED 0 (b2n (loop == 1)))
  let n := if loop = 1 ∨ fg s MC_STATUS_SEAL 0 ≠ 1 then 0 else s.mc.sealOpen + 1
  .next (if n ≥ 10 then sealTrip { s1 with mc := { s1.mc with sealOpen := 0 } } else { s1 with mc := { s1.mc with sealOpen := n } })

/-! ### MCTP control messages (R442; PRESUMED, log 59) -/

/-- Whether MCTP control messages are carried: on SMBus, and on PCIe in endpoint mode. -/
def mctpOn (s : State) (transport : Nat) : Bool := transport ≤ 1 && reachable s transport

def endpointOf (s : State) (transport : Nat) : Nat := ((s.mc.eids.find? (fun e => e.1 == transport)).map Prod.snd).getD 0

/-- SET_ENDPOINT_ID: operations 0 set and 1 force; an EID of 0 or 0xFF is invalid data. -/
def execSetEndpointId (transport peer operation eid : Nat) (s : State) : Host.Outcome State Fault Refusal :=
  .next (if !mctpOn s transport then s
    else if operation > 1 ∨ eid = 0 ∨ eid ≥ 0xFF then sendPacket s (transport, peer) [2, 0, BitVec.ofNat 8 (endpointOf s transport), 0]
    else sendPacket { s with mc := { s.mc with eids := s.mc.eids.filter (fun e => e.1 != transport) ++ [(transport, eid)] } }
      (transport, peer) [0, 0, BitVec.ofNat 8 eid, 0])

/-- GET_ENDPOINT_ID: a simple endpoint. -/
def execGetEndpointId (transport peer : Nat) (s : State) : Host.Outcome State Fault Refusal :=
  .next (if mctpOn s transport then sendPacket s (transport, peer) [0, BitVec.ofNat 8 (endpointOf s transport), 0, 0] else s)

/-- GET_MCTP_VERSION_SUPPORT: one version entry, which the manual does not give, for the base and control messages and for the vendor's
type. -/
def execGetMctpVersionSupport (transport peer ty : Nat) (s : State) : Host.Outcome State Fault Refusal :=
  .next (if !mctpOn s transport then s
    else if !(ty == 0xFF || ty == 0 || ty == 0x7F) then sendPacket s (transport, peer) [0x80, 0]
    else
      let (v, s1) := fresh s
      sendPacket s1 (transport, peer) ([0, 1] ++ toBytesLE 4 v))

/-- GET_MESSAGE_TYPE_SUPPORT: the vendor-defined type 0x7F. -/
def execGetMessageTypeSupport (transport peer : Nat) (s : State) : Host.Outcome State Fault Refusal :=
  .next (if mctpOn s transport then sendPacket s (transport, peer) [0, 1, 0x7F] else s)

/-! ### The management Ethernet port and the Alert Response Address (R443; 21, R512; PRESUMED, log 59) -/

/-- Big-endian bytes of external formats (00, R15). -/
def toBytesBE (n v : Nat) : List Byte := (toBytesLE n v).reverse

/-- The module's own hardware address, which the manual does not give. -/
def ownMac : Nat := Config.unstated 0x4D4143 0 0 % 2 ^ 48

/-- ARP_REQUEST: from a peer's address for a target address; answered for the module's own. -/
def execArpRequest (peer mac target : Nat) (s : State) : Host.Outcome State Fault Refusal :=
  let ip := baseItem s.store.base 0x0300
  .next (if !reachable s 2 ∨ target ≠ ip then s
    else sendPacket s (2, peer) (toBytesBE 2 1 ++ toBytesBE 2 0x0800 ++ [6, 4] ++ toBytesBE 2 2 ++ toBytesBE 6 ownMac ++ toBytesBE 4 ip ++
      toBytesBE 6 mac ++ toBytesBE 4 peer))

/-- The ones'-complement sum of 16-bit words, most significant byte first. -/
def onesSum : List Byte → Nat
  | [] => 0
  | [a] => a.toNat * 256
  | a :: b :: bs => (fun x => x % 65536 + x / 65536) (a.toNat * 256 + b.toNat + onesSum bs)

/-- ICMP_ECHO: an echo request (its bytes after type, code and checksum) answered with an echo reply. -/
def execIcmpEcho (peer target : Nat) (message : List Byte) (s : State) : Host.Outcome State Fault Refusal :=
  .next (if !reachable s 2 ∨ target ≠ baseItem s.store.base 0x0300 then s
    else sendPacket s (2, peer) ([0, 0] ++ toBytesBE 2 (0xFFFF - onesSum message) ++ message))

/-- The module's SMBus address (R441). -/
def smbusAddress (s : State) : Nat := 0x60 + s.board % 16

/-- ALERT_RESPONSE_ADDRESS (21, R512): while ALERT_N is asserted the module answers with its own address, in bits 7 to 1. -/
def execAlertResponseAddress (s : State) : Host.Outcome State Fault Refusal :=
  .next (if unacked s > 0 ∧ reachable s 0 then sendPacket s (0, 0) [BitVec.ofNat 8 (2 * smbusAddress s)] else s)

/-! ### Settling faults and aborts (06, R170 to R174) -/

/-- FAULT_SETTLE (06, R174): every earlier command has retired or stopped. -/
def execFaultSettle (m : Nat) (s : State) : Host.Outcome State Fault Refusal := .next (serveAll (settleFault s m))

/-- ABORT_ACCEPT (06, R170). -/
def execAbortAccept (m : Nat) (s : State) : Host.Outcome State Fault Refusal := .next (serveAll (acceptAbort s m))

/-- ABORT_SETTLE (06, R170). -/
def execAbortSettle (m : Nat) (s : State) : Host.Outcome State Fault Refusal := .next (serveAll (settleAbort s m))

/-- ABORT_FORCE (06, R173). -/
def execAbortForce (m : Nat) (s : State) : Host.Outcome State Fault Refusal := .next (serveAll (forceAbort s m))

end Sys2Proof.Machine
end

