-- ==== Sys2Proof/Machine/UpdateEngine.lean ====
section
/-!
DEFINITION. The update engine (09_update_rules_schedules.md): schedule values, state tiles, the factored rule in its two
passes, the elementwise rule, column emit and column finish, with the update-to-weight sums (04, R112) and the state
digests (14, R346). One command row is one event of the UE: a run's first pass, or one tile pushed.
-/

namespace Sys2Proof.Machine

/-! ### Arithmetic in FP32 with its events -/

/-- The constants of the update rules (09, R228). -/
def updEps : Nat := 0x21800000

/-- max(x, EPS); a NaN passes on. -/
def floorEps (x : Nat) : Nat :=
  match (ofFp32 x).1 with
  | .nan => nan32
  | v => if v.lt (ofFp32 updEps).1 then updEps else x

/-- 1/√x correctly rounded (09, R229). -/
def rsqrt32 (x : Nat) : Ew :=
  let (v, ev) := ofFp32 x
  match v with
  | .fin true (_ + 1) _ _ => (nan32, ev.add { nanc := 1 })
  | v => let (r, er) := toFp32 (((FV.ofNat 1).div v).sqrt); (r, ev.add er)

/-- A quotient by a positive count, correctly rounded (09, R229). -/
def divCount (x n : Nat) : Ew :=
  let (v, ev) := ofFp32 x
  let (r, er) := toFp32 (v.div (FV.ofNat n))
  (r, ev.add er)

/-- An FP32 pattern read from memory: an infinity reads as the largest finite value, counted once (02, R38). -/
def clean32 (w : Nat) : Ew := let (v, ev) := ofFp32 w; ((toFp32 v).1, ev)
/-- A BF16 pattern read from memory, as FP32; an infinity reads as BF16's largest finite value, counted once (02, R38). -/
def widen16 (w : Nat) : Ew := let (v, ev) := ofBf16 w; ((toFp32 v).1, ev)

/-- sr_bf16 (09, R229): a BF16 pattern. -/
def srBf16 (x : Ew) (draw : Nat) : Ew :=
  let (r, past) := narrowBf16 (.sr draw) (ofFp32 x.1).1
  (r, x.2.add { ovf := b2n past })

/-! ### Schedules (09, R240, R241) -/

def schedBase (s : State) : Nat := fg s MOD_SCHED_BASE_HI_BASE_HI 0 * 2 ^ 32 + fg s MOD_SCHED_BASE_LO_BASE_LO 0 * 2 ^ 12

/-- The offset of the first fault among segments: STARTs from 0, strictly ascending, reserved words 0, all
in Tier 1. `k` is the segment's number and `prev` the START before it. -/
def schedFault (s : State) (base seg : Nat) : Nat → Nat → Nat → Option Nat
  | 0, _, _ => none
  | n + 1, k, prev =>
    let off := seg + 48 * k
    if base + off + 48 > tier1Size then some off
    else
      let start := ofBytesLE (memRead s (base + off) 4)
      if (k = 0 ∧ start ≠ 0) ∨ (k ≠ 0 ∧ start ≤ prev) then some off
      else if ofBytesLE (memRead s (base + off + 4) 4) ≠ 0 then some (off + 4)
      else schedFault s base seg n (k + 1) start

/-- The last segment whose START is at or below t. -/
def schedPick (s : State) (base seg t : Nat) : Nat → Nat
  | 0 => 0
  | n + 1 => if ofBytesLE (memRead s (base + seg + 48 * n) 4) ≤ t then n else schedPick s base seg t n

/-- One value of a segment at step t: VALUE + SLOPE × (t − START), each operation rounded. -/
def schedValue (s : State) (a t i : Nat) : Ew :=
  let start := ofBytesLE (memRead s a 4)
  let v := clean32 (ofBytesLE (memRead s (a + 8 + 8 * i) 4))
  let sl := clean32 (ofBytesLE (memRead s (a + 12 + 8 * i) 4))
  let x := toFp32 (FV.ofNat (t - start))
  eadd v (emul sl x)

/-- The schedule of a group at step t: eta, lambda, beta1, beta2, clip; FLT_ADDRESS with the table offset read at a
malformed table (09, R241), FLT_UNCORRECTABLE at a poisoned one (11, R291). -/
def schedule (s : State) (g t : Nat) : Got (List Nat × Ev) :=
  let base := schedBase s
  let e := base + 16 * g
  if e + 16 > tier1Size then .fault 0x11 (16 * g)
  else if poisoned s e 16 then .fault 0x12 ((poisonDetail s e 16).getD 0)
  else if ofBytesLE (memRead s (e + 6) 10) ≠ 0 then .fault 0x11 (16 * g + 6)
  else
    let seg := ofBytesLE (memRead s e 4)
    let n := ofBytesLE (memRead s (e + 4) 2)
    if n = 0 then .fault 0x11 (16 * g + 4)
    else
      match schedFault s base seg n 0 0 with
      | some off => .fault 0x11 (off % 2 ^ 32)
      | none =>
        if poisoned s (base + seg) (48 * n) then .fault 0x12 ((poisonDetail s (base + seg) (48 * n)).getD 0)
        else
          let a := base + seg + 48 * schedPick s base seg t n
          let vs := (below 5).map (schedValue s a t)
          .ok (vs.map Prod.fst, sumEv (vs.map Prod.snd))

/-! ### Tiles (09, R226, R227, R239) -/

/-- Bytes of the momentum section. -/
def momBytes (c : Cmd) : Nat := if !updMom c then 0 else if updMx c then 16896 else 32768

/-- Bytes of a state tile. -/
def stateBytes (c : Cmd) : Nat := 32768 + momBytes c + (if updRule c = 0 then 256 else 32768)

/-- A BF16 section, row-major, as patterns. -/
def bf16At (bs : List Byte) (off i : Nat) : Nat := ofBytesLE ((bs.drop (off + 2 * i)).take 2)

/-- Whether element (i, j) is live under a command's mask tile (09, R239). -/
def liveAt (c : Cmd) (mask : List Byte) (i j : Nat) : Bool :=
  match updMask c with
  | 0 => true
  | 1 => bit (nth mask (i / 8) 0).toNat (i % 8)
  | _ => bit (nth mask ((128 * i + j) / 8) 0).toNat ((128 * i + j) % 8)

/-- Kerf draw of the UE for a stream number and an element index (09, R229). -/
def ueDraw (s : State) (c : Cmd) (st idx : Nat) : Nat := kerfDraw (jobSeed s) st (bits c.imm 31 0) idx c.step

/-- The element index of element (i, j) of a tile. -/
def elemIdx (h : Hdr) (len i j : Nat) : Nat := h.elemBase + i * len + j

/-- A gradient element as FP32, and its events at its first read. -/
def gradAt (bs : List Byte) (i j : Nat) : Ew := clean32 (ofBytesLE ((bs.drop (4 * (128 * i + j))).take 4))

/-- Momentum of element (i, j) as FP32. -/
def momAt (c : Cmd) (bs : List Byte) (blocks : List (List Block)) (i j : Nat) : Ew :=
  if updMx c then blockElem fE4m3 (nth blocks i []) j else widen16 (bf16At bs 32768 (128 * i + j))

/-- The result of an update on one element: the new weight and momentum patterns, the FP32 momentum mf where one
was formed, and events. -/
structure UElem where
  w   : Nat
  m   : Nat := 0
  mf  : Option Nat := none
  old : Nat
  ev  : Ev
deriving DecidableEq, Repr

/-- rne(eta × lambda), the decay of a step, and its event: a run or a tile counts it once (09, R230, R238). -/
def decayRate (sch : List Nat) : Ew := emul (pv (nth sch 0 0)) (pv (nth sch 1 0))

/-- A live element with its normalised gradient u: clip, momentum, decay and step (09, R230, pass 2). -/
def stepElem (s : State) (c : Cmd) (sch : List Nat) (kappa idx w m : Nat) (mv : Ew) (u0 : Ew) : UElem :=
  let eta := nth sch 0 0
  let el := decayRate sch
  let b1 := nth sch 2 0
  let c1 := esub (pv one32) (pv b1)
  let u := if kappa = one32 then u0 else emul u0 (pv kappa)
  let wv := widen16 w
  let (st, mNew, mf, evm) : Nat × Nat × Option Nat × Ev :=
    if updMom c then
      let f := eadd (emul (pv b1) mv) (emul (pv c1.1) u)
      let r := srBf16 (pv f.1) (ueDraw s c 0xFF01 idx)
      if updMx c then (f.1, m, some f.1, f.2) else (f.1, r.1, some f.1, f.2.add r.2)
    else (u.1, m, none, u.2)
  let wf := esub (esub wv (emul (pv el.1) (pv wv.1))) (emul (pv eta) (pv st))
  let r := srBf16 wf (ueDraw s c 0xFF00 idx)
  ⟨r.1, mNew, mf, w, evm.add r.2⟩

/-- A live element that takes decay only. -/
def decayElem (s : State) (c : Cmd) (sch : List Nat) (idx w m : Nat) : UElem :=
  let el := decayRate sch
  let wv := widen16 w
  let r := srBf16 (esub wv (emul (pv el.1) (pv wv.1))) (ueDraw s c 0xFF00 idx)
  ⟨r.1, m, none, w, r.2⟩

def keepElem (w m : Nat) : UElem := ⟨w, m, none, w, {}⟩

/-- The 16,384 results of a tile: elements outside ROWS and COLS are +0 (05, R122). -/
def tileElems (h : Hdr) (f : Nat → Nat → UElem) : List UElem :=
  (below 16384).map (fun k => if k / 128 < h.rows ∧ k % 128 < h.cols then f (k / 128) (k % 128) else keepElem 0 0)

def bf16Bytes (ws : List Nat) : List Byte := ws.flatMap (toBytesLE 2)

/-- The momentum section of a tile: BF16 patterns, or MXFP8 blocks in which a row with no new momentum keeps its
bits; zeros outside ROWS and COLS (09, R226, R230; 05, R122). -/
def momSection (s : State) (c : Cmd) (h : Hdr) (len : Nat) (old : List (List Block)) (es : List UElem) : List Byte × NEv :=
  if !updMom c then ([], {})
  else if !updMx c then (bf16Bytes (es.map UElem.m), {})
  else
    let rows := chunks 128 es
    let out := (below 128).map (fun i =>
      let r := nth rows i []
      if r.any (fun e => e.mf.isSome) then
        (below 4).map (fun b =>
          if i < h.rows ∧ 32 * b < h.cols then
            let js := rangeFrom (32 * b) 32
            quantiseBlock fE4m3 (js.map (fun j => .sr (ueDraw s c 0xFF01 (elemIdx h len i j)))) ⟨none, false⟩
              (js.map (fun j => (ofFp32 (((nth r j (keepElem 0 0)).mf).getD 0)).1))
          else (⟨List.replicate 32 0, 0, 0⟩, {}))
      else (below 4).map (fun b =>
        (maskBlock (nth (nth old i []) b ⟨List.replicate 32 0, 0, 0⟩) (if i < h.rows then h.cols - 32 * b else 0), ({} : NEv))))
    (encodeNarrowTile fE4m3 (out.map (fun l => l.map Prod.fst)), sumNEv (out.map (fun l => sumNEv (l.map Prod.snd))))

/-- The terms of the update-to-weight sums of a tile, with their saturations: every element of its extent, masked ones included
(04, R112; 02, R37). -/
def sumTerms (h : Hdr) (len : Nat) (es : List UElem) : List (Nat × Nat × Nat) × Ev :=
  let ts := (below 16384).filterMap (fun k =>
    if k / 128 < h.rows ∧ k % 128 < h.cols then
      let e := nth es k (keepElem 0 0)
      let wo := (widen16 e.old).1
      let d := esub (pv (widen16 e.w).1) (pv wo)
      let dd := emul d (pv d.1)
      let ww := emul (pv wo) (pv wo)
      some ((elemIdx h len (k / 128) (k % 128), dd.1, ww.1), dd.2.add ww.2)
    else none)
  (ts.map Prod.fst, sumEv (ts.map Prod.snd))

/-! ### The column accumulator (09, R233, R234) -/

def ueRt (s : State) (w : Nat) : UeRt := sget {} s.ue w
def setUe (s : State) (w : Nat) (u : UeRt) : State := { s with ue := sset {} s.ue w u }

/-- UE_ACC and ACC_OPEN follow the accumulator. -/
def ueAcc (s : State) (w : Nat) (u : UeRt) (isOpen : Bool) : State :=
  fs (wr (setUe s w u) UE_ACC w (BitVec.ofNat 32 u.nrows)) UE_STATUS_ACC_OPEN w (b2n isOpen)

def clearAcc (u : UeRt) : UeRt := { u with sacc := [], nacc := [], racc := 0, nrows := 0 }

/-! ### Digests (14, R346) and the end of a command -/

def digestsOf : List (Nat × List Nat) → Nat → List Nat
  | [], _ => List.replicate 16 0
  | (k, v) :: ds, st => if k = st then v else digestsOf ds st

/-- A tile pushed on OUT0 enters its step's digest, unless that step has been journalled (14, R346). -/
def addDigest (s : State) (c : Cmd) (h : Hdr) (bs : List Byte) : State :=
  if s.watch.journaled.contains c.step then s
  else
    let slot := bits c.imm 55 48 % 16
    let v := crc32 (bs ++ toBytesLE 4 (bits c.imm 31 0) ++ toBytesLE 8 h.elemBase)
    let d := digestsOf s.watch.digests c.step
    let d' := setNth d slot ((nth d slot 0 + v) % 2 ^ 64)
    { s with watch := { s.watch with digests := (c.step, d') :: s.watch.digests.filter (fun p => p.1 != c.step) } }

/-- A term put after the terms of smaller or equal element index. -/
def insertTerm (t : Nat × Nat × Nat) : List (Nat × Nat × Nat) → List (Nat × Nat × Nat)
  | [] => [t]
  | u :: us => if t.1 < u.1 then t :: u :: us else u :: insertTerm t us

/-- Terms in ascending element index. -/
def sortTerms (ts : List (Nat × Nat × Nat)) : List (Nat × Nat × Nat) := ts.foldl (fun a t => insertTerm t a) []

/-- A command's pair of sums, in E48 in ascending element index, with their saturations (04, R112; 02, R37). -/
def uwrSums (ts : List (Nat × Nat × Nat)) : Ew × Ew :=
  let put := fun (a : Ew) (x : Nat) => op2 addE48 a (pv (fp32ToE48 x).1)
  (sortTerms ts).foldl (fun a t => (put a.1 t.2.1, put a.2 t.2.2)) (pv 0, pv 0)

/-- The end of an UPDATE: its pair of sums becomes a contribution of its step, or, late, sets WATCH_LATE (04, R113);
the UE is free for the next command. -/
def updEnd (s : State) (w : Nat) (c : Cmd) : State :=
  let ts := (ueRt s w).terms
  let p := uwrSums ts
  let s1 := clearUe (countUe s w c.step (p.1.2.add p.2.2)) w
  if s1.watch.journaled.contains c.step then fs s1 MOD_NUMERICS_WATCH_LATE 0 1
  else
    let first := ((sortTerms ts).map Prod.fst).headD 0
    { s1 with watch := { s1.watch with items := s1.watch.items ++
      [⟨c.step, bits c.imm 55 48, bits c.imm 31 0, first, p.1.1, p.2.1⟩] } }

/-- UE_STATUS while a command runs (09). -/
def ueStatus (s : State) (w : Nat) (c : Cmd) (pass : Nat) : State :=
  fs (fs (fs s UE_STATUS_TAG w c.tag) UE_STATUS_BUSY w 1) UE_STATUS_PASS w pass

/-- A unit of the walk done, and the command's end with its last. `vs` are the vectors of the walk still to read. -/
def updUnit (s : State) (m w : Nat) (c : Cmd) : State :=
  let s1 := unitDone s m w c
  if c.iter + 1 ≥ unitCount c then updEnd s1 w { c with iter := c.iter + 1 } else s1

/-- A tile pushed on OUT0, which enters the step's digest (14, R346), and one on OUT1 where that end is present. -/
def updPush (s : State) (m w : Nat) (c : Cmd) (h : Hdr) (tile : List Byte) (out1 : Option (Hdr × List Byte)) : State × Cmd :=
  let (s1, c1) := pushOut (addDigest s c h tile) m w c 0 h tile
  match out1 with
  | some (h1, bs) => if outPresent (c1.out 1) then pushOut s1 m w c1 1 h1 bs else (s1, c1)
  | none => (s1, c1)

/-- Free slots for the next tile of each output end, and no dark ward among them. -/
def updReady (s : State) (w : Nat) (c : Cmd) : Bool := canPush s w c 0 1 && canPush s w c 1 1

def darkOut (s : State) (w : Nat) (c : Cmd) : Option Nat :=
  (below 2).findSome? (fun e => if outPresent (c.out e) && isDark s (outWard w (c.out e)) then some (outWard w (c.out e)) else none)

/-! ### The factored rule (09, R230) -/

/-- The tiles of a run on one end, or a wait, or a fault. -/
def readRun (s : State) (w : Nat) (c : Cmd) (e : Nat) : List (List Nat) → Got (List (Hdr × List Byte))
  | [] => .ok []
  | v :: vs => (readIn s w c e (inOffset c.desc e v)).bind (fun t => (readRun s w c e vs).bind (fun ts => .ok (t :: ts)))

/-- The column factors k of a run: 1.0 while rho is +0, else sqrt(max(rho, EPS)) / sqrt(max(c, EPS)). The read of rho is counted once, with
column 0. -/
def colFactors (len : Nat) (stats : List (List Byte)) : List Ew :=
  let rho := bf16At (stats.headD []) 256 0
  let floored := fun (x : Ew) => (floorEps x.1, x.2)
  (below len).map (fun j =>
    if rho = 0 then pv one32
    else
      let r := widen16 rho
      emul (op1 fsqrt32 (floored (r.1, if j = 0 then r.2 else {})))
        (op1 rsqrt32 (floored (widen16 (bf16At (nth stats (j / 128) []) 0 (j % 128))))))

/-- Sums of pass 1: per row (q, z, n), per column (srun, nrun), whether every live element is zero, events. -/
structure Pass1 where
  rows    : List (Nat × Nat × Nat) := []
  cols    : List (Nat × Nat × Nat) := []
  allzero : Bool := true
  ev      : Ev := {}
deriving DecidableEq, Repr

/-- The sum for column j, of an association list of columns with live elements. -/
def colOf (cs : List (Nat × Nat × Nat)) (j : Nat) : Nat × Nat := ((cs.find? (fun p => p.1 == j)).map Prod.snd).getD (0, 0)

/-- Pass 1 on one live element. -/
def pass1Elem (ks : List Nat) (p : Pass1) (i j : Nat) (g : Ew) : Pass1 :=
  let gg := emul g (pv g.1)
  let e := emul (pv g.1) (pv (nth ks j one32))
  let (q, z, n) := nth p.rows i (0, 0, 0)
  let q' := eadd (pv q) (pv gg.1)
  let z' := eadd (pv z) (emul e (pv e.1))
  let (sr, nr) := colOf p.cols j
  let s' := eadd (pv sr) (pv gg.1)
  { rows := setNth p.rows i (q'.1, z'.1, n + 1)
    cols := (j, s'.1, nr + 1) :: p.cols.filter (fun x => x.1 != j)
    allzero := p.allzero && (g.1 == 0 || g.1 == 0x80000000)
    ev := p.ev.add (gg.2.add (q'.2.add (z'.2.add s'.2))) }

/-- Pass 1 on one tile: ascending columns, rows ascending within a column. -/
def pass1Tile (c : Cmd) (ks : List Nat) (p : Pass1) (t : Nat) (h : Hdr) (g mask : List Byte) : Pass1 :=
  (below h.cols).foldl (fun p j => (below h.rows).foldl (fun p i =>
    if liveAt c mask i j then pass1Elem ks p i (128 * t + j) (gradAt g i j) else p) p) p

/-- The row statistics after a run, as BF16 patterns (09, R230, R231): a row with no live element keeps its bits. -/
def rowStats (s : State) (c : Cmd) (sch : List Nat) (row0 : Nat) (old : List Nat) (p : Pass1) : List Ew :=
  let b2 := nth sch 3 0
  let c2 := esub (pv one32) (pv b2)
  (below p.rows.length).map (fun i =>
    let (q, _, n) := nth p.rows i (0, 0, 0)
    let r := nth old i 0
    if n = 0 then pv r
    else srBf16 (eadd (emul (pv b2) (widen16 r)) (emul (pv c2.1) (op1 (fun x => divCount x n) (pv q)))) (ueDraw s c 0xFF02 (row0 + i)))

/-- The clip factor of a mean square (09, R230): a NaN mean square makes it NaN where a clip applies
(09, R232; DEDUCED, log 23). -/
def clipFactor (d ms : Nat) : Ew :=
  let dv := (ofFp32 d).1
  let pos := (FV.ofNat 0).lt dv
  let mv := (ofFp32 ms).1
  let dd := emul (pv d) (pv d)
  if !pos then pv one32
  else if mv.isNan || dv.isNan then (nan32, dd.2)
  else if (ofFp32 dd.1).1.lt mv then
    let k := emul (pv d) (op1 rsqrt32 (pv ms))
    (k.1, dd.2.add k.2)
  else (one32, dd.2)

/-- The scale h of each row: none where its statistic is +0. -/
def rowScales (stat : List Nat) : List (Option Ew) :=
  stat.map (fun r => if r = 0 then none else some (op1 rsqrt32 (pv (floorEps (widen16 r).1))))

/-- ms and the count behind it (09, R230). -/
def meanSquare (p : Pass1) (hs : List (Option Ew)) : Ew :=
  let (u, cnt) := (below p.rows.length).foldl (fun (a : Ew × Nat) i =>
    let (_, z, n) := nth p.rows i (0, 0, 0)
    match nth hs i none with
    | some h => if n = 0 then a else (eadd a.1 (emul (emul (pv h.1) (pv h.1)) (pv z)), a.2 + n)
    | none => a) (pv 0, 0)
  if cnt = 0 then pv 0 else op1 (fun x => divCount x cnt) u

/-- The accumulator with a run's row statistics added, in ascending row. -/
def addRows (u : UeRt) (stat : List Nat) : UeRt × Ev :=
  stat.foldl (fun (a : UeRt × Ev) r =>
    let t := eadd (pv a.1.racc) (widen16 r)
    ({ a.1 with racc := t.1, nrows := a.1.nrows + 1 }, a.2.add t.2)) (u, {})

/-- The accumulator with a run's column sums and counts added. -/
def addCols (u : UeRt) (cols : List (Nat × Nat × Nat)) : UeRt × Ev :=
  cols.foldl (fun (a : UeRt × Ev) x =>
    let t := eadd (pv (sget 0 a.1.sacc x.1)) (pv x.2.1)
    ({ a.1 with sacc := sset 0 a.1.sacc x.1 t.1, nacc := sset 0 a.1.nacc x.1 (sget 0 a.1.nacc x.1 + x.2.2) }, a.2.add t.2)) (u, {})

/-- The mask tile of position t of a run. -/
def maskOf (c : Cmd) (ms : List (Hdr × List Byte)) (t : Nat) : List Byte :=
  (nth ms (if updMask c = 1 then 0 else t) ({}, [])).2

/-- The first pass of a run: tiles read, statistics formed, accumulator updated at its end (09, R230, R233). -/
def pass1 (s : State) (w : Nat) (c : Cmd) (sch : List Nat) (gs st0 stats ms : List (Hdr × List Byte)) : State :=
  let len := dRowLen c.desc
  let u := ueRt s w
  let ks := colFactors len (stats.map Prod.snd)
  let h0 := (gs.headD ({}, [])).1
  let row0 := if len = 0 then 0 else h0.elemBase / len
  let kv := ks.map Prod.fst
  let p := (below gs.length).foldl (fun p t => let g := nth gs t ({}, []); pass1Tile c kv p t g.1 g.2 (maskOf c ms t))
    ({ rows := List.replicate h0.rows (0, 0, 0) } : Pass1)
  let old := (below h0.rows).map (fun i => bf16At (st0.headD ({}, [])).2 (32768 + momBytes c) i)
  let s1 := bump s UE_BUSY_CLOCKS w (64 * gs.length)
  if p.allzero then
    let (u1, e1) := addRows u old
    let run : UeRun := { cols := kv, kappa := one32, allzero := true, rowStat := old, hs := [], done := 0 }
    let s2 := ueAcc s1 w { u1 with run := some run } true
    countUe (bump s2 UE_ZERO_ZERO_SLICE w 1) w c.step ((decayRate sch).2.add (e1.add (p.ev.add (sumEv (ks.map Prod.snd)))))
  else
    let rs := rowStats s c sch row0 old p
    let stat := rs.map Prod.fst
    let hs := rowScales stat
    let m := meanSquare p hs
    let k := clipFactor (nth sch 4 0) m.1
    let (u1, e1) := addCols u p.cols.reverse
    let (u2, e2) := addRows u1 stat
    let run : UeRun := { cols := kv, kappa := k.1, allzero := false, rowStat := stat, hs := hs.map (Option.map Prod.fst), done := 0 }
    let s2 := ueAcc s1 w { u2 with run := some run } true
    let s3 := bump s2 UE_ZERO_ZERO_ROW w ((stat.filter (· == 0)).length)
    let clipped := (ofFp32 k.1).1.lt (FV.ofNat 1)
    let s4 := bump s3 UE_CLIP_CLIPPED w (b2n clipped)
    countUe s4 w c.step (sumEv ([(decayRate sch).2, p.ev, m.2, k.2, e1, e2] ++ ks.map Prod.snd ++ rs.map Prod.snd ++ hs.map (fun h => (h.map Prod.snd).getD {})))

/-- One tile of the second pass: state and weight tiles pushed (09, R226, R230). -/
def pass2Tile (s : State) (m w : Nat) (c : Cmd) (sch : List Nat) (r : UeRun) (h : Hdr) (g st mask : List Byte) : State :=
  let len := dRowLen c.desc
  let t := r.done
  let old := if updMx c then decodeNarrowTile fE4m3 ((st.drop 32768).take 16896) else []
  let es := tileElems h (fun i j =>
    let k := 128 * i + j
    let wp := bf16At st 0 k
    let mp := if updMom c ∧ !updMx c then bf16At st 32768 k else 0
    let idx := elemIdx h len i j
    if !liveAt c mask i j then keepElem wp mp
    else if r.allzero then decayElem s c sch idx wp mp
    else
      match nth r.hs i none with
      | none => decayElem s c sch idx wp mp
      | some hv =>
        let u := emul (emul (pv (gradAt g i j).1) (pv (nth r.cols (128 * t + j) one32))) (pv hv)
        stepElem s c sch r.kappa idx wp mp (if updMom c then momAt c st old i j else pv 0) u)
  let (mb, nev) := momSection s c h len old es
  let wb := bf16Bytes (es.map UElem.w)
  let sb := bf16Bytes (if t = 0 then padTo 128 0 r.rowStat else List.replicate 128 0)
  let s1 := countUe (bump s UE_BUSY_CLOCKS w 64) w c.step (sumEv (es.map UElem.ev))
  let s2 := if updMx c then countNarrow s1 w c.step nev else s1
  let marks := if h.transposed then mkTransposed else 0
  let (s3, c1) := updPush s2 m w c { h with fmt := fNone, marks := marks + (if updMx c then narrowMarks nev else 0) } (wb ++ mb ++ sb)
    (some ({ h with fmt := fBf16, marks := marks }, wb))
  let ts := sumTerms h len es
  let u := ueRt s3 w
  let s4 := countUe (setUe s3 w { u with terms := u.terms ++ ts.1, run := some { r with done := t + 1 } }) w c.step ts.2
  let vs := nth (units c1) c1.iter []
  if t + 1 < vs.length then (popEnds s4 m w c1 (vs.drop (t + 1) ++ ((units c1).drop (c1.iter + 1)).flatten)).1
  else updUnit (setUe s4 w { ueRt s4 w with run := none }) m w c1

/-- The schedule of the command in progress, read at its start (09, R241). -/
def updSched (s : State) (w : Nat) (c : Cmd) : Got (List Nat × Ev) :=
  match (ueRt s w).sched with
  | [] => schedule s (bits c.imm 47 32) c.step
  | sch => .ok (sch, {})

/-- What an event of an UPDATE does with what it read: a wait changes nothing, a fault stops the stream. -/
def updTake {α : Type} (s : State) (m : Nat) (c : Cmd) (g : Got α) (f : α → State) : State :=
  match g with
  | .ok a => f a
  | .wait => s
  | .fault code d => execFault s m c code d

/-- A command that has started: its schedule kept, its status shown. -/
def updStart (s : State) (w : Nat) (c : Cmd) (sch : List Nat × Ev) (pass : Nat) : State :=
  countUe (ueStatus (setUe s w { ueRt s w with sched := sch.1 }) w c pass) w c.step sch.2

/-- One event of a factored apply. -/
def factoredEvent (s : State) (m w : Nat) (c : Cmd) : State :=
  updTake s m c (updSched s w c) (fun sch =>
    let vs := nth (units c) c.iter []
    match (ueRt s w).run with
    | none =>
      updTake s m c ((readRun s w c 0 vs).bind (fun gs => (readRun s w c 1 (vs.take 1)).bind (fun st =>
          (readRun s w c 2 vs).bind (fun cs =>
            (if updMask c = 0 then Got.ok [] else readRun s w c 3 vs).bind (fun ms => .ok (gs, st, cs, ms))))))
        (fun r => pass1 (updStart s w c sch 1) w c sch.1 r.1 r.2.1 r.2.2.1 r.2.2.2)
    | some run =>
      if !updReady s w c then s
      else
        match darkOut s w c with
        | some d => execFault s m c 0x14 d
        | none =>
          let v := (vs.drop run.done).take 1
          updTake s m c ((readRun s w c 0 v).bind (fun g => (readRun s w c 1 v).bind (fun st =>
              (if updMask c = 0 then Got.ok [] else readRun s w c 3 v).bind (fun ms => .ok (g, st, ms)))))
            (fun r => pass2Tile (updStart s w c sch 2) m w c sch.1 run (r.1.headD ({}, [])).1 (r.1.headD ({}, [])).2
              (r.2.1.headD ({}, [])).2 (r.2.2.headD ({}, [])).2))

/-! ### The elementwise rule (09, R238) -/

/-- One tile of an elementwise apply: second moments and normalised gradients, the tile's clip, then the steps. -/
def elementTile (s : State) (m w : Nat) (c : Cmd) (sch : List Nat) (h : Hdr) (g st mask : List Byte) : State :=
  let len := dRowLen c.desc
  let vOff := 32768 + momBytes c
  let b2 := nth sch 3 0
  let c2 := esub (pv one32) (pv b2)
  let old := if updMx c then decodeNarrowTile fE4m3 ((st.drop 32768).take 16896) else []
  let first : List (Nat × Option Ew) := (below 16384).map (fun k =>
    let i := k / 128
    let j := k % 128
    let vp := bf16At st vOff k
    if !(i < h.rows ∧ j < h.cols) then (0, none)
    else if !liveAt c mask i j then (vp, none)
    else
      let gv := gradAt g i j
      let vf := eadd (emul (pv b2) (widen16 vp)) (emul (pv c2.1) (emul gv (pv gv.1)))
      let v := srBf16 vf (ueDraw s c 0xFF02 (elemIdx h len i j))
      let u := emul (pv gv.1) (op1 rsqrt32 (pv (floorEps (widen16 v.1).1)))
      (v.1, some (u.1, v.2.add u.2)))
  let us := first.filterMap Prod.snd
  let tot := us.foldl (fun (a : Ew) u => eadd a (emul (pv u.1) (pv u.1))) (pv 0)
  let ms := if us.isEmpty then pv 0 else op1 (fun x => divCount x us.length) tot
  let kap := clipFactor (nth sch 4 0) ms.1
  let es := tileElems h (fun i j =>
    let k := 128 * i + j
    let wp := bf16At st 0 k
    let mp := if updMom c ∧ !updMx c then bf16At st 32768 k else 0
    match (nth first k (0, none)).2 with
    | none => keepElem wp mp
    | some u => stepElem s c sch kap.1 (elemIdx h len i j) wp mp (if updMom c then momAt c st old i j else pv 0) (pv u.1))
  let (mb, nev) := momSection s c h len old es
  let ts := sumTerms h len es
  let wb := bf16Bytes (es.map UElem.w)
  let s1 := countUe (bump s UE_BUSY_CLOCKS w 128) w c.step
    (sumEv ([(decayRate sch).2, ms.2, kap.2, ts.2] ++ us.map Prod.snd ++ es.map UElem.ev))
  let s2 := bump s1 UE_CLIP_CLIPPED w (b2n ((ofFp32 kap.1).1.lt (FV.ofNat 1)))
  let s3 := if updMx c then countNarrow s2 w c.step nev else s2
  let marks := if h.transposed then mkTransposed else 0
  let (s4, c1) := updPush s3 m w c { h with fmt := fNone, marks := marks + (if updMx c then narrowMarks nev else 0) }
    (wb ++ mb ++ bf16Bytes (first.map Prod.fst)) (some ({ h with fmt := fBf16, marks := marks }, wb))
  let u := ueRt s4 w
  updUnit (setUe s4 w { u with terms := u.terms ++ ts.1 }) m w c1

/-- One event of a rule that takes one iteration at a time: its operand tiles read once free slots stand ready. `pass` is what
UE_STATUS.PASS shows: 3 for the single pass of an emit or a finish (09, R244). -/
def tileEvent (s : State) (m w : Nat) (c : Cmd) (pass : Nat) (ends : List Nat)
    (f : State → List Nat → List (Hdr × List Byte) → State) : State :=
  updTake s m c (updSched s w c) (fun sch =>
    if !updReady s w c then s
    else
      match darkOut s w c with
      | some d => execFault s m c 0x14 d
      | none =>
        let v := ((nth (units c) c.iter []).headD [])
        let got := ends.foldr (fun e (acc : Got (List (Hdr × List Byte))) =>
          (readIn s w c e (inOffset c.desc e v)).bind (fun t => acc.bind (fun ts => .ok (t :: ts)))) (.ok [])
        updTake s m c got (fun ts => f (updStart s w c sch pass) sch.1 ts))

/-- A tile's two internal steps are one event, after which PASS shows the second (DEDUCED, log 22). -/
def elementEvent (s : State) (m w : Nat) (c : Cmd) : State :=
  tileEvent s m w c 2 (if updMask c = 0 then [0, 1] else [0, 1, 3]) (fun s sch ts =>
    let g := nth ts 0 ({}, [])
    elementTile s m w c sch g.1 g.2 (nth ts 1 ({}, [])).2 (nth ts 2 ({}, [])).2)

/-! ### Column emit and finish (09, R234, R236) -/

/-- A column emit: the accumulator as an S and an N tile, then cleared. -/
def emitEvent (s : State) (m w : Nat) (c : Cmd) : State :=
  tileEvent s m w c 3 [] (fun s _ _ =>
    let u := ueRt s w
    let v := (nth (units c) c.iter []).headD []
    let h : Hdr := { rowLen := dRowLen c.desc, fmt := fFp32, rows := 128, cols := 128, elemBase := elemBaseOf c.desc v }
    let sTile := (below 16384).map (fun j => if j < 8192 then sget 0 u.sacc j else 0)
    let nTile := (below 16384).map (fun j =>
      if j < 8192 then (toFp32 (FV.ofNat (sget 0 u.nacc j))).1
      else if j = 8192 then u.racc else if j = 8193 then (toFp32 (FV.ofNat u.nrows)).1 else 0)
    let (s2, c2) := updPush s m w c h (sTile.flatMap (toBytesLE 4)) (some (h, nTile.flatMap (toBytesLE 4)))
    let s3 := ueAcc (bump s2 UE_BUSY_CLOCKS w 32) w (clearAcc (ueRt s2 w)) false
    updUnit s3 m w c2)

/-- A column finish, one column statistics tile: the new c_j of its columns, and rho (09, R236). -/
def finishEvent (s : State) (m w : Nat) (c : Cmd) : State :=
  tileEvent s m w c 3 [0, 1, 2] (fun s sch ts =>
    let len := dRowLen c.desc
    let v := (nth (units c) c.iter []).headD []
    let t := v.headD 0
    let f32 := fun (k i : Nat) => clean32 (ofBytesLE (((nth ts k ({}, [])).2.drop (4 * i)).take 4))
    let old := (nth ts 2 ({}, [])).2
    let b2 := nth sch 3 0
    let c2 := esub (pv one32) (pv b2)
    let cs : List Ew := (below 128).map (fun l =>
      let j := 128 * t + l
      let cp := bf16At old 0 l
      let n := f32 1 j
      if j ≥ len then pv 0
      else if (FV.ofNat 0).lt (ofFp32 n.1).1 then
        srBf16 (eadd (emul (pv b2) (widen16 cp)) (emul (pv c2.1) (op2 fdiv32 (f32 0 j) n))) (ueDraw s c 0xFF03 j)
      else pv cp)
    let nr := f32 1 8193
    let rho := if (FV.ofNat 0).lt (ofFp32 nr.1).1 then srBf16 (op2 fdiv32 (f32 1 8192) nr) (ueDraw s c 0xFF03 len)
      else pv (bf16At old 256 0)
    let bs := padTo 512 0 (bf16Bytes (cs.map Prod.fst) ++ toBytesLE 2 rho.1)
    let h : Hdr := { rowLen := len, fmt := fNone, rows := 1, cols := min 128 (len - 128 * t), elemBase := elemBaseOf c.desc v }
    let s1 := countUe (bump s UE_BUSY_CLOCKS w 1) w c.step (sumEv ((if c.iter = 0 then rho.2 else {}) :: cs.map Prod.snd))
    let (s2, c1) := updPush s1 m w c h bs none
    updUnit s2 m w c1)

/-- The schedule entry and segments that the UE reads at a command's start (09, R241). -/
def schedRuns (s : State) (w : Nat) (c : Cmd) : List (Nat × Nat) :=
  if updRule c = 2 ∨ (sget {} s.ue w).sched ≠ [] then []
  else
    let base := schedBase s
    let e := base + 16 * bits c.imm 47 32
    [(e, 16), (base + ofBytesLE (memRead s e 4), 48 * ofBytesLE (memRead s (e + 4) 2))]

/-- One event of the UPDATE of rule r that the UE of ward w executes; its reads of its tiles and of its schedule (09, R241) may meet an
error. -/
def ueEvent (s : State) (w r : Nat) (err : MemErr) (f : State → Nat → Nat → Cmd → State) : State :=
  match jobOf s w 5 0x18 with
  | some (m, c) =>
    if updRule c = r then
      observe (withErr s w 5 0x18 err (schedRuns s w) (fun t => if (jobOf t w 5 0x18).isSome then f t m w c else t)) else s
  | none => s

/-- ACC_CLEAR clears the accumulator before the command's first run, whatever becomes of that run (09, R233). -/
def clearFirst (s : State) (w : Nat) : State :=
  match jobOf s w 5 0x18 with
  | some (_, c) =>
    if updRule c = 0 ∧ updClear c ∧ c.iter = 0 ∧ (ueRt s w).run = none ∧ engineWait s w 5 = none
    then ueAcc s w (clearAcc (ueRt s w)) false else s
  | none => s

/-- FACTORED_APPLY (09, R230) (DEDUCED, log 22). -/
def execFactoredApply (ward : Nat) (err : MemErr) (s : State) : Host.Outcome State Fault Refusal :=
  .next (ueEvent (clearFirst s ward) ward 0 err factoredEvent)

/-- ELEMENTWISE_APPLY (09, R238). -/
def execElementwiseApply (ward : Nat) (err : MemErr) (s : State) : Host.Outcome State Fault Refusal := .next (ueEvent s ward 1 err elementEvent)

/-- COLUMN_EMIT (09, R234). -/
def execColumnEmit (ward : Nat) (err : MemErr) (s : State) : Host.Outcome State Fault Refusal := .next (ueEvent s ward 2 err emitEvent)

/-- COLUMN_FINISH (09, R236). -/
def execColumnFinish (ward : Nat) (err : MemErr) (s : State) : Host.Outcome State Fault Refusal := .next (ueEvent s ward 3 err finishEvent)

end Sys2Proof.Machine
end

