-- ==== Sys2Proof/Machine/Dispatch.lean ====
section
/-!
DEFINITION. The dispatch: every command to its meaning, one arm a line.
-/

namespace Sys2Proof.Machine

def exec (i : Instr) (s : State) : Host.Outcome State Fault Refusal :=
  match i with
  | .coldStart board loop => Sys2Proof.Machine.execColdStart board loop s
  | .bringupStageDone stage elapsed findings => Sys2Proof.Machine.execBringupStageDone stage elapsed findings s
  | .wardSelfTestEnd findings => Sys2Proof.Machine.execWardSelfTestEnd findings s
  | .warmReset => Sys2Proof.Machine.execWarmReset s
  | .vbusStop => Sys2Proof.Machine.execVbusStop s
  | .vbusLow vbus => Sys2Proof.Machine.execVbusLow vbus s
  | .pfwAssert vbus => Sys2Proof.Machine.execPfwAssert vbus s
  | .pfwRelease => Sys2Proof.Machine.execPfwRelease s
  | .coreCurrentLimit => Sys2Proof.Machine.execCoreCurrentLimit s
  | .coreConverterShutdown current => Sys2Proof.Machine.execCoreConverterShutdown current s
  | .phaseFail pw phase => Sys2Proof.Machine.execPhaseFail pw phase s
  | .sparePhaseSwapEnd pw => Sys2Proof.Machine.execSparePhaseSwapEnd pw s
  | .regulatorFail pw => Sys2Proof.Machine.execRegulatorFail pw s
  | .squareRegulatorFail district reg => Sys2Proof.Machine.execSquareRegulatorFail district reg s
  | .wardDark ward cause => Sys2Proof.Machine.execWardDark ward cause s
  | .refclkLoss => Sys2Proof.Machine.execRefclkLoss s
  | .refclkReturn => Sys2Proof.Machine.execRefclkReturn s
  | .droopStretch region units => Sys2Proof.Machine.execDroopStretch region units s
  | .crossingSlip region crossing short => Sys2Proof.Machine.execCrossingSlip region crossing short s
  | .crossingRecentre crossing ok => Sys2Proof.Machine.execCrossingRecentre crossing ok s
  | .crossingRecal district crossing delay => Sys2Proof.Machine.execCrossingRecal district crossing delay s
  | .tier1Refresh stack => Sys2Proof.Machine.execTier1Refresh stack s
  | .framePulse since => Sys2Proof.Machine.execFramePulse since s
  | .frameWord word => Sys2Proof.Machine.execFrameWord word s
  | .frameLoss => Sys2Proof.Machine.execFrameLoss s
  | .frameSynth => Sys2Proof.Machine.execFrameSynth s
  | .fastLoop x => Sys2Proof.Machine.execFastLoop x s
  | .thermalSample x => Sys2Proof.Machine.execThermalSample x s
  | .coolantStop => Sys2Proof.Machine.execCoolantStop s
  | .voteChange domain client => Sys2Proof.Machine.execVoteChange domain client s
  | .streamVoteHoldExpiry m => Sys2Proof.Machine.execStreamVoteHoldExpiry m s
  | .wardStateEntry pw => Sys2Proof.Machine.execWardStateEntry pw s
  | .entryClampsEngaged pw => Sys2Proof.Machine.execEntryClampsEngaged pw s
  | .wakeAdmit pw distCurrent coreCurrent => Sys2Proof.Machine.execWakeAdmit pw distCurrent coreCurrent s
  | .wakeRetry pw distCurrent coreCurrent => Sys2Proof.Machine.execWakeRetry pw distCurrent coreCurrent s
  | .wakeStageEnd pw grid => Sys2Proof.Machine.execWakeStageEnd pw grid s
  | .wakeZeroFillEnd pw => Sys2Proof.Machine.execWakeZeroFillEnd pw s
  | .standbyEntry event => Sys2Proof.Machine.execStandbyEntry event s
  | .standbyWake findings => Sys2Proof.Machine.execStandbyWake findings s
  | .commandLoad m err => Sys2Proof.Machine.execCommandLoad m err s
  | .commandIssue m => Sys2Proof.Machine.execCommandIssue m s
  | .commandComplete m num => Sys2Proof.Machine.execCommandComplete m num s
  | .tileVisible n => Sys2Proof.Machine.execTileVisible n s
  | .waitUnitBoundary ward charges => Sys2Proof.Machine.execWaitUnitBoundary ward charges s
  | .spillHandover ward me waited => Sys2Proof.Machine.execSpillHandover ward me waited s
  | .moveIn ward unit err => Sys2Proof.Machine.execMoveIn ward unit err s
  | .moveOut ward unit err => Sys2Proof.Machine.execMoveOut ward unit err s
  | .moveCopy ward unit err => Sys2Proof.Machine.execMoveCopy ward unit err s
  | .mma ward me err => Sys2Proof.Machine.execMma ward me err s
  | .mmaWg ward me err => Sys2Proof.Machine.execMmaWg ward me err s
  | .vop ward err => Sys2Proof.Machine.execVop ward err s
  | .factoredApply ward err => Sys2Proof.Machine.execFactoredApply ward err s
  | .elementwiseApply ward err => Sys2Proof.Machine.execElementwiseApply ward err s
  | .columnEmit ward err => Sys2Proof.Machine.execColumnEmit ward err s
  | .columnFinish ward err => Sys2Proof.Machine.execColumnFinish ward err s
  | .fold ward unit err => Sys2Proof.Machine.execFold ward unit err s
  | .quant ward err => Sys2Proof.Machine.execQuant ward err s
  | .send ward unit err => Sys2Proof.Machine.execSend ward unit err s
  | .sendTileTransmit ward unit => Sys2Proof.Machine.execSendTileTransmit ward unit s
  | .reduce ward err => Sys2Proof.Machine.execReduce ward err s
  | .publish ward unit err => Sys2Proof.Machine.execPublish ward unit err s
  | .journal ward unit err => Sys2Proof.Machine.execJournal ward unit err s
  | .journalCommit media => Sys2Proof.Machine.execJournalCommit media s
  | .journalCommitTimeout media => Sys2Proof.Machine.execJournalCommitTimeout media s
  | .imageBegin ward unit => Sys2Proof.Machine.execImageBegin ward unit s
  | .imageRange ward unit => Sys2Proof.Machine.execImageRange ward unit s
  | .imageModule ward unit => Sys2Proof.Machine.execImageModule ward unit s
  | .imageClose ward unit => Sys2Proof.Machine.execImageClose ward unit s
  | .imageTrim ward unit => Sys2Proof.Machine.execImageTrim ward unit s
  | .wait m => Sys2Proof.Machine.execWait m s
  | .signal m => Sys2Proof.Machine.execSignal m s
  | .hint m => Sys2Proof.Machine.execHint m s
  | .mark m => Sys2Proof.Machine.execMark m s
  | .fadd ward d a b => Sys2Proof.Machine.execFadd ward d a b s
  | .fsub ward d a b => Sys2Proof.Machine.execFsub ward d a b s
  | .fmul ward d a b => Sys2Proof.Machine.execFmul ward d a b s
  | .ffma ward d a b c => Sys2Proof.Machine.execFfma ward d a b c s
  | .fmin ward d a b => Sys2Proof.Machine.execFmin ward d a b s
  | .fmax ward d a b => Sys2Proof.Machine.execFmax ward d a b s
  | .fsqrt ward d a => Sys2Proof.Machine.execFsqrt ward d a s
  | .fcmp ward d a b m => Sys2Proof.Machine.execFcmp ward d a b m s
  | .fsel ward d a b c => Sys2Proof.Machine.execFsel ward d a b c s
  | .cvt ward d a m => Sys2Proof.Machine.execCvt ward d a m s
  | .vint ward d a b m => Sys2Proof.Machine.execVint ward d a b m s
  | .badd ward d a b => Sys2Proof.Machine.execBadd ward d a b s
  | .bmul ward d a b => Sys2Proof.Machine.execBmul ward d a b s
  | .bfma ward d a b c => Sys2Proof.Machine.execBfma ward d a b c s
  | .tlu ward d a k => Sys2Proof.Machine.execTlu ward d a k s
  | .scalb ward d a b => Sys2Proof.Machine.execScalb ward d a b s
  | .frexp ward d a => Sys2Proof.Machine.execFrexp ward d a s
  | .rsum ward d a => Sys2Proof.Machine.execRsum ward d a s
  | .rmax ward d a => Sys2Proof.Machine.execRmax ward d a s
  | .ridx ward d a => Sys2Proof.Machine.execRidx ward d a s
  | .ldt ward d a m k err => Sys2Proof.Machine.execLdt ward d a m k err s
  | .ldr ward d a m k err => Sys2Proof.Machine.execLdr ward d a m k err s
  | .stt ward a b m => Sys2Proof.Machine.execStt ward a b m s
  | .push ward m => Sys2Proof.Machine.execPush ward m s
  | .ldh ward d b m k => Sys2Proof.Machine.execLdh ward d b m k s
  | .xalu ward d a b m => Sys2Proof.Machine.execXalu ward d a b m s
  | .xldp ward d k => Sys2Proof.Machine.execXldp ward d k s
  | .br ward a b m k => Sys2Proof.Machine.execBr ward a b m k s
  | .endKernel ward => Sys2Proof.Machine.execEndKernel ward s
  | .kerf ward d a b c => Sys2Proof.Machine.execKerf ward d a b c s
  | .faultSettle m => Sys2Proof.Machine.execFaultSettle m s
  | .waitTimeout m => Sys2Proof.Machine.execWaitTimeout m s
  | .quiescenceStall => Sys2Proof.Machine.execQuiescenceStall s
  | .abortAccept m => Sys2Proof.Machine.execAbortAccept m s
  | .abortSettle m => Sys2Proof.Machine.execAbortSettle m s
  | .abortForce m => Sys2Proof.Machine.execAbortForce m s
  | .shadowSample slots energy err => Sys2Proof.Machine.execShadowSample slots energy err s
  | .patrolScrub store unit loc bytes energy corrected uncorr => Sys2Proof.Machine.execPatrolScrub store unit loc bytes energy corrected uncorr s
  | .t2Retrain device energy => Sys2Proof.Machine.execT2Retrain device energy s
  | .imageStreaming bytes slots energy err media => Sys2Proof.Machine.execImageStreaming bytes slots energy err media s
  | .imageCommit mismatch media => Sys2Proof.Machine.execImageCommit mismatch media s
  | .flashRefresh bytes energy media => Sys2Proof.Machine.execFlashRefresh bytes energy media s
  | .wearManagement bytes energy media => Sys2Proof.Machine.execWearManagement bytes energy media s
  | .configRecordCommit good media => Sys2Proof.Machine.execConfigRecordCommit good media s
  | .flagWatchFire k => Sys2Proof.Machine.execFlagWatchFire k s
  | .doorbellWrite m avail before => Sys2Proof.Machine.execDoorbellWrite m avail before s
  | .flagSignalWrite n inc before => Sys2Proof.Machine.execFlagSignalWrite n inc before s
  | .streamEnable m value => Sys2Proof.Machine.execStreamEnable m value s
  | .streamDisable m value => Sys2Proof.Machine.execStreamDisable m value s
  | .queueEnable n value => Sys2Proof.Machine.execQueueEnable n value s
  | .queueDisable n value => Sys2Proof.Machine.execQueueDisable n value s
  | .alloc seq => Sys2Proof.Machine.execAlloc seq s
  | .touch seq => Sys2Proof.Machine.execTouch seq s
  | .free seq => Sys2Proof.Machine.execFree seq s
  | .unpinAll seq => Sys2Proof.Machine.execUnpinAll seq s
  | .poolEnable value => Sys2Proof.Machine.execPoolEnable value s
  | .slotOpen k value => Sys2Proof.Machine.execSlotOpen k value s
  | .slotSeal k value => Sys2Proof.Machine.execSlotSeal k value s
  | .slotClose k value => Sys2Proof.Machine.execSlotClose k value s
  | .kstoreDigestReq w => Sys2Proof.Machine.execKstoreDigestReq w s
  | .kstoreBroadcastWrite off value => Sys2Proof.Machine.execKstoreBroadcastWrite off value s
  | .collClear => Sys2Proof.Machine.execCollClear s
  | .wardReset ward value => Sys2Proof.Machine.execWardReset ward value s
  | .hartRelease value => Sys2Proof.Machine.execHartRelease value s
  | .hartStop hart => Sys2Proof.Machine.execHartStop hart s
  | .hostPointWrite value => Sys2Proof.Machine.execHostPointWrite value s
  | .mailboxGo value => Sys2Proof.Machine.execMailboxGo value s
  | .mailboxRelease => Sys2Proof.Machine.execMailboxRelease s
  | .pcieModeWrite value => Sys2Proof.Machine.execPcieModeWrite value s
  | .perstDeassert => Sys2Proof.Machine.execPerstDeassert s
  | .registerWrite offset value before => Sys2Proof.Machine.execRegisterWrite offset value before s
  | .atomicAdd src rd addr fmt v err => Sys2Proof.Machine.execAtomicAdd src rd addr fmt v err s
  | .atomicMax src rd addr fmt v err => Sys2Proof.Machine.execAtomicMax src rd addr fmt v err s
  | .atomicMin src rd addr fmt v err => Sys2Proof.Machine.execAtomicMin src rd addr fmt v err s
  | .atomicSwap src rd addr fmt v err => Sys2Proof.Machine.execAtomicSwap src rd addr fmt v err s
  | .atomicCas src rd addr fmt v cmp err => Sys2Proof.Machine.execAtomicCas src rd addr fmt v cmp err s
  | .amofaddS hart rd addr v err => Sys2Proof.Machine.execAmofaddS hart rd addr v err s
  | .amofaddB hart rd addr v err => Sys2Proof.Machine.execAmofaddB hart rd addr v err s
  | .amofmax hart rd addr v half err => Sys2Proof.Machine.execAmofmax hart rd addr v half err s
  | .amofmin hart rd addr v half err => Sys2Proof.Machine.execAmofmin hart rd addr v half err s
  | .nvmeIdentify queue cns dest => Sys2Proof.Machine.execNvmeIdentify queue cns dest s
  | .nvmeCreateIoQueue queue => Sys2Proof.Machine.execNvmeCreateIoQueue queue s
  | .nvmeDeleteIoQueue queue => Sys2Proof.Machine.execNvmeDeleteIoQueue queue s
  | .nvmeGetLogPage queue dest => Sys2Proof.Machine.execNvmeGetLogPage queue dest s
  | .nvmeRead queue lba blocks dest err media => Sys2Proof.Machine.execNvmeRead queue lba blocks dest err media s
  | .nvmeWrite queue lba blocks src err media => Sys2Proof.Machine.execNvmeWrite queue lba blocks src err media s
  | .nvmeFlush queue => Sys2Proof.Machine.execNvmeFlush queue s
  | .nvmeDatasetManagement queue lba blocks => Sys2Proof.Machine.execNvmeDatasetManagement queue lba blocks s
  | .idle b => Sys2Proof.Machine.execIdle b s
  | .write b err => Sys2Proof.Machine.execWrite b err s
  | .readReq b len err => Sys2Proof.Machine.execReadReq b len err s
  | .readData b => Sys2Proof.Machine.execReadData b s
  | .completion b => Sys2Proof.Machine.execCompletion b s
  | .release b => Sys2Proof.Machine.execRelease b s
  | .signalBlock b => Sys2Proof.Machine.execSignalBlock b s
  | .sendData b total => Sys2Proof.Machine.execSendData b total s
  | .arrivalDrain n err => Sys2Proof.Machine.execArrivalDrain n err s
  | .retryReq b => Sys2Proof.Machine.execRetryReq b s
  | .hello b => Sys2Proof.Machine.execHello b s
  | .laneSwap b wave => Sys2Proof.Machine.execLaneSwap b wave s
  | .switch b => Sys2Proof.Machine.execSwitch b s
  | .linkBlockReject p bytes marked uncorr => Sys2Proof.Machine.execLinkBlockReject p bytes marked uncorr s
  | .wavelengthFail p wave uncorr => Sys2Proof.Machine.execWavelengthFail p wave uncorr s
  | .ackTimeout p => Sys2Proof.Machine.execAckTimeout p s
  | .portRetrain p energy => Sys2Proof.Machine.execPortRetrain p energy s
  | .e2eTimeout tid chip => Sys2Proof.Machine.execE2eTimeout tid chip s
  | .portTrainingEnd p lanes => Sys2Proof.Machine.execPortTrainingEnd p lanes s
  | .helloTimeout p => Sys2Proof.Machine.execHelloTimeout p s
  | .switchTimeout p => Sys2Proof.Machine.execSwitchTimeout p s
  | .darkPortRetry p energy => Sys2Proof.Machine.execDarkPortRetry p energy s
  | .presenceAssert => Sys2Proof.Machine.execPresenceAssert s
  | .presenceWindowClose => Sys2Proof.Machine.execPresenceWindowClose s
  | .sealCheck loop => Sys2Proof.Machine.execSealCheck loop s
  | .setEndpointId transport peer operation eid => Sys2Proof.Machine.execSetEndpointId transport peer operation eid s
  | .getEndpointId transport peer => Sys2Proof.Machine.execGetEndpointId transport peer s
  | .getMctpVersionSupport transport peer ty => Sys2Proof.Machine.execGetMctpVersionSupport transport peer ty s
  | .getMessageTypeSupport transport peer => Sys2Proof.Machine.execGetMessageTypeSupport transport peer s
  | .arpRequest peer mac target => Sys2Proof.Machine.execArpRequest peer mac target s
  | .icmpEcho peer target message => Sys2Proof.Machine.execIcmpEcho peer target message s
  | .getIdentity transport peer packet => Sys2Proof.Machine.execGetIdentity transport peer packet s
  | .getVersions transport peer packet => Sys2Proof.Machine.execGetVersions transport peer packet s
  | .getStatus transport peer packet => Sys2Proof.Machine.execGetStatus transport peer packet s
  | .cfgRead transport peer packet => Sys2Proof.Machine.execCfgRead transport peer packet s
  | .cfgWrite transport peer packet => Sys2Proof.Machine.execCfgWrite transport peer packet s
  | .cfgRestore transport peer packet => Sys2Proof.Machine.execCfgRestore transport peer packet s
  | .ovlApply transport peer packet => Sys2Proof.Machine.execOvlApply transport peer packet s
  | .pwrRead transport peer packet => Sys2Proof.Machine.execPwrRead transport peer packet s
  | .pwrCtrlWrite transport peer packet => Sys2Proof.Machine.execPwrCtrlWrite transport peer packet s
  | .budgetWrite transport peer packet => Sys2Proof.Machine.execBudgetWrite transport peer packet s
  | .jobAssign transport peer packet => Sys2Proof.Machine.execJobAssign transport peer packet s
  | .jobUnassign transport peer packet => Sys2Proof.Machine.execJobUnassign transport peer packet s
  | .energyRead transport peer packet => Sys2Proof.Machine.execEnergyRead transport peer packet s
  | .eventRead transport peer packet => Sys2Proof.Machine.execEventRead transport peer packet s
  | .eventAck transport peer packet => Sys2Proof.Machine.execEventAck transport peer packet s
  | .countersRead transport peer packet => Sys2Proof.Machine.execCountersRead transport peer packet s
  | .fabAssign transport peer packet => Sys2Proof.Machine.execFabAssign transport peer packet s
  | .routeWrite transport peer packet => Sys2Proof.Machine.execRouteWrite transport peer packet s
  | .routeRead transport peer packet => Sys2Proof.Machine.execRouteRead transport peer packet s
  | .nbrRead transport peer packet => Sys2Proof.Machine.execNbrRead transport peer packet s
  | .portReset transport peer packet => Sys2Proof.Machine.execPortReset transport peer packet s
  | .portV2Slice transport peer packet => Sys2Proof.Machine.execPortV2Slice transport peer packet s
  | .streamAbort transport peer packet => Sys2Proof.Machine.execStreamAbort transport peer packet s
  | .streamRead transport peer packet => Sys2Proof.Machine.execStreamRead transport peer packet s
  | .abortAll transport peer packet => Sys2Proof.Machine.execAbortAll transport peer packet s
  | .jnlStatusRead transport peer packet => Sys2Proof.Machine.execJnlStatusRead transport peer packet s
  | .jnlRead transport peer packet => Sys2Proof.Machine.execJnlRead transport peer packet s
  | .imgRestore transport peer packet => Sys2Proof.Machine.execImgRestore transport peer packet s
  | .longOpComplete mismatch media => Sys2Proof.Machine.execLongOpComplete mismatch media s
  | .fwStageBegin transport peer packet => Sys2Proof.Machine.execFwStageBegin transport peer packet s
  | .fwStageData transport peer packet => Sys2Proof.Machine.execFwStageData transport peer packet s
  | .fwStageEnd transport peer packet => Sys2Proof.Machine.execFwStageEnd transport peer packet s
  | .fwActivate transport peer packet => Sys2Proof.Machine.execFwActivate transport peer packet s
  | .fwPolicy transport peer packet => Sys2Proof.Machine.execFwPolicy transport peer packet s
  | .secRead transport peer packet => Sys2Proof.Machine.execSecRead transport peer packet s
  | .keyProvision transport peer packet => Sys2Proof.Machine.execKeyProvision transport peer packet s
  | .sealRearm transport peer packet => Sys2Proof.Machine.execSealRearm transport peer packet s
  | .debugUnlock transport peer packet => Sys2Proof.Machine.execDebugUnlock transport peer packet s
  | .secureErase transport peer packet => Sys2Proof.Machine.execSecureErase transport peer packet s
  | .moduleReset transport peer packet => Sys2Proof.Machine.execModuleReset transport peer packet s
  | .selfTest transport peer packet => Sys2Proof.Machine.execSelfTest transport peer packet s
  | .failRead transport peer packet => Sys2Proof.Machine.execFailRead transport peer packet s
  | .prepareReturn transport peer packet => Sys2Proof.Machine.execPrepareReturn transport peer packet s
  | .regRead transport peer packet => Sys2Proof.Machine.execRegRead transport peer packet s
  | .regWrite transport peer packet => Sys2Proof.Machine.execRegWrite transport peer packet s
  | .vfSlewEnd => Sys2Proof.Machine.execVfSlewEnd s
  | .hostPointChangeEnd => Sys2Proof.Machine.execHostPointChangeEnd s
  | .wardEntryComplete pw => Sys2Proof.Machine.execWardEntryComplete pw s
  | .napExitComplete pw => Sys2Proof.Machine.execNapExitComplete pw s
  | .resetRelease => Sys2Proof.Machine.execResetRelease s
  | .presenceDeassert => Sys2Proof.Machine.execPresenceDeassert s
  | .perstAssert => Sys2Proof.Machine.execPerstAssert s
  | .pcieLinkUp => Sys2Proof.Machine.execPcieLinkUp s
  | .packetReject transport peer packet => Sys2Proof.Machine.execPacketReject transport peer packet s
  | .alertResponseAddress => Sys2Proof.Machine.execAlertResponseAddress s
  | .makerTestModeEntry => Sys2Proof.Machine.execMakerTestModeEntry s
  | .calibration kind unit value bytes slots energy err => Sys2Proof.Machine.execCalibration kind unit value bytes slots energy err s
  | .tier2Refresh device => Sys2Proof.Machine.execTier2Refresh device s
  | .kstoreDigestDone w => Sys2Proof.Machine.execKstoreDigestDone w s
  | .busConverterLimit => Sys2Proof.Machine.execBusConverterLimit s
  | .wardResetComplete ward findings => Sys2Proof.Machine.execWardResetComplete ward findings s

end Sys2Proof.Machine
end

