-- ==== Sys2Proof/Machine/Step.lean ====
section
/-!
DEFINITION. The step of the block: the command at the front of the queue is performed on everything but the queue; on
an empty queue the block idles (DESIGN CHOICE, log 14).
-/

namespace Sys2Proof.Machine

/-- One step (DESIGN CHOICE, log 63). -/
def step (s : State) : Host.Outcome State Fault Refusal :=
  match s.pending with
  | [] => .next s
  | c :: rest => exec c { s with pending := rest }

/-- s with the command that a word spells put at the front of its queue; no row of the table gives bits, so no word
spells one and s is unchanged. -/
def State.withFetchWord (s : State) (nbits w : Nat) : State :=
  match Sys2Proof.decodeTableWord nbits w with
  | some c => { s with pending := c :: s.pending }
  | none => s

end Sys2Proof.Machine
end

