-- ==== Sys2Proof/Safety.lean ====
section
/-!
DEFINITION. The words that the statements about the block are written in: a command that answers a next state, what is left alone, and
the forms that every step keeps.
-/

namespace Sys2Proof.Machine

/-- Command c, performed in s, answers a next state, of which P holds. -/
def Gives (c : Instr) (s : State) (P : State → Prop) : Prop := ∃ t, exec c s = .next t ∧ P t

/-- Every register word but those of the listed registers and instances reads as before. -/
def RegsKept (s t : State) (but : List (Reg × Nat)) : Prop :=
  ∀ k, (∀ x ∈ but, k ≠ Reg.key x.1 x.2) → sget (regReset k) t.regs k = sget (regReset k) s.regs k

/-- The registers that count accesses of the shared cache (11, R273). -/
def cacheCounters : List (Reg × Nat) := (below 20).map (fun d => (DIST_SC_CNT, d))

/-- The registers that name and count uncorrectable errors (11, R295). -/
def ueRegs : List (Reg × Nat) := [(MOD_UE_INFO, 0), (MOD_UE_ADDR_LO, 0), (MOD_UE_ADDR_HI, 0)]

/-- Every byte of memory outside the n bytes from a on reads as before. -/
def MemKept (s t : State) (a n : Nat) : Prop := ∀ k, k < a ∨ a + n ≤ k → readByte t k = readByte s k

/-- The canonical form of memory: addresses strictly rising, and no entry equal to what an unlisted address reads as. -/
def Memory.wf (s : State) : Bool := swf (memDefault s.boot) s.mem

/-- The canonical form of the registers: no listed word equal to its register's reset word. -/
def Registers.wf (s : State) : Bool := swf regReset s.regs

/-- The registers whose writes have rules of their own beyond the access codes (00, R12, R534 and the register tables). -/
def ruledRegs : List Reg :=
  [ MOD_KERF_SEED_LO, MOD_KERF_SEED_HI, MOD_ACCUM_CFG, ME_SPILL, MOD_SHADOW_CFG, MOD_SHADOW_GRP_CFG, MOD_SHADOW_GRP_CNT, WARD_QCFG,
   WARD_QBIND, WARD_QARR_CFG, WARD_QARR_BASE_LO, WARD_QARR_BASE_HI, WARD_SCFG, WARD_SRING_LO, WARD_SRING_HI, WARD_SSTEP, WARD_SDBELL,
   WARD_FLAG, WARD_FSIG, WARD_FCFG, MOD_QUIESCE_CFG, VE_KSCTL, MOD_GBIN_TENSOR, MOD_GBIN_CFG, MOD_SCHED_BASE_LO, MOD_SCHED_BASE_HI,
   MOD_SCHED_CFG, MOD_T2SLOT_RANGE, MOD_T2SLOT_CTL, MOD_PPOOL_BASE_LO, MOD_PPOOL_BASE_HI, MOD_PPOOL_CFG, MOD_PPOOL_OP, MOD_T1_CFG,
   FAB_CFG, MOD_COLL_CTL, JNL_REPLAY, PWR_CTRL, THM_CFG, PWR_FBU_BYTES, PWR_FBU_LIM, WARD_VOTE_HOST, MOD_PSTATE, PWR_SVOTE,
   MOD_IRQ_WATCH, MC_MBOX, MOD_HOST_CLK, MOD_HOST_RELEASE, MOD_PCIE_CFG, WARD_RST, FAB_CHIP, FAB_SLICE, FAB_ROUTE, FAB_PORT_V2]

/-- Every physical ward but p is as before. -/
def PwardsKept (s t : State) (p : Nat) : Prop := ∀ q, q ≠ p → pward t q = pward s q

/-- Every stream but m is as before. -/
def StreamsKept (s t : State) (m : Nat) : Prop := ∀ k, k ≠ m → stream t k = stream s k

/-- Every queue but n is as before. -/
def QueuesKept (s t : State) (n : Nat) : Prop := ∀ k, k ≠ n → queueRt t k = queueRt s k

/-- The register writes that wait for the next frame pulse are of the registers that take effect there (16, R416; 18, R454), and those that
wait for the next step boundary are of the shadow registers (04, R111). -/
def WaitingWrites (s : State) : Prop :=
  (∀ x ∈ s.pwr.nextRegs,
    x.1 / 2 ^ 20 ∈ [PWR_CTRL.no, THM_CFG.no, PWR_SVOTE.no, FAB_CFG.no, MOD_QUIESCE_CFG.no, PWR_FBU_BYTES.no, PWR_FBU_LIM.no]) ∧
  ∀ x ∈ s.mc.stepRegs, x.1 / 2 ^ 20 ∈ [ MOD_SHADOW_CFG.no, MOD_SHADOW_GRP_CFG.no]

/-- A block of a retry buffer that ACK a frees: its SEQ lies before a, by at most 2^19 (12, R302). -/
abbrev Acknowledged (a : Nat) (h : Held) : Prop :=
  0 < (a + 2 ^ 20 - h.seq % 2 ^ 20) % 2 ^ 20 ∧ (a + 2 ^ 20 - h.seq % 2 ^ 20) % 2 ^ 20 ≤ 2 ^ 19

/-- The blocks of a port in the order of their sending: those in its retry buffer and those that wait for room in it. -/
def Outgoing (x : Port) : List LinkBlock := x.retry.map Held.block ++ x.waiting

/-- The block added to port p last; with room in the retry buffer and no swap in progress it goes out at once, with the next SEQ. -/
def SentLast (s t : State) (p : Nat) (b : LinkBlock) : Prop :=
  Outgoing (port t p) = Outgoing (port s p) ++ [b] ∧
  ((port s p).swapping = false → (port s p).waiting = [] → (port s p).retry.length < retryLimit →
    (port t p).retry = (port s p).retry ++ [⟨(port s p).txSeq, 1, b, (port s p).rxSeq⟩] ∧ (port t p).txSeq = ((port s p).txSeq + 1) % 2 ^ 20)

/-- An invocation of command c of stream m, of a user kernel, stands on ward w at a well-formed instruction word that can be read, within its
limit of instructions (07, R179, R183, R185). -/
def VeAt (s : State) (w m : Nat) (c : Cmd) (word : Nat) : Prop :=
  jobOf s w 4 0x10 = some (m, c) ∧ (veRt s w).active = true ∧ (veRt s w).pc < 0x4000 ∧ kstoreWord s w (8 * (veRt s w).pc) 8 = word ∧
  poisoned s (fetchRun w (veRt s w)).1 8 = false ∧ isLibrary c = false ∧ veWellFormed word = true ∧ (veRt s w).count < 2 ^ 24

/-- What an instruction that stays within the ward's VE leaves alone, registers but its counters and those listed, and the clocks it is
counted with. -/
def VeFrame (s t : State) (w clocks : Nat) (but : List (Reg × Nat) := []) : Prop :=
  t.mem = s.mem ∧ t.queues = s.queues ∧ t.poison = s.poison ∧ (∀ u, u ≠ w → veRt t u = veRt s u) ∧
  RegsKept s t ([(VE_BUSY, w), (VE_NUMCNT, w)] ++ but) ∧ fg t VE_BUSY_CLOCKS w = min (2 ^ 32 - 1) (fg s VE_BUSY_CLOCKS w + clocks)

/-- A tile pushed with number p on queue n: valid, of format f, with tag `tag`, its header to be written once it becomes visible (05, R122,
R124). -/
def PushedOn (t : State) (n p f tag : Nat) : Prop :=
  ∃ x, findPushed (queueRt t n).pushed p = some x ∧ x.hdr.ptag = tag ∧ bit x.hdr.marks 7 = true ∧ x.hdr.fmt = f ∧ x.placeholder = false

/-- A tile pushed, and memory outside its slot as before. -/
def PushedTile (s t : State) (n p f tag : Nat) : Prop := PushedOn t n p f tag ∧ MemKept s t (slotKey s n p) (qSlotBytes s n)

/-- The next number of output end e of a command. -/
def nextOut (c : Cmd) (e : Nat) : Nat := nth c.outBase e 0 + nth c.outFill e 0

/-- Command c of stream m has one unit of its walk more behind it. -/
def UnitDone (t : State) (m : Nat) (c : Cmd) : Prop := ∃ c', findCmd (stream t m).cmds c.num = some c' ∧ c'.iter = c.iter + 1 ∧ c'.phase = .issued

/-- Stream m has taken a fault of a code and detail word, and stops (06, R174, R175). -/
def Faulted (t : State) (m code detail : Nat) : Prop :=
  (stream t m).st = .faulting ∧ fg t WARD_SFAULT_CODE m = code ∧ (rd t WARD_SFAULT_DETAIL m).toNat = detail % 2 ^ 32

/-- The sequencer of stream m is free to issue command c, which holds no load fault: its wait is satisfied, its fence met, and its engine has a
place (05, R132). -/
def MayIssue (s : State) (m : Nat) (c : Cmd) : Prop :=
  (stream s m).st = .enabled ∧ wardActive s (m / 8) = true ∧ nextLoaded (stream s m) = some c ∧ c.fault = none ∧ issueReady s m c = true

/-- Command c of stream m is complete, or has retired already. -/
def Completed (t : State) (m : Nat) (c : Cmd) : Prop := ∀ c', findCmd (stream t m).cmds c.num = some c' → c'.phase = .complete

/-- The management controller has no packet in its queue, none that waits for streams or for its record, and is not held in reset. -/
abbrev McIdle (s : State) : Prop :=
  s.mc.inbox = [] ∧ s.mc.waiting = [] ∧ s.mc.held = false ∧ s.mc.storing = none ∧ s.store.queue.contains .packet = false

/-- A request reaches an idle management controller, is not a retry of one that it answered, and passes the checks that every request of
its opcode passes before the opcode's own rules (18, R441, R445 to R449, R457). -/
abbrev Accepted (s : State) (r : Req) (op : Nat) : Prop :=
  reachable s r.src.1 = true ∧ framed r.raw = true ∧ r.op = op ∧ McIdle s ∧ keptFor s r = none ∧ refusal s r = none

/-- The bytes of the reply to a request (18, R444). -/
def replyTo (r : Req) (status detail : Nat) (data : List Byte) : List Byte :=
  replyBytes (if mgmtMin ≤ r.ver ∧ r.ver ≤ mgmtMax then r.ver else mgmtMax) r.op r.seq r.tier status (detail % 2 ^ 16) data

/-- A request is answered: one packet to its source, or the mailbox's reply buffer with DONE (18, R444; 19, R482). -/
def Replied (s t : State) (r : Req) (status detail : Nat) (data : List Byte) : Prop :=
  (r.src.1 ≠ 3 → t.mc.replies = s.mc.replies ++ [(r.src, replyTo r status detail data)]) ∧
  (r.src.1 = 3 → t.mc.replies = s.mc.replies ∧ fg t MC_MBOX_DONE 0 = 1 ∧ fg t MC_MBOX_BUSY 0 = 0 ∧
    memRead t (ctrlBase + mboxReply) (data.length + 16) = replyTo r status detail data)

/-- A request is answered last: its reply is the newest sent, or stands in the mailbox's reply buffer with DONE. -/
def Answered (t : State) (r : Req) (status detail : Nat) (data : List Byte) : Prop :=
  (r.src.1 ≠ 3 → t.mc.replies.getLast? = some (r.src, replyTo r status detail data)) ∧
  (r.src.1 = 3 → fg t MC_MBOX_DONE 0 = 1 ∧ memRead t (ctrlBase + mboxReply) (data.length + 16) = replyTo r status detail data)

/-- A request that has passed its checks waits for its record in the configuration store, unanswered, its change not yet made (14, R360; 18,
R454). -/
def StoreWaits (s t : State) (r : Req) : Prop :=
  t.mc.storing = some (r.src, r.raw) ∧ t.store = { s.store with queue := s.store.queue ++ [.packet] } ∧ t.mc.replies = s.mc.replies ∧
  t.regs = s.regs ∧ t.mem = s.mem ∧ t.queues = s.queues ∧ t.flash = s.flash ∧ t.fuses = s.fuses

/-- The record of such a request is the next that the configuration store programs, into a half with room, and no other packet waits. -/
abbrev Storing (s : State) (r : Req) (op : Nat) : Prop :=
  s.mc.storing = some (r.src, r.raw) ∧ r.op = op ∧ s.mc.inbox = [] ∧ s.mc.waiting = [] ∧ s.mc.held = false ∧
  s.store.queue.head? = some .packet ∧ s.store.compact = none ∧ s.store.recs < halfRecords ∧
  s.flash.protect = false ∧ pfwActive s = false ∧ s.flash.pfwLeft = 0

/-- The configuration store with one more record, the oldest change that waited made. -/
def recorded (st : Store) : Store := { st with recs := st.recs + 1, queue := st.queue.drop 1 }

/-- A request is answered and what it does not name is left alone: memory but the reply buffer, queues, flash, fuses, physical wards. -/
def OnlyReplied (s t : State) (r : Req) (status detail : Nat) (data : List Byte) : Prop :=
  Replied s t r status detail data ∧ t.queues = s.queues ∧ t.flash = s.flash ∧ t.fuses = s.fuses ∧ t.pwards = s.pwards ∧
  ∀ k, (r.src.1 = 3 → k < ctrlBase + mboxReply ∨ ctrlBase + mboxReply + (data.length + 16) ≤ k) → readByte t k = readByte s k

end Sys2Proof.Machine
end

