-- ==== Sys2Proof/Certificates/Slice0/Obligations.lean ====
section
/-!
DEFINITION. The statements about the block, one definition each (OBLIGATIONS.json lists them with the rules of spec/ they rest on).
-/

open Sys2Proof Sys2Proof.Machine

/-- A step performs the command at the front of the queue; an empty queue idles. For every command c and state s, step of s with c at the front
of its queue is exec c on s with the rest of the queue; with an empty queue a step answers the same state (the model's choice, log 14). -/
def Obligations.StepPerformsTheFrontCommand : Prop :=
  (∀ (c : Instr) (rest : List Instr) (s : State), step { s with pending := c :: rest } = exec c { s with pending := rest }) ∧
  ∀ s : State, s.pending = [] → step s = .next s

/-- Every command answers a next state, in every state, and touches neither the queue nor a value already drawn. For every command and state
exec answers a next state (no fault, no refusal); the queue of waiting commands is unchanged, and the counter that free values are drawn
with (the model's own, log 3) never falls, so that no free value is drawn twice. -/
def Obligations.EveryCommandRunsAndLeavesTheQueue : Prop :=
  ∀ (c : Instr) (s : State), ∃ t, exec c s = .next t ∧ t.pending = s.pending ∧ s.free ≤ t.free

/-- Every step keeps the canonical form of memory and of the register map. For every state whose memory and register map are in canonical form
(keys strictly rising, no entry equal to what an unlisted key reads as), and every command, the state that the step answers has both in
canonical form: equal contents are equal data, after stores, zero-fills, erasing, resets and the copy of the boot stage. -/
def Obligations.MemoryAndRegistersStayCanonical : Prop :=
  ∀ s t : State, Memory.wf s = true → Registers.wf s = true → step s = .next t → Memory.wf t = true ∧ Registers.wf t = true

/-- The state after reset has canonical memory and registers, an empty queue, nothing stored and no command in progress. State.reset meets the
invariant that every step keeps; its memory lists nothing, its queue is empty, no stream is enabled and READY and JOB of MC_STATUS read 0. -/
def Obligations.ResetStateIsCanonical : Prop :=
  Memory.wf State.reset = true ∧ Registers.wf State.reset = true ∧ State.reset.mem = [] ∧ State.reset.pending = [] ∧
    State.reset.streams = [] ∧ fg State.reset MC_STATUS_READY 0 = 0 ∧ fg State.reset MC_STATUS_JOB 0 = 0

/-- No command restores ATTEST_VALID, lowers SEAL_TRIPS or the least security version, or changes another fuse. For every command and state with
at most 15 seal trips: once ATTEST_VALID is cleared it stays cleared; SEAL_TRIPS never falls and stays at most 15; the least security
version never falls; and the identity, grade, ward map, stepping, fibre, enterprise number, key digest and the repairs found at test stay as
they are. -/
def Obligations.FusesAreOnlyBurned : Prop :=
  ∀ (c : Instr) (s t : State), s.fuses.sealTrips ≤ 15 → exec c s = .next t →
    (s.fuses.attest = false → t.fuses.attest = false) ∧
    s.fuses.sealTrips ≤ t.fuses.sealTrips ∧ t.fuses.sealTrips ≤ 15 ∧
    s.fuses.secverMin ≤ t.fuses.secverMin ∧
    t.fuses.identity = s.fuses.identity ∧ t.fuses.grade = s.fuses.grade ∧ t.fuses.map = s.fuses.map ∧
    t.fuses.stepping = s.fuses.stepping ∧ t.fuses.fibre = s.fuses.fibre ∧ t.fuses.enterprise = s.fuses.enterprise ∧
    t.fuses.keyDigest = s.fuses.keyDigest ∧ t.fuses.found = s.fuses.found

/-- Every step keeps the event ring within 1,024 records and the failure record within 64 entries. For every state whose event ring holds at
most 1,024 records and whose failure record holds at most 64 entries, and every step from it, the state answered holds no more; and the
number that the failure record gives its next entry never falls. -/
def Obligations.RecordsStayWithinTheirRings : Prop :=
  ∀ s t : State, s.mc.events.length ≤ 1024 → s.store.fail.entries.length ≤ 64 → step s = .next t →
    t.mc.events.length ≤ 1024 ∧ t.store.fail.entries.length ≤ 64 ∧ s.store.fail.eseq ≤ t.store.fail.eseq

/-- Entries of a ward into its target, the clamps, the rest, the exit from NAP, and vote changes. WARD_STATE_ENTRY: a ward with no work, no
entry, wake or exit in progress begins entry into its target when that is NAP or deeper and deeper than its rest. ENTRY_CLAMPS_ENGAGED: the
clamps of an entry into RETAIN or OFF engage. WARD_ENTRY_COMPLETE: the ward rests in the state entered, and a wake held since the clamps
engaged is requested. NAP_EXIT_COMPLETE: the ward is ACTIVE. STREAM_VOTE_HOLD_EXPIRY: the stream's deeper vote takes effect. VOTE_CHANGE: a
ward resting in IDLE whose target becomes ACTIVE is ACTIVE at once. Other wards and memory stay as they are. -/
def Obligations.WardEntriesAndRests : Prop :=
  (∀ (p : Nat) (s : State), (pward s p).enter = none → (pward s p).stage = 0 → (pward s p).wakeBy = none → (pward s p).napExit = false →
    (∀ w, logicalAt s p = some w → workPresent s w = false) → 2 ≤ (wardTarget s p).1 → (pward s p).st < (wardTarget s p).1 →
    Gives (.wardStateEntry p) s fun t =>
      (pward t p).enter = some (wardTarget s p).1 ∧ (pward t p).clamped = false ∧ (pward t p).st = (pward s p).st ∧ PwardsKept s t p ∧
      t.mem = s.mem ∧ t.streams = s.streams ∧ t.queues = s.queues) ∧
  (∀ (p k : Nat) (s : State), (pward s p).enter = some k → 3 ≤ k →
    Gives (.entryClampsEngaged p) s fun t =>
      pward t p = { pward s p with clamped := true } ∧ PwardsKept s t p ∧ t = { s with pwards := t.pwards }) ∧
  (∀ (p k : Nat) (s : State), (pward s p).enter = some k → (k < 3 ∨ (pward s p).clamped = true) →
    Gives (.wardEntryComplete p) s fun t =>
      (pward t p).st = k ∧ (pward t p).enter = none ∧ (pward t p).clamped = false ∧ (pward t p).wakeBy = (pward s p).held ∧
      PwardsKept s t p ∧ t.mem = s.mem ∧ t.regs = s.regs) ∧
  (∀ (p : Nat) (s : State), (pward s p).napExit = true →
    Gives (.napExitComplete p) s fun t =>
      pward t p = { pward s p with st := 0, napExit := false } ∧ PwardsKept s t p ∧ t = { s with pwards := t.pwards }) ∧
  (∀ (m : Nat) (s : State), (stream s m).vote < wantedVote s m →
    Gives (.streamVoteHoldExpiry m) s fun t =>
      (stream t m).vote = wantedVote s m ∧ (∀ k, k ≠ m → { stream t k with judged := (stream s k).judged } = stream s k) ∧
      t.mem = s.mem ∧ t.queues = s.queues) ∧
  (∀ (p client : Nat) (s : State), p < 100 → (pward s p).enter = none → (pward s p).stage = 0 → (pward s p).st = 1 → (wardTarget s p).1 = 0 →
    Gives (.voteChange p client) s fun t => pward t p = { pward s p with st := 0 } ∧ PwardsKept s t p ∧
      (∀ k, { stream t k with judged := (stream s k).judged } = stream s k) ∧ t = { s with pwards := t.pwards, streams := t.streams })

/-- A wake is admitted when the current checks pass, runs four switch stages and a zero-fill, and ends ACTIVE. WAKE_ADMIT and WAKE_RETRY: a
requested wake begins stage 1 when no ward of the district is in a wake stage, no coolant stop and no V/F slew is in effect, the district
current plus 2.0 A is at most 48 A, and the core current plus 2.0 A for every wake is at most 600 A. WAKE_STAGE_END: stages 1 to 3 pass to
the next; after stage 4 with a good grid the fill begins and the district is no longer held. WAKE_ZERO_FILL_END: the ward is ACTIVE and
every bank of its store that is not kept reads zero, the kept banks of a ward in RETAIN as before. -/
def Obligations.WakesRunTheirStages : Prop :=
  (∀ (p dist core : Nat) (s : State), (pward s p).wakeBy ≠ none → (pward s p).stage = 0 → wakingIn s (p / 5) = false →
    fg s THM_STATUS_COOLANT_STOP 0 = 0 → s.pwr.slew = none → dist + 20 ≤ 480 → core + 20 * (wakesNow s + 1) ≤ 6000 →
    Gives (.wakeAdmit p dist core) s (fun t =>
      pward t p = { pward s p with stage := 1, wakeBy := none } ∧ PwardsKept s t p ∧ t = { s with pwards := t.pwards }) ∧
    ((pward s p).late = true → Gives (.wakeRetry p dist core) s (fun t =>
      pward t p = { pward s p with stage := 1, wakeBy := none } ∧ PwardsKept s t p ∧ t = { s with pwards := t.pwards }))) ∧
  (∀ (p grid : Nat) (s : State), 1 ≤ (pward s p).stage → (pward s p).stage ≤ 3 →
    Gives (.wakeStageEnd p grid) s fun t => pward t p = { pward s p with stage := (pward s p).stage + 1 } ∧ PwardsKept s t p ∧ t.mem = s.mem) ∧
  (∀ (p grid : Nat) (s : State), (pward s p).stage = 4 → grid ≠ 0 →
    Gives (.wakeStageEnd p grid) s fun t =>
      (pward t p).stage = 5 ∧ (distOf t (p / 5)).hold = false ∧ PwardsKept s t p ∧ t.mem = s.mem) ∧
  (∀ (p w : Nat) (s : State), (pward s p).stage = 5 → logicalAt s p = some w →
    Gives (.wakeZeroFillEnd p) s fun t =>
      (pward t p).st = 0 ∧ (pward t p).stage = 0 ∧ PwardsKept s t p ∧ t.regs = s.regs ∧
      ∀ b i, b < 12 → i < 0x80000 → readByte t (wardStoreKey w (b * 0x80000 + i)) =
        if (pward s p).st = 3 ∧ bit (pward s p).kept b = true then readByte s (wardStoreKey w (b * 0x80000 + i)) else 0)

/-- Failed phases and regulators are counted, and a failed ward goes dark with its streams faulted. PHASE_FAIL: the phase counts, with the spare
swapped in for the first; with fewer than six in service the physical ward is failed. SPARE_PHASE_SWAP_END: the swap is over.
REGULATOR_FAIL: the physical ward is failed and a logical ward that it holds is dark. SQUARE_REGULATOR_FAIL: the first lost regulator of a
square leaves it SINGLE with that regulator not OK. WARD_DARK: the ward is dark, and every enabled stream of it is on its way to FAULTED
with FLT_WARD_LOST, the ward as detail. -/
def Obligations.FailuresOfRegulatorsAndWards : Prop :=
  (∀ (p phase : Nat) (s : State), (pward s p).phases ≤ 2 →
    Gives (.phaseFail p phase) s fun t =>
      pward t p = { pward s p with phases := (pward s p).phases + 1, swap := decide ((pward s p).phases = 0) } ∧ PwardsKept s t p ∧
      t.mem = s.mem ∧ t.streams = s.streams) ∧
  (∀ (p phase : Nat) (s : State), 3 ≤ (pward s p).phases → Gives (.phaseFail p phase) s fun t => physFailed t p = true) ∧
  (∀ (p : Nat) (s : State), Gives (.sparePhaseSwapEnd p) s fun t =>
    pward t p = { pward s p with swap := false } ∧ PwardsKept s t p ∧ t = { s with pwards := t.pwards }) ∧
  (∀ (p : Nat) (s : State), physFailed s p = false →
    Gives (.regulatorFail p) s fun t => physFailed t p = true ∧ ∀ w, logicalAt s p = some w → isDark t w = true) ∧
  (∀ (d reg : Nat) (s : State), (distOf s d).lostA = false → (distOf s d).lostB = false →
    Gives (.squareRegulatorFail d reg) s fun t =>
      (distOf t d).lostA = decide (reg % 2 = 0) ∧ (distOf t d).lostB = decide (reg % 2 ≠ 0) ∧ fg t PWR_SREG_SINGLE d = 1 ∧
      fg t (if reg % 2 = 0 then PWR_SREG_REG_A_OK else PWR_SREG_REG_B_OK) d = 0 ∧ t.streams = s.streams ∧ t.mem = s.mem) ∧
  (∀ (w cause : Nat) (s : State), w < wardCount s → isDark s w = false →
    Gives (.wardDark w cause) s fun t => isDark t w = true ∧
      ∀ k, k < 8 → (stream s (8 * w + k)).st = .enabled →
        (stream t (8 * w + k)).st = .faulting ∧ fg t WARD_SFAULT_CODE (8 * w + k) = 0x14 ∧ rd t WARD_SFAULT_DETAIL (8 * w + k) = BitVec.ofNat 32 w)

/-- Power-fail warnings, the converters' limits and a coolant stop take effect as the rules give. PFW_ASSERT and VBUS_LOW, with no warning
standing, set PFW_ACTIVE and leave 8 records of the configuration store to commit, below 48 V also HOLDUP_LOW and emergency 3; VBUS_LOW sets
its own flag; while a warning stands they do nothing else. PFW_RELEASE ends a warning, counts it and clears PFW_ACTIVE outside a coolant
stop. VBUS_STOP loses memory, queues and streams and keeps Tier 3, the stores (but what still waited to be programmed), the fuses, the
lifetime totals, and what V_AON carries: the events, the energy ring, the sensors, the frame number and a trip (which registers those are is
the choice of the model, log 73). CORE_CURRENT_LIMIT and BUS_CONVERTER_LIMIT set their flags, the former with b = 1 for the rest of the
frame. CORE_CONVERTER_SHUTDOWN leaves no stream enabled, every ward OFF, and reason 4 against job assignment. COOLANT_STOP sets its flag and
PFW_ACTIVE with b = 1. -/
def Obligations.PowerFailAndConverters : Prop :=
  (∀ (vbus : Nat) (s : State), s.pwr.warned = false → Gives (.pfwAssert vbus) s fun t =>
    fg t JNL_STATUS_PFW_ACTIVE 0 = 1 ∧ t.pwr.warned = true ∧ (s.flash.commits = [] → t.mem = s.mem) ∧
    (fg s JNL_STATUS_PFW_ACTIVE 0 = 0 → t.flash.pfwLeft = 8) ∧ (vbus < 48 → fg t PWR_CHAIN_HOLDUP_LOW 0 = 1 ∧ 3 ∈ t.pwr.causes)) ∧
  (∀ (vbus : Nat) (s : State), s.pwr.warned = true → Gives (.pfwAssert vbus) s fun t => t = s) ∧
  (∀ (vbus : Nat) (s : State), Gives (.vbusLow vbus) s fun t =>
    fg t PWR_CHAIN_VBUS_LOW 0 = 1 ∧ (s.flash.commits = [] → t.mem = s.mem) ∧
    (s.pwr.warned = false → fg t JNL_STATUS_PFW_ACTIVE 0 = 1 ∧ t.pwr.warned = true ∧
      (vbus < 48 → fg t PWR_CHAIN_HOLDUP_LOW 0 = 1 ∧ 3 ∈ t.pwr.causes)) ∧
    (s.pwr.warned = true → RegsKept s t [(PWR_CHAIN, 0)] ∧ t = { s with regs := t.regs })) ∧
  (∀ s : State, s.pwr.warned = true →
    Gives .pfwRelease s fun t =>
      fg t JNL_STATUS_PFW_ACTIVE 0 = (if fg s THM_STATUS_COOLANT_STOP 0 = 1 then fg s JNL_STATUS_PFW_ACTIVE 0 else 0) ∧
      fg t JNL_CNT_PFW 0 = min 0xFFFF (fg s JNL_CNT_PFW 0 + 1) ∧ t.pwr.warned = false ∧ t.flash.protect = false ∧
      t.life.pfws = s.life.pfws + 1 ∧ 3 ∉ t.pwr.causes ∧ t.mem = s.mem ∧ t.streams = s.streams) ∧
  (∀ s : State, s.pwr.warned = false → Gives .pfwRelease s fun t => t = s) ∧
  (∀ s : State, Gives .vbusStop s fun t =>
    t.mem = [] ∧ t.streams = [] ∧ t.queues = [] ∧ t.txns = [] ∧ t.flash.records = s.flash.records ∧ t.flash.images = s.flash.images ∧
    t.flash.host = s.flash.host ∧ t.store.base = s.store.base ∧ t.store.keys = s.store.keys ∧ t.store.policy = s.store.policy ∧
    (s.store.queue = [] → s.store.compact = none → t.store = s.store) ∧ t.fuses = s.fuses ∧ t.life = s.life ∧ t.banks = s.banks ∧
    t.mc.events = s.mc.events ∧ t.pwr.ring = s.pwr.ring ∧ t.therm = s.therm ∧ fg t MC_STATUS_READY 0 = 0 ∧
    (Registers.wf s = true → fg t THM_STATUS_TRIP 0 = fg s THM_STATUS_TRIP 0 ∧ rd t PWR_FRAME_NUM_LO 0 = rd s PWR_FRAME_NUM_LO 0)) ∧
  (∀ s : State, Gives .coreCurrentLimit s fun t =>
    fg t PWR_CHAIN_CORE_LIMIT 0 = 1 ∧ t.pwr = { s.pwr with limit := true, bub := 64 } ∧ RegsKept s t [(PWR_CHAIN, 0), (PWR_VF, 0)] ∧
    t = { s with regs := t.regs, pwr := t.pwr, free := t.free }) ∧
  (∀ s : State, Gives .busConverterLimit s fun t =>
    fg t PWR_CHAIN_BUS_LIMIT 0 = 1 ∧ RegsKept s t [(PWR_CHAIN, 0)] ∧ t = { s with regs := t.regs }) ∧
  (∀ (current : Nat) (s : State), Gives (.coreConverterShutdown current) s fun t =>
    (∀ m, (stream t m).st ≠ .enabled) ∧ (∀ p, p < 100 → (pward t p).st = 4 ∧ (pward t p).stage = 0) ∧ 4 ∈ t.mc.reasons) ∧
  (∀ s : State, fg s THM_STATUS_COOLANT_STOP 0 = 0 → Gives .coolantStop s fun t =>
    fg t THM_STATUS_COOLANT_STOP 0 = 1 ∧ fg t JNL_STATUS_PFW_ACTIVE 0 = 1 ∧ t.pwr.bub = 64 ∧ 2 ∈ t.pwr.causes ∧ t.therm.coolant = true ∧
    ∀ p, p < 100 → 3 ≤ (pward t p).st)

/-- Every step keeps: a write that waits for a pulse or a step boundary is of a register that takes effect there. In State.reset no register
write waits; and for every state whose waiting writes are of the registers that take effect at the next frame pulse (PWR_CTRL, THM_CFG,
PWR_SVOTE, FAB_CFG, MOD_QUIESCE_CFG, the budgets) or at the next step boundary (the shadow registers), every step answers such a state. -/
def Obligations.WaitingWritesNameTheirRegisters : Prop :=
  WaitingWrites State.reset ∧ ∀ s t : State, WaitingWrites s → step s = .next t → WaitingWrites t

/-- READY of MC_STATUS is raised by nothing but the end of a bring-up stage or of a resumed erasing. For every state with READY 0 whose waiting
register writes name their own registers, and every command that answers a state with READY 1: the command is BRINGUP_STAGE_DONE with no
stage left, or LONG_OP_COMPLETE, and the module is not in boot recovery. -/
def Obligations.ReadyComesOnlyWhenBringupEnds : Prop :=
  ∀ (c : Instr) (s t : State), WaitingWrites s → fg s MC_STATUS_READY 0 = 0 → exec c s = .next t → fg t MC_STATUS_READY 0 = 1 →
    ((∃ stage elapsed findings, c = .bringupStageDone stage elapsed findings) ∨ ∃ mismatch media, c = .longOpComplete mismatch media) ∧
    t.mc.stages = [] ∧ t.mc.recovery = false

/-- Frame pulses, frame words, the loss of the frame input and synthesised frames. FRAME_PULSE: an accepted pulse advances the frame number
modulo 2^40, starts the measurements afresh, refills the budgets and applies the announced grant, at least 300 W; a pulse less than 0.5 ms
after the last is only counted in RUNT. FRAME_WORD: a word with a good CRC gives the frame number, the flags and, without HOLD, the grant
for the next pulse; a bad one is counted and changes no grant. FRAME_LOSS sets LOST and drops the announced grant. FRAME_SYNTH opens a
synthesised frame whose grant lies on the line to the lost-frame grant (LOST_PCT as it stands from this frame on), reached at the eighth. -/
def Obligations.FramesOpenAndGrantsTakeEffect : Prop :=
  (∀ (since : Nat) (s : State), s.pwr.seen = true → since < 500 →
    Gives (.framePulse since) s fun t => fg t PWR_FRAME_STATUS_RUNT 0 = min 255 (fg s PWR_FRAME_STATUS_RUNT 0 + 1) ∧
      RegsKept s t [(PWR_FRAME_STATUS, 0)] ∧ t = { s with regs := t.regs }) ∧
  (∀ (since : Nat) (s : State), WaitingWrites s → (s.pwr.seen = false ∨ 500 ≤ since) →
    Gives (.framePulse since) s fun t =>
      frameNum t = (frameNum s + 1) % 2 ^ 40 ∧ frameSynth t = false ∧ t.pwr.seen = true ∧ t.pwr.awaits = true ∧ t.pwr.lossFrom = none ∧
      t.pwr.samples = 0 ∧ t.pwr.measUj = 0 ∧ t.pwr.used = [] ∧ t.pwr.nextRegs = [] ∧ t.pwr.next = none ∧ t.mem = s.mem ∧
      (∀ g u, s.pwr.next = some (g, u) → fg t PWR_GRANT_GRANT_EFF 0 = max 300 (min 0xFFF g)) ∧
      (s.pwr.next = none → fg t PWR_GRANT_GRANT_EFF 0 = fg s PWR_GRANT_GRANT_EFF 0)) ∧
  (∀ (w : Nat) (s : State), w < 2 ^ 64 → s.pwr.awaits = true →
    crc8 ((below 7).map (fun i => bits w (63 - 8 * i) (56 - 8 * i))) = bits w 7 0 →
    Gives (.frameWord w) s fun t =>
      frameNum t = bits w 63 24 ∧ fg t PWR_GRANT_FLAGS 0 = bits w 11 8 ∧ t.pwr.awaits = false ∧
      (bit w 10 = false → fg t PWR_GRANT_GRANT_RX 0 = bits w 23 12 ∧ t.pwr.next = some (bits w 23 12, bit w 11)) ∧
      (bit w 10 = true → fg t PWR_GRANT_GRANT_RX 0 = fg s PWR_GRANT_GRANT_RX 0 ∧ t.pwr.next = none) ∧
      fg t PWR_GRANT_GRANT_EFF 0 = fg s PWR_GRANT_GRANT_EFF 0 ∧ t = { s with regs := t.regs, pwr := t.pwr }) ∧
  (∀ (w : Nat) (s : State), w < 2 ^ 64 → s.pwr.awaits = true →
    crc8 ((below 7).map (fun i => bits w (63 - 8 * i) (56 - 8 * i))) ≠ bits w 7 0 →
    Gives (.frameWord w) s fun t =>
      fg t PWR_FRAME_STATUS_CRC_FAIL 0 = min 255 (fg s PWR_FRAME_STATUS_CRC_FAIL 0 + 1) ∧ RegsKept s t [(PWR_FRAME_STATUS, 0)] ∧
      t.pwr.next = s.pwr.next ∧ t.pwr.awaits = false ∧ t = { s with regs := t.regs, pwr := t.pwr }) ∧
  (∀ s : State, s.pwr.seen = true → s.pwr.lossFrom = none →
    Gives .frameLoss s fun t =>
      fg t PWR_FRAME_STATUS_LOST 0 = 1 ∧ t.pwr.next = none ∧ t.pwr.lossFrom = some (fg s PWR_GRANT_GRANT_EFF 0, 0) ∧ t.mem = s.mem ∧
      t.mc.evseq = s.mc.evseq + 1) ∧
  (∀ (g k : Nat) (s : State), WaitingWrites s → s.pwr.lossFrom = some (g, k) → s.pwr.goodWord = true → s.pwr.next = none →
    Gives .frameSynth s fun t =>
      frameNum t = (frameNum s + 1) % 2 ^ 40 ∧ frameSynth t = true ∧ t.pwr.lossFrom = some (g, k + 1) ∧
      fg t PWR_GRANT_GRANT_EFF 0 = max 300 (min 0xFFF
        ((100 * g * (8 - min (k + 1) 8) + fg s PWR_GRANT_GRANT_RX 0 * fg t PWR_CTRL_LOST_PCT 0 * min (k + 1) 8) / 800)))

/-- The fast loop's bubble fraction, the end of a set-point slew, and the thermal sample. FAST_LOOP: with no limit or emergency in effect the
next Class F bubble fraction, in 64ths rounded up, is (E - C) over F / (1 - b), from 0 to 1, with E and F computed from the activity counts,
the leakage, the rails and the conversion chain (how they round to W is the model's choice, log 55), and the microsecond is added to the
frame's measurements. VF_SLEW_END: the set point stands. THERMAL_SAMPLE: a stack whose two sensors are valid, within 6 C of each other and
not suspect takes the higher of their means over up to 16 samples as its control temperature, and each sensor field its own mean. -/
def Obligations.LoopsFollowTheirFormulas : Prop :=
  (∀ (x : FastIn) (s : State), s.pwr.limit = false → thermalFull s = false → hostForced s = false → s.pwr.bub < 64 → fg s PWR_EST_DRIFT 0 = 0 →
    Gives (.fastLoop x) s fun t =>
      t.pwr.bub = (if shareIn s x = 0 ∨ estimate s x ≤ s.pwr.ceil then 0
        else min 64 (((estimate s x - s.pwr.ceil) * (64 - s.pwr.bub) + shareIn s x - 1) / shareIn s x)) ∧
      t.pwr.samples = s.pwr.samples + 1 ∧ t.pwr.measUj = s.pwr.measUj + x.meas ∧ t.pwr.estUj = s.pwr.estUj + estimate s x ∧
      t.pwr.dynSum = s.pwr.dynSum + dynIn s x ∧ t = { s with regs := t.regs, pwr := t.pwr, free := t.free }) ∧
  (∀ (p : Nat) (s : State), p ≤ 11 → s.pwr.slew = some p → s.pwr.wait = none →
    Gives .vfSlewEnd s fun t => fg t PWR_VF_POINT 0 = p ∧ t.pwr.slew = none ∧ RegsKept s t [(PWR_VF, 0), (PWR_PACE, 0)] ∧
      t = { s with regs := t.regs, pwr := t.pwr }) ∧
  (∀ (x : ThermIn) (k : Nat) (s : State), k < 20 →
    let xs := ((padTo 40 0 (x.pairs.flatMap (fun p => [p.1, p.2])) ++ padTo 100 0 x.dies.flatten) :: s.therm.samples).take 16
    Gives (.thermalSample x) s fun t =>
      t.therm.samples = xs ∧ t.therm.coolant = x.coolant ∧
      fg t THM_STACK_T_SENSOR_A k = tempCode (sensorMean xs (2 * k)) ∧ fg t THM_STACK_T_SENSOR_B k = tempCode (sensorMean xs (2 * k + 1)) ∧
      (excluded (sensorMean xs (2 * k)) = false → excluded (sensorMean xs (2 * k + 1)) = false →
        (sensorMean xs (2 * k) - sensorMean xs (2 * k + 1)).natAbs ≤ 48 → fg s THM_STACK_CTL_SUSPECT k = 0 →
        fg t THM_STACK_CTL_CONTROL k = tempCode (max (sensorMean xs (2 * k)) (sensorMean xs (2 * k + 1))) ∧
        fg t THM_STACK_CTL_SUSPECT k = 0))

/-- The reference clock, droop stretches, dovetail crossings, refresh and calibration. REFCLK_LOSS sets REFCLK_LOST, clears REFCLK_OK and gives
reason 6 against job assignment; REFCLK_RETURN after a loss, once no crossing is late, lifts it. DROOP_STRETCH counts in the region.
CROSSING_SLIP adds the lateness, traces and counts it; CROSSING_RECENTRE restores the latency L; CROSSING_RECAL sets L to the delay plus 2
and counts. TIER1_REFRESH and TIER2_REFRESH change nothing that can be read. CALIBRATION within its budget does its piece: here the trim of
a regulator, 0 to 30 mV, its use counted against the budget. -/
def Obligations.ClocksCrossingsAndCalibration : Prop :=
  (∀ s : State, 6 ∉ s.mc.reasons → Gives .refclkLoss s fun t =>
    fg t MOD_CLK_REFCLK_LOST 0 = 1 ∧ fg t MOD_CLK_REFCLK_OK 0 = 0 ∧ 6 ∈ t.mc.reasons ∧ t.mem = s.mem ∧ t.streams = s.streams) ∧
  (∀ s : State, s.xings.any (fun p => p.2.late > 0) = false → 6 ∈ s.mc.reasons → Gives .refclkReturn s fun t =>
    fg t MOD_CLK_REFCLK_OK 0 = 1 ∧ 6 ∉ t.mc.reasons ∧ RegsKept s t [(MOD_CLK, 0)] ∧ t = { s with regs := t.regs, mc := t.mc }) ∧
  (∀ (w units : Nat) (s : State), w < wardCount s → Gives (.droopStretch w units) s fun t =>
    fg t WARD_CLKSTAT_STRETCH w = min 0xFFFF (fg s WARD_CLKSTAT_STRETCH w + units) ∧ RegsKept s t [(WARD_CLKSTAT, w)] ∧
    t = { s with regs := t.regs }) ∧
  (∀ (w k short : Nat) (s : State), w < wardCount s → short ≠ 0 → Gives (.crossingSlip w k short) s fun t =>
    xing t k = { xing s k with late := (xing s k).late + short } ∧ t.slips = s.slips ++ [(k, short, frameNum s)] ∧
    fg t WARD_CLKSTAT_SLIPS w = min 0xFFFF (fg s WARD_CLKSTAT_SLIPS w + 1) ∧ (∀ j, j ≠ k → xing t j = xing s j) ∧ t.mem = s.mem) ∧
  (∀ (k ok : Nat) (s : State), (xing s k).due = true → ok ≠ 0 → Gives (.crossingRecentre k ok) s fun t =>
    xing t k = { xing s k with late := 0, due := false } ∧ (∀ j, j ≠ k → xing t j = xing s j) ∧ t = { s with xings := t.xings }) ∧
  (∀ (d k delay : Nat) (s : State), d < 20 → Gives (.crossingRecal d k delay) s fun t =>
    (xing t k).lat = delay + 2 ∧ (xing t k).late = 0 ∧ fg t DIST_XCAL_RECAL d = min 0xFFFF (fg s DIST_XCAL_RECAL d + 1) ∧
    (∀ j, j ≠ k → xing t j = xing s j) ∧ RegsKept s t [(DIST_XCAL, d)]) ∧
  (∀ (n : Nat) (s : State), exec (.tier1Refresh n) s = .next s ∧ exec (.tier2Refresh n) s = .next s) ∧
  (∀ (p mv bytes slots energy : Nat) (err : MemErr) (s : State), p < 100 → budgetCovers s actCalib bytes slots energy = true →
    (∀ a, err ≠ .lost a) → Gives (.calibration 1 p mv bytes slots energy err) s fun t =>
      pward t p = { pward s p with trim := min 30 mv } ∧ PwardsKept s t p ∧
      (sget {} t.pwr.used actCalib).energy = (sget {} s.pwr.used actCalib).energy + energy ∧ t.regs = s.regs ∧ t.mem = s.mem)

/-- Cold start, stages, self-test, warm reset and its release, ward reset and the maker's test modes. COLD_START counts a cold start, samples
BOARD_ID, opens the twelve stages and leaves memory empty and streams disabled. BRINGUP_STAGE_DONE ends a stage whose predecessors have
ended and shows the time. WARD_SELF_TEST_END ends the running self-test and shows its results. WARM_RESET counts a reset, stops everything
and holds until RESET_RELEASE. WARD_RESET_COMPLETE of a ward reset without a test shows DONE with RESULT 1. MAKER_TEST_MODE_ENTRY in a cold
start clears ATTEST_VALID and, unless RETURN_READY is set, erases Tier 1 and Tier 2, the keys and the policy. -/
def Obligations.BringupAndResets : Prop :=
  (∀ (board loop : Nat) (s : State), Gives (.coldStart board loop) s fun t =>
    t.life.colds = s.life.colds + 1 ∧ t.board = board % 32 ∧ t.mc.stages = allStages ∧ t.mc.isCold = true ∧ t.mem = [] ∧ t.streams = [] ∧
    t.queues = [] ∧ t.flash.records = s.flash.records ∧ fg t MC_STATUS_LOOP_CLOSED 0 = (if loop = 1 then 1 else 0)) ∧
  (∀ (stage elapsed : Nat) (findings : List (Nat × Nat)) (s : State), stage ∈ s.mc.stages → (stageAfter stage).any s.mc.stages.contains = false →
    s.mc.recovery = false → s.mc.held = false → (stage = 11 → fg s MOD_SELFTEST_RUNNING 0 = 0) →
    Gives (.bringupStageDone stage elapsed findings) s fun t =>
      stage ∉ t.mc.stages ∧ fg t MOD_BOOT_STATUS_ELAPSED 0 = min 0xFFFF elapsed ∧
      (stage = 7 → fg t MOD_HOST_CLK_CORES 0 = min 32 (34 - findings.length)) ∧ (stage = 8 → t.boot = true)) ∧
  (∀ (findings : List Finding) (s : State), fg s MOD_SELFTEST_RUNNING 0 = 1 →
    Gives (.wardSelfTestEnd findings) s fun t =>
      fg t MOD_SELFTEST_RUNNING 0 = 0 ∧ fg t MOD_SELFTEST_DONE 0 = 1 ∧
      (findings = [] → fg t MOD_SELFTEST_PASS 0 = 1) ∧ ((∃ f ∈ findings, f.result = 2 ∨ f.unit = 10) → fg t MOD_SELFTEST_PASS 0 = 0) ∧
      fg t MOD_KERF_STATUS_SELFTEST_DONE 0 = 1 ∧ fg t MOD_KERF_STATUS_SELFTEST_PASS 0 = 1 ∧ t.libLoaded = true ∧
      ∀ f ∈ findings, ∃ failed, ⟨f.district, f.pos, findingUnit f.unit, failed, f.loc⟩ ∈ t.store.repairs ∧ (f.result = 2 → failed = true)) ∧
  (∀ s : State, Gives .warmReset s fun t =>
    t.mc.held = true ∧ t.life.resets = s.life.resets + 1 ∧ t.mc.stages = allStages ∧ t.streams = [] ∧ t.queues = [] ∧ t.engines = [] ∧
    t.fuses = s.fuses ∧ t.store = storeAfter s.store ∧ (fg s MOD_T1_CFG_NEXT_LOCAL_GIB 0 = fg s MOD_T1_CFG_LOCAL_GIB 0 → ∀ a, a < wardBase →
      readByte t a = readByte s a)) ∧
  (∀ s : State, Gives .resetRelease s fun t => t = { s with mc := { s.mc with held := false } }) ∧
  (∀ (w : Nat) (findings : List Finding) (s : State), w < wardCount s → fg s WARD_RST_BUSY w = 1 → (pward s (physOf s w)).test = false →
    (pward s (physOf s w)).st = 0 →
    Gives (.wardResetComplete w findings) s fun t =>
      fg t WARD_RST_BUSY w = 0 ∧ fg t WARD_RST_DONE w = 1 ∧ fg t WARD_RST_RESULT w = 1 ∧ RegsKept s t [(WARD_RST, w)] ∧
      t = { s with regs := t.regs }) ∧
  (∀ s : State, s.mc.stages ≠ [] → s.mc.isCold = true → Gives .makerTestModeEntry s fun t =>
    t.fuses.attest = false ∧ t.mc.maker = true ∧
    (s.store.returnReady = false → t.store.keys = [] ∧ t.store.policy = none ∧ t.flash.records = [] ∧ t.flash.images = [] ∧
      ∀ a, a < tier1Size ∨ (tier2Base ≤ a ∧ a < tier2Base + tier2Size) → readByte t a = 0))

/-- STANDBY, the harts, the host clock, the flag watches and the PCIe link. STANDBY_ENTRY, with a module target of STANDBY, no job and no hart
running, rests every ward in OFF at point 0 with the PCIe link down, or is aborted and shows the client, or is followed at once by the wake;
STANDBY_WAKE with a shallower target hands off to the host cores again with every context empty and shows whether every library copy was
good. HART_RELEASE starts a present, stopped hart at the boot stage with its number in x10 and the devicetree in x11; HART_STOP stops it,
with what its caches and stores held in memory. HOST_POINT_WRITE takes POINT, at once where the clock falls; HOST_POINT_CHANGE_END clears
CHANGING with the new clock. FLAG_WATCH_FIRE sends its message once and disarms. PERST_ASSERT resets the link of an endpoint, PERST_DEASSERT
starts its training, outside STANDBY, and PCIE_LINK_UP ends it. -/
def Obligations.StandbyAndHostControl : Prop :=
  (∀ s : State, s.standby = false → (modTarget s).1 = 2 → hasJob s = false → fg s MOD_HOST_RUN_RUNNING 0 = 0 →
    (Gives (.standbyEntry none) s fun t =>
      t.standby = true ∧ fg t PWR_VF_POINT 0 = 0 ∧ fg t MOD_PCIE_CFG_LINK_UP 0 = 0 ∧ (∀ p, p < 100 → (pward t p).st = 4) ∧ t.mem = s.mem) ∧
    (∀ client, client < 16 → Gives (.standbyEntry (some (false, client))) s fun t =>
      fg t MOD_PCNT_ABT_CLIENT 0 = client ∧ RegsKept s t [(MOD_PCNT, 0)] ∧ t = { s with regs := t.regs }) ∧
    ∀ client, Gives (.standbyEntry (some (true, client))) s fun t => t.standby = false ∧ t.streams = [] ∧ t.boot = true) ∧
  (∀ (findings : List Finding) (s : State), s.standby = true → (modTarget s).1 < 2 →
    Gives (.standbyWake findings) s fun t =>
      t.standby = false ∧ t.streams = [] ∧ t.queues = [] ∧ t.boot = true ∧ fg t MOD_CLK_CAL_DONE 0 = 1 ∧ t.flash = s.flash ∧
      ((∀ f ∈ findings, f.unit ≠ 10) → t.store = s.store ∧ fg t MOD_KSTORE_STATUS_LIB_OK 0 = 1) ∧
      ((∃ f ∈ findings, f.unit = 10) → fg t MOD_KSTORE_STATUS_LIB_OK 0 = 0)) ∧
  (∀ (h : Nat) (s : State), h < 32 → h < fg s MOD_HOST_CLK_CORES 0 → fg s MOD_HOST_RUN_RUNNING 0 = 0 → fg s MOD_BOOT_STATUS_STAGE 0 ≠ 0 →
    8 ∉ s.mc.stages → s.standby = false →
    Gives (.hartRelease (BitVec.ofNat 32 (2 ^ h))) s fun t =>
      fg t MOD_HOST_RUN_RUNNING 0 = 2 ^ h ∧ sget 0 t.host.regs (32 * h + 10) = h ∧ sget 0 t.host.regs (32 * h + 11) = hostTree ∧
      RegsKept s t [(MOD_HOST_RUN, 0)] ∧ t.mem = s.mem) ∧
  (∀ (h : Nat) (s : State), h < 32 → bit (fg s MOD_HOST_RUN_RUNNING 0) h = true →
    Gives (.hartStop h) s fun t =>
      fg t MOD_HOST_RUN_RUNNING 0 + 2 ^ h = fg s MOD_HOST_RUN_RUNNING 0 ∧ RegsKept s t [(MOD_HOST_RUN, 0)] ∧
      (∀ x ∈ t.host.stores, x.hart ≠ h) ∧ (∀ l ∈ t.host.lines, l.hart ≠ h) ∧ (∀ r ∈ t.host.resv, r.1 ≠ h) ∧
      ((∀ x ∈ s.host.stores, x.hart ≠ h) → t.mem = s.mem) ∧ t = { s with regs := t.regs, mem := t.mem, poison := t.poison, host := t.host }) ∧
  (∀ (v : Word) (s : State), fieldIn v MOD_HOST_CLK_POINT ≤ 4 → fg s MOD_HOST_CLK_CHANGING 0 = 0 → hostForced s = false →
    Gives (.hostPointWrite v) s fun t =>
      fg t MOD_HOST_CLK_POINT 0 = fieldIn v MOD_HOST_CLK_POINT ∧
      fg t MOD_HOST_CLK_CURRENT 0 = min (fieldIn v MOD_HOST_CLK_POINT) (fg s MOD_HOST_CLK_CURRENT 0) ∧
      (fg t MOD_HOST_CLK_CHANGING 0 = 1 ↔ fieldIn v MOD_HOST_CLK_POINT ≠ fg s MOD_HOST_CLK_CURRENT 0) ∧
      RegsKept s t [(MOD_HOST_CLK, 0)] ∧ t = { s with regs := t.regs }) ∧
  (∀ s : State, fg s MOD_HOST_CLK_CHANGING 0 = 1 → s.host.next = none → hostForced s = false →
    Gives .hostPointChangeEnd s fun t =>
      fg t MOD_HOST_CLK_CHANGING 0 = 0 ∧ fg t MOD_HOST_CLK_CURRENT 0 = fg s MOD_HOST_CLK_POINT 0 ∧ RegsKept s t [(MOD_HOST_CLK, 0)] ∧
      t = { s with regs := t.regs }) ∧
  (∀ (k : Nat) (s : State), k < 256 → fg s MOD_IRQ_WATCH_EN k = 1 → fg s MOD_IRQ_WATCH_WARD k < wardCount s →
    flagReached s (flagIdx (fg s MOD_IRQ_WATCH_WARD k) (fg s MOD_IRQ_WATCH_FLAG k)) (fg s MOD_IRQ_DEST_TARGET k) = true →
    Gives (.flagWatchFire k) s fun t =>
      fg t MOD_IRQ_WATCH_EN k = 0 ∧ fg t MOD_IRQ_WATCH_FIRED k = 1 ∧ t.host.msgs = s.host.msgs ++ [(rd s MOD_IRQ_DEST k).toNat] ∧
      RegsKept s t [(MOD_IRQ_WATCH, k)] ∧ t.mem = s.mem) ∧
  (∀ s : State, fg s MOD_PCIE_CFG_MODE 0 = 0 → Gives .perstAssert s fun t =>
    t.host.perst = true ∧ t.host.detect = true ∧ fg t MOD_PCIE_CFG_LINK_UP 0 = 0 ∧ RegsKept s t [(MOD_PCIE_CFG, 0)] ∧ t.mem = s.mem) ∧
  (∀ s : State, fg s MOD_PCIE_CFG_MODE 0 = 1 → Gives .perstAssert s fun t => t = s) ∧
  (∀ s : State, s.host.perst = true → Gives .perstDeassert s fun t => t = { s with host := { s.host with perst := false, detect := s.standby } }) ∧
  (∀ s : State, s.host.perst = false → Gives .perstDeassert s fun t => t = s) ∧
  (∀ s : State, s.host.perst = false → s.host.detect = false → Gives .pcieLinkUp s fun t =>
    fg t MOD_PCIE_CFG_LINK_UP 0 = 1 ∧ RegsKept s t [(MOD_PCIE_CFG, 0)] ∧ t = { s with regs := t.regs }) ∧
  ∀ s : State, s.host.perst = true ∨ s.host.detect = true → Gives .pcieLinkUp s fun t => t = s

/-- PCIe mode writes and the reset and training of the link. PCIE_MODE_WRITE takes MWIN and clears MODE_REFUSED where it writes 1 there; it
changes MODE while the link is in Detect and, from endpoint mode, PERST_N is asserted, driving PERST_N low, and otherwise leaves MODE and
shows MODE_REFUSED; a write of the mode in effect changes neither. PERST_ASSERT in endpoint mode puts the link into Detect with LINK_UP 0,
and is nothing to a root port. PERST_DEASSERT of an asserted PERST_N starts training (in STANDBY, where PCIe is off, the link stays in
Detect), and is nothing else. PCIE_LINK_UP in training sets LINK_UP, and in reset or Detect is nothing. -/
def Obligations.PcieModesAndReset : Prop :=
  (∀ (v : Word) (s : State), Gives (.pcieModeWrite v) s fun t =>
    let now := fg s MOD_PCIE_CFG_MODE 0
    let mode := fieldIn v MOD_PCIE_CFG_MODE
    fg t MOD_PCIE_CFG_MWIN 0 = fieldIn v MOD_PCIE_CFG_MWIN ∧ fg t MOD_PCIE_CFG_LINK_UP 0 = fg s MOD_PCIE_CFG_LINK_UP 0 ∧
    RegsKept s t [(MOD_PCIE_CFG, 0)] ∧
    (mode = now → fg t MOD_PCIE_CFG_MODE 0 = now ∧ t = { s with regs := t.regs } ∧
      fg t MOD_PCIE_CFG_MODE_REFUSED 0 = if fieldIn v MOD_PCIE_CFG_MODE_REFUSED = 1 then 0 else fg s MOD_PCIE_CFG_MODE_REFUSED 0) ∧
    (mode ≠ now → s.host.detect = false ∨ (now = 0 ∧ s.host.perst = false) →
      fg t MOD_PCIE_CFG_MODE 0 = now ∧ fg t MOD_PCIE_CFG_MODE_REFUSED 0 = 1 ∧ t = { s with regs := t.regs }) ∧
    (mode ≠ now → s.host.detect = true → (now = 0 → s.host.perst = true) →
      fg t MOD_PCIE_CFG_MODE 0 = mode ∧ t = { s with regs := t.regs, host := { s.host with perst := true } } ∧
      fg t MOD_PCIE_CFG_MODE_REFUSED 0 = if fieldIn v MOD_PCIE_CFG_MODE_REFUSED = 1 then 0 else fg s MOD_PCIE_CFG_MODE_REFUSED 0)) ∧
  (∀ s : State, Gives .perstAssert s fun t =>
    (fg s MOD_PCIE_CFG_MODE 0 = 1 → t = s) ∧
    (fg s MOD_PCIE_CFG_MODE 0 = 0 → fg t MOD_PCIE_CFG_LINK_UP 0 = 0 ∧ fg t MOD_PCIE_CFG_MODE 0 = 0 ∧ RegsKept s t [(MOD_PCIE_CFG, 0)] ∧
      t = { s with regs := t.regs, host := { s.host with perst := true, detect := true } })) ∧
  (∀ s : State, Gives .perstDeassert s fun t =>
    (s.host.perst = true → t = { s with host := { s.host with perst := false, detect := s.standby } }) ∧ (s.host.perst = false → t = s)) ∧
  (∀ s : State, Gives .pcieLinkUp s fun t =>
    (s.host.perst = true ∨ s.host.detect = true → t = s) ∧
    (s.host.perst = false → s.host.detect = false →
      fg t MOD_PCIE_CFG_LINK_UP 0 = 1 ∧ fg t MOD_PCIE_CFG_MODE 0 = fg s MOD_PCIE_CFG_MODE 0 ∧ RegsKept s t [(MOD_PCIE_CFG, 0)] ∧
      t = { s with regs := t.regs }))

/-- The NVMe commands of the host block device complete with their effect. Identify (CNS 0 the namespace, 1 the controller) and Get Log Page
write their page to host memory, the capacity, the one namespace and the wear where the manual says; Create and Delete I/O Queue make and
remove a queue; Read brings the blocks into host memory, and none where the media have lost one; Write stores the blocks before it
completes, none where its data are poisoned or fail; Flush changes nothing, and Dataset Management completes; bytes of the device outside
the blocks named stay as they are. Every completion of what was done says success. A page that would overwrite a poisoned sector in part is
not written. -/
def Obligations.HostBlockDevice : Prop :=
  (∀ (q cns dest : Nat) (s : State), cns = 0 ∨ cns = 1 → dest + 4096 ≤ tier1Size → partialPoison s dest 4096 = none →
    Gives (.nvmeIdentify q cns dest) s fun t =>
      (cns = 0 → ∀ i, i < 8 → readByte t (dest + i) = nth (toBytesLE 8 ((6144 - s.flash.gib) * 2 ^ 18)) i 0) ∧
      (cns = 1 → (∀ i, i < 4 → readByte t (dest + 516 + i) = nth (toBytesLE 4 1) i 0) ∧ readByte t (dest + 525) = 0) ∧
      MemKept s t dest 4096 ∧ t.host.done = s.host.done ++ [(0, nvOk)] ∧ t.flash = s.flash ∧ RegsKept s t cacheCounters) ∧
  (∀ (q dest : Nat) (s : State), dest + 512 ≤ tier1Size → partialPoison s dest 512 = none → Gives (.nvmeGetLogPage q dest) s fun t =>
    (readByte t (dest + 5)).toNat = fg s JNL_FLASH_WEAR_USER 0 % 256 ∧ MemKept s t dest 512 ∧ t.host.done = s.host.done ++ [(0, nvOk)] ∧
    t.flash = s.flash ∧ RegsKept s t cacheCounters) ∧
  (∀ (q cns dest : Nat) (s : State) (c : Instr) (n : Nat), (c, n) ∈ [(Instr.nvmeIdentify q cns dest, 4096), (.nvmeGetLogPage q dest, 512)] →
    dest + n ≤ tier1Size → (partialPoison s dest n).isSome = true → Gives c s fun t =>
      t.mem = s.mem ∧ t.host.done = s.host.done ++ [(0, nvTransfer)] ∧ t.flash = s.flash ∧ RegsKept s t ueRegs) ∧
  (∀ (q : Nat) (s : State), 1 ≤ q → q ≤ 32 → q ∉ s.host.queues → Gives (.nvmeCreateIoQueue q) s fun t =>
    t = { s with host := { s.host with queues := s.host.queues ++ [q], done := s.host.done ++ [(0, nvOk)] } }) ∧
  (∀ (q : Nat) (s : State), q ∈ s.host.queues → Gives (.nvmeDeleteIoQueue q) s fun t =>
    q ∉ t.host.queues ∧ (∀ k, k ≠ q → (k ∈ t.host.queues ↔ k ∈ s.host.queues)) ∧ t.host.done = s.host.done ++ [(0, nvOk)] ∧ t.mem = s.mem) ∧
  (∀ (q lba n dest : Nat) (err : MemErr) (media : List FlashEvt) (s : State), q ∈ s.host.queues → lba + n ≤ nvmeBlocks s →
    dest + n * blockBytes ≤ tier1Size → swf (fun _ => 0) s.flash.host = true →
    let u := flashEvents s media
    (lostHost u lba n = false → partialPoison u dest (n * blockBytes) = none → (writeErr u err dest (n * blockBytes)).2 = none →
      Gives (.nvmeRead q lba n dest err media) s fun t =>
        (∀ i, i < n * blockBytes → readByte t (dest + i) = sget 0 s.flash.host (lba * blockBytes + i)) ∧ MemKept s t dest (n * blockBytes) ∧
        t.host.done = s.host.done ++ [(q, nvOk)] ∧ t.flash = u.flash ∧ (media = [] → t.flash = s.flash) ∧
        (err = .none → RegsKept u t cacheCounters)) ∧
    (lostHost u lba n = true → Gives (.nvmeRead q lba n dest err media) s fun t =>
      t = { u with host := { s.host with done := s.host.done ++ [(q, nvUnread)] } } ∧ t.mem = s.mem)) ∧
  (∀ (q lba n src : Nat) (err : MemErr) (media : List FlashEvt) (s : State), q ∈ s.host.queues → fg s JNL_STATUS_PFW_ACTIVE 0 = 0 →
    fg s JNL_STATUS_T3_DEGRADED 0 = 0 → lba + n ≤ nvmeBlocks s → src + n * blockBytes ≤ tier1Size → Memory.wf s = true →
    (poisonDetail s src (n * blockBytes) = none → (meetErr s err [(src, n * blockBytes)]).2 = none →
      Gives (.nvmeWrite q lba n src err media) s fun t =>
        (∀ i, i < n * blockBytes → sget 0 t.flash.host (lba * blockBytes + i) = readByte s (src + i)) ∧
        (∀ a, a < lba * blockBytes ∨ (lba + n) * blockBytes ≤ a → sget 0 t.flash.host a = sget 0 s.flash.host a) ∧
        lostHost t lba n = false ∧ t.host.done = s.host.done ++ [(q, nvOk)] ∧ t.mem = s.mem ∧
        (err = .none → media = [] → RegsKept s t cacheCounters)) ∧
    ((poisonDetail s src (n * blockBytes)).isSome = true → Gives (.nvmeWrite q lba n src err media) s fun t =>
      t.flash = s.flash ∧ t.mem = s.mem ∧ t.host.done = s.host.done ++ [(q, nvTransfer)] ∧ RegsKept s t ueRegs)) ∧
  (∀ (q : Nat) (s : State), q ∈ s.host.queues → Gives (.nvmeFlush q) s fun t =>
    t = { s with host := { s.host with done := s.host.done ++ [(q, nvOk)] } }) ∧
  (∀ (q lba n : Nat) (s : State), q ∈ s.host.queues → fg s JNL_STATUS_T3_DEGRADED 0 = 0 → lba + n ≤ nvmeBlocks s →
    Gives (.nvmeDatasetManagement q lba n) s fun t =>
      (∀ a, a < lba * blockBytes ∨ (lba + n) * blockBytes ≤ a → sget 0 t.flash.host a = sget 0 s.flash.host a) ∧
      lostHost t lba n = false ∧ t.host.done = s.host.done ++ [(q, nvOk)] ∧ t.mem = s.mem ∧ t.regs = s.regs)

/-- ACK frees the retry buffer, a wrong SEQ or a rejected block asks for a resend, RETRY_REQ resends, ACK_TIMEOUT takes the port DOWN. On a live
port past its bring-up: IDLE takes no SEQ and its ACK frees the blocks before it, within 2^19. A sequenced block of another SEQ than the one
expected changes nothing but the RETRY_REQ asked for. LINK_BLOCK_REJECT of bytes that are no good block (a byte in an uncorrectable
codeword, a size or TYPE that is none, a wrong CRC; on a version 2 link the row says so, log 45) counts and asks for the number expected; of
a good block of another SEQ it only asks. The bytes that a block goes out as are read back as its fields. RETRY_REQ resends every block
still held, each counting one transmission more, or takes the port DOWN where one has failed 8. ACK_TIMEOUT with blocks held takes the port
DOWN, its retry buffer empty. -/
def Obligations.LinkBlocksAreTakenInOrder : Prop :=
  (∀ (b : RxBlock) (a : Nat) (s : State), linkLive s b.port = true → (port s b.port).step = 0 → b.ack = some a →
    Gives (.idle b) s fun t =>
      Outgoing (port t b.port) = ((port s b.port).retry.filter (fun h => !decide (Acknowledged a h))).map Held.block ++ (port s b.port).waiting ∧
      ((port s b.port).waiting = [] → (port t b.port).retry = (port s b.port).retry.filter (fun h => !decide (Acknowledged a h))) ∧
      (port t b.port).rxSeq = (port s b.port).rxSeq ∧
      fg t FAB_PORT_FEC_CORRECTED b.port = min 65535 (fg s FAB_PORT_FEC_CORRECTED b.port + b.corrected) ∧
      RegsKept s t [(FAB_PORT_FEC, b.port)] ∧ t = { s with regs := t.regs, ports := t.ports }) ∧
  (∀ (b : RxBlock) (n : Nat) (err : MemErr) (c : Instr) (s : State), linkLive s b.port = true → b.seq ≠ (port s b.port).rxSeq →
    c ∈ [Instr.write b err, .readReq b n err, .readData b, .completion b, .release b, .signalBlock b, .sendData b n, .hello b, .switch b, .laneSwap b n] →
    Gives c s fun t => (port t b.port).asked = some ((port s b.port).asked.getD (port s b.port).rxSeq) ∧
      (port t b.port).rxSeq = (port s b.port).rxSeq ∧ (port t b.port).retry = (port s b.port).retry ∧ t.regs = s.regs ∧ t.mem = s.mem ∧
      t.txns = s.txns) ∧
  (∀ (p uncorr : Nat) (bytes : List Byte) (marked : Bool) (s : State), linkLive s p = true → Gives (.linkBlockReject p bytes marked uncorr) s fun t =>
    let bad := marked = true ∨ framingV2 s p = true ∨ parseBlock p bytes = none
    let late := ¬ bad ∧ ∀ k b, parseBlock p bytes = some (k, b) → k ≠ 0 ∧ k ≠ 7 ∧ b.seq ≠ (port s p).rxSeq
    (bad ∨ late → port t p = { port s p with asked := some (port s p).rxSeq }) ∧ (¬ bad → ¬ late → port t p = port s p) ∧
    (bad → fg t FAB_PORT_RETRY_CRC_FAIL p = min 65535 (fg s FAB_PORT_RETRY_CRC_FAIL p + 1)) ∧
    (¬ bad → fg t FAB_PORT_RETRY_CRC_FAIL p = fg s FAB_PORT_RETRY_CRC_FAIL p) ∧
    fg t FAB_PORT_FEC_UNCORR p = min 65535 (fg s FAB_PORT_FEC_UNCORR p + uncorr) ∧
    RegsKept s t [(FAB_PORT_FEC, p), (FAB_PORT_RETRY, p)] ∧ t = { s with regs := t.regs, ports := t.ports }) ∧
  (∀ (p seq : Nat) (ack : Option Nat) (b : LinkBlock), blockType b.ty = true → seq < 2 ^ 20 → (∀ a, ack = some a → a < 2 ^ 20) →
    b.dst < 2 ^ 16 → b.src < 2 ^ 16 → b.slice < 2 ^ 12 → b.reason < 16 → b.tid < 2 ^ 16 → b.offset < 2 ^ 48 → b.side < 2 ^ 32 →
    parseBlock p (wireBytes b seq ack) = some (b.ty, {
      port := p, seq := seq, ack := ack, dst := b.dst, src := b.src, slice := b.slice, reason := b.reason, tid := b.tid, offset := b.offset
      side := if quietSide b.ty then 0 else b.side, payload := if fullBlock b.ty then padTo 256 0 (b.payload.take 256) else [] })) ∧
  (∀ (b : RxBlock) (a : Nat) (s : State), linkLive s b.port = true → (port s b.port).step = 0 → b.ack = some a → a < 2 ^ 20 →
    let left := (port s b.port).retry.filter (fun h => !decide (Acknowledged a h))
    left ≠ [] →
    ((∀ h ∈ left, h.sends < 8) → (port s b.port).waiting = [] → Gives (.retryReq b) s fun t =>
      (port t b.port).retry = left.map (fun h => { h with sends := h.sends + 1, ack := (port s b.port).rxSeq }) ∧
      fg t FAB_PORT_RETRY_RESENT b.port = min 65535 (fg s FAB_PORT_RETRY_RESENT b.port + left.length) ∧
      RegsKept s t [(FAB_PORT_RETRY, b.port), (MC_EVENT, 0)]) ∧
    ((∃ h ∈ left, 8 ≤ h.sends) → Gives (.retryReq b) s fun t => portState t b.port = 6 ∧ (port t b.port).retry = [])) ∧
  (∀ (p : Nat) (s : State), linkLive s p = true → (port s p).retry ≠ [] → Gives (.ackTimeout p) s fun t =>
    portState t p = 6 ∧ (port t p).retry = [] ∧ (port t p).frames = 0 ∧ (port t p).rxSeq = (port s p).rxSeq)

/-- Training, hello, negotiation, SWITCH, and the ports that stay dark or down and try again. PORT_TRAINING_END: fewer than 7 wavelengths leave
the port DARK, or DOWN where it was an attempt of a DOWN port; with 7 or more its hello goes out. A first HELLO taken is recorded whole. In
the last step a hello with the own one acknowledged makes the port UP, DEGRADED with 2 wavelengths failed, or HELD for a changed neighbour.
SWITCH in step 3 moves the link to version 3, SEQ from 0; SWITCH_TIMEOUT leaves it at version 2; HELLO_TIMEOUT makes the port DARK, or DOWN
again. PORT_RETRAIN and DARK_PORT_RETRY start training again under the calibration budget. -/
def Obligations.PortsComeUpByHelloAndSwitch : Prop :=
  (∀ (p lanes : Nat) (s : State), p < 28 → (port s p).step = 1 → portState s p = 1 →
    let ok := (below 9).filter (fun k => bit lanes k)
    (ok.length < 7 → Gives (.portTrainingEnd p lanes) s fun t =>
      portState t p = (if 0 < (port s p).tries then 6 else 2) ∧ (port t p).step = 0 ∧ (port t p).known = (port s p).known ∧
      (port t p).tries = (port s p).tries) ∧
    (7 ≤ ok.length → Gives (.portTrainingEnd p lanes) s fun t =>
      (port t p).step = 2 ∧ portState t p = 1 ∧ fg t FAB_PORT_STATUS_LANES_FAILED p = 9 - ok.length ∧ SentLast s t p { ty := 8, payload := helloBytes s p } ∧
      RegsKept s t [(FAB_PORT_STATUS, p)])) ∧
  (∀ (b : RxBlock) (s : State), linkLive s b.port = true → b.seq = (port s b.port).rxSeq → b.ack = none → (port s b.port).known = false →
    Gives (.hello b) s fun t =>
      (rd t FAB_NBR_ID_LO b.port).toNat = helloField b.payload 4 4 ∧ (rd t FAB_NBR_ID_HI b.port).toNat = helloField b.payload 8 4 ∧
      fg t FAB_NBR_INFO_PORT b.port = helloField b.payload 3 1 ∧ fg t FAB_NBR_INFO_BOARD_ID b.port = helloField b.payload 12 1 % 32 ∧
      (port t b.port).known = true ∧ t.mem = s.mem ∧ t.streams = s.streams) ∧
  (∀ (b : RxBlock) (s : State), linkLive s b.port = true → b.seq = (port s b.port).rxSeq → b.ack = none → (port s b.port).step = 4 →
    (∀ h ∈ (port s b.port).retry, h.block.ty ≠ 8) →
    Gives (.hello b) s fun t => (port t b.port).step = 0 ∧
      portState t b.port = (if fg t FAB_PORT_STATUS_NBR_CHANGED b.port = 1 then 5 else if fg s FAB_PORT_STATUS_LANES_FAILED b.port ≥ 2 then 4 else 3)) ∧
  (∀ (b : RxBlock) (s : State), linkLive s b.port = true → b.seq = (port s b.port).rxSeq → b.ack = none →
    ((port s b.port).step = 3 → (port s b.port).swapping = false → Gives (.switch b) s fun t =>
      (port t b.port).step = 4 ∧ fg t FAB_PORT_STATUS_LINK_VER b.port = 3 ∧ fg t FAB_PORT_STATUS_V2 b.port = 0 ∧ (port t b.port).rxSeq = 0 ∧
      (port t b.port).retry.map (fun h => (h.seq, h.sends, h.block.ty)) = [(0, 1, 8)]) ∧
    ((port s b.port).step = 2 → Gives (.switch b) s fun t => (port t b.port).step = 2 ∧ (port t b.port).switched = true)) ∧
  (∀ (p : Nat) (s : State), p < 28 →
    ((port s p).step = 2 → Gives (.helloTimeout p) s fun t =>
      portState t p = (if 0 < (port s p).tries then 6 else 2) ∧ (port t p).step = 0) ∧
    ((port s p).step = 3 → (port s p).swapping = false → Gives (.switchTimeout p) s fun t =>
      (port t p).step = 4 ∧ fg t FAB_PORT_STATUS_LINK_VER p = 2 ∧ fg t FAB_PORT_STATUS_V2 p = 1 ∧
      (port t p).retry.map (fun h => (h.sends, h.block.ty)) = [(1, 8)] ∧ RegsKept s t [(FAB_PORT_STATUS, p)])) ∧
  (∀ (p energy : Nat) (s : State), p < 28 → budgetCovers s actCalib 0 0 energy = true →
    (portState s p = 6 → 1 ≤ (port s p).frames → (port s p).tries < 8 → Gives (.portRetrain p energy) s fun t =>
      portState t p = 1 ∧ port t p = { step := 1, known := (port s p).known, tries := (port s p).tries + 1 } ∧ RegsKept s t [(FAB_PORT_STATUS, p)]) ∧
    (portState s p = 2 → 1024 ≤ (port s p).frames → Gives (.darkPortRetry p energy) s fun t =>
      portState t p = 1 ∧ port t p = { step := 1, known := (port s p).known, tries := (port s p).tries } ∧
      (sget {} t.pwr.used actCalib).energy = (sget {} s.pwr.used actCalib).energy + energy ∧ RegsKept s t [(FAB_PORT_STATUS, p)]))

/-- A failed wavelength is replaced by the spare through LANE_SWAP; a further failure degrades the port, a third takes it DOWN. On a live port,
WAVELENGTH_FAIL of a data wavelength not yet failed, the first failure with a spare standing, counts it, gives the spare away and sends
LANE_SWAP; the LANE_SWAP that comes back ends the exchange. A second failure without a spare leaves an UP port DEGRADED, a third takes the
port DOWN. The uncorrectable codewords met are counted. -/
def Obligations.SpareWavelengthsTakeOver : Prop :=
  (∀ (p wave u : Nat) (s : State), linkLive s p = true → wave < 9 → wave ∉ (port s p).lost → wave ≠ (port s p).spare →
    let n := fg s FAB_PORT_STATUS_LANES_FAILED p
    (n = 0 → (port s p).spare < 9 → Gives (.wavelengthFail p wave u) s fun t =>
      fg t FAB_PORT_STATUS_LANES_FAILED p = 1 ∧ (port t p).spare = 9 ∧ (port t p).swapping = true ∧ (port t p).lost = (port s p).lost ++ [wave] ∧
      Outgoing (port t p) = (port s p).retry.map Held.block ++ { ty := 9 } :: (port s p).waiting ∧
      ((port s p).waiting = [] → SentLast s t p { ty := 9 }) ∧ portState t p = portState s p ∧
      fg t FAB_PORT_FEC_UNCORR p = min 65535 (fg s FAB_PORT_FEC_UNCORR p + u)) ∧
    (n = 1 → (port s p).spare = 9 → Gives (.wavelengthFail p wave u) s fun t =>
      fg t FAB_PORT_STATUS_LANES_FAILED p = 2 ∧ portState t p = (if portState s p = 3 then 4 else portState s p) ∧
      (port t p).retry = (port s p).retry) ∧
    (2 ≤ n → Gives (.wavelengthFail p wave u) s fun t =>
      fg t FAB_PORT_STATUS_LANES_FAILED p = 3 ∧ portState t p = 6 ∧ (port t p).retry = [])) ∧
  (∀ (b : RxBlock) (wave : Nat) (s : State), linkLive s b.port = true → b.seq = (port s b.port).rxSeq → b.ack = none →
    (port s b.port).swapping = true → Gives (.laneSwap b wave) s fun t =>
      (port t b.port).swapping = false ∧ (port t b.port).rxSeq = ((port s b.port).rxSeq + 1) % 2 ^ 20 ∧
      Outgoing (port t b.port) = Outgoing (port s b.port) ∧ ((port s b.port).waiting = [] → (port t b.port).retry = (port s b.port).retry) ∧
      RegsKept s t [(FAB_PORT_FEC, b.port)])

/-- A block for this module is taken on a usable port; the slice checks refuse it, in order, before anything is performed. On a port that
carries transactions, a block of the expected SEQ for this chip is taken and memory stands. One for another chip only counts in MISROUTED. A
write, a read, a tile or a signal that fails a slice check performs nothing: it is counted, FAB_LAST_REFUSAL takes its reason and chip, and
a COMPLETION goes back with the reason: 0x5 with no chip number or slice here, else 0x1 for another slice, else 0x2 for a source whose
route, which an own chip number and 0xFFFF do not have, is not valid and allowed. A refused signal to an existing ward sets REMOTE_REFUSED. -/
def Obligations.TransactionsAreRefusedAtIngress : Prop :=
  (∀ (b : RxBlock) (s : State), b.port < 28 → portUsable s b.port = true → b.seq = (port s b.port).rxSeq → b.ack = none →
    (fg s FAB_CHIP_VALID 0 = 0 ∨ b.dst = ownChip s) →
    ∃ u, takeTxnBlock s b = (u, true) ∧ (port u b.port).rxSeq = ((port s b.port).rxSeq + 1) % 2 ^ 20 ∧ u.mem = s.mem ∧ u.streams = s.streams ∧
      u.txns = s.txns ∧ u.queues = s.queues ∧ (port u b.port).retry = (port s b.port).retry) ∧
  (∀ (b : RxBlock) (n : Nat) (err : MemErr) (c : Instr) (s : State), b.port < 28 → portUsable s b.port = true → b.seq = (port s b.port).rxSeq → b.ack = none →
    fg s FAB_CHIP_VALID 0 = 1 → b.dst ≠ ownChip s →
    c ∈ [Instr.write b err, .readReq b n err, .readData b, .completion b, .release b, .signalBlock b, .sendData b n] →
    Gives c s fun t => fg t FAB_DROP_MISROUTED 0 = min 65535 (fg s FAB_DROP_MISROUTED 0 + 1) ∧ t.mem = s.mem ∧ t.txns = s.txns ∧
      (port t b.port).retry = (port s b.port).retry ∧ RegsKept s t [(FAB_PORT_FEC, b.port), (FAB_DROP, 0)]) ∧
  (∀ (b : RxBlock) (n : Nat) (err : MemErr) (c : Instr) (s u : State), takeTxnBlock s b = (u, true) →
    let mine := fg u FAB_CHIP_VALID 0 ≠ 0 ∧ ownSlice u ≠ 0
    let same := (if isV2 u b.port then fg u FAB_PORT_V2_SLICE b.port else b.slice) = ownSlice u
    let routed := b.src ≠ 0xFFFF ∧ ¬ (fg u FAB_CHIP_VALID 0 = 1 ∧ b.src = ownChip u) ∧ fg u FAB_ROUTE_VALID b.src ≠ 0 ∧ fg u FAB_ROUTE_ALLOW b.src ≠ 0
    let r := if ¬ mine then 5 else if ¬ same then 1 else 2
    ¬ (mine ∧ same ∧ routed) → c ∈ [Instr.write b err, .readReq b n err, .sendData b n, .signalBlock b] →
    Gives c s fun t =>
      SentLast u t b.port { ty := 4, dst := b.src, src := ownChip u, slice := ownSlice u, reason := r, tid := b.tid, side := sideWord u b.port } ∧
      fg t FAB_LAST_REFUSAL_REASON 0 = r ∧ fg t FAB_LAST_REFUSAL_CHIP 0 = b.src % 2 ^ 16 ∧ fg t FAB_LAST_REFUSAL_RECEIVED 0 = 0 ∧
      fg t FAB_REFUSE_SLICE_REFUSED 0 = min 65535 (fg u FAB_REFUSE_SLICE_REFUSED 0 + 1) ∧ t.mem = u.mem ∧ t.queues = u.queues ∧
      (c = .signalBlock b → bits b.offset 14 8 < wardCount u →
        fg t WARD_FCFG_REMOTE_REFUSED (flagIdx (bits b.offset 14 8) (bits b.offset 7 0)) = 1 ∧
        flagCount t (flagIdx (bits b.offset 14 8) (bits b.offset 7 0)) = flagCount u (flagIdx (bits b.offset 14 8) (bits b.offset 7 0))))

/-- What a transaction that passes the checks does here: a write, a read, a signal. A write to Tier 1 of at most 256 bytes, no sector of it
poisoned in part, puts its bytes there and nowhere else and answers COMPLETION with reason 0; one past every region is refused with 0x3. A
read is answered with READ_DATA of the bytes; one that meets an error beyond correction is refused, with some reason (the spec names none:
log 40); one of Tier 2 outside every SEALED slot is refused with 0x4. A signal to an EXT flag of a ward that is not dark adds its increment
modulo 2^16 and is acknowledged; to any other flag it is refused with 0x6. -/
def Obligations.RemoteWritesReadsAndSignals : Prop :=
  (∀ (b : RxBlock) (s u : State), takeTxnBlock s b = (u, true) → sliceCheck u b = none →
    (b.payload.length ≤ 256 → b.offset + b.payload.length ≤ tier1Size → partialPoison u b.offset b.payload.length = none →
      Gives (.write b .none) s fun t =>
        (∀ i, i < b.payload.length → readByte t (b.offset + i) = nth b.payload i 0) ∧ MemKept u t b.offset b.payload.length ∧
        SentLast u t b.port { ty := 4, dst := b.src, src := ownChip u, slice := ownSlice u, tid := b.tid, side := sideWord u b.port } ∧
        RegsKept u t [(DIST_SC_CNT, t1Stack u b.offset)]) ∧
    (∀ err, ctrlBase ≤ b.offset → Gives (.write b err) s fun t =>
      SentLast u t b.port { ty := 4, dst := b.src, src := ownChip u, slice := ownSlice u, reason := 3, tid := b.tid, side := sideWord u b.port } ∧
      fg t FAB_REFUSE_OTHER_REFUSED 0 = min 65535 (fg u FAB_REFUSE_OTHER_REFUSED 0 + 1) ∧ t.mem = u.mem)) ∧
  (∀ (b : RxBlock) (len : Nat) (s u : State), takeTxnBlock s b = (u, true) → sliceCheck u b = none → len ≤ 256 →
    (∀ bs, b.offset + len ≤ tier1Size → readTxn u true true (b.offset : Int) ((b.offset : Int), len) = .ok bs → Gives (.readReq b len .none) s fun t =>
      bs = memRead u b.offset len ∧ t.mem = u.mem ∧ RegsKept u t [(DIST_SC_CNT, t1Stack u b.offset)] ∧
      SentLast u t b.port { ty := 3, dst := b.src, src := ownChip u, slice := ownSlice u, tid := b.tid, offset := b.offset,
                            side := sideWord u b.port, payload := bs }) ∧
    (∀ bs err v d, b.offset + len ≤ tier1Size → readTxn u true true (b.offset : Int) ((b.offset : Int), len) = .ok bs →
      meetErr u err [(b.offset, len)] = (v, some d) → Gives (.readReq b len err) s fun t => t.mem = u.mem ∧ ∃ r, 1 ≤ r ∧ r ≤ 7 ∧
        SentLast u t b.port { ty := 4, dst := b.src, src := ownChip u, slice := ownSlice u, reason := r, tid := b.tid, side := sideWord u b.port }) ∧
    (∀ err, tier2Base ≤ b.offset → b.offset + len ≤ tier2Base + tier2Size →
      slotHolding u 2 ((b.offset : Int) - (tier2Base : Int)) ((b.offset : Int) + (len : Int) - (tier2Base : Int)) = none →
      Gives (.readReq b len err) s fun t => t.mem = u.mem ∧
        SentLast u t b.port { ty := 4, dst := b.src, src := ownChip u, slice := ownSlice u, reason := 4, tid := b.tid, side := sideWord u b.port })) ∧
  (∀ (b : RxBlock) (s u : State), takeTxnBlock s b = (u, true) → sliceCheck u b = none →
    let w := bits b.offset 14 8
    let n := flagIdx w (bits b.offset 7 0)
    (w < wardCount u → isDark u w = false → fg u WARD_FCFG_EXT n = 1 → Gives (.signalBlock b) s fun t =>
      flagCount t n = (flagCount u n + bits b.offset 23 16) % 2 ^ 16 ∧ t.mem = u.mem ∧
      SentLast u t b.port { ty := 4, dst := b.src, src := ownChip u, slice := ownSlice u, tid := b.tid, side := sideWord u b.port }) ∧
    (w < wardCount u → (isDark u w = true ∨ fg u WARD_FCFG_EXT n = 0) → Gives (.signalBlock b) s fun t =>
      flagCount t n = flagCount u n ∧ fg t WARD_FCFG_REMOTE_REFUSED n = 1 ∧
      SentLast u t b.port { ty := 4, dst := b.src, src := ownChip u, slice := ownSlice u, reason := 6, tid := b.tid, side := sideWord u b.port }))

/-- READ_DATA, COMPLETION, RELEASE and E2E_TIMEOUT: what an answer, a refusal or none does at the source. READ_DATA gives an outstanding read
its bytes; a COMPLETION without reason ends its transaction, counted as late where a forced abort had given it up; one with a reason faults
the executing command: FLT_REMOTE for a signal, FLT_ADDRESS for reasons 3 and 4, else FLT_LINK. A completion whose OFFSET has bit 47 set is
a release; that of the awaited round advances NEXT_REL. A transaction unanswered for E2E_TIMEOUT frames faults its command with FLT_LINK
naming the chip. -/
def Obligations.AnswersEndTransactions : Prop :=
  (∀ (b : RxBlock) (x : Txn) (s u : State), takeTxnBlock s b = (u, true) → findTxn u b.tid b.src = some x →
    (x.ty = 2 → x.dead = false → Gives (.readData b) s fun t =>
      t.txns = u.txns.map (fun y => if y = x then { y with data := some (padTo y.len 0 b.payload) } else y) ∧ t.mem = u.mem ∧ t.regs = u.regs) ∧
    (b.reason = 0 → bit b.offset 47 = false → Gives (.completion b) s fun t =>
      t.txns = u.txns.filter (fun y => y != x) ∧ t.mem = u.mem ∧ t.regs = u.regs ∧
      (x.dead = true → (stream t x.m).lateAck = (stream u x.m).lateAck + 1)) ∧
    (∀ c, 1 ≤ b.reason → b.reason ≤ 7 → bit b.offset 47 = false → x.dead = false → findCmd (stream u x.m).cmds x.num = some c → c.phase = .issued →
      (stream u x.m).st = .enabled → Gives (.completion b) s fun t =>
        (stream t x.m).st = .faulting ∧ fg t FAB_LAST_REFUSAL_REASON 0 = b.reason ∧ fg t FAB_LAST_REFUSAL_RECEIVED 0 = 1 ∧
        fg t WARD_SFAULT_CODE x.m = (if x.ty = 5 then 0x16 else if b.reason = 3 ∨ b.reason = 4 then 0x11 else 0x15) ∧
        (rd t WARD_SFAULT_DETAIL x.m).toNat = (if x.ty = 5 then x.chip else if b.reason = 3 ∨ b.reason = 4 then x.off else x.chip) % 2 ^ 32)) ∧
  (∀ (b : RxBlock) (m : Nat) (x : Stream) (e : Window) (s u : State), takeTxnBlock s b = (u, true) →
    let d := (b.src, bits b.offset 23 17, bits b.offset 16 11)
    let k := bits b.offset 39 24
    u.streams.find? (fun p => p.2.windows.any (fun e => windowIs d e && e.nextRel == k && e.sent.contains k)) = some (m, x) → stream u m = x →
    x.windows.find? (windowIs d) = some e → e.nextRel = k → bit b.offset 47 = true → ∀ i ∈ [Instr.release b, .completion b],
    Gives i s fun t => (∀ y ∈ (stream t m).windows, windowIs d y = true → y.nextRel = (k + 1) % 2 ^ 16 ∧ k ∉ y.sent) ∧
      (∀ y, windowIs d y = false → (y ∈ (stream t m).windows ↔ y ∈ x.windows)) ∧ t.mem = u.mem ∧ t.regs = u.regs) ∧
  (∀ (tid chip : Nat) (x : Txn) (c : Cmd) (s : State), findTxn s tid chip = some x → x.data = none → fg s FAB_CFG_E2E_TIMEOUT 0 ≤ x.age →
    x.dead = false → findCmd (stream s x.m).cmds x.num = some c → c.phase = .issued → (stream s x.m).st = .enabled →
    Gives (.e2eTimeout tid chip) s fun t => (stream t x.m).st = .faulting ∧ fg t WARD_SFAULT_CODE x.m = 0x15 ∧
      (rd t WARD_SFAULT_DETAIL x.m).toNat = x.chip % 2 ^ 32 ∧ t.txns = s.txns.filter (fun y => y != x))

/-- SEND_DATA fills a region slot or is refused; ARRIVAL_DRAIN moves the tile at the drain point into the queue and releases its round. A tile
block that passes the checks on a version 3 port and that the destination refuses (no such ward or arrival queue, rank, round outside
WINDOW, slot taken, size) is answered with reason 0x3 and writes nothing; on a version 2 port, with 0x7. Any other is written into its slot
of the region, and the last block of a tile is acknowledged. The complete tile at the drain point with a free slot is pushed under the next
reserved number, its region slot is free, the drain point advances by rank then round, and the release goes out. -/
def Obligations.TilesArriveInRankOrder : Prop :=
  (∀ (b : RxBlock) (total : Nat) (s u : State), takeTxnBlock s b = (u, true) → sliceCheck u b = none →
    let w := bits b.offset 23 17
    let q := bits b.offset 16 11
    let r := bits b.offset 47 40
    let k := bits b.offset 39 24
    let n := qidx w q
    let answer := fun (reason : Nat) => ({ ty := 4, dst := b.src, src := ownChip u, slice := ownSlice u, reason := reason, tid := b.tid,
                                           side := sideWord u b.port } : LinkBlock)
    (isV2 u b.port = true → Gives (.sendData b total) s fun t => SentLast u t b.port (answer 7) ∧ t.mem = u.mem ∧ t.arrivals = u.arrivals) ∧
    (isV2 u b.port = false → arrivalRefuses u w q r k b.src b.tid total = true →
      Gives (.sendData b total) s fun t => SentLast u t b.port (answer 3) ∧ t.mem = u.mem ∧ t.arrivals = u.arrivals) ∧
    (isV2 u b.port = false → arrivalRefuses u w q r k b.src b.tid total = false → bits b.offset 8 0 < ceilDiv total 256 →
      arrivalPoison u w q r k total (bits b.offset 8 0) b.payload = none →
      Gives (.sendData b total) s fun t =>
        (∃ x ∈ (arrival t n).slots, x.index = regionIndex u n k r ∧ bits b.offset 8 0 ∈ x.got ∧
          ((port t b.port).retry = (port u b.port).retry ∨ (x.got.length = ceilDiv total 256 ∧ SentLast u t b.port (answer 0)))) ∧
        MemKept u t (regionKey u n (regionIndex u n k r)) (regionSlot u n))) ∧
  (∀ (n : Nat) (x : ASlot) (s : State), isArrival s n = true → drainTile s n = some x → qFree s n (queueRt s n).resvPush = true →
    poisoned s (regionKey s n x.index) (min (x.total - 16) (qSlotBytes s n)) = false →
    poisoned s (regionKey s n x.index + qSlotBytes s n) 16 = false →
    Gives (.arrivalDrain n .none) s fun t =>
      (queueRt t n).resvPush = (queueRt s n).resvPush + 1 ∧ (findPushed (queueRt t n).pushed (queueRt s n).resvPush).isSome = true ∧
      (arrival t n).slots = (arrival s n).slots.filter (fun y => y.index != x.index) ∧
      (let last := x.rank + 1 ≥ fg s WARD_QARR_CFG_NRANK n
       fg t WARD_QARR_STAT_DRAIN_RANK n = (if last then 0 else x.rank + 1) % 2 ^ 8 ∧
       fg t WARD_QARR_STAT_DRAIN_ROUND n = (if last then x.round + 1 else x.round) % 2 ^ 16) ∧
      (∀ p, x.home = none → egressPort s x.chip 0 true = some p → SentLast s t p
        { ty := 4, dst := x.chip, src := ownChip s, slice := ownSlice s, offset := releaseOffset x.round (n / 64) (n % 64), side := sideWord s p }))

/-- An atomic on an aligned Tier 1 address stores its value, answers the old one and changes no other byte; a misaligned one traps. For ADD,
MAX, MIN, SWAP and CAS in every format and from every source that has them, and for AMOFADD, AMOFMAX and AMOFMIN: on an aligned, unpoisoned
Tier 1 address whose read meets no error beyond correction, the hart's own earlier stores become visible first, the old value is read, the
new one stored (integers wrap, a swap stores its operand, a compare-and-swap only on equality, a maximum or minimum one of the two), no
other byte changes, the hart's register or a PCIe completion takes the old value, and reservations on the line are broken. Poison or an
error beyond correction changes no byte and no hart register: exception 7, or Completer Abort. A misaligned address gives the hart exception
6, one outside Tier 1 exception 7, PCIe Completer Abort, and nothing is stored. A format or a source that an operation does not have leaves
the block as it is. -/
def Obligations.AtomicsReadModifyAndWrite : Prop :=
  ∀ (h src rd addr fmt v cmp : Nat) (err : MemErr) (s : State) (op : AtomOp) (who f : Nat) (c : Instr),
    (op, who, f, c) ∈ [(AtomOp.add, src, fmt, Instr.atomicAdd src rd addr fmt v err), (.max, src, fmt, .atomicMax src rd addr fmt v err),
      (.min, src, fmt, .atomicMin src rd addr fmt v err), (.swap, src, fmt, .atomicSwap src rd addr fmt v err),
      (.cas, src, fmt, .atomicCas src rd addr fmt v cmp err), (.add, h % 32, 4, .amofaddS h rd addr v err),
      (.add, h % 32, 5, .amofaddB h rd addr v err), (.max, h % 32, 4, .amofmax h rd addr v 0 err), (.max, h % 32, 5, .amofmax h rd addr v 1 err),
      (.min, h % 32, 4, .amofmin h rd addr v 0 err), (.min, h % 32, 5, .amofmin h rd addr v 1 err)] →
    (atomFmtOk op f = false ∨ atomSourceOk s who op f = false → Gives c s fun t => t = s) ∧
    (atomFmtOk op f = true → atomSourceOk s who op f = true →
    let n := atomBytes f
    let w := 8 * n
    let met := meetErr s err [(addr, n)]
    let s1 := if who < 32 then hostFence met.1 who else met.1
    let old := ofBytesLE (memRead s1 addr n)
    (addr % n = 0 → addr + n ≤ tier1Size → poisoned s addr n = false → met.2 = none → Gives c s fun t =>
      MemKept s1 t addr n ∧
      (let new := ofBytesLE (memRead t addr n)
       (f ≤ 3 → (op = .add → new = (old + v) % 2 ^ w) ∧ (op = .swap → new = v % 2 ^ w) ∧
         (op = .cas → new = if old = cmp % 2 ^ w then v % 2 ^ w else old) ∧
         (op = .max ∨ op = .min → new = old ∨ new = v % 2 ^ w) ∧
         ((f = 2 ∨ f = 3) → (op = .max → old ≤ new ∧ v % 2 ^ w ≤ new) ∧ (op = .min → new ≤ old ∧ new ≤ v % 2 ^ w)) ∧
         ((f = 0 ∨ f = 1) → (op = .min → signed w new ≤ signed w old ∧ signed w new ≤ signed w (v % 2 ^ w)) ∧
           (op = .max → signed w old ≤ signed w new ∧ signed w (v % 2 ^ w) ≤ signed w new))) ∧
       (f = 4 → op = .add → new = (fadd32 old (v % 2 ^ w)).1) ∧
       (f = 4 → op = .max ∨ op = .min → new = (pick32 (op == .min) old (v % 2 ^ w)).1)) ∧
      (who < 32 → rd % 32 ≠ 0 → sget 0 t.host.regs (32 * who + rd % 32) = if f = 0 ∨ f = 2 then (signed 32 old % 2 ^ 64).toNat else old) ∧
      (who < 32 → rd % 32 = 0 → t.host.regs = s.host.regs) ∧ (who = 32 → t.host.tlps = s.host.tlps ++ [(0, old)]) ∧
      ∀ r ∈ t.host.resv, r ∈ s.host.resv ∧ ¬(r.2 * 64 < addr + n ∧ addr < r.2 * 64 + 64)) ∧
    (addr % n = 0 → addr + n ≤ tier1Size → poisoned s addr n = true ∨ met.2.isSome = true → Gives c s fun t =>
      t.mem = s.mem ∧ t.host.regs = s.host.regs ∧ (who < 32 → t.host.traps = s.host.traps ++ [(who, 7)]) ∧
      (who = 32 → t.host.tlps = s.host.tlps ++ [(4, 0)])) ∧
    (addr % n ≠ 0 → Gives c s fun t => t.mem = s.mem ∧ t.regs = s.regs ∧ (who < 32 → t.host.traps = s.host.traps ++ [(who, 6)]) ∧
      (who = 32 → t.host.tlps = s.host.tlps ++ [(4, 0)])) ∧
    (addr % n = 0 → tier1Size < addr + n → Gives c s fun t => t.mem = s.mem ∧ t.regs = s.regs ∧
      (who < 32 → t.host.traps = s.host.traps ++ [(who, 7)]) ∧ (who = 32 → t.host.tlps = s.host.tlps ++ [(4, 0)])))

/-- A narrow element decodes to its value times two to the scale less 127, exactly; scale 0xFF gives the canonical NaN. Every element of a block
with scale 0xFF decodes to the canonical FP32 NaN, whatever its bits and format, and counts nothing. Under a scale s of 0 to 0xFE a finite
element decodes to the FP32 value equal to its own value times 2^(s-127), for CS4 times its fine factor, with its sign and no event, where
that value is below 2^128. An FP32, BF16 or E5M2 infinity is read as the largest finite value with its sign, with one overflow event; no
other code counts one, and a BF16 NaN widens to the canonical NaN. -/
def Obligations.NarrowElementsDecodeByTheirScale : Prop :=
  (∀ f fine c : Nat, decodeNarrow f 0xFF fine c = (nan32, {})) ∧
  (∀ (f s fine c m : Nat) (neg : Bool) (e : Int) (ev : Ev), 4 ≤ f → f ≤ 12 → s ≤ 0xFE → c < 2 ^ elemBits f → elemValue f c = (.fin neg m 1 e, ev) →
    let k := if f = fCs4 then fineQuarters fine else 4
    let x := e + ((s : Int) - 127) - 2
    m * k * pow2 (x - 100) < 2 ^ 28 * pow2 (100 - x) →
    ∃ m' e', ofFp32 (decodeNarrow f s fine c).1 = (.fin neg m' 1 e', {}) ∧
      m' * pow2 (e' + 150) = m * k * pow2 (x + 150) ∧ (decodeNarrow f s fine c).2 = ev) ∧
  (∀ w : Nat, w < 2 ^ 32 → (w % 2 ^ 31 = 0x7F800000 → ofFp32 w = (.fin (bit w 31) (2 ^ 24 - 1) 1 104, ⟨1, 0⟩)) ∧
    (w % 2 ^ 31 ≠ 0x7F800000 → (ofFp32 w).2 = {})) ∧
  (∀ w : Nat, w < 2 ^ 16 → (w % 2 ^ 15 = 0x7F80 → ofBf16 w = (.fin (bit w 15) (2 ^ 8 - 1) 1 120, ⟨1, 0⟩) ∧ wideElem 2 w = ((w - 1) * 2 ^ 16, ⟨1, 0⟩)) ∧
    (w % 2 ^ 15 ≠ 0x7F80 → (ofBf16 w).2 = {} ∧ wideElem 2 w = (if w % 2 ^ 15 > 0x7F80 then nan32 else w * 2 ^ 16, {}))) ∧
  (∀ f c : Nat, 4 ≤ f → f ≤ 12 → c < 2 ^ elemBits f → (f = fE5m2 ∧ c % 128 = 0x7C → elemValue f c = (.fin (bit c 7) 7 1 13, ⟨1, 0⟩)) ∧
    (¬(f = fE5m2 ∧ c % 128 = 0x7C) → (elemValue f c).2 = {}))

/-- Every lane and row instruction of the VE writes its result, lane by lane, into D and goes on to the next instruction. With an invocation at
the instruction's word, each of the arithmetic, compare, select, conversion, integer, BF16, lookup, scale, row and kerf instructions writes
D with the value of the table for every lane, row operations their result into every lane of the row; the program counter and the count of
instructions advance by one; nothing else of the machine changes but the event counters, the busy clocks and what they total. -/
def Obligations.LaneInstructionsWriteTheirResults : Prop :=
  ∀ (w d a b cc m k j : Nat) (c : Cmd) (s : State) (i : Instr) (word clocks : Nat) (result : List Nat),
    d < 64 → a < 64 → b < 64 → cc < 64 → m < 256 → k < 2 ^ 24 →
    let v := veRt s w
    let A := v.reg a
    let B := v.reg b
    let C := v.reg cc
    let each := fun (f : Nat → Nat) => (below 256).map f
    let at' := fun (r : List Nat) (p : Nat) => nth r p 0
    let row := fun (f : List Nat → Nat) => List.replicate 128 (f (padTo 128 0 (A.take 128))) ++ List.replicate 128 (f (padTo 128 0 (A.drop 128)))
    let half := fun (r : List Nat) (p h : Nat) => bits (at' r p) (16 * h + 15) (16 * h)
    (i, word, clocks, result) ∈ [
      (Instr.fadd w d a b, veWord 0x01 d a b 0 0 0, 1, each (fun p => (fadd32 (at' A p) (at' B p)).1)),
      (.fsub w d a b, veWord 0x02 d a b 0 0 0, 1, each (fun p => (fsub32 (at' A p) (at' B p)).1)),
      (.fmul w d a b, veWord 0x03 d a b 0 0 0, 1, each (fun p => (fmul32 (at' A p) (at' B p)).1)),
      (.ffma w d a b cc, veWord 0x04 d a b cc 0 0, 1, each (fun p => (ffma32 (at' A p) (at' B p) (at' C p)).1)),
      (.fmin w d a b, veWord 0x05 d a b 0 0 0, 1, each (fun p => (pick32 true (at' A p) (at' B p)).1)),
      (.fmax w d a b, veWord 0x06 d a b 0 0 0, 1, each (fun p => (pick32 false (at' A p) (at' B p)).1)),
      (.fsqrt w d a, veWord 0x07 d a 0 0 0 0, 4, A.map (fun x => (fsqrt32 x).1)),
      (.fcmp w d a b m, veWord 0x08 d a b 0 m 0, 1, each (fun p => (fcmp32 m (at' A p) (at' B p)).1)),
      (.fsel w d a b cc, veWord 0x09 d a b cc 0 0, 1, each (fun p => if at' C p % 2 = 1 then at' A p else at' B p)),
      (.cvt w d a 0, veWord 0x0A d a 0 0 0 0, 1, packBf (each (fun p => (toBf16 (ofFp32 (at' A p)).1).1))),
      (.cvt w d a 1, veWord 0x0A d a 0 0 1 0, 1, each (fun p => (toFp32 (ofBf16 (half A (p / 2) (p % 2))).1).1)),
      (.cvt w d a 2, veWord 0x0A d a 0 0 2 0, 1, A.map (fun x => (toInt32 x).1)),
      (.cvt w d a 3, veWord 0x0A d a 0 0 3 0, 1, A.map (fun x => (ofInt32Fp x).1)),
      (.vint w d a b m, veWord 0x0B d a b 0 m 0, 1, each (fun p => intOp m (at' A p) (at' B p))),
      (.badd w d a b, veWord 0x10 d a b 0 0 0, 1, each (fun p =>
        (opBf16 (half A p 0) (half B p 0) FV.add).1 + (opBf16 (half A p 1) (half B p 1) FV.add).1 * 2 ^ 16)),
      (.bmul w d a b, veWord 0x11 d a b 0 0 0, 1, each (fun p =>
        (opBf16 (half A p 0) (half B p 0) FV.mul).1 + (opBf16 (half A p 1) (half B p 1) FV.mul).1 * 2 ^ 16)),
      (.bfma w d a b cc, veWord 0x12 d a b cc 0 0, 1, each (fun p =>
        (bfma16 (half A p 0) (half B p 0) (half C p 0)).1 + (bfma16 (half A p 1) (half B p 1) (half C p 1)).1 * 2 ^ 16)),
      (.scalb w d a b, veWord 0x19 d a b 0 0 0, 1, each (fun p => (scalb32 (at' A p) (at' B p)).1)),
      (.rsum w d a, veWord 0x20 d a 0 0 0 0, 1, row (fun xs => (rowSum xs).1)),
      (.rmax w d a, veWord 0x21 d a 0 0 0 0, 1, row (fun xs => (rowMax xs).1)),
      (.ridx w d a, veWord 0x22 d a 0 0 0 0, 1, row rowIdx),
      (.kerf w d a b cc, veWord 0x38 d a b cc 0 0, 4, each (fun p =>
        kerfDraw (jobSeed s) (v.xreg a % 2 ^ 16) (bits c.imm 47 16) (v.xreg b % 2 ^ 16 * 2 ^ 32 + at' C p) c.step))] →
    VeAt s w j c word → Gives i s fun t =>
      veRt t w = { v.setReg d result with pc := v.pc + 1, count := v.count + 1 } ∧ VeFrame s t w clocks

/-- Loads of tile rows, header fields, tables and parameters, staging, FREXP, scalar arithmetic and branches of the VE. LDT and LDR read rows 2X
and 2X+1 of a tile of the run, decoded or raw, LDT counting reserved T2 codes; TLU the words at K plus four times each lane, or FLT_KERNEL
beyond the region; FREXP its fraction into D and exponent into D+1; STT a register into a staging tile; LDH a field of the tile's header
(numbered in the order of its table, the choice of the model, log 4), XALU and XLDP a scalar register; BR goes to K or on. A tile that is
not there is FLT_KERNEL with the instruction index; a read that meets an error beyond correction is FLT_UNCORRECTABLE with its detail. (What
a header field code past 7, a row pair past 63 or a parameter past 15 reads as is open, and a row pair past 63 is not stored: log 4.) -/
def Obligations.ScalarAndTileInstructionsOfTheVe : Prop :=
  ∀ (w d a b m k j : Nat) (c : Cmd) (err : MemErr) (s : State), d < 64 → a < 64 → b < 64 → m < 256 → k < 2 ^ 24 →
    let v := veRt s w
    let on := fun (x : VeRt) => { x with pc := v.pc + 1, count := v.count + 1 }
    let met := meetErr s err (veTileRuns s w c m k)
    let faults := fun (i : Instr) (code detail : Nat) => (stream s j).st = .enabled → Gives i s fun t => Faulted t j code detail
    (∀ (i : Instr) (op : Nat), (op, i) ∈ [(0x28, Instr.ldt w d a m k err), (0x29, .ldr w d a m k err)] → VeAt s w j c (veWord op d a 0 0 m k) →
      (met.2 = none → ∀ h bs, veTile met.1 w c m k = some (.ok (h, bs)) → Gives i s fun t =>
        VeFrame met.1 t w 1 [(WARD_NCNT_MISC, w)] ∧
        (v.xreg a < 64 → veRt t w = on (v.setReg d
          (if op = 0x28 then (tileLanes (veFmt c m h) bs (v.xreg a)).1 else rawLanes bs (v.xreg a)))) ∧
        (64 ≤ v.xreg a → ∃ x, veRt t w = on (v.setReg d x)) ∧
        (op = 0x28 → v.xreg a < 64 → fg t WARD_NCNT_MISC_CODE_RESERVED w =
          min (2 ^ 16 - 1) (fg s WARD_NCNT_MISC_CODE_RESERVED w + rowCodes (veFmt c m h) bs (v.xreg a)))) ∧
      (veTile s w c m k = none → faults i 0x17 v.pc) ∧ (∀ x, met.2 = some x → faults i 0x12 x)) ∧
    (VeAt s w j c (veWord 0x18 d a 0 0 0 k) →
      ((∀ x ∈ v.reg a, k + 4 * x + 4 ≤ 0x10000 ∧ poisoned s (kstoreKey w (0x20000 + k + 4 * x)) 4 = false) → Gives (.tlu w d a k) s fun t =>
        veRt t w = on (v.setReg d ((v.reg a).map (fun x => kstoreWord s w (0x20000 + k + 4 * x) 4))) ∧ VeFrame s t w 4) ∧
      ((∃ x ∈ v.reg a, 0x10000 < k + 4 * x + 4) → faults (.tlu w d a k) 0x17 v.pc)) ∧
    (VeAt s w j c (veWord 0x1A d a 0 0 0 0) → Gives (.frexp w d a) s fun t =>
      let x := v.setReg d ((v.reg a).map (fun x => (frexpFrac x).1))
      veRt t w = on (if d = 63 then x else x.setReg (d + 1) ((v.reg a).map frexpExp)) ∧ VeFrame s t w 1) ∧
    (VeAt s w j c (veWord 0x2A 0 a b 0 m 0) → Gives (.stt w a b m) s fun t =>
      veRt t w = on (if 64 ≤ v.xreg a then v else if m = 0 then { v with stage0 := putReg v.stage0 (v.xreg a) (v.reg b) }
        else { v with stage1 := putReg v.stage1 (v.xreg a) (v.reg b) }) ∧ VeFrame s t w 1) ∧
    (VeAt s w j c (veWord 0x2C d 0 b 0 m k) → (∀ h bs, veTile s w c m (v.xreg b) = some (.ok (h, bs)) → Gives (.ldh w d b m k) s fun t =>
        veRt t w = on (v.setX d (hdrField h k)) ∧ VeFrame s t w 1) ∧
      (veTile s w c m (v.xreg b) = none → faults (.ldh w d b m k) 0x17 v.pc)) ∧
    (VeAt s w j c (veWord 0x30 d a b 0 m 0) → Gives (.xalu w d a b m) s fun t =>
      veRt t w = on (v.setX d (intOp m (v.xreg a) (v.xreg b))) ∧ VeFrame s t w 1) ∧
    (VeAt s w j c (veWord 0x31 d 0 0 0 0 k) → poisoned s (kstoreKey w (0x30000 + 64 * bits c.imm 63 48 + 4 * (k % 16))) 4 = false →
      Gives (.xldp w d k) s fun t =>
        (∃ x, (k < 16 → x = paramWord s w (bits c.imm 63 48) k) ∧ veRt t w = on (v.setX d x)) ∧ VeFrame s t w 1) ∧
    (VeAt s w j c (veWord 0x32 0 a b 0 m k) → Gives (.br w a b m k) s fun t =>
      let taken := if m = 0 then v.xreg a = v.xreg b else if m = 1 then v.xreg a ≠ v.xreg b
        else signed 32 (v.xreg a % 2 ^ 32) < signed 32 (v.xreg b % 2 ^ 32)
      (taken → (veRt t w).pc = k) ∧ (¬ taken → (veRt t w).pc = v.pc + 1) ∧ (veRt t w).count = v.count + 1 ∧ (veRt t w).xs = v.xs ∧
      (veRt t w).vr = v.vr ∧ VeFrame s t w 1)

/-- VOP starts an invocation with its scalar registers set, PUSH pushes a staging tile, END ends the invocation and its unit. VOP with its input
tiles visible and no invocation of its command in progress starts one at the word after the kernel's header, X0 the iteration, X1 the run's
length, X16 to X31 the parameter block, all other registers +0. In an invocation of a user kernel it finds a malformed word, the end of the
code region or the instruction limit: FLT_KERNEL. In one of a library kernel it pushes the next tile on an end that has one due and a free
slot. An error beyond correction in what it reads is FLT_UNCORRECTABLE. PUSH within the header's count and with a free slot pushes the
staging tile under the end's next number, in the end's format, and empties it; past the count, or on an absent end, it is FLT_KERNEL. END
with every push made ends the invocation and the command's unit; with one missing it is FLT_KERNEL. -/
def Obligations.KernelsStartPushAndEnd : Prop :=
  (∀ (w m : Nat) (c : Cmd) (err : MemErr) (s : State), jobOf s w 4 0x10 = some (m, c) →
    let blk := 0x30000 + 64 * bits c.imm 63 48
    let now := (veRt s w).active && (veRt s w).stream == m && (veRt s w).num == c.num
    let run := if now then (if isLibrary c then endRuns s w c else [fetchRun w (veRt s w)]) else [(kstoreKey w blk, 64)]
    let met := meetErr s err run
    (met.2 = none → now = false → c.stopping = false → inputsVisible s w c (runOf c) = true → poisoned s (kstoreKey w blk) 64 = false →
      Gives (.vop w err) s fun t =>
        let v := veRt t w
        v.active = true ∧ v.stream = m ∧ v.num = c.num ∧ v.pc = bits c.imm 15 0 + 1 ∧ v.count = 0 ∧ v.push0 = 0 ∧ v.push1 = 0 ∧ v.vr = [] ∧
        v.xreg 0 = c.iter % 2 ^ 32 ∧ v.xreg 1 = runLength c ∧ (∀ k, k < 16 → v.xreg (16 + k) = paramWord s w (bits c.imm 63 48) k) ∧
        (∀ k, 2 ≤ k → k < 16 → v.xreg k = 0) ∧
        fg t VE_STATUS_BUSY w = 1 ∧ fg t VE_STATUS_TAG w = c.tag ∧ RegsKept met.1 t [(VE_STATUS, w)] ∧ t.mem = s.mem ∧ t.queues = s.queues) ∧
    (∀ d, met.2 = some d → (stream s m).st = .enabled → Gives (.vop w err) s fun t => Faulted t m 0x12 d) ∧
    (met.2 = none → now = true → isLibrary c = false → poisoned s (fetchRun w (veRt s w)).1 8 = false → (stream s m).st = .enabled →
      0x4000 ≤ (veRt s w).pc ∨ veWellFormed (kstoreWord s w (8 * (veRt s w).pc) 8) = false ∨ 2 ^ 24 ≤ (veRt s w).count →
      Gives (.vop w err) s fun t => Faulted t m 0x17 (veRt s w).pc) ∧
    (met.2 = none → now = true → isLibrary c = true → ∀ out, libOut met.1 w c = .ok (some out) → ∀ e, libEnd s w c (veRt s w) = some e →
      isDark s (outWard w (c.out e)) = false → c.stopping = false → Gives (.vop w err) s fun t =>
        PushedTile s t (outQ w c e) (nextOut c e) (pushFmt c e) c.tag ∧
        (veRt t w).push0 = (veRt s w).push0 + (1 - e) ∧ (veRt t w).push1 = (veRt s w).push1 + e)) ∧
  (∀ (w m j : Nat) (c : Cmd) (s : State), m < 2 → VeAt s w j c (veWord 0x2B 0 0 0 0 m 0) →
    let v := veRt s w
    let made := if m = 0 then v.push0 else v.push1
    (c.stopping = false → made < pushesDue c m → outPresent (c.out m) = true → isDark s (outWard w (c.out m)) = false → canPush s w c m 1 = true →
      Gives (.push w m) s fun t =>
        PushedTile s t (outQ w c m) (nextOut c m) (pushFmt c m) c.tag ∧ (veRt t w).pc = v.pc + 1 ∧ (veRt t w).count = v.count + 1 ∧
        (m = 0 → (veRt t w).push0 = made + 1 ∧ (veRt t w).stage0 = [] ∧ (veRt t w).stage1 = v.stage1) ∧
        (m = 1 → (veRt t w).push1 = made + 1 ∧ (veRt t w).stage1 = [] ∧ (veRt t w).stage0 = v.stage0) ∧
        (veRt t w).vr = v.vr ∧ (veRt t w).xs = v.xs ∧ fg t VE_BUSY_CLOCKS w = min (2 ^ 32 - 1) (fg s VE_BUSY_CLOCKS w + 64)) ∧
    (outPresent (c.out m) = false → (stream s j).st = .enabled → Gives (.push w m) s fun t => Faulted t j 0x17 v.pc) ∧
    (pushesDue c m ≤ made → (stream s j).st = .enabled → Gives (.push w m) s fun t => Faulted t j 0x17 v.pc)) ∧
  (∀ (w j : Nat) (c : Cmd) (s : State), VeAt s w j c (veWord 0x33 0 0 0 0 0 0) →
    let v := veRt s w
    (pushesDue c 0 ≤ v.push0 → pushesDue c 1 ≤ v.push1 → Gives (.endKernel w) s fun t =>
      veRt t w = {} ∧ UnitDone t j c ∧ t.mem = s.mem ∧ (unitCount c ≤ c.iter + 1 → fg t VE_STATUS_BUSY w = 0) ∧
      fg t VE_BUSY_CLOCKS w = min (2 ^ 32 - 1) (fg s VE_BUSY_CLOCKS w + 1) ∧ RegsKept s t [(VE_BUSY, w), (VE_STATUS, w)]) ∧
    ((v.push0 < pushesDue c 0 ∨ v.push1 < pushesDue c 1) → (stream s j).st = .enabled → Gives (.endKernel w) s fun t => Faulted t j 0x17 v.pc))

/-- QUANT reads a tile of its input format and pushes it in its output format; another format is FLT_FORMAT. One tile of the QUANT that a ward's
VE executes, with a free slot: a valid tile of the command's format and tag is pushed under the end's next number, the command's unit is
done, 192 clocks are counted, and no byte outside the slot changes. A tile of another format than the command names faults with the format,
the ward and the queue; a truncated one with FLT_TRUNCATED_INPUT and the tag of its producer; a read that meets an error beyond correction
with FLT_UNCORRECTABLE. -/
def Obligations.QuantPushesItsTileOrFaults : Prop :=
  ∀ (w m : Nat) (c : Cmd) (v : List Nat) (vs : List (List Nat)) (err : MemErr) (s : State), jobOf s w 4 0x28 = some (m, c) →
    nth (units c) c.iter [] = v :: vs →
    let met := engineMeets s w 4 err (endRuns s w c)
    (met.2 = none → ∀ h bs, readIn met.1 w c 0 (inOffset c.desc 0 v) = .ok (h, bs) →
      (h.fmt = c.fmtA → isDark s (outWard w (c.out 0)) = false → canPush s w c 0 1 = true → Gives (.quant w err) s fun t =>
        PushedTile s t (outQ w c 0) (nextOut c 0) c.fmtOut c.tag ∧ UnitDone t m c ∧
        fg t VE_BUSY_CLOCKS w = min (2 ^ 32 - 1) (fg s VE_BUSY_CLOCKS w + 192) ∧ (veRt t w) = veRt s w) ∧
      (h.fmt ≠ c.fmtA → (stream s m).st = .enabled → Gives (.quant w err) s fun t =>
        Faulted t m 0x19 (h.fmt * 2 ^ 16 + w * 2 ^ 8 + inQueue (c.inp 0)))) ∧
    (met.2 = none → ∀ code d, readIn met.1 w c 0 (inOffset c.desc 0 v) = .fault code d → code < 256 → (stream s m).st = .enabled →
      Gives (.quant w err) s fun t => Faulted t m code d) ∧
    (∀ d, met.2 = some d → (stream s m).st = .enabled → Gives (.quant w err) s fun t => Faulted t m 0x12 d)

/-- COMMAND_LOAD appends the next available command, copied from its ring; one that fails its checks is held with its fault and not counted. On
an enabled stream of an ACTIVE ward with a command available and none that failed, the next command of the ring is appended: its number, its
four words as they stand in the ring (version 3), the stream's step. With its checks passed LOADED advances modulo 2^32, and STEP with it
where the command advances the step; a command that fails stays with its fault, LOADED and STEP as they were: an opcode that is not assigned
with FLT_ILLEGAL_OPCODE, a ring slot that is poisoned or meets an error beyond correction with FLT_UNCORRECTABLE, its detail and tag 0.
Memory, queues and every other stream stand. -/
def Obligations.CommandsLoadInOrder : Prop :=
  ∀ (m : Nat) (err : MemErr) (s : State), (stream s m).st = .enabled → wardActive s (m / 8) = true → (stream s m).avail ≠ fg s WARD_SFETCH_LOADED m →
    (∀ c ∈ (stream s m).cmds, c.fault = none) →
    let a := ringKey s m (fg s WARD_SFETCH_LOADED m)
    let met := meetErr s err [(a, 32)]
    Gives (.commandLoad m err) s fun t =>
      ∃ c, (stream t m).cmds = (stream s m).cmds ++ [c] ∧ c.num = fg s WARD_SFETCH_LOADED m ∧ c.phase = .loaded ∧
        (∀ d, poisonDetail s a 32 = some d → c.fault = some (0x12, d) ∧ c.tag = 0) ∧
        (poisoned s a 32 = false → ∀ d, met.2 = some d → c.fault = some (0x12, d) ∧ c.tag = 0) ∧
        (poisoned s a 32 = false → met.2 = none → fg s WARD_SCFG_VERSION m ≠ 2 →
          [c.w0, c.w1, c.w2, c.w3] = wordsAt s a 4 ∧ c.step = (rd s WARD_SSTEP m).toNat ∧
          (opcodes.contains c.opcode = false → c.fault = some (0x01, c.opcode))) ∧
        (c.fault = none → fg t WARD_SFETCH_LOADED m = (c.num + 1) % 2 ^ 32 ∧
          (rd t WARD_SSTEP m).toNat = (if c.stepAdv then (c.step + 1) % 2 ^ 32 else (rd s WARD_SSTEP m).toNat)) ∧
        (c.fault ≠ none → rd t WARD_SFETCH m = rd s WARD_SFETCH m ∧ rd t WARD_SSTEP m = rd s WARD_SSTEP m) ∧
        (stream t m).st = .enabled ∧ (stream t m).avail = (stream s m).avail ∧
        (err = .none → RegsKept s t (if c.fault = none then [(WARD_SFETCH, m), (WARD_SSTEP, m)] else [])) ∧ t.mem = s.mem ∧ t.queues = s.queues ∧
        (∀ k, k ≠ m → (stream t k).cmds = (stream s k).cmds ∧ (stream t k).st = (stream s k).st)

/-- WAIT, SIGNAL, HINT and MARK complete as they issue, with their effect and their signal; a command not ready does not issue. A WAIT whose
flag has reached its target, a SIGNAL, a HINT and a MARK (one that opens a step boundary too) complete at issue; a signal adds its increment
modulo 2^16 to a flag of a ward that is not dark; a HINT raises the level announced for its frame to the larger, a MARK appends its tag and
immediate to the trace. The oldest command of its stream then retires: RETIRED advances, LAST_TAG takes its tag. Until it may issue, and at
a signal to a dark ward (FLT_WARD_LOST), no such effect happens. -/
def Obligations.SequencerCommandsActAtIssue : Prop :=
  ∀ (i : Instr) (op m : Nat) (c : Cmd) (s : State),
    (i, op) ∈ [(Instr.wait m, 0x48), (.signal m, 0x49), (.hint m, 0x50), (.mark m, 0x58)] → c.opcode = op →
    let w := if c.sigWard = 0x7F then m / 8 else c.sigWard
    let n := flagIdx w c.sigFlag
    let opens := op = 0x58 ∧ bit c.mode 0 = true ∧ s.watch.journaled = []
    (MayIssue s m c → (c.sigEn = true → isDark s w = false) → (opens → WaitingWrites s) → Gives i s fun t =>
      Completed t m c ∧ (stream t m).st = .enabled ∧
      (c.sigEn = true → flagCount t n = (flagCount s n + c.sigInc) % 2 ^ 16) ∧
      (∀ k, (c.sigEn = true → WARD_FLAG.key k ≠ WARD_FLAG.key n) → flagCount t k = flagCount s k) ∧
      (op = 0x50 → nth t.pwr.hints (bits c.imm 7 0) 0 = max (nth s.pwr.hints (bits c.imm 7 0) 0) (bits c.imm 11 8) ∧
        ∀ k, k ≠ bits c.imm 7 0 → nth t.pwr.hints k 0 = nth s.pwr.hints k 0) ∧
      t.trace = (if op = 0x58 then s.trace ++ [(c.tag, c.imm)] else s.trace) ∧ (op ≠ 0x50 → t.pwr.hints = s.pwr.hints) ∧ (¬ opens → t.mem = s.mem) ∧ (opens → t.mc.marked = true) ∧
      ((stream s m).cmds = [c] → c.num = fg s WARD_SDONE_RETIRED m →
        (stream t m).cmds = [] ∧ fg t WARD_SDONE_RETIRED m = (c.num + 1) % 2 ^ 32 ∧ fg t WARD_SSTAT_LAST_TAG m = c.tag)) ∧
    (MayIssue s m c → c.sigEn = true → isDark s w = true → Gives i s fun t => Faulted t m 0x14 w) ∧
    ((stream s m).st = .enabled → nextLoaded (stream s m) = some c → c.fault = none → issueReady s m c = false → Gives i s fun t =>
      (stream t m).cmds = (stream s m).cmds ∧ t.regs = s.regs ∧ t.trace = s.trace ∧ t.pwr = s.pwr ∧ t.mem = s.mem)

/-- COMMAND_ISSUE gives an engine its command with bounds read and reservations made, or takes the load or issue fault. A command of an engine
that may issue and whose issue checks pass is issued: its bounds are those of the bound table, it stands last in its engine's buffer, each
output end that it names alone reserves the tiles that it pushes, and no byte of memory, register but a slot's use, or visible tile changes;
it pops at once only where an input end reads no tile of offset 0. A command that holds a load fault, or fails an issue check, faults its
stream with that code and detail, and every command that has not issued goes. -/
def Obligations.CommandsIssueWithTheirReservations : Prop :=
  ∀ (m : Nat) (c : Cmd) (s : State),
    (MayIssue s m c → isSeqOp c.opcode = false →
      let c1 : Cmd := { c with bounds := readBounds s (m / 8) c }
      (issueCheck s m c1 = none → c.inBase = [] ∧ c.outBase = [] → unitCount c1 ≠ 0 → Gives (.commandIssue m) s fun t =>
        (∃ c', findCmd (stream t m).cmds c.num = some c' ∧ c'.phase = .issued ∧ c'.bounds = c1.bounds ∧ c'.iter = c.iter ∧ c'.w0 = c.w0) ∧
        (∃ e, ebuf t (m / 8) e = ebuf s (m / 8) e ++ [(m, c.num)]) ∧
        ((∀ e, e < 4 → inUsed c e = true → inKeep (c.inp e) = false → ∃ v ∈ vectorsLeft c1, endOffset c1 e v ≤ 0) →
          ∀ n, (queueRt t n).head = (queueRt s n).head) ∧
        (∀ n, (queueRt s n).head ≤ (queueRt t n).head ∧ (queueRt t n).tail = (queueRt s n).tail ∧
          (queueRt s n).resvPush ≤ (queueRt t n).resvPush ∧ (queueRt s n).resvPop ≤ (queueRt t n).resvPop) ∧
        (outPresent (c.out 0) = true → outPresent (c.out 1) = false →
          (queueRt t (outQ (m / 8) c 0)).resvPush = (queueRt s (outQ (m / 8) c 0)).resvPush + pushCount s c1 0) ∧
        (c.opcode = 0x40 → t.watch.journaled = s.watch.journaled ++ [c.step]) ∧ t.mem = s.mem ∧
        RegsKept s t ((below 16).map (fun k => (MOD_T2SLOT_USE, k)))) ∧
      (∀ code d, issueCheck s m c1 = some (code, d) → code < 256 → Gives (.commandIssue m) s fun t =>
        Faulted t m code d ∧ (∀ k ∈ (stream t m).cmds, k.phase ≠ .loaded) ∧ t.mem = s.mem ∧ t.queues = s.queues)) ∧
    (∀ code d, (stream s m).st = .enabled → wardActive s (m / 8) = true → nextLoaded (stream s m) = some c → c.fault = some (code, d) → code < 256 →
      Gives (.commandIssue m) s fun t =>
        Faulted t m code d ∧ (∀ k ∈ (stream t m).cmds, k.phase ≠ .loaded) ∧ t.mem = s.mem ∧ t.queues = s.queues)

/-- COMMAND_COMPLETE: a command whose work is done completes with its signal, local or remote, and the oldest retires. A command whose walk is
done, whose tiles are visible and whose writes are acknowledged is complete: its local signal adds its increment modulo 2^16; a signal to a
dark ward faults the stream with FLT_WARD_LOST; a remote signal first goes out as one SIGNAL transaction on the egress port of the
destination chip, and the command completes once that is acknowledged. The oldest command retires with it. One whose work is not done stays
as it was. -/
def Obligations.CommandsCompleteAndSignal : Prop :=
  ∀ (m num : Nat) (c : Cmd) (s : State), findCmd (stream s m).cmds num = some c →
    let w := if c.sigWard = 0x7F then m / 8 else c.sigWard
    let n := flagIdx w c.sigFlag
    (workDone s m c = true → remoteSignal c = false → (c.sigEn = true → isDark s w = false) → Gives (.commandComplete m num) s fun t =>
      Completed t m c ∧ (stream t m).st = (stream s m).st ∧ (c.sigEn = true → flagCount t n = (flagCount s n + c.sigInc) % 2 ^ 16) ∧
      (∀ k, (c.sigEn = true → WARD_FLAG.key k ≠ WARD_FLAG.key n) → flagCount t k = flagCount s k) ∧ t.mem = s.mem ∧ t.queues = s.queues ∧
      ((stream s m).cmds = [c] → c.num = fg s WARD_SDONE_RETIRED m →
        (stream t m).cmds = [] ∧ fg t WARD_SDONE_RETIRED m = (c.num + 1) % 2 ^ 32 ∧ fg t WARD_SSTAT_LAST_TAG m = c.tag)) ∧
    (workDone s m c = true → remoteSignal c = false → c.sigEn = true → isDark s w = true → (stream s m).st = .enabled →
      Gives (.commandComplete m num) s fun t => Faulted t m 0x14 w) ∧
    (∀ p, workDone s m c = true → remoteSignal c = true → c.aux ≠ 2 → egressPort s (chipOf (moveDest c)) (s.nextTid % 2 ^ 16) false = some p →
      portHeld s p 1 = false → wardTxns s (m / 8) < wardTxnLimit → Gives (.commandComplete m num) s fun t =>
        SentLast s t p { ty := 5, dst := chipOf (moveDest c), src := ownChip s, slice := ownSlice s, tid := s.nextTid % 2 ^ 16,
                         offset := c.sigInc * 2 ^ 16 + w * 2 ^ 8 + c.sigFlag, side := sideWord s p } ∧
        (∃ c', findCmd (stream t m).cmds c.num = some c' ∧ c'.aux = 2 ∧ c'.phase = .issued) ∧ (cmdTxns t m c.num) ≠ [] ∧ t.regs = s.regs) ∧
    (workDone s m c = true → remoteSignal c = true → c.aux = 2 → Gives (.commandComplete m num) s fun t =>
      Completed t m c ∧ (∀ k, flagCount t k = flagCount s k)) ∧
    (workDone s m c = false → Gives (.commandComplete m num) s fun t => (stream t m).cmds = (stream s m).cmds ∧ t.regs = s.regs ∧ t.mem = s.mem)

/-- TILE_VISIBLE writes the header of the tile at TAIL and moves TAIL and HIGH_WATER; a wait unit boundary counts every wait in progress. The
tile pushed under the number at TAIL of an enabled queue becomes visible: its 16 header bytes stand behind the ring, TAIL advances by one,
HIGH_WATER is at least the occupancy; a placeholder needs a free slot and its data is zero; no other byte changes. With the tile at TAIL not
pushed nothing changes. A tile that no iteration to come reads is popped at once; where no issued command takes the queue, no other queue
and no HEAD moves. WAIT_UNIT_BOUNDARY of a ward whose clocks run adds one to FULL of every queue that an engine waits to push into and to
EMPTY of every one it waits to read, and changes counters alone. -/
def Obligations.TilesBecomeVisibleInOrder : Prop :=
  (∀ (n : Nat) (p : Pushed) (s : State), qEnabled s n = true → findPushed (queueRt s n).pushed (queueRt s n).tail = some p →
    let q := queueRt s n
    let unread := ∀ m, m / 8 = n / 64 → ∀ c ∈ (stream s m).cmds, c.phase = .issued → ∀ e, e < 4 → inUsed c e = true → inQ (n / 64) c e ≠ n
    (p.placeholder = false → Gives (.tileVisible n) s fun t =>
      (queueRt t n).tail = q.tail + 1 ∧ memRead t (hdrKey s n q.tail) 16 = p.hdr.bytes ∧ MemKept s t (hdrKey s n q.tail) 16 ∧
      findPushed (queueRt t n).pushed q.tail = none ∧ q.head ≤ (queueRt t n).head ∧
      (unread → QueuesKept s t n ∧ (queueRt t n).head = q.head) ∧
      fg t WARD_QSTAT_HIGH_WATER n = max (fg s WARD_QSTAT_HIGH_WATER n) (min 255 (q.tail + 1 - q.head))) ∧
    (p.placeholder = true → qFree s n q.tail = true → Gives (.tileVisible n) s fun t =>
      (queueRt t n).tail = q.tail + 1 ∧ memRead t (hdrKey s n q.tail) 16 = p.hdr.bytes ∧ (unread → QueuesKept s t n)) ∧
    (p.placeholder = true → qFree s n q.tail = false → Gives (.tileVisible n) s fun t => t.mem = s.mem ∧
      ∀ k, (queueRt t k).tail = (queueRt s k).tail ∧ (queueRt t k).pushed = (queueRt s k).pushed)) ∧
  (∀ (n : Nat) (s : State), findPushed (queueRt s n).pushed (queueRt s n).tail = none → Gives (.tileVisible n) s fun t => t = s) ∧
  (∀ (w : Nat) (charges : List (Nat × Nat)) (s : State), w < wardCount s → (pward s (physOf s w)).st ≤ 2 → Gives (.waitUnitBoundary w charges) s fun t =>
    t = { s with regs := t.regs, strag := t.strag } ∧
    ∀ e m c, e < 10 → job s w e = some (m, c) → ¬(c.opcode = 0x30 ∧ c.aux = 1 ∧ windowHolds s m c = true) →
      (∀ n ∈ waitsOut s w c, min 65535 (fg s WARD_QWAIT_FULL n + 1) ≤ fg t WARD_QWAIT_FULL n) ∧
      (∀ x ∈ waitsIn s w c, min 65535 (fg s WARD_QWAIT_EMPTY x.1 + 1) ≤ fg t WARD_QWAIT_EMPTY x.1))

/-- An abort request accepted, its settling and its forcing, and the settling of a fault. ABORT_ACCEPT of a stream whose every available command
has retired reports 2 and leaves it, or disables it where EN = 0 or an unassignment asked; else it reads ABORTING and keeps only commands
that are complete, past their walk or stopping at the end of their tile. ABORT_SETTLE with nothing in progress and every transaction
acknowledged, and ABORT_FORCE after four frames, end it ABORTED or DISABLED and report 3; the latter gives up its transactions. FAULT_SETTLE
ends a faulted stream FAULTED or DISABLED and reports 4. (With no packet waiting: the replies are stated elsewhere.) -/
def Obligations.FaultsAndAbortsSettle : Prop :=
  ∀ (m : Nat) (s : State), McIdle s →
    let x := stream s m
    let off := x.req.any (fun r => r != .packet)
    (x.st = .enabled → x.req ≠ [] → committing s m = false →
      (fg s WARD_SDONE_RETIRED m = x.avail → Gives (.abortAccept m) s fun t =>
        (stream t m).lastAbort = 2 ∧ (stream t m).req = [] ∧ t.mem = s.mem ∧
        (off = false → (stream t m).st = .enabled ∧ (stream t m).cmds = x.cmds ∧ t.regs = s.regs) ∧
        (off = true → (stream t m).st = .disabled ∧ fg t WARD_SCFG_EN m = 0 ∧ RegsKept s t [(WARD_SCFG, m)])) ∧
      (fg s WARD_SDONE_RETIRED m ≠ x.avail → Gives (.abortAccept m) s fun t =>
        (stream t m).st = .aborting ∧ ((stream t m).abort.map AbortRun.toDisabled) = some off ∧
        ∀ c ∈ (stream t m).cmds, c.phase = .complete ∨ c.stopping = true ∨ (c.phase = .issued ∧ unitCount c ≤ c.iter))) ∧
    (x.st = .aborting → (∀ c ∈ x.cmds, c.phase ≠ .issued) → streamTxns s m = [] → Gives (.abortSettle m) s fun t =>
      (stream t m).lastAbort = 3 ∧ (stream t m).cmds = [] ∧ (stream t m).abort = none ∧ t.mem = s.mem ∧
      ((x.abort.map AbortRun.toDisabled) = some true → (stream t m).st = .disabled ∧ fg t WARD_SCFG_EN m = 0) ∧
      ((x.abort.map AbortRun.toDisabled) ≠ some true → (stream t m).st = .aborted ∧ t.regs = s.regs)) ∧
    (∀ a, x.st = .aborting → x.abort = some a →
      (4 ≤ a.pulses → Gives (.abortForce m) s fun t =>
        (stream t m).lastAbort = 3 ∧ (stream t m).cmds = [] ∧ (stream t m).st = (if a.toDisabled then .disabled else .aborted) ∧
        t.txns = s.txns.map (fun u => if u.m = m then { u with dead := true } else u)) ∧
      (a.pulses < 4 → Gives (.abortForce m) s fun t => (stream t m).st = .aborting ∧ (stream t m).cmds = x.cmds ∧ t.txns = s.txns)) ∧
    (x.st = .faulting → (∀ c ∈ x.cmds, c.phase ≠ .issued) → Gives (.faultSettle m) s fun t =>
      (stream t m).lastAbort = 4 ∧ (stream t m).cmds = [] ∧ t.mem = s.mem ∧
      (off = true → (stream t m).st = .disabled ∧ fg t WARD_SCFG_EN m = 0) ∧ (off = false → (stream t m).st = .faulted ∧ t.regs = s.regs))

/-- A wait on an EXT flag that outlasts its TIMEOUT faults; a module quiescent through WINDOW pulses raises FLT_STALL and captures every stream.
WAIT_TIMEOUT faults the stream whose next command has waited TIMEOUT pulses on an EXT flag with FLT_WAIT_TIMEOUT, the flag and the target.
QUIESCENCE_STALL, with the detector enabled and the module quiescent through WINDOW pulses, sets MOD_STALL_STATUS with the number of blocked
streams, WARD_SBLOCK and WARD_SBLOCK_TAG of every stream (0 where it is not blocked), one event, and one entry of the failure record unless
it is sealed; no stream changes. Once raised it is not raised again in the episode. -/
def Obligations.WaitTimeoutsAndStalls : Prop :=
  (∀ (m : Nat) (c : Cmd) (s : State), (stream s m).st = .enabled → nextLoaded (stream s m) = some c → waitsExt s m = true → c.fault = none →
    (fg s WARD_FCFG_TIMEOUT (flagIdx (m / 8) c.waitFlag) ≤ (stream s m).waitPulse → Gives (.waitTimeout m) s fun t =>
      Faulted t m 0x20 (c.waitFlag * 2 ^ 16 + c.waitCount) ∧ (∀ k ∈ (stream t m).cmds, k.phase ≠ .loaded) ∧ t.mem = s.mem ∧ t.queues = s.queues) ∧
    ((stream s m).waitPulse < fg s WARD_FCFG_TIMEOUT (flagIdx (m / 8) c.waitFlag) → Gives (.waitTimeout m) s fun t => t = s)) ∧
  (∀ (k : Nat) (s : State), s.quiet = some k → fg s MOD_QUIESCE_CFG_ENABLE 0 = 1 → quiescent s = true → fg s MOD_QUIESCE_CFG_WINDOW 0 ≤ k →
    (s.stalled = false → Gives .quiescenceStall s fun t =>
      let blocked := (below (8 * wardCount s)).filter (fun m => (blockCause s m).isSome)
      (rd t MOD_STALL_STATUS 0).toNat = 2 ^ 31 + blocked.length ∧
      (∀ m, m < 8 * wardCount s → (rd t WARD_SBLOCK m).toNat = ((blockCause s m).map blockWord).getD 0 ∧
        (rd t WARD_SBLOCK_TAG m).toNat = ((blockCause s m).map blockTag).getD 0) ∧
      t.stalled = true ∧ t.mc.evseq = s.mc.evseq + 1 ∧ t.streams = s.streams ∧ t.queues = s.queues ∧ t.mem = s.mem ∧
      (s.store.fail.closed = false → t.store.fail.eseq = s.store.fail.eseq + 1 ∧ (t.store.fail.entries.head?.map FailEntry.kind) = some 2)) ∧
    (s.stalled = true → Gives .quiescenceStall s fun t => t = s))

/-- A slot of MMA or MMA_WG adds 128 products to its tile's partials, hands them over at a chunk boundary, and drains a finished tile to its
queue. For MMA and MMA_WG: with its operand tiles visible and its spill slots granted, a slot within a chunk replaces the partials of its
tile by their sums with 128 more products, in order (under INT32 accumulation, its runs); at the end of a chunk they go to the drain latch,
or in E48-resident mode to the running sum, INT32 runs always to the latter (the choice of the model, log 7); at the end of the reduction
they are added to the running sum, converted and put into the final drain; a reduction of no products drains +0. Operands outside their ROWS
and COLS are +0; a slot that pairs with a half tile before it takes no clocks. A tile in the final drain with a free slot is pushed.
SPILL_HANDOVER adds the latched partials to the running sum in E48 and counts the clocks waited. Too small a spill region is
FLT_SPILL_SPACE; an error beyond correction in an operand, a spill slot or the accumulators is FLT_UNCORRECTABLE. -/
def Obligations.MatrixProductsSumInOrder : Prop :=
  ∀ (err : MemErr) (i : Instr) (op w e m : Nat) (c : Cmd) (s : State), (i, op) ∈ [(Instr.mma w e err, 0x08), (.mmaWg w e err, 0x09)] → e < 4 →
    jobOf s w e op = some (m, c) →
    let n := 4 * w + e
    let rt := meRt s n
    let met := engineMeets s w e err (endRuns s w c ++ spillRuns s w n c)
    let s1 := met.1
    (∀ off, err = .accum off → rt.tiles ≠ [] → (stream s m).st = .enabled → Gives i s fun t => Faulted t m 0x12 (ueAt s 1 (accumKey n off))) ∧
    (∀ d, met.2 = some d → (stream s m).st = .enabled → Gives i s fun t => Faulted t m 0x12 d) ∧
    ((∀ off, err = .accum off → rt.tiles = []) → met.2 = none →
    (∀ h bs rest, rt.out = (h, bs) :: rest → canPush s w c 0 1 = true → isDark s (outWard w (c.out 0)) = false → Gives i s fun t =>
      PushedTile s t (outQ w c 0) (nextOut c 0) h.fmt c.tag ∧ (meRt t n).out = rest) ∧
    (∀ v mul, rt.out = [] → c.stopping = false → (mmaSteps c)[c.iter]? = some (v, mul) →
      let need := spillNeed s c
      let fits := spillFits (if c.iter = 0 then rd s ME_SPILL n else rt.spill) need
      let id' := (stepInfo c v).1
      let len := (stepInfo c v).2
      let x := getTile rt.tiles id'
      let k := x.k + 128
      let rowsOf := fun (sum : List (Option Nat)) => (outRows c.fmtOut (colsOf (dRowLen c.desc) (elemBaseOf c.desc v)) sum).1
      (rt.checked = false → mul = false ∨ len ≤ k ∨ k % chunkLen s = 0 → 0 < need → fits = false → (stream s m).st = .enabled →
        Gives i s fun t => Faulted t m 0x10 n) ∧
      (rt.checked = true ∨ need = 0 ∨ fits = true → inUsed c 2 = false ∨ x.k ≠ 0 → mul = false → rt.latch = none → Gives i s fun t =>
        (meRt t n).out = tilesOut s w c v (rowsOf []) ∧ UnitDone t m c ∧ t.mem = s.mem) ∧
      (rt.checked = true ∨ need = 0 ∨ fits = true → inUsed c 2 = false ∨ x.k ≠ 0 → mul = true → ∀ ha ba hb bb,
        readIn s1 w c 0 (inOffset c.desc 0 v) = .ok (ha, ba) → readIn s1 w c 1 (inOffset c.desc 1 v) = .ok (hb, bb) →
        let tile := fun (f : Nat) (h : Hdr) (bs : List Byte) => (decodeTile f bs).mask h.rows h.cols
        let lines := fun (t : Tile) => (below 128).map (fun r => (t.line r).map Prod.fst)
        let part := (meSlot x.part (lines (tile c.fmtA ha ba)) (lines (tile c.fmtB hb bb))).1
        let ints := fun (close : Bool) => intSlot c.fmtA c.fmtB x (tile c.fmtA ha ba) (tile c.fmtB hb bb) close
        let int := bit c.mode 0
        (k < len → k % chunkLen s ≠ 0 → Gives i s fun t =>
          getTile (meRt t n).tiles id' = (if int then { ints false with k := k } else { x with k := k, part := part }) ∧ UnitDone t m c ∧
          t.mem = s.mem ∧
          fg t ME_BUSY_CLOCKS n = min (2 ^ 32 - 1) (fg s ME_BUSY_CLOCKS n + (if paired c then 0 else slotClocks c.fmtA c.fmtB))) ∧
        (k < len → k % chunkLen s = 0 → int = false → bit c.mode 1 = false → rt.latch = none → Gives i s fun t =>
          getTile (meRt t n).tiles id' = { x with k := k, part := [] } ∧ (meRt t n).latch = some (id', part) ∧ UnitDone t m c ∧ t.mem = s.mem) ∧
        (k < len → k % chunkLen s = 0 → int = true ∨ bit c.mode 1 = true → Gives i s fun t =>
          getTile (meRt t n).tiles id' = (if int then { ints true with k := k } else { x with k := k, part := [], sum := sumInto x.sum part }) ∧
          UnitDone t m c ∧ t.mem = s.mem) ∧
        (len ≤ k → int = true ∨ rt.latch = none → Gives i s fun t =>
          (meRt t n).out = tilesOut s w c v (rowsOf (if int then (ints true).sum else sumInto x.sum part)) ∧ UnitDone t m c ∧ t.mem = s.mem)))) ∧
    (∀ id' part waited, rt.latch = some (id', part) → Gives (.spillHandover w e waited) s fun t =>
      getTile (meRt t n).tiles id' = { getTile rt.tiles id' with sum := sumInto (getTile rt.tiles id').sum part } ∧ (meRt t n).latch = none ∧
      fg t ME_STATUS_SPILLING n = 0 ∧ fg t ME_SPILL_WAIT_CLOCKS n = min (2 ^ 32 - 1) (fg s ME_SPILL_WAIT_CLOCKS n + waited) ∧
      RegsKept s t [(ME_STATUS, n), (ME_SPILL_WAIT, n)] ∧ t.mem = s.mem)

/-- FOLD and REDUCE push the sum of their partials, element by element in rank order. FOLD with its partials visible in FP32 or E48 and a free
slot pushes one tile of its output format, each element the E48 sum of the partials in rank order, rounded once (in FP32 here byte for
byte); REDUCE pushes the FP32 tile of the sums of its round's NRANK contributions in ascending rank, each addition rounded. Elements outside
a partial's extent are +0. The unit is done and no byte outside the slot changes; a partial of another format faults with its format, ward
and queue, a truncated one with FLT_TRUNCATED_INPUT, and a read that meets an error beyond correction with FLT_UNCORRECTABLE. -/
def Obligations.FoldsAndRoundsAreSummedInRankOrder : Prop :=
  (∀ (w u m : Nat) (c : Cmd) (err : MemErr) (s : State), u < 2 → jobOf s w (8 + u) 0x20 = some (m, c) →
    let met := engineMeets s w (8 + u) err (endRuns s w c)
    let parts := readPartials met.1 w c ((nth (units c) c.iter []).headD []) ((below 4).filter (inUsed c))
    (∀ d, met.2 = some d → (stream s m).st = .enabled → Gives (.fold w u err) s fun t => Faulted t m 0x12 d) ∧
    (met.2 = none → canPush s w c 0 1 = true → isDark s (outWard w (c.out 0)) = false →
      (∀ ps, parts = .ok ps → Gives (.fold w u err) s fun t =>
        PushedTile s t (outQ w c 0) (nextOut c 0) c.fmtOut c.tag ∧ UnitDone t m c ∧
        (c.fmtOut = 1 → 65536 ≤ qSlotBytes s (outQ w c 0) → memRead t (slotKey s (outQ w c 0) (nextOut c 0)) 65536 =
          (below 16384).flatMap (fun k => toBytesLE 4 (foldElem 1 (ps.map (fun p => partialAt p.1 p.2 (k / 128) (k % 128)))).1))) ∧
      (∀ code d, parts = .fault code d → code < 256 → (stream s m).st = .enabled → Gives (.fold w u err) s fun t => Faulted t m code d))) ∧
  (∀ (w m : Nat) (c : Cmd) (err : MemErr) (s : State), jobOf s w 9 0x31 = some (m, c) →
    let v := (nth (units c) c.iter []).headD []
    let nr := bits c.imm 7 0
    let met := engineMeets s w 9 err (endRuns s w c)
    let round := readRound met.1 w (inQ w c 0) (nth c.inBase 0 0 + (inOffset c.desc 0 v).toNat * nr) nr
    (∀ d, met.2 = some d → (stream s m).st = .enabled → Gives (.reduce w err) s fun t => Faulted t m 0x12 d) ∧
    (met.2 = none → canPush s w c 0 1 = true → isDark s (outWard w (c.out 0)) = false →
      (∀ ts, round = .ok ts → Gives (.reduce w err) s fun t =>
        PushedTile s t (outQ w c 0) (nextOut c 0) 1 c.tag ∧ UnitDone t m c ∧
        (65536 ≤ qSlotBytes s (outQ w c 0) → memRead t (slotKey s (outQ w c 0) (nextOut c 0)) 65536 =
          (below 16384).flatMap (fun k => toBytesLE 4
            (reduceElem (ts.map (fun t => contribution t.1 (decodeTile t.1.fmt t.2) (k / 128) (k % 128)))).1))) ∧
      (∀ code d, round = .fault code d → code < 256 → (stream s m).st = .enabled → Gives (.reduce w err) s fun t => Faulted t m code d))) ∧
  (∀ a b : Nat × Ev, (reduceElem [a, b]).1 = (toFp32 ((ofFp32 a.1).1.add (ofFp32 b.1).1)).1 ∧ (reduceElem [a]).1 = a.1)

/-- The four UPDATE rules: the passes of a factored apply, the elementwise apply, column emit and column finish. FACTORED_APPLY with a run's
tiles visible forms the run: its rows enter the accumulator, UE_ACC shows their number, no tile is pushed; then tile by tile it pushes the
state tile on OUT0 and the BF16 weights on OUT1. ELEMENTWISE_APPLY pushes the same for one tile. COLUMN_EMIT pushes the S and the N tile, S
the accumulated sums in FP32, and clears the accumulator; COLUMN_FINISH pushes the column statistics tile. An apply's last unit contributes
its pair of update-to-weight sums to its step, unless that is journalled. ACC_CLEAR clears the accumulator before the first run, even of a
run that faults; a read that meets an error beyond correction is FLT_UNCORRECTABLE. -/
def Obligations.UpdatesPushTheirTiles : Prop :=
  ∀ (w m : Nat) (c : Cmd) (err : MemErr) (s : State), jobOf s w 5 0x18 = some (m, c) →
    let s0 := if updRule c = 0 then clearFirst s w else s
    let met := engineMeets s0 w 5 err (endRuns s0 w c ++ schedRuns s0 w c)
    let s1 := met.1
    let vs := nth (units c) c.iter []
    let v := vs.headD []
    let u := ueRt s w
    let last := unitCount c ≤ c.iter + 1
    let fresh := updClear c = true ∧ c.iter = 0 ∧ u.run = none ∧ engineWait s w 5 = none
    let free := updReady s w c = true ∧ darkOut s w c = none
    let apart := outQ w c 0 ≠ outQ w c 1 ∨ nextOut c 0 ≠ nextOut c 1
    let item := fun (t : State) => if s.watch.journaled.contains c.step then fg t MOD_NUMERICS_WATCH_LATE 0 = 1 ∧ t.watch.items = s.watch.items
      else ∃ x, t.watch.items = s.watch.items ++ [x] ∧ x.step = c.step ∧ x.index = bits c.imm 55 48 ∧ x.tensor = bits c.imm 31 0
    let pushed := fun (t : State) => PushedOn t (outQ w c 0) (nextOut c 0) 0 c.tag ∧
      (outPresent (c.out 1) = true → PushedOn t (outQ w c 1) (nextOut c 1) 2 c.tag)
    (∀ i r d, (i, r) ∈ [(Instr.factoredApply w err, 0), (.elementwiseApply w err, 1), (.columnEmit w err, 2), (.columnFinish w err, 3)] →
      updRule c = r → met.2 = some d → (stream s m).st = .enabled → Gives i s fun t =>
        Faulted t m 0x12 d ∧ (r = 0 → fresh → (ueRt t w).nrows = 0 ∧ (ueRt t w).sacc = [])) ∧
    (∀ sch, met.2 = none → updSched s1 w c = .ok sch →
    (∀ gs st cs ms, updRule c = 0 → u.run = none → engineWait s w 5 = none → readRun s1 w c 0 vs = .ok gs → readRun s1 w c 1 (vs.take 1) = .ok st →
      readRun s1 w c 2 vs = .ok cs → (if updMask c = 0 then Got.ok [] else readRun s1 w c 3 vs) = .ok ms → Gives (.factoredApply w err) s fun t =>
        (∃ r, (ueRt t w).run = some r ∧ r.done = 0 ∧ r.cols.length = dRowLen c.desc ∧ r.rowStat.length = (gs.headD ({}, [])).1.rows ∧
          (r.allzero = true → r.kappa = one32)) ∧
        (ueRt t w).nrows = (if updClear c = true ∧ c.iter = 0 then 0 else u.nrows) + (gs.headD ({}, [])).1.rows ∧
        (rd t UE_ACC w).toNat = (ueRt t w).nrows % 2 ^ 32 ∧ fg t UE_STATUS_ACC_OPEN w = 1 ∧ fg t UE_STATUS_PASS w = 1 ∧
        fg t UE_BUSY_CLOCKS w = min (2 ^ 32 - 1) (fg s UE_BUSY_CLOCKS w + 64 * gs.length) ∧ t.mem = s.mem ∧ t.queues = s.queues) ∧
    (∀ r g st ms, updRule c = 0 → u.run = some r → free → apart → readRun s1 w c 0 ((vs.drop r.done).take 1) = .ok g →
      readRun s1 w c 1 ((vs.drop r.done).take 1) = .ok st → (if updMask c = 0 then Got.ok [] else readRun s1 w c 3 ((vs.drop r.done).take 1)) = .ok ms →
      Gives (.factoredApply w err) s fun t => pushed t ∧
        (r.done + 1 < vs.length → (ueRt t w).run = some { r with done := r.done + 1 } ∧ ∃ c', findCmd (stream t m).cmds c.num = some c' ∧ c'.iter = c.iter) ∧
        (vs.length ≤ r.done + 1 → (ueRt t w).run = none ∧ UnitDone t m c ∧ (last → item t ∧ fg t UE_STATUS_BUSY w = 0))) ∧
    (∀ g st, updRule c = 1 → free → apart → readIn s1 w c 0 (inOffset c.desc 0 v) = .ok g → readIn s1 w c 1 (inOffset c.desc 1 v) = .ok st →
      (updMask c ≠ 0 → ∃ x, readIn s1 w c 3 (inOffset c.desc 3 v) = .ok x) → Gives (.elementwiseApply w err) s fun t =>
        pushed t ∧ UnitDone t m c ∧ fg t UE_BUSY_CLOCKS w = min (2 ^ 32 - 1) (fg s UE_BUSY_CLOCKS w + 128) ∧
        (last → item t ∧ fg t UE_STATUS_BUSY w = 0)) ∧
    (updRule c = 2 → free → apart → outPresent (c.out 0) = true → outPresent (c.out 1) = true → Gives (.columnEmit w err) s fun t =>
      PushedOn t (outQ w c 0) (nextOut c 0) 1 c.tag ∧ PushedOn t (outQ w c 1) (nextOut c 1) 1 c.tag ∧ UnitDone t m c ∧
      (ueRt t w).sacc = [] ∧ (ueRt t w).nacc = [] ∧ (ueRt t w).racc = 0 ∧ (ueRt t w).nrows = 0 ∧ (rd t UE_ACC w).toNat = 0 ∧
      fg t UE_STATUS_ACC_OPEN w = 0 ∧
      (let a := slotKey s (outQ w c 0) (nextOut c 0)
       let b := slotKey s (outQ w c 1) (nextOut c 1)
       65536 ≤ qSlotBytes s (outQ w c 0) → (a + 65536 ≤ b ∨ b + qSlotBytes s (outQ w c 1) ≤ a) →
       ∀ j, j < 8192 → ofBytesLE (memRead t (a + 4 * j) 4) = sget 0 u.sacc j % 2 ^ 32)) ∧
    (∀ a b d, updRule c = 3 → free → readIn s1 w c 0 (inOffset c.desc 0 v) = .ok a → readIn s1 w c 1 (inOffset c.desc 1 v) = .ok b →
      readIn s1 w c 2 (inOffset c.desc 2 v) = .ok d → Gives (.columnFinish w err) s fun t =>
        PushedTile s t (outQ w c 0) (nextOut c 0) 0 c.tag ∧ UnitDone t m c ∧
        fg t UE_BUSY_CLOCKS w = min (2 ^ 32 - 1) (fg s UE_BUSY_CLOCKS w + 1)))

/-- MOVE_IN pushes the tile read from its address, MOVE_OUT and MOVE_COPY store a tile at theirs, byte for byte. MOVE_IN reads TILE_BYTES at its
address by the walk and pushes them, converted if it narrows or widens, else zero-filled outside the extent that it stamps, under a header
stamped from its descriptor, once the out queue has a free slot; from another chip it asks for them by READ_REQ transactions and pushes once
every one has its data. MOVE_OUT stores a queue's tile at its address, in Tier 1 or in a ward store clear of queues, rings and spill
regions, or writes a doorbell; MOVE_COPY from an address to an address. Each does one unit of its walk and no other byte changes. An address
outside memory is FLT_ADDRESS with bits [31:0] of the iteration's exact sum, an error beyond correction in what is read FLT_UNCORRECTABLE,
and so is a write whose eight transmissions fail. -/
def Obligations.MovesCarryTilesBetweenTiersAndQueues : Prop :=
  ∀ (w u m : Nat) (c : Cmd) (err : MemErr) (s : State), u < 2 → c.stopping = false →
    let v := (nth (units c) c.iter []).headD []
    let n := dTileBytes c.desc
    let src := walkAddr c.imm (dSrcStride c.desc) v
    let dst := walkAddr (moveDest c) (dDstStride c.desc) v
    let q := outQ w c 0
    let p := nextOut c 0
    let met := meetErr s err [(src.toNat, n)]
    let metIn := meetErr s err (endRuns s w c)
    let got := readTxns s c.slot.isSome true src (txns src n)
    let mine := (cmdTxns s m c.num).filter (fun t => t.ty == 2)
    let sound := ∀ a, err ≠ .lost a ∧ err ≠ .failed a
    let room := outPresent (c.out 0) = true ∧ isDark s (outWard w (c.out 0)) = false ∧ canPush s w c 0 1 = true
    let lands := fun (k : Nat) => regionOf s dst k = .tier1 ∨ ∃ x, regionOf s dst k = .ward x ∧ storeGuarded s x (dst.toNat % 0x1000000) k = false
    let failsAt := fun (x k : Nat) => err = .failed x ∧ dst.toNat ≤ x ∧ x < dst.toNat + min k (256 - dst.toNat % 256) ∧ x < wardBase
    let faults := fun (i : Instr) (code d : Nat) => (stream s m).st = .enabled → code < 256 → Gives i s fun t => Faulted t m code d
    let stores := fun (t : State) (out : List Byte) => memRead t dst.toNat out.length = out ∧ MemKept s t dst.toNat out.length ∧ UnitDone t m c
    let pushes := fun (t : State) (bs : List Byte) =>
      let out := leaving s c (stampHdr c v) bs
      let data := if converts c then out.2.1 else zeroFill out.1.fmt out.1.rows out.1.cols bs
      PushedTile s t q p out.1.fmt c.tag ∧ UnitDone t m c ∧ (data.length ≤ qSlotBytes s q → memRead t (slotKey s q p) data.length = data) ∧
      (converts c = false → findPushed (queueRt t q).pushed p = some ⟨{ stampHdr c v with ptag := c.tag, marks := 0x80 }, false⟩)
    (jobOf s w (6 + u) 0x01 = some (m, c) →
      (isLocal s c.imm = true → room →
        (∀ bs, got = .ok bs → met.2 = none → Gives (.moveIn w u err) s fun t => pushes t bs) ∧
        (∀ code d, got = .fault code d → faults (.moveIn w u err) code d) ∧
        (∀ bs d, got = .ok bs → met.2 = some d → faults (.moveIn w u err) 0x12 d)) ∧
      (isLocal s c.imm = false → room →
        (mine ≠ [] → mine.all (fun t => t.data.isSome) = true → Gives (.moveIn w u err) s fun t => pushes t (mine.flatMap (fun t => t.data.getD []))) ∧
        (mine ≠ [] → mine.all (fun t => t.data.isSome) = false → Gives (.moveIn w u err) s fun t => t.mem = s.mem ∧ t.queues = s.queues ∧ t.txns = s.txns) ∧
        (mine = [] → src < 0 ∨ 2 ^ 48 < src + n → faults (.moveIn w u err) 0x11 (addrDetail src)) ∧
        (∀ s2, mine = [] → 0 ≤ src → src + n ≤ 2 ^ 48 → (txns src n).foldl (fun (t : Got State) x => t.bind (fun k =>
            issueTxn k m c.num 2 (chipOf c.imm) x.1.toNat x.2 [(x.1.toNat, [])])) (.ok s) = .ok s2 →
          Gives (.moveIn w u err) s fun t => t.txns = s2.txns ∧ t.ports = s2.ports ∧ t.mem = s.mem ∧ t.queues = s.queues)) ∧
      (isDark s (outWard w (c.out 0)) = false → canPush s w c 0 1 = false → Gives (.moveIn w u err) s fun t =>
        t.mem = s.mem ∧ t.queues = s.queues ∧ t.regs = s.regs)) ∧
    (jobOf s w (6 + u) 0x02 = some (m, c) → isLocal s c.imm = true → ∀ h bs, readIn s w c 0 (endOffset c 0 v) = .ok (h, bs) →
      let out := (leaving s c h (bs.take n)).2.1
      (∀ d, metIn.2 = some d → faults (.moveOut w u err) 0x12 d) ∧
      (metIn.2 = none → s.poison = [] → lands out.length → sound → Gives (.moveOut w u err) s fun t => stores t out) ∧
      (∀ x, metIn.2 = none → s.poison = [] → lands out.length → failsAt x out.length → faults (.moveOut w u err) 0x12 (ueAt s 3 x)) ∧
      (metIn.2 = none → out ≠ [] → regionOf s dst 1 = .unmapped → faults (.moveOut w u err) 0x11 (addrDetail dst)) ∧
      (∀ k, metIn.2 = none → isDoorbell s dst = some k →
        let x := ofBytesLE (out.take 4)
        fg s WARD_SCFG_EN k = 1 → (x + 2 ^ 32 - fg s WARD_SFETCH_LOADED k) % 2 ^ 32 ≤ ringCommands s k → isDark s (k / 8) = false →
        (x + 2 ^ 32 - (stream s k).avail) % 2 ^ 32 < 2 ^ 31 → Gives (.moveOut w u err) s fun t =>
          (stream t k).avail = x % 2 ^ 32 ∧ t.mem = s.mem ∧ UnitDone t m c)) ∧
    (jobOf s w (6 + u) 0x03 = some (m, c) → isLocal s c.imm = true → isLocal s (dBase2 c.desc) = true → s.poison = [] →
      Memory.wf s = true → regionOf s src n = .tier1 →
      let out := (leaving s c (stampHdr c v) (memRead s src.toNat n)).2.1
      (∀ d, met.2 = some d → faults (.moveCopy w u err) 0x12 d) ∧
      (met.2 = none → lands out.length → sound → Gives (.moveCopy w u err) s fun t => stores t out) ∧
      (∀ x, met.2 = none → lands out.length → failsAt x out.length → faults (.moveCopy w u err) 0x12 (ueAt s 3 x)))

/-- PUBLISH copies a Tier 1 tile into Tier 2 under its open slot, and faults before its first transfer without one. One tile of a PUBLISH whose
reservation found its slot: the bytes read from Tier 1 stand at the tile's Tier 2 offset, no other byte changes, and the unit is done. A
PUBLISH that found no open slot takes FLT_ADDRESS with its first Tier 2 offset, and no tile is written. An error beyond correction in what
it reads is FLT_UNCORRECTABLE, and so is a write whose eight transmissions fail. -/
def Obligations.PublishWritesItsOpenSlot : Prop :=
  ∀ (w u m : Nat) (c : Cmd) (err : MemErr) (s : State), u < 2 → jobOf s w (6 + u) 0x38 = some (m, c) →
    let v := (nth (units c) c.iter []).headD []
    let n := dTileBytes c.desc
    let src := walkAddr (dBase2 c.desc) (dSrcStride c.desc) v
    let dst := walkAddr c.imm (dDstStride c.desc) v
    let at' := (dst + (tier2Base : Int)).toNat
    let met := meetErr s err [(src.toNat, n)]
    (c.slot = none → (stream s m).st = .enabled → Gives (.publish w u err) s fun t => Faulted t m 0x11 (addrDetail dst)) ∧
    (c.slot.isSome = true → c.stopping = false → isLocal s (dBase2 c.desc) = true → regionOf s src n = .tier1 → s.poison = [] →
      (∀ d, met.2 = some d → (stream s m).st = .enabled → Gives (.publish w u err) s fun t => Faulted t m 0x12 d) ∧
      (met.2 = none → Memory.wf s = true → regionOf s (dst + (tier2Base : Int)) n = .tier2 →
        ((∀ a, err ≠ .lost a ∧ err ≠ .failed a) → Gives (.publish w u err) s fun t =>
          memRead t at' n = memRead s src.toNat n ∧ MemKept s t at' n ∧ UnitDone t m c) ∧
        (∀ x, err = .failed x → at' ≤ x → x < at' + min n (256 - at' % 256) → (stream s m).st = .enabled → Gives (.publish w u err) s fun t =>
          Faulted t m 0x12 (ueAt s 3 x))))

/-- SEND sends its next tile as SEND_DATA blocks or into a local arrival region; its window holds a tile back and a release lets it go. SEND
with its tile visible and its window open sends it to its round: to another chip as blocks of one TID (the model's issue of a transaction of
type 6), to its own module into the region slot of its rank and round; the round enters the sent list of the window entry and the unit is
done. Where the round lies WINDOW or more past the next release, or no entry is free, it is held and nothing is sent; SEND_TILE_TRANSMIT
sends a held tile once the window is open. An own arrival queue that refuses it is FLT_ADDRESS, a region sector that is poisoned or a read
that meets an error beyond correction FLT_UNCORRECTABLE, a chip without a route FLT_LINK. -/
def Obligations.SendsKeepTheirWindow : Prop :=
  ∀ (w u m : Nat) (c : Cmd) (h : Hdr) (bs : List Byte) (held : Bool) (err : MemErr) (s : State), u < 2 →
    jobOf s w (6 + u) 0x30 = some (m, c) → (c.aux == 1) = held →
    let i := if held then Instr.sendTileTransmit w u else .send w u err
    let met := if held then (s, none) else engineMeets s w (6 + u) err (endRuns s w c)
    let s1 := met.1
    let k := sendRound c
    let d := sendDest s c
    let tile := h.bytes ++ padTo (dTileBytes c.desc) 0 bs
    let wq := bits c.imm 47 41
    let qq := bits c.imm 39 34
    let r := bits c.imm 31 24
    let n := qidx wq qq
    let refused := arrivalRefuses s wq qq r k (ownChip s) (s.nextTid % 2 ^ 16) tile.length
    let poison := fun (b : Nat) => arrivalPoison s wq qq r k tile.length b ((tile.drop (256 * b)).take 256)
    let sent := fun (t : State) => UnitDone t m c ∧ ∃ e, (stream t m).windows.find? (windowIs d) = some e ∧ k ∈ e.sent ∧
      (∀ e0, (stream s m).windows.find? (windowIs d) = some e0 → e.nextRel = e0.nextRel ∧ ∀ j ∈ e0.sent, j ∈ e.sent) ∧
      ((stream s m).windows.find? (windowIs d) = none → e.nextRel = bits c.imm 15 0)
    (∀ x, met.2 = some x → (stream s m).st = .enabled → Gives i s fun t => Faulted t m 0x12 x) ∧
    (met.2 = none → readIn s1 w c 0 (endOffset c 0 ((nth (units c) c.iter []).headD [])) = .ok (h, bs) →
    (windowHolds s m c = true → Gives i s fun t =>
      (∃ c', findCmd (stream t m).cmds c.num = some c' ∧ c'.aux = 1 ∧ c'.iter = c.iter) ∧ t.mem = s.mem ∧ t.arrivals = s.arrivals ∧
      t.ports = s.ports ∧ (stream t m).windows = (stream s m).windows ∧ t.regs = s1.regs) ∧
    (windowHolds s m c = false → isLocal s c.imm = true → 16 ≤ tile.length →
      (refused = false → (∀ b, poison b = none) → (∀ x ∈ (arrival s n).slots, x.index ≠ regionIndex s n k r) → Gives i s fun t => sent t ∧
        (∃ x ∈ (arrival t n).slots, x.index = regionIndex s n k r ∧ x.round = k ∧ x.rank = r ∧ x.home = some m ∧ x.chip = ownChip s) ∧
        memRead t (regionKey s n (regionIndex s n k r) + qSlotBytes s n) 16 = h.bytes ∧
        MemKept s t (regionKey s n (regionIndex s n k r)) (regionSlot s n)) ∧
      (refused = true → (stream s m).st = .enabled → Gives i s fun t => Faulted t m 0x11 (sendOffset c k 0 % 2 ^ 32)) ∧
      (∀ a, refused = false → poison 0 = some a → (stream s m).st = .enabled → Gives i s fun t => Faulted t m 0x12 (ueAt s 2 a))) ∧
    (windowHolds s m c = false → isLocal s c.imm = false → (∃ e, (stream s m).windows.find? (windowIs d) = some e) →
      (∀ s2, sendRemote s1 m c k tile = .ok s2 → Gives i s fun t => sent t ∧ t.mem = s.mem ∧ t.ports = s2.ports ∧ t.txns = s2.txns) ∧
      (∀ code x, sendRemote s1 m c k tile = .fault code x → code < 256 → (stream s m).st = .enabled → Gives i s fun t => Faulted t m code x)))

/-- JOURNAL hands its record to the MC, or in replay compares it with the stored one; its commit stores the record and shows the step. JOURNAL
with its input visible, room in the area and no record to compare builds the record of its step and hands it over; REPLAY_EN clears, and the
first handed over is programmed at once. In replay a stored record that agrees completes it with nothing stored; the first byte that differs
is FLT_JOURNAL 4 and MISMATCH. With a power failure in progress it is FLT_JOURNAL 3, with a full area 2; an error beyond correction in its
input tile is FLT_UNCORRECTABLE. JOURNAL_COMMIT stores the record sealed with SEQ, FRAME and CRC, completes the command and shows its step
and watch sums, whatever the media showed meanwhile; its time-out is FLT_JOURNAL 1. -/
def Obligations.JournalsAreCommittedOrCompared : Prop :=
  (∀ (w u m : Nat) (c : Cmd) (input : List Byte) (err : MemErr) (s : State), u < 2 → jobOf s w (6 + u) 0x40 = some (m, c) →
    let met := engineMeets s w (6 + u) err (endRuns s w c)
    let body := recordBody s c.step input
    let f := s.flash
    let kept := fun (t : State) => t.flash = { s.flash with commits := t.flash.commits } ∧ ∀ k ∈ t.flash.commits, k ∈ s.flash.commits
    (∀ d, met.2 = some d → (stream s m).st = .enabled → Gives (.journal w u err) s fun t => Faulted t m 0x12 d ∧ kept t) ∧
    (met.2 = none → pfwActive s = true → (stream s m).st = .enabled → Gives (.journal w u err) s fun t => Faulted t m 0x18 0x3000000 ∧ kept t) ∧
    (met.2 = none → pfwActive s = false → journalInput s w c = .ok input →
      (∀ r, fg s JNL_REPLAY_EN 0 = 1 → f.records.find? (fun r => r.step == c.step) = some r →
        (∀ k, recordDiff body r.bytes = some k → (stream s m).st = .enabled → Gives (.journal w u err) s fun t =>
          Faulted t m 0x18 (0x4000000 + k) ∧ fg t JNL_STATUS_MISMATCH 0 = 1 ∧ fg t JNL_STATUS_MISMATCH_OFF 0 = k % 2 ^ 12 ∧ kept t) ∧
        (recordDiff body r.bytes = none → WaitingWrites s → Gives (.journal w u err) s fun t => (rd t JNL_LAST_STEP 0).toNat = c.step % 2 ^ 32 ∧ kept t)) ∧
      (fg s JNL_REPLAY_EN 0 = 0 ∨ f.records.find? (fun r => r.step == c.step) = none →
        (recordPlaces ≤ f.records.length + f.commits.length → (stream s m).st = .enabled → Gives (.journal w u err) s fun t =>
          Faulted t m 0x18 0x2000000 ∧ kept t) ∧
        (f.records.length + f.commits.length < recordPlaces → Gives (.journal w u err) s fun t =>
          t.flash = { f with commits := f.commits ++ [⟨m, c.num, c.step, body, f.commits.isEmpty⟩] } ∧ UnitDone t m c ∧
          fg t JNL_REPLAY_EN 0 = 0 ∧ t.mem = s.mem)))) ∧
  (∀ (x : Commit) (cs : List Commit) (media : List FlashEvt) (s : State), s.flash.commits = x :: cs → x.burning = true → WaitingWrites s →
    let f := (flashEvents s media).flash
    let next := match cs with
      | [] => []
      | y :: ys => { y with burning := true } :: ys
    Gives (.journalCommit media) s (fun t =>
      t.flash = { f with records := f.records ++ [⟨x.step, sealRecord s x.record⟩], seq := s.flash.seq + 1, commits := t.flash.commits, protect := t.flash.protect } ∧
      (media = [] → f = s.flash) ∧
      (∀ k ∈ t.flash.commits, k ∈ next) ∧
      ((∀ k, findCmd (stream s x.m).cmds x.num = some k → k.sigEn = false) → t.flash.commits = next) ∧
      (rd t JNL_LAST_STEP 0).toNat = x.step % 2 ^ 32 ∧
      (∀ i, i < 256 → (rd t MOD_UWR_DSQ i).toNat = (watchSums s x.step i).1 % 2 ^ 32 ∧
        (rd t MOD_UWR_WSQ i).toNat = (watchSums s x.step i).2 % 2 ^ 32) ∧
      ∀ k, findCmd (stream s x.m).cmds x.num = some k → k.sigEn = false → workDone s x.m { k with aux := 0 } = true → Completed t x.m k) ∧
    (∀ k, findCmd (stream s x.m).cmds x.num = some k → (stream s x.m).st = .enabled → Gives (.journalCommitTimeout media) s fun t =>
      Faulted t x.m 0x18 0x1000000 ∧ t.flash = { f with commits := t.flash.commits, protect := t.flash.protect } ∧ ∀ j ∈ t.flash.commits, j ∈ next)) ∧
  (∀ (media : List FlashEvt) (s : State), (∀ x cs, s.flash.commits = x :: cs → x.burning = false) →
    exec (.journalCommit media) s = .next s ∧ exec (.journalCommitTimeout media) s = .next s) ∧
  ∀ (s : State) (body : List Byte), body.length = 4092 → (sealRecord s body).length = 4096 ∧
    crc32 ((sealRecord s body).take 4092) = ofBytesLE ((sealRecord s body).drop 4092)

/-- The five IMAGE operations, the streaming of an image record by record, and its commit or failure. BEGIN opens an image of a newer step with
what it recorded; RANGE and MODULE register sections of Tier 1 bytes (MODULE writes the module section first); CLOSE closes it with its
notification; TRIM keeps the images and records from its step on. Out of order is FLT_JOURNAL 5, no such image 6, degraded flash 7, outside
Tier 1 FLT_ADDRESS, a poisoned sector of which MODULE would write a part FLT_UNCORRECTABLE. IMAGE_STREAMING copies the next record, or a run
of it, under its budget; poison or an error beyond correction fails the image with cause 1 and its event, an area without room with cause 2.
IMAGE_COMMIT of a fully streamed image makes it current, with its event; a read-back mismatch or a lost page fails it with cause 4. -/
def Obligations.ImagesAreTakenAndCommitted : Prop :=
  (∀ (i : Instr) (op w u m : Nat) (c : Cmd) (s : State), (i, op) ∈ [(Instr.imageBegin w u, 1), (.imageRange w u, 2), (.imageModule w u, 3),
      (.imageClose w u, 4), (.imageTrim w u, 5)] → u < 2 → jobOf s w (6 + u) 0x41 = some (m, c) → imageOp c = op →
    let step := imageStep c
    let cur := (rd s JNL_IMG_CUR 0).toNat
    let walked := fun (t : State) => ∃ c', findCmd (stream t m).cmds c.num = some c' ∧ c'.iter = unitCount c ∧ c'.phase = .issued
    let stop := fun (code d : Nat) => (stream s m).st = .enabled → Gives i s fun t => Faulted t m code d ∧
      t.flash = { s.flash with commits := t.flash.commits } ∧ ∀ k ∈ t.flash.commits, k ∈ s.flash.commits
    let sections := fun (t : State) (n : Nat) => fg t JNL_IMG_STATUS_SECTIONS 0 = n % 256
    (op = 1 → pfwActive s = false → fg s JNL_STATUS_T3_DEGRADED 0 = 0 → s.flash.wip = none → cur = 2 ^ 32 - 1 ∨ cur < step → Gives i s fun t =>
      (∃ x, t.flash = { s.flash with wip := some x } ∧ x.step = step ∧ x.seed = jobSeed s ∧ x.wards = wardCount s ∧ x.sections = []) ∧
      fg t JNL_IMG_STATUS_STATE 0 = 1 ∧ sections t 0 ∧ walked t ∧ RegsKept s t [(JNL_IMG_STATUS, 0)] ∧ t.mem = s.mem) ∧
    (op = 1 → pfwActive s = false → fg s JNL_STATUS_T3_DEGRADED 0 ≠ 0 → stop 0x18 0x7000000) ∧
    (op = 1 → pfwActive s = false → fg s JNL_STATUS_T3_DEGRADED 0 = 0 → s.flash.wip ≠ none ∨ (cur ≠ 2 ^ 32 - 1 ∧ step ≤ cur) → stop 0x18 0x5000000) ∧
    (op ≠ 5 → pfwActive s = true → stop 0x18 0x3000000) ∧
    (∀ x, pfwActive s = false → writingImage s c = some x → x.sections.length < 255 →
      let offs := (its c).map (walkAddr (dBase2 c.desc) (dSrcStride c.desc))
      let o := offsetOf (dBase2 c.desc)
      let bs := moduleSection s x
      let added := fun (t : State) (sec : ISection) (but : List (Reg × Nat)) => t.flash = { s.flash with wip := some { x with sections := x.sections ++ [sec] } } ∧
        fg t JNL_IMG_STATUS_STATE 0 = 1 ∧ sections t (x.sections.length + 1) ∧ walked t ∧ RegsKept s t ([(JNL_IMG_STATUS, 0)] ++ but)
      (op = 2 → isLocal s (dBase2 c.desc) = true → (∀ k ∈ offs, regionOf s k (dTileBytes c.desc) = .tier1) → Gives i s fun t =>
        added t ⟨offs.map (fun k => (k.toNat, dTileBytes c.desc)), false, []⟩ [] ∧ t.mem = s.mem) ∧
      (op = 3 → isLocal s (dBase2 c.desc) = true → o + 2 ^ 24 ≤ tier1Size → partialPoison s o bs.length = none → Gives i s fun t =>
        added t ⟨[(o, bs.length)], true, []⟩ cacheCounters ∧ (∀ k, k < bs.length → readByte t (o + k) = nth bs k 0) ∧ MemKept s t o bs.length) ∧
      (∀ b, op = 3 → isLocal s (dBase2 c.desc) = true → o + 2 ^ 24 ≤ tier1Size → partialPoison s o bs.length = some b → stop 0x12 (ueAt s 2 b)) ∧
      (op = 3 → isLocal s (dBase2 c.desc) = true → tier1Size < o + 2 ^ 24 → stop 0x11 o)) ∧
    (∀ x, op = 4 → pfwActive s = false → writingImage s c = some x → Gives i s fun t =>
      t.flash = { s.flash with wip := some { x with notify := if bit c.imm 47 then some (w, bits c.imm 55 48) else none } } ∧
      fg t JNL_IMG_STATUS_STATE 0 = 2 ∧ walked t ∧ t.mem = s.mem) ∧
    (op ∈ [2, 3, 4] → pfwActive s = false → writingImage s c = none → stop 0x18 0x5000000) ∧
    (op = 5 → (∃ x ∈ s.flash.images, x.step = step) → s.flash.protect = false → Gives i s fun t =>
      t.flash = { s.flash with images := s.flash.images.filter (fun x => x.step ≥ step), records := s.flash.records.filter (fun x => x.step ≥ step),
                               orphans := t.flash.orphans, lost := t.flash.lost } ∧
      t.flash.orphans = s.flash.orphans + sumNat ((s.flash.images.filter (fun x => x.step < step)).map Image.size) ∧
      (∀ p ∈ t.flash.lost, p ∈ s.flash.lost) ∧
      (t.flash.records = [] → rd t JNL_LAST_STEP 0 = 0xFFFFFFFF) ∧ (t.flash.records ≠ [] → rd t JNL_LAST_STEP 0 = rd s JNL_LAST_STEP 0) ∧
      walked t ∧ RegsKept s t [(JNL_IMG_PREV, 0), (JNL_LAST_STEP, 0)] ∧ t.mem = s.mem) ∧
    (op = 5 → (∀ x ∈ s.flash.images, x.step ≠ step) → stop 0x18 0x6000000)) ∧
  (∀ (bytes slots energy : Nat) (err : MemErr) (media : List FlashEvt) (x : Image) (sec : ISection) (r : Nat × Nat) (s : State),
    pfwActive s = false → s.flash.wip = some x → x.sections[x.atSec]? = some sec → sec.recs[x.atRec]? = some r →
    let run := streamRun x r bytes
    let met := meetErr s err [run]
    let i := Instr.imageStreaming bytes slots energy err media
    run.2 ≠ 0 ∨ r.2 = 0 →
    (budgetCovers s 5 run.2 slots energy = true → poisonDetail s run.1 run.2 = none → met.2 = none →
      let size := sumNat (s.flash.images.map Image.size) + x.size + s.flash.orphans + run.2
      (size ≤ imageAreaBytes s → Gives i s fun t =>
        (err = .none → media = [] → t.regs = s.regs) ∧ t.mem = s.mem ∧ (sget {} t.pwr.used 5).bytes = (sget {} s.pwr.used 5).bytes + run.2 ∧
        ∃ y, t.flash = { (flashEvents s media).flash with wip := some y } ∧
          (y.sections[x.atSec]?.map ISection.data) = some (sec.data ++ memRead s run.1 run.2) ∧
          (if x.atByte + run.2 < r.2 then y.atSec = x.atSec ∧ y.atRec = x.atRec ∧ y.atByte = x.atByte + run.2
           else if x.atRec + 1 < sec.recs.length then y.atSec = x.atSec ∧ y.atRec = x.atRec + 1 ∧ y.atByte = 0
           else y.atSec = x.atSec + 1 ∧ y.atRec = 0 ∧ y.atByte = 0)) ∧
      (imageAreaBytes s < size → Gives i s fun t => t.flash.wip = none ∧ fg t JNL_IMG_STATUS_STATE 0 = 4 ∧ fg t JNL_IMG_STATUS_CAUSE 0 = 2)) ∧
    (budgetCovers s 5 run.2 slots energy = true → (poisonDetail s run.1 run.2).isSome = true ∨ met.2.isSome = true → Gives i s fun t =>
      t.flash.wip = none ∧ t.flash.images = s.flash.images ∧ fg t JNL_IMG_STATUS_STATE 0 = 4 ∧ fg t JNL_IMG_STATUS_CAUSE 0 = 1 ∧
      t.flash.orphans = s.flash.orphans + x.size ∧ (x.notify = none → t.mc.evseq = s.mc.evseq + 2)) ∧
    (budgetCovers s 5 run.2 slots energy = false → Gives i s fun t =>
      t.flash = s.flash ∧ t.regs = s.regs ∧ t.mem = s.mem ∧ (sget {} t.pwr.used 5).out = true)) ∧
  (∀ (x : Image) (media : List FlashEvt) (s : State), s.flash.wip = some x → fg s JNL_IMG_STATUS_STATE 0 = 2 → pfwActive s = false →
    let lost := lostSection (flashEvents s media) x.step
    (x.sections.length ≤ x.atSec →
      (lost = false → Gives (.imageCommit 0 media) s fun t => t.flash.wip = none ∧ t.flash.images = x :: s.flash.images.take 1 ∧
        (rd t JNL_IMG_CUR 0).toNat = x.step % 2 ^ 32 ∧ fg t JNL_IMG_STATUS_STATE 0 = 3 ∧ (x.notify = none → t.mc.evseq = s.mc.evseq + 1)) ∧
      (∀ k, k ≠ 0 ∨ lost = true → Gives (.imageCommit k media) s fun t => t.flash.wip = none ∧ t.flash.images = s.flash.images ∧
        fg t JNL_IMG_STATUS_STATE 0 = 4 ∧ fg t JNL_IMG_STATUS_CAUSE 0 = 4 ∧ rd t JNL_IMG_CUR 0 = rd s JNL_IMG_CUR 0)) ∧
    (x.atSec < x.sections.length → ∀ k, exec (.imageCommit k media) s = .next s))

/-- The oldest shadow sample is checked on a free ward under the shadow budget and counted in its group, or skipped, or waits. SHADOW_SAMPLE
with a sample pending takes the oldest. With a free ward of its district ACTIVE, and a budget that covers the engine slots and energy it
takes, it is counted in its group: CHECKED, the histogram bucket of its deviation, WARN and ALERT where the bucket reaches theirs, and one
event for an ALERT. Without a free ward, or where a copy meets an uncorrectable error, it counts in SKIPPED alone. While its ward is on its
way to ACTIVE nothing happens, and a budget that is out makes it wait, its frame marked. With no sample nothing happens. -/
def Obligations.ShadowSamplesAreCheckedOrSkipped : Prop :=
  (∀ (slots energy err : Nat) (x : Sample) (xs : List Sample) (s : State), s.samples = x :: xs →
    let g := bits x.tag 15 8
    let free := freeWards s (districtOf s x.ward)
    let active := free ≠ [] ∧ (pward s (free.headD 0)).st = 0 ∧ (pward s (free.headD 0)).stage = 0
    let covered := budgetCovers s 6 0 slots energy = true
    let b := shadowBucket (shadowDeviation x.y x.r)
    (free = [] → Gives (.shadowSample slots energy err) s fun t =>
      fg t MOD_SHADOW_GRP_CNT_SKIPPED g = min (2 ^ 15 - 1) (fg s MOD_SHADOW_GRP_CNT_SKIPPED g + 1) ∧ RegsKept s t [(MOD_SHADOW_GRP_CNT, g)] ∧
      t = { s with samples := xs, regs := t.regs }) ∧
    (free ≠ [] → ¬active → exec (.shadowSample slots energy err) s = .next s) ∧
    (active → ¬covered → Gives (.shadowSample slots energy err) s fun t => t = { s with pwr := t.pwr } ∧ (sget {} t.pwr.used 6).out = true) ∧
    (active → covered → err ≠ 1 → Gives (.shadowSample slots energy err) s fun t =>
      t.samples = xs ∧ fg t MOD_SHADOW_GRP_CNT_CHECKED g = min (2 ^ 15 - 1) (fg s MOD_SHADOW_GRP_CNT_CHECKED g + 1) ∧
      (b % 2 = 0 → fg t MOD_SHADOW_HIST_BUCKET_EVEN (8 * g + b / 2) = min (2 ^ 16 - 1) (fg s MOD_SHADOW_HIST_BUCKET_EVEN (8 * g + b / 2) + 1)) ∧
      (b % 2 = 1 → fg t MOD_SHADOW_HIST_BUCKET_ODD (8 * g + b / 2) = min (2 ^ 16 - 1) (fg s MOD_SHADOW_HIST_BUCKET_ODD (8 * g + b / 2) + 1)) ∧
      fg t MOD_SHADOW_GRP_CNT_WARN g = (if fg s MOD_SHADOW_GRP_CFG_WARN_BUCKET g ≤ b then 1 else fg s MOD_SHADOW_GRP_CNT_WARN g) ∧
      fg t MOD_SHADOW_GRP_CNT_ALERT g = (if fg s MOD_SHADOW_GRP_CFG_ALERT_BUCKET g ≤ b then 1 else fg s MOD_SHADOW_GRP_CNT_ALERT g) ∧
      t.mc.evseq = s.mc.evseq + (if fg s MOD_SHADOW_GRP_CFG_ALERT_BUCKET g ≤ b then 1 else 0) ∧ fg t MOD_SHADOW_GRP_CNT_SKIPPED g = fg s MOD_SHADOW_GRP_CNT_SKIPPED g ∧
      (sget {} t.pwr.used 6).slots = (sget {} s.pwr.used 6).slots + slots ∧ (sget {} t.pwr.used 6).energy = (sget {} s.pwr.used 6).energy + energy ∧
      t.mem = s.mem ∧ t.queues = s.queues ∧ t.streams = s.streams) ∧
    (active → covered → Gives (.shadowSample slots energy 1) s fun t =>
      fg t MOD_SHADOW_GRP_CNT_SKIPPED g = min (2 ^ 15 - 1) (fg s MOD_SHADOW_GRP_CNT_SKIPPED g + 1) ∧ RegsKept s t [(MOD_SHADOW_GRP_CNT, g)] ∧
      t.samples = xs)) ∧
  ∀ (slots energy err : Nat) (s : State), s.samples = [] → exec (.shadowSample slots energy err) s = .next s

/-- Scrub, retraining, refresh, wear and store steps act within their budgets, count what they find, and wait when a budget is out.
PATROL_SCRUB, T2_RETRAIN, FLASH_REFRESH and WEAR_MANAGEMENT whose use the frame's budget covers use it: the scrub moves on in its unit,
counting corrections by store, and a pass, modulo 256, once every location of its stores is read; an uncorrectable location is poisoned,
recorded and raised as an event, a clean line of the shared cache refetched, a dirty one poisoned in Tier 1. A due device is retrained and
counted; a block read by the refresh is relocated and counted where R341 asks for it; a program or erase that fails retires its block, and
fewer than 64 GiB of spare blocks degrades Tier 3; the wear shown is that of the most erased block (log 71). One that is not covered waits,
its frame marked. CONFIG_RECORD_COMMIT holds the oldest waiting change in two copies; a half with 1,024 records is compacted into the other,
entry by entry, and its switch record puts that one in use (its live entries: log 48). -/
def Obligations.BackgroundWorkKeepsToItsBudget : Prop :=
  (∀ (store unit loc bytes energy n uncorr : Nat) (s : State), 1 ≤ store → store ≤ 11 → unit < scrubUnits s store → s.scrubs.length = 3 →
    fg s MOD_T1_CFG_LOCAL_GIB 0 ≤ 24 →
    let k := scrubClass store
    let x := scrubOf s k
    let pos := scrubPos s store unit
    let len := min bytes (scrubUnitSize store - pos)
    let place := scrubPlace s store unit loc
    let a := scrubAddr s store unit place.2
    let moved := setScrub s k { x with places := sset 0 x.places (scrubKey store unit) (pos + len) }
    let passes := if k = 0 then MOD_SCRUB_STATUS_T1_PASSES else if k = 1 then MOD_SCRUB_STATUS_T2_PASSES else MOD_SCRUB_STATUS_SRAM_PASSES
    let i := Instr.patrolScrub store unit loc bytes energy n uncorr
    let found := uncorr ≠ 0 ∧ place.1 = unit ∧ pos ≤ place.2 ∧ place.2 < pos + len
    let goes := fun (t : State) => t.mem = s.mem ∧ t.queues = s.queues ∧
      (scrubWhole moved k = false → scrubOf t k = scrubOf moved k ∧ fg t passes 0 = fg s passes 0) ∧
      (scrubWhole moved k = true → scrubOf t k = {} ∧ fg t passes 0 = (fg s passes 0 + 1) % 256)
    (len = 0 → exec i s = .next s) ∧
    (len ≠ 0 → budgetCovers s 0 len 0 energy = false → Gives i s fun t => (sget {} t.pwr.used 0).out = true ∧ t = { s with pwr := t.pwr }) ∧
    (len ≠ 0 → budgetCovers s 0 len 0 energy = true →
      (¬found → Gives i s fun t => goes t ∧ t.poison = s.poison ∧ t.mc.evseq = s.mc.evseq ∧
        (k = 0 → fg t DIST_MEM_ERR_T1_CORRECTED unit = min (2 ^ 16 - 1) (fg s DIST_MEM_ERR_T1_CORRECTED unit + n)) ∧
        (k = 1 → fg t MOD_T2_DEV_CORRECTED unit = min (2 ^ 12 - 1) (fg s MOD_T2_DEV_CORRECTED unit + n)) ∧
        (k = 2 → fg t DIST_MEM_ERR_SRAM_CORRECTED (sramDistrict s (scrubAddr s store unit 0)) =
          min 255 (fg s DIST_MEM_ERR_SRAM_CORRECTED (sramDistrict s (scrubAddr s store unit 0)) + n))) ∧
      (found → store ≠ 9 → (a < 2 ^ 61 → poisoned s (sectorOf a) (sectorSize a) = false) → Gives i s fun t => goes t ∧
        (a < 2 ^ 61 → poisoned t a 1 = true) ∧ (rd t MOD_UE_INFO 0).toNat = ueAt s 1 a % 2 ^ 32 ∧
        (rd t MOD_UE_ADDR_LO 0).toNat = ueAt s 1 a / 2 ^ 32 % 2 ^ 32 ∧ t.life.uncorr = s.life.uncorr + 1 ∧ t.mc.evseq = s.mc.evseq + 1 ∧
        sectorOf a ∈ t.worn ∧ (s.store.fail.closed = false → t.store.fail.eseq = s.store.fail.eseq + if sectorOf a ∈ s.worn then 2 else 1)) ∧
      (∀ l, found → store = 9 → loc / 0x80000 ∈ freeWays (slicePins s unit) (loc % 0x80000 / 256) →
        (heldLines s (unit * 2048 + loc % 0x80000 / 256)).find? (fun l => l.way == loc / 0x80000) = some l → Gives i s fun t => goes t ∧
          (l.dirty = false → t.poison = s.poison ∧ t.mc.evseq = s.mc.evseq) ∧
          (l.dirty = true → t.mc.evseq = s.mc.evseq + 1 ∧ ∀ b, b < 256 →
            poisoned t (t1Offset (fg s MOD_T1_CFG_LOCAL_GIB 0) unit (l.block * 256) + b) 1 = true)))) ∧
  (∀ (d energy : Nat) (s : State), (d ∈ s.links.due → budgetCovers s 2 0 0 energy = true → Gives (.t2Retrain d energy) s fun t =>
      d ∉ t.links.due ∧ fg t MOD_T2_DEV_RETRAINS d = min 255 (fg s MOD_T2_DEV_RETRAINS d + 1) ∧ RegsKept s t [(MOD_T2_DEV, d)]) ∧
    (d ∈ s.links.due → budgetCovers s 2 0 0 energy = false → Gives (.t2Retrain d energy) s fun t => t.links = s.links ∧ t.regs = s.regs) ∧
    (d ∉ s.links.due → exec (.t2Retrain d energy) s = .next s)) ∧
  (∀ (bytes energy : Nat) (e : FlashEvt) (s : State), pfwActive s = false → budgetCovers s 1 bytes 0 energy = true →
    let k := blockKey e.slc e.block
    let u := flashEvent s e
    Gives (.flashRefresh bytes energy []) s (fun t => RegsKept s t [] ∧ t.flash.blocks = s.flash.blocks ∧ t.mem = s.mem) ∧
    (e.op = 0 → e.bad = false → badBlock s k = false → Gives (.flashRefresh bytes energy [e]) s fun t =>
      (relocateDue u k = true → fg t JNL_CNT_REFRESH 0 = min (2 ^ 16 - 1) (fg s JNL_CNT_REFRESH 0 + 1) ∧ flashBlock t k = { erases := (flashBlock s k).erases }) ∧
      (relocateDue u k = false → fg t JNL_CNT_REFRESH 0 = fg s JNL_CNT_REFRESH 0 ∧ flashBlock t k = flashBlock u k ∧
        (flashBlock t k).reads = (flashBlock s k).reads + 1) ∧
      RegsKept s t [(JNL_CNT, 0)] ∧ t.flash.host = s.flash.host ∧ ∀ j, j ≠ k → flashBlock t j = flashBlock s j)) ∧
  (∀ (bytes energy : Nat) (media : List FlashEvt) (e : FlashEvt) (s : State), pfwActive s = false → budgetCovers s 3 bytes 0 energy = true →
    let k := blockKey e.slc e.block
    Gives (.wearManagement bytes energy media) s (fun t =>
      fg t JNL_FLASH_WEAR_USER 0 = min 255 (mostErased t false * 100 / 3000) ∧ fg t JNL_FLASH_WEAR_SLC 0 = min 255 (mostErased t true * 100 / 50000) ∧
      t.flash.orphans = s.flash.orphans - bytes ∧ t.flash.host = s.flash.host ∧ t.flash.images = s.flash.images ∧ t.mem = s.mem) ∧
    (1 ≤ e.op → e.bad = true → badBlock s k = false → Gives (.wearManagement bytes energy [e]) s fun t =>
      badBlock t k = true ∧ fg t JNL_FLASH_GROWN_BAD 0 = min (2 ^ 16 - 1) (fg s JNL_FLASH_GROWN_BAD 0 + 1) ∧
      fg t JNL_STATUS_T3_DEGRADED 0 = if slcBlock k = false ∧ e.spare < 64 then 1 else fg s JNL_STATUS_T3_DEGRADED 0)) ∧
  (∀ (bytes energy : Nat) (media : List FlashEvt) (s : State) (i : Instr) (act : Nat), (i, act) ∈ [(Instr.flashRefresh bytes energy media, 1),
      (.wearManagement bytes energy media, 3)] →
    (pfwActive s = true → exec i s = .next s) ∧
    (pfwActive s = false → budgetCovers s act bytes 0 energy = false → Gives i s fun t =>
      t = { s with pwr := t.pwr } ∧ (sget {} t.pwr.used act).out = true)) ∧
  ∀ (good : Bool) (media : List FlashEvt) (s : State), McIdle s → s.flash.protect = false → pfwActive s = false →
    let q := (flashEvents s media).store.queue
    let n := liveEntries (flashEvents s media)
    let i := Instr.configRecordCommit good media
    let left := fun (t : State) => t.mem = s.mem ∧ t.queues = s.queues ∧ (media = [] → t.regs = s.regs) ∧ t.mc.replies = s.mc.replies
    let same := fun (t : State) => left t ∧ t.store.recs = s.store.recs ∧ t.store.gens = s.store.gens
    (s.store.compact = none → s.store.recs < 1024 → Gives i s fun t => left t ∧ t.store.gens = s.store.gens ∧ t.store.compact = none ∧
      (good = true → t.store.recs = s.store.recs + 1 ∧ t.store.queue = q.drop 1) ∧
      (good = false → t.store.recs = s.store.recs ∧ t.store.queue = if q.head? = some .packet then q.drop 1 else q)) ∧
    (s.store.compact = none → 1024 ≤ s.store.recs → n ≠ 0 → good = true → Gives i s fun t => same t ∧ t.store.compact = some (n - 1) ∧ t.store.queue = q) ∧
    (∀ j, s.store.compact = some (j + 1) → good = true → Gives i s fun t => same t ∧ t.store.compact = some j ∧ t.store.queue = q) ∧
    (s.store.compact = some 0 → good = true → s.store.gens.length = 2 → Gives i s fun t => left t ∧ t.store.compact = none ∧ t.store.recs < 1024 ∧
      storeHalf t.store = 1 - storeHalf s.store ∧ t.store.queue = q) ∧
    (s.store.compact ≠ none ∨ 1024 ≤ s.store.recs → good = false → Gives i s fun t => same t ∧ t.store.compact = s.store.compact ∧ t.store.queue = q)

/-- STREAM_ENABLE, STREAM_DISABLE, DOORBELL_WRITE and FLAG_SIGNAL_WRITE. A write of EN 1 to a disabled stream with a job assigned, version 2 or
3 and a ring that passes its checks enables it afresh, with no command, count or fault; otherwise EN stays 0 with CFG_REFUSED. EN 0 disables
an idle, FAULTED or ABORTED stream, and is an abort request to one at work. A doorbell within the ring and not behind AVAIL becomes AVAIL,
or with a command to load on a dark ward faults the stream with FLT_WARD_DARK; another sets DB_REFUSED. A flag signal adds its increment
modulo 2^16 to its flag alone. Both act on the block as the accesses before them have left it. -/
def Obligations.StreamsAreEnabledRungAndStopped : Prop :=
  ∀ (m n : Nat) (value : Word) (s : State), m / 8 < wardCount s →
    let x := stream s m
    let quiet := fun (t : State) => t.mem = s.mem ∧ t.queues = s.queues ∧ t.flash = s.flash
    let others := fun (t : State) => ∀ k, k ≠ m → (stream t k).st = (stream s k).st ∧ (stream t k).cmds = (stream s k).cmds ∧ (stream t k).avail = (stream s k).avail
    (fg s WARD_SCFG_EN m = 0 →
      let s1 := writeFields s WARD_SCFG m (withField value 31 31 0)
      let good := hasJob s = true ∧ (fg s1 WARD_SCFG_VERSION m = 2 ∨ fg s1 WARD_SCFG_VERSION m = 3) ∧ ringOk s1 m = true
      (good → Gives (.streamEnable m value) s fun t =>
        fg t WARD_SCFG_EN m = 1 ∧ (stream t m).st = .enabled ∧ (stream t m).avail = 0 ∧ (stream t m).cmds = [] ∧ fg t WARD_SFETCH_LOADED m = 0 ∧
        fg t WARD_SDONE_RETIRED m = 0 ∧ fg t WARD_SFAULT_CODE m = 0 ∧ (rd t WARD_SFAULT_DETAIL m).toNat = 0 ∧ quiet t ∧ others t ∧
        RegsKept s t [(WARD_SCFG, m), (WARD_SFETCH, m), (WARD_SDONE, m), (WARD_SFAULT, m), (WARD_SFAULT_DETAIL, m), (WARD_SFAULT_INDEX, m),
          (WARD_SFAULT_FRAME, m), (WARD_SBLOCK, m), (WARD_SBLOCK_TAG, m)]) ∧
      (¬good → Gives (.streamEnable m value) s fun t =>
        fg t WARD_SCFG_EN m = 0 ∧ fg t WARD_SSTAT_CFG_REFUSED m = 1 ∧ (stream t m).st = x.st ∧ quiet t ∧ others t ∧
        RegsKept s t [(WARD_SCFG, m), (WARD_SSTAT, m)])) ∧
    (fg s WARD_SCFG_EN m = 1 →
      (x.st = .faulted ∨ x.st = .aborted ∨ (x.st = .enabled ∧ isIdle s m = true ∧ x.req = []) → changes s m value scfgGuarded = false →
        Gives (.streamDisable m value) s fun t => (stream t m).st = .disabled ∧ fg t WARD_SCFG_EN m = 0 ∧ quiet t ∧ others t ∧ RegsKept s t [(WARD_SCFG, m)]) ∧
      ((x.st = .enabled ∧ isIdle s m = false) ∨ x.st = .aborting ∨ x.st = .faulting → Gives (.streamDisable m value) s fun t =>
        (stream t m).req = x.req ++ [.enClear] ∧ (stream t m).st = x.st ∧ fg t WARD_SCFG_EN m = 1 ∧ (stream t m).cmds = x.cmds ∧ quiet t ∧ others t)) ∧
    (∀ before s0, s = hostOps s0 before →
      let v := n % 2 ^ 32
      let accepted := fg s WARD_SCFG_EN m = 1 ∧ (v + 2 ^ 32 - fg s WARD_SFETCH_LOADED m) % 2 ^ 32 ≤ ringCommands s m ∧
        (v + 2 ^ 32 - x.avail) % 2 ^ 32 < 2 ^ 31
      let lost := isDark s (m / 8) = true ∧ v ≠ fg s WARD_SFETCH_LOADED m
      (accepted → ¬lost → Gives (.doorbellWrite m n before) s0 fun t =>
        (stream t m).avail = v ∧ (stream t m).st = x.st ∧ (stream t m).cmds = x.cmds ∧ quiet t ∧ others t) ∧
      (accepted → lost → x.st = .enabled → Gives (.doorbellWrite m n before) s0 fun t => Faulted t m 0x14 (m / 8)) ∧
      (¬accepted → Gives (.doorbellWrite m n before) s0 fun t =>
        fg t WARD_SSTAT_DB_REFUSED m = 1 ∧ RegsKept s t [(WARD_SSTAT, m)] ∧ (stream t m).avail = x.avail ∧ quiet t) ∧
      ∀ f, f / 256 < wardCount s → Gives (.flagSignalWrite f n before) s0 fun t =>
        flagCount t f = (flagCount s f + n) % 2 ^ 16 ∧ (∀ k, WARD_FLAG.key k ≠ WARD_FLAG.key f → flagCount t k = flagCount s k) ∧ quiet t)

/-- QUEUE_ENABLE checks placement and pinning; enabling and disabling empty the queue; a reservation holds it. A write of EN 1 to a disabled
queue that passes the placement and pin checks enables it empty, its counts 0, with its arrival region cleared and its drain point at round
0, rank 0; one that fails leaves EN 0 with PLACE_REFUSED or PIN_REFUSED. A write of EN 0 is refused with CFG_REFUSED while an issued command
holds a reservation; else the queue is disabled and emptied. While EN is 1 a change of HOME, BASE, DEPTH or SLOT is ignored with
CFG_REFUSED. No byte changes but the marks of the slot headers, and no other queue. -/
def Obligations.QueuesAreEnabledWherePlacementAllows : Prop :=
  ∀ (n : Nat) (value : Word) (s : State), n / 64 < wardCount s →
    let geometry := [WARD_QCFG_HOME, WARD_QCFG_BASE, WARD_QCFG_DEPTH, WARD_QCFG_SLOT]
    let marks := fun (u t : State) => MemKept s t (hdrKey u n 0) (16 * qDepth u n)
    let emptied := fun (u t : State) => queueRt t n = {} ∧ sget {} t.arrivals n = {} ∧ rd t WARD_QARR_STAT n = 0 ∧ marks u t ∧ QueuesKept s t n
    (fg s WARD_QCFG_EN n = 0 →
      let s1 := wr s WARD_QCFG n (withField value 31 31 0)
      (placeBad s1 n = false → pinBad s1 n = false → Gives (.queueEnable n value) s fun t =>
        fg t WARD_QCFG_EN n = 1 ∧ (∀ f ∈ geometry, fg t f n = fieldIn value f) ∧ emptied s1 t ∧ RegsKept s t [(WARD_QCFG, n), (WARD_QARR_STAT, n)]) ∧
      (placeBad s1 n = true ∨ pinBad s1 n = true → Gives (.queueEnable n value) s fun t =>
        fg t WARD_QCFG_EN n = 0 ∧ (placeBad s1 n = true → fg t WARD_QSTAT_PLACE_REFUSED n = 1) ∧ (pinBad s1 n = true → fg t WARD_QSTAT_PIN_REFUSED n = 1) ∧
        t.queues = s.queues ∧ t.mem = s.mem ∧ RegsKept s t [(WARD_QCFG, n), (WARD_QSTAT, n)])) ∧
    (fg s WARD_QCFG_EN n = 1 →
      (qHeld s n = true → Gives (.queueDisable n value) s fun t =>
        fg t WARD_QCFG_EN n = 1 ∧ fg t WARD_QSTAT_CFG_REFUSED n = 1 ∧ t.queues = s.queues ∧ t.mem = s.mem ∧ RegsKept s t [(WARD_QSTAT, n)]) ∧
      (qHeld s n = false → changes s n value geometry = false → Gives (.queueDisable n value) s fun t =>
        fg t WARD_QCFG_EN n = 0 ∧ emptied s t ∧ RegsKept s t [(WARD_QCFG, n), (WARD_QARR_STAT, n)]) ∧
      (changes s n value geometry = true → Gives (.queueEnable n value) s fun t =>
        fg t WARD_QSTAT_CFG_REFUSED n = 1 ∧ (∀ f ∈ geometry, fg t f n = fg s f n) ∧ t.queues = s.queues ∧ t.mem = s.mem))

/-- The page pool's operations and enabling, and the state writes of the Tier 2 slots. A write of MOD_PPOOL_OP begins an operation, BUSY 1; a
row names the one in progress, or writes and ends one where none is, and one that names another while it is in progress is refused (log 51).
With the pool enabled ALLOC gives the lowest free page (STATUS 0), or evicts the oldest unpinned sequence (1), or fails (2, all pinned, with
nothing changed; 3, 4,096 sequences); TOUCH stamps and pins, answering 4 for an evicted sequence; FREE forgets the sequence; UNPIN_ALL
unpins; disabled, each answers 5. POOL_ENABLE empties the pool, or is refused. SLOT_OPEN, SLOT_SEAL and SLOT_CLOSE move a slot's state, or
refuse with REFUSED in the cases of R251; opening clears INVALID. Memory and the other slots stay. -/
def Obligations.PagesAndSlotsAreGivenUnderTheirRules : Prop :=
  (∀ (q : Nat) (s : State), q < 2 ^ 16 →
    let p := s.pool
    let status := fun (t : State) (k : Nat) => fg t MOD_PPOOL_RESULT_STATUS 0 = k
    let given := fun (t : State) (n : Nat) => fg t MOD_PPOOL_RESULT_PAGE 0 = n % 2 ^ 14 ∧ t.pool.use = (p.use + 1) % 2 ^ 32 ∧
      ∃ x, pseqOf t q = some x ∧ x.pages = ((pseqOf s q).map PSeq.pages).getD [] ++ [n] ∧ x.pin = true ∧ x.evicted = false ∧ x.stamp = p.use
    let tracked := (pseqOf s q).isSome = true ∨ p.seqs.length < 4096
    let at' := fun (k : Nat) => p.op = none ∨ p.op = some (k, q)
    let ends := fun (t : State) => t.pool.op = none ∧ fg t MOD_PPOOL_RESULT_BUSY 0 = 0
    let same := fun (t : State) => t.pool = { p with op := none } ∧ fg t MOD_PPOOL_RESULT_BUSY 0 = 0
    (∀ i k, (i, k) ∈ [(Instr.alloc q, 1), (.touch q, 2), (.free q, 3), (.unpinAll q, 4)] →
      (fg s MOD_PPOOL_CFG_EN 0 = 0 → at' k → Gives i s fun t => status t 5 ∧ same t) ∧
      (∀ o, p.op = some o → o.1 ≠ k ∨ (o.2 ≠ q ∧ k ≠ 4) → Gives i s fun t =>
        fg t MOD_PPOOL_CFG_REFUSED 0 = 1 ∧ t.pool = p ∧ RegsKept s t [(MOD_PPOOL_CFG, 0)])) ∧
    (fg s MOD_PPOOL_CFG_EN 0 = 1 →
      (∀ n, at' 1 → tracked → freePage s p = some n → Gives (.alloc q) s fun t => status t 0 ∧ given t n ∧ fg t MOD_PPOOL_VICTIM_VALID 0 = 0 ∧ ends t) ∧
      (∀ v n, at' 1 → tracked → freePage s p = none → poolVictim p q = some v → freePage s (putPseq p { v with pages := [], evicted := true }) = some n →
        Gives (.alloc q) s fun t => status t 1 ∧ given t n ∧ fg t MOD_PPOOL_VICTIM_VALID 0 = 1 ∧ fg t MOD_PPOOL_VICTIM_SEQ 0 = v.seq % 2 ^ 16 ∧
          fg t MOD_PPOOL_CNT_EVICT 0 = min (2 ^ 16 - 1) (fg s MOD_PPOOL_CNT_EVICT 0 + 1) ∧ ends t) ∧
      (at' 1 → tracked → freePage s p = none → poolVictim p q = none → Gives (.alloc q) s fun t => status t 2 ∧ same t) ∧
      (at' 1 → ¬tracked → Gives (.alloc q) s fun t => status t 3 ∧ t.pool = { p with op := none, use := (p.use + 1) % 2 ^ 32 }) ∧
      (∀ x, at' 2 → pseqOf s q = some x → x.tracked = true → Gives (.touch q) s fun t => status t (if x.evicted then 4 else 0) ∧
        pseqOf t q = some { x with stamp := p.use, pin := true } ∧ t.pool.use = (p.use + 1) % 2 ^ 32 ∧ ends t) ∧
      (at' 2 → pseqOf s q = none → Gives (.touch q) s fun t => status t 0 ∧ t.pool = { p with op := none, use := (p.use + 1) % 2 ^ 32 }) ∧
      (at' 3 → Gives (.free q) s fun t => status t 0 ∧ pseqOf t q = none ∧ t.pool.use = p.use ∧ ends t) ∧
      (at' 4 → Gives (.unpinAll q) s fun t => status t 0 ∧ (∀ x ∈ t.pool.seqs, x.pin = false) ∧ t.pool.seqs.map PSeq.pages = p.seqs.map PSeq.pages ∧ ends t))) ∧
  (∀ (off : Nat) (value : Word) (s : State), off % 4 = 0 → busMem s off = .none → regAt off = some (MOD_PPOOL_OP, 0) → McIdle s →
    (s.pool.op = none → Gives (.registerWrite off value []) s fun t => fg t MOD_PPOOL_RESULT_BUSY 0 = 1 ∧
      t.pool = { s.pool with op := some (fieldIn value MOD_PPOOL_OP_OP, fieldIn value MOD_PPOOL_OP_SEQ) } ∧ RegsKept s t [(MOD_PPOOL_RESULT, 0)]) ∧
    (s.pool.op ≠ none → Gives (.registerWrite off value []) s fun t => fg t MOD_PPOOL_CFG_REFUSED 0 = 1 ∧ t.pool = s.pool ∧
      RegsKept s t [(MOD_PPOOL_CFG, 0)])) ∧
  (∀ (value : Word) (s : State), fg s MOD_PPOOL_CFG_EN 0 = 0 →
    let pages := fieldIn value MOD_PPOOL_CFG_PAGES
    let units := fieldIn value MOD_PPOOL_CFG_PAGE_UNITS
    (0 < pages → 0 < units → poolBase s + pages * units * 65536 ≤ tier1Size → Gives (.poolEnable value) s fun t =>
      fg t MOD_PPOOL_CFG_EN 0 = 1 ∧ poolPages t = pages ∧ poolFree t = pages ∧ t.pool = { op := s.pool.op } ∧ RegsKept s t [(MOD_PPOOL_CFG, 0)] ∧ t.mem = s.mem) ∧
    (pages = 0 ∨ units = 0 ∨ tier1Size < poolBase s + pages * units * 65536 → Gives (.poolEnable value) s fun t =>
      fg t MOD_PPOOL_CFG_EN 0 = 0 ∧ fg t MOD_PPOOL_CFG_REFUSED 0 = 1 ∧ t.pool = s.pool ∧ RegsKept s t [(MOD_PPOOL_CFG, 0)])) ∧
  ∀ (i : Instr) (goal k : Nat) (value : Word) (s : State), (i, goal) ∈ [(Instr.slotOpen k value, 1), (.slotSeal k value, 2), (.slotClose k value, 0)] → k < 16 →
    let st := slotState s k
    let u := slotUnits s k
    let busyR := fg s MOD_T2SLOT_USE_READERS k ≠ 0
    let busyW := fg s MOD_T2SLOT_USE_WRITERS k ≠ 0
    let clash := u.2 = 0 ∨ 63488 < u.1 + u.2 ∨ ∃ j, j < 16 ∧ j ≠ k ∧ slotState s j ≠ 0 ∧ overlaps u (slotUnits s j) = true
    let no := (st = 0 ∧ goal = 1 ∧ clash) ∨ (st = 1 ∧ goal = 2 ∧ (busyW ∨ fg s MOD_T2SLOT_CTL_INVALID k = 1)) ∨ (st = 2 ∧ goal = 1 ∧ busyR) ∨
      (st = 1 ∧ goal = 0 ∧ busyW) ∨ (st = 2 ∧ goal = 0 ∧ busyR) ∨ (st = 0 ∧ goal = 2) ∨ (st = 3 ∧ goal ≠ 3)
    Gives i s fun t => RegsKept s t [(MOD_T2SLOT_CTL, k)] ∧ t.mem = s.mem ∧
      (no → slotState t k = st ∧ fg t MOD_T2SLOT_CTL_REFUSED k = 1) ∧
      (¬no → slotState t k = goal ∧ (goal = 1 → st ≠ 1 → fg t MOD_T2SLOT_CTL_INVALID k = 0)) ∧
      fg t MOD_T2SLOT_CTL_VERSION k = (if st = 1 then fieldIn value MOD_T2SLOT_CTL_VERSION else fg s MOD_T2SLOT_CTL_VERSION k)

/-- A write to a kernel store changes it only outside the library and only while no stream of its ward is enabled. REGISTER_WRITE of a word of a
logical ward's kernel store: in a library region, or while a stream of the ward is enabled, the word is ignored and KS_REFUSED of the ward
is 1, all memory and every other register as before; in any other region with no stream of the ward enabled the word stands at its place and
no other byte and no register changes. (With no packet waiting at the MC; the block is as the accesses before the write have left it.) -/
def Obligations.KernelStoreWritesAreGuarded : Prop :=
  ∀ (w off : Nat) (value : Word) (s : State), w < wardCount s → w < 80 → off < 0x40000 → off % 4 = 0 → McIdle s → ∀ before s0, s = hostOps s0 before →
    let library := off < 0x10000 ∨ (0x20000 ≤ off ∧ off < 0x28000)
    let busy := ∃ k, k < 8 ∧ fg s WARD_SCFG_EN (8 * w + k) = 1
    (library ∨ busy → Gives (.registerWrite (kstoreBase + w * 0x40000 + off) value before) s0 fun t =>
      fg t VE_KSCTL_KS_REFUSED w = 1 ∧ t.mem = s.mem ∧ RegsKept s t [(VE_KSCTL, w)]) ∧
    (¬library → ¬busy → Gives (.registerWrite (kstoreBase + w * 0x40000 + off) value before) s0 fun t =>
      memRead t (kstoreKey w off) 4 = toBytesLE 4 value.toNat ∧ MemKept s t (kstoreKey w off) 4 ∧ t.regs = s.regs)

/-- KSTORE_BROADCAST_WRITE, kernel store digests, COLL_CLEAR, WARD_RESET, the mailbox, PCIE_MODE_WRITE, and REGISTER_WRITE of plain registers. A
broadcast word with no stream of the module enabled stands in every ward's store; else BCAST_REFUSED. A digest request clears DIGEST_DONE;
once done it reads 1 with the CRC-32 of the store. COLL_CLEAR zeroes the straggler entries and the collective counters. WARD_RESET of a ward
with no stream, no queue in its store and no entry or wake in progress sets BUSY and asks for its wake from OFF; else REFUSED, TEST as
written. MAILBOX_GO answers an identity request in the reply buffer with DONE, or is refused while BUSY is 1; MAILBOX_RELEASE clears DONE.
PCIE_MODE_WRITE takes MWIN, and MODE in Detect with, from endpoint mode, PERST_N asserted. A word written to a register without a rule of
its own changes that word alone, by its access codes. -/
def Obligations.ControlWritesFollowTheirRegisters : Prop :=
  (∀ (off : Nat) (value : Word) (s : State), off < 0x40000 → off % 4 = 0 →
    ((below (wardCount s)).any (anyEnabled s) = true → Gives (.kstoreBroadcastWrite off value) s fun t =>
      fg t MOD_KSTORE_STATUS_BCAST_REFUSED 0 = 1 ∧ t.mem = s.mem ∧ RegsKept s t [(MOD_KSTORE_STATUS, 0)]) ∧
    ((below (wardCount s)).any (anyEnabled s) = false → wardCount s ≤ 80 → kstoreLibrary off = false → Gives (.kstoreBroadcastWrite off value) s fun t =>
      t.regs = s.regs ∧ (∀ w, w < wardCount s → memRead t (kstoreKey w off) 4 = toBytesLE 4 value.toNat) ∧
      ∀ a, (∀ w, w < wardCount s → a < kstoreKey w off ∨ kstoreKey w off + 4 ≤ a) → readByte t a = readByte s a)) ∧
  (∀ (w : Nat) (s : State), w < wardCount s → w < 80 →
    Gives (.kstoreDigestReq w) s (fun t => w ∈ t.ksReq ∧ fg t VE_KSCTL_DIGEST_DONE w = 0 ∧ t.mem = s.mem ∧ RegsKept s t [(VE_KSCTL, w)]) ∧
    (w ∈ s.ksReq → Gives (.kstoreDigestDone w) s fun t => w ∉ t.ksReq ∧ fg t VE_KSCTL_DIGEST_DONE w = 1 ∧
      (rd t VE_KSDIGEST w).toNat = kstoreCrc s w % 2 ^ 32 ∧ t.mem = s.mem ∧ RegsKept s t [(VE_KSCTL, w), (VE_KSDIGEST, w)])) ∧
  (∀ s : State, Gives .collClear s fun t => t.strag = [] ∧ (∀ k, k < 32 → rd t MOD_STRAG_INFO k = 0 ∧ rd t MOD_STRAG_UNITS k = 0 ∧ rd t MOD_STRAG_PACED k = 0) ∧
    fg t MOD_COLL_WAIT_ARR_UNITS 0 = 0 ∧ fg t MOD_COLL_WAIT_WIN_UNITS 0 = 0 ∧ fg t MOD_COLL_WAIT_FLAG_UNITS 0 = 0 ∧ fg t MOD_COLL_OTHER_UNITS 0 = 0 ∧
    t.mem = s.mem ∧ t.streams = s.streams ∧ t.queues = s.queues) ∧
  (∀ (w : Nat) (value : Word) (s : State), w < wardCount s → w < 80 →
    (wardResetBad s w = true → Gives (.wardReset w value) s fun t => fg t WARD_RST_REFUSED w = 1 ∧ fg t WARD_RST_TEST w = fieldIn value WARD_RST_TEST ∧
      fg t WARD_RST_BUSY w = fg s WARD_RST_BUSY w ∧ RegsKept s t [(WARD_RST, w)] ∧ t.pwards = s.pwards ∧ t.mem = s.mem) ∧
    (wardResetBad s w = false → Gives (.wardReset w value) s fun t => fg t WARD_RST_BUSY w = 1 ∧ fg t WARD_RST_RESULT w = 0 ∧
      fg t WARD_RST_TEST w = fieldIn value WARD_RST_TEST ∧ (pward t (physOf s w)).st = 4 ∧ (pward t (physOf s w)).wakeBy = some 4)) ∧
  (∀ (value : Word) (s : State), McIdle s →
    (fg s MC_MBOX_BUSY 0 = 1 → Gives (.mailboxGo value) s fun t => fg t MC_MBOX_REFUSED 0 = 1 ∧ RegsKept s t [(MC_MBOX, 0)] ∧ t.mem = s.mem) ∧
    (let bs := memRead s (ctrlBase + mboxRequest) (min (fieldIn value MC_MBOX_LEN) 4120)
     let r : Req := ⟨(3, 0), bs⟩
     fg s MC_MBOX_BUSY 0 = 0 → fg s MC_MBOX_DONE 0 = 0 → framed bs = true → keptFor s r = none → refusal s r = none → r.op = 0x00 →
      Gives (.mailboxGo value) s fun t => fg t MC_MBOX_DONE 0 = 1 ∧ fg t MC_MBOX_BUSY 0 = 0 ∧ fg t MC_MBOX_LEN 0 = fieldIn value MC_MBOX_LEN ∧
        memRead t (ctrlBase + mboxReply) 80 = replyTo r 0 0 (identityRecord s) ∧ t.queues = s.queues ∧ t.store = s.store) ∧
    Gives .mailboxRelease s fun t => fg t MC_MBOX_DONE 0 = 0 ∧ RegsKept s t [(MC_MBOX, 0)] ∧ t.mem = s.mem ∧ t.mc = s.mc) ∧
  (∀ (value : Word) (s : State), Gives (.pcieModeWrite value) s fun t =>
    fg t MOD_PCIE_CFG_MWIN 0 = fieldIn value MOD_PCIE_CFG_MWIN ∧ RegsKept s t [(MOD_PCIE_CFG, 0)] ∧ t.mem = s.mem ∧
    fg t MOD_PCIE_CFG_MODE 0 = if s.host.detect = true ∧ (fg s MOD_PCIE_CFG_MODE 0 = 0 → s.host.perst = true) then fieldIn value MOD_PCIE_CFG_MODE
      else fg s MOD_PCIE_CFG_MODE 0) ∧
  ∀ (r : Reg) (off i : Nat) (value : Word) (s : State), off % 4 = 0 → busMem s off = .none → regAt off = some (r, i) → beyond s r i = false →
    r ∉ ruledRegs → McIdle s → ∀ before s0, s = hostOps s0 before → Gives (.registerWrite off value before) s0 fun t =>
      rd t r i = writeWord r (rd s r i) value ∧ RegsKept s t [(r, i)] ∧ t.mem = s.mem

/-- Each read packet is answered with its record, and leaves everything but the registers that a read clears alone; a rejected packet is
counted. For every read opcode a packet that reaches an idle MC, is no retry and passes the common checks gets one reply with status OK and
its data: identity, versions, status, configuration items, power, energy records, events, lifetime counters, routing entries, neighbours, a
stream's registers, journal status, failure entries, security state, register words. JNL_READ answers a stored record whole, or a bad
parameter (the model's choice, log 58). Memory but the mailbox's reply buffer, queues, flash, fuses, stored configuration and jobs stay.
PACKET_REJECT of a packet whose size or CRC is wrong counts it and answers nothing; of one refused for its header it answers the refusal. -/
def Obligations.ReadPacketsReplyWithTheirRecords : Prop :=
  ∀ (tr peer : Nat) (packet : List Byte) (s : State),
    let r : Req := ⟨(tr, peer), packet⟩
    let p := r.par
    let f := s.fuses
    (∀ (i : Instr) (op : Nat) (data : List Byte), (i, op, data) ∈ [
      (Instr.getIdentity tr peer packet, 0x00, identityRecord s),
      (.getVersions tr peer packet, 0x01, versionRecord s),
      (.getStatus tr peer packet, 0x02, (readRegs s [(MC_STATUS, 0)]).1 ++ toBytesLE 4 s.mc.job ++ toBytesLE 1 (modState s) ++ toBytesLE 1 s.mc.lastOp ++
        toBytesLE 2 s.mc.lastStat ++ toBytesLE 4 0),
      (.pwrRead tr peer packet, 0x20, (readRegs s [(PWR_GRANT, 0), (PWR_VF, 0), (PWR_POWER, 0), (THM_STATUS, 0)]).1),
      (.energyRead tr peer packet, 0x32, (s.pwr.ring.drop (s.pwr.ring.length - numAt p 0 2)).flatMap ERec.bytes),
      (.eventRead tr peer packet, 0x40, ((s.mc.events.filter (fun e => e.seq ≥ numAt p 0 4)).take (byteAt p 4)).flatMap Event.bytes),
      (.countersRead tr peer packet, 0x42, toBytesLE 8 s.life.frames ++ toBytesLE 4 s.life.colds ++ toBytesLE 4 s.life.resets ++ toBytesLE 4 s.life.pfws ++
        toBytesLE 4 s.life.trips ++ toBytesLE 8 s.life.energy),
      (.routeRead tr peer packet, 0x52, (readRegs s ((rangeFrom (numAt p 0 2) (numAt p 2 2)).map (fun c => (FAB_ROUTE, c)))).1),
      (.nbrRead tr peer packet, 0x53, (nbrPorts s (below 28)).1),
      (.streamRead tr peer packet, 0x61, (readRegs s [(WARD_SSTAT, streamOf p), (WARD_SFAULT, streamOf p), (WARD_SFAULT_DETAIL, streamOf p),
        (WARD_SFAULT_INDEX, streamOf p)]).1),
      (.jnlStatusRead tr peer packet, 0x70, (readRegs s [(JNL_STATUS, 0), (JNL_LAST_STEP, 0), (JNL_IMG_STATUS, 0), (JNL_IMG_CUR, 0), (JNL_IMG_PREV, 0),
        (JNL_FLASH, 0)]).1),
      (.failRead tr peer packet, 0xA2, ((s.store.fail.entries.drop (byteAt p 0)).take (byteAt p 1)).flatMap FailEntry.bytes),
      (.regRead tr peer packet, 0xA4, (readWords s ((below (numAt p 4 2)).map (fun k => numAt p 0 4 + 4 * k))).1)] →
      Accepted s r op → Gives i s fun t => OnlyReplied s t r 0 0 data ∧ t.store = s.store ∧ t.mc.job = s.mc.job) ∧
    (Accepted s r 0x10 → ∀ k, byteAt p 0 = k → Gives (.cfgRead tr peer packet) s fun t => t.store = s.store ∧
      (k = 0xFE → OnlyReplied s t r 0 0 (baseDefaults.flatMap (fun d => itemBytes (d.1, baseItem s.store.base d.1)))) ∧
      (k = 0xFD → OnlyReplied s t r 0 0 (baseDefaults.flatMap (fun d => itemBytes (d.1, effective s.store (overlayNow s) d.1)))) ∧
      (k ≤ 15 → OnlyReplied s t r 0 0 ((overlayItems s.store (some k)).flatMap itemBytes))) ∧
    (Accepted s r 0x71 →
      (∀ x, s.flash.records.find? (fun x => x.step == numAt p 0 4) = some x → Gives (.jnlRead tr peer packet) s fun t => OnlyReplied s t r 0 0 x.bytes) ∧
      (s.flash.records.find? (fun x => x.step == numAt p 0 4) = none → Gives (.jnlRead tr peer packet) s fun t => OnlyReplied s t r 0x12 0 [])) ∧
    (Accepted s r 0x90 → ∃ data, data.length = 196 ∧ (fg s MC_SEC_KEYS_REFUSED 0 = 1 → data.drop 4 = List.replicate 192 0) ∧
      Gives (.secRead tr peer packet) s fun t => OnlyReplied s t r 0 0 data ∧ t.store = s.store) ∧
    (reachable s tr = true → McIdle s → framed packet = false → Gives (.packetReject tr peer packet) s fun t =>
      fg t MC_PKT_CNT_CRC_FAIL 0 = min 0xFFFF (fg s MC_PKT_CNT_CRC_FAIL 0 + 1) ∧ t.mc = s.mc ∧ t.mem = s.mem) ∧
    (∀ st d, reachable s tr = true → McIdle s → framed packet = true → keptFor s r = none → headerBad r = some (st, d) →
      Gives (.packetReject tr peer packet) s fun t => OnlyReplied s t r st d []) ∧
    (identityRecord s).length = 64 ∧ (identityRecord s).take 8 = toBytesLE 8 f.identity ∧ (versionRecord s).length = 32

/-- Each write packet of configuration, power, events, fabric and registers takes its effect and is answered OK. An accepted CFG_WRITE or
CFG_RESTORE waits for its record in the configuration store; once CONFIG_RECORD_COMMIT has it in two copies, CFG_WRITE stores its items in
the base or an overlay, and a changed PWR_CTRL waits for the pulse; CFG_RESTORE restores an overlay; a record that fails, or flash under
write protect, answers ST_STORE_FAIL and changes no item. OVL_APPLY names the overlay of the next pulse; PWR_CTRL_WRITE and BUDGET_WRITE
wait for the pulse; EVENT_ACK acknowledges; FAB_ASSIGN sets chip and slice, or is refused with a job; ROUTE_WRITE writes its entries alone;
PORT_RESET trains a FAILED port and leaves any other; PORT_V2_SLICE sets the slice; REG_WRITE writes a plain register by its access codes. -/
def Obligations.WritePacketsTakeEffect : Prop :=
  ∀ (tr peer : Nat) (packet : List Byte) (s : State),
    let r : Req := ⟨(tr, peer), packet⟩
    let p := r.par
    let done := fun (t : State) => Replied s t r 0 0 [] ∧ t.queues = s.queues ∧ t.flash = s.flash ∧ t.fuses = s.fuses
    (∀ i op, (i, op) ∈ [(Instr.cfgWrite tr peer packet, 0x11), (.cfgRestore tr peer packet, 0x12)] → Accepted s r op →
      (s.flash.protect = false → Gives i s fun t => StoreWaits s t r) ∧
      (s.flash.protect = true → Gives i s fun t => OnlyReplied s t r 0x22 0 [] ∧ t.store.base = s.store.base ∧ t.store.overlays = s.store.overlays)) ∧
    (∀ op, op ∈ [0x11, 0x12, 0x84] → Storing s r op → Gives (.configRecordCommit false []) s fun t => OnlyReplied s t r 0x22 0 [] ∧
      t.store = { s.store with queue := s.store.queue.drop 1 } ∧ t.mc.storing = none) ∧
    (Storing s r 0x11 → Gives (.configRecordCommit true []) s fun t => done t ∧ t.mc.storing = none ∧
      (byteAt p 0 = 0xFE → t.store = { recorded s.store with base := putItems s.store.base (cfgItems p) } ∧
        ∀ v, cfgItems p = [(0x0002, v)] → itemIn (overlayItems s.store (overlayNext s)) 0x0002 = none →
          laterWord t (PWR_CTRL.key 0) = BitVec.ofNat 32 v ∧ rd t PWR_CTRL 0 = rd s PWR_CTRL 0) ∧
      (byteAt p 0 ≤ 15 → overlayItems t.store (some (byteAt p 0)) = putItems (overlayItems s.store (some (byteAt p 0))) (cfgItems p) ∧
        t.store.base = s.store.base ∧ ∀ k, k ≠ byteAt p 0 → overlayItems t.store (some k) = overlayItems s.store (some k))) ∧
    (Storing s r 0x12 → Gives (.configRecordCommit true []) s fun t => done t ∧ t.mc.storing = none ∧
      overlayItems t.store (some (byteAt p 0)) = ((stdOverlays.find? (fun o => o.1 == byteAt p 0)).map Prod.snd).getD [] ∧
      ∀ k, k ≠ byteAt p 0 → overlayItems t.store (some k) = overlayItems s.store (some k)) ∧
    (Accepted s r 0x13 → Gives (.ovlApply tr peer packet) s fun t => done t ∧ t.mc.nextOvl = some (if byteAt p 0 = 0xFF then 0x100 else byteAt p 0) ∧
      t.store = s.store ∧ fg t MC_STATUS_OVERLAY 0 = fg s MC_STATUS_OVERLAY 0) ∧
    (Accepted s r 0x21 → ctrlOk (numAt p 0 4) = true → Gives (.pwrCtrlWrite tr peer packet) s fun t => done t ∧
      laterWord t (PWR_CTRL.key 0) = writeWord PWR_CTRL (laterWord s (PWR_CTRL.key 0)) (BitVec.ofNat 32 (numAt p 0 4)) ∧ rd t PWR_CTRL 0 = rd s PWR_CTRL 0) ∧
    (Accepted s r 0x22 → Gives (.budgetWrite tr peer packet) s fun t => done t ∧
      fieldIn (laterWord t (PWR_FBU_BYTES.key (byteAt p 0))) PWR_FBU_BYTES_BYTES = numAt p 4 4 ∧
      fieldIn (laterWord t (PWR_FBU_LIM.key (byteAt p 0))) PWR_FBU_LIM_SLOTS = numAt p 8 2 ∧
      fieldIn (laterWord t (PWR_FBU_LIM.key (byteAt p 0))) PWR_FBU_LIM_ENERGY = numAt p 10 2) ∧
    (Accepted s r 0x41 → Gives (.eventAck tr peer packet) s fun t => done t ∧ t.mc.acked = max s.mc.acked (min (numAt p 0 4 + 1) s.mc.evseq) ∧
      t.mc.events = s.mc.events) ∧
    (Accepted s r 0x50 →
      (hasJob s = false → Gives (.fabAssign tr peer packet) s fun t => done t ∧ fg t FAB_CHIP_VALID 0 = 1 ∧ fg t FAB_CHIP_CHIP 0 = numAt p 0 2 ∧
        fg t FAB_SLICE_ID 0 = numAt p 2 2 ∧ RegsKept s t [(FAB_CHIP, 0), (FAB_SLICE, 0), (MC_MBOX, 0)]) ∧
      (hasJob s = true → Gives (.fabAssign tr peer packet) s fun t => OnlyReplied s t r 0x15 0 [] ∧ fg t FAB_CHIP_WRITE_REFUSED 0 = 1 ∧
        fg t FAB_CHIP_CHIP 0 = fg s FAB_CHIP_CHIP 0 ∧ rd t FAB_SLICE 0 = rd s FAB_SLICE 0)) ∧
    (Accepted s r 0x51 → Gives (.routeWrite tr peer packet) s fun t => done t ∧
      (∀ k, k < numAt p 2 2 → let v := numAt p (4 + 4 * k) 4
        fg t FAB_ROUTE_VALID (numAt p 0 2 + k) = bits v 31 31 ∧ fg t FAB_ROUTE_ALLOW (numAt p 0 2 + k) = bits v 30 30 ∧
        fg t FAB_ROUTE_PORTS (numAt p 0 2 + k) = bits v 27 0) ∧
      ∀ c, c < 65536 → c < numAt p 0 2 ∨ numAt p 0 2 + numAt p 2 2 ≤ c → rd t FAB_ROUTE c = rd s FAB_ROUTE c) ∧
    (Accepted s r 0x54 → Gives (.portReset tr peer packet) s fun t => done t ∧
      (portState s (byteAt p 0) = 6 → byteAt p 0 < 28 → portState t (byteAt p 0) = 1 ∧ (port t (byteAt p 0)).tries = 0 ∧ (port t (byteAt p 0)).retry = []) ∧
      (portState s (byteAt p 0) ≠ 6 → t.ports = s.ports ∧ RegsKept s t [(MC_MBOX, 0)])) ∧
    (Accepted s r 0x55 → Gives (.portV2Slice tr peer packet) s fun t => done t ∧ fg t FAB_PORT_V2_SLICE (byteAt p 0) = numAt p 2 2 ∧
      RegsKept s t [(FAB_PORT_V2, byteAt p 0), (MC_MBOX, 0)]) ∧
    ∀ x i, Accepted s r 0xA5 → numAt p 4 2 = 1 → busMem s (numAt p 0 4) = .none → regAt (numAt p 0 4) = some (x, i) → beyond s x i = false →
      x ∉ ruledRegs → Gives (.regWrite tr peer packet) s fun t => done t ∧
        rd t x i = writeWord x (rd s x i) (BitVec.ofNat 32 (numAt p 8 4)) ∧ RegsKept s t [(x, i), (MC_MBOX, 0)]

/-- JOB_ASSIGN, JOB_UNASSIGN, STREAM_ABORT, ABORT_ALL and MODULE_RESET. An accepted JOB_ASSIGN that passes its checks sets the job, seed, C_LOG2
and BOUND_ONLY, zeroes every flag, empties the pool and the watch, clears RETURN_READY and unseals the failure record. JOB_UNASSIGN and
MODULE_RESET with UNASSIGN ask every enabled stream to stop and wait; with none enabled the job ends. STREAM_ABORT of a stream that is final
is answered at once with its record, else it waits and ABORT_SETTLE answers it. MODULE_RESET without a job replies, then starts the bring-up
afresh. -/
def Obligations.JobsAreAssignedAndStreamsStopped : Prop :=
  ∀ (tr peer : Nat) (packet : List Byte) (s : State),
    let r : Req := ⟨(tr, peer), packet⟩
    let p := r.par
    let m := streamOf p
    let nobody := ∀ x ∈ s.streams, x.2.st = .disabled
    let waits := fun (t : State) (ms : List Nat) => ∃ w, t.mc.waiting = [w] ∧ w.source = r.src ∧ w.request = packet ∧ ∀ k ∈ ms, k ∈ w.streams
    let zeros := toBytesLE 2 0 ++ toBytesLE 2 0
    (Accepted s r 0x30 →
      (assignBad s p = none → Gives (.jobAssign tr peer packet) s fun t =>
        Answered t r 0 0 [] ∧ fg t MC_STATUS_JOB 0 = 1 ∧ t.mc.job = numAt p 0 4 ∧
        (rd t MOD_KERF_SEED_LO 0).toNat = numAt p 4 4 ∧ (rd t MOD_KERF_SEED_HI 0).toNat = numAt p 8 4 ∧
        fg t MOD_ACCUM_CFG_C_LOG2 0 = byteAt p 12 ∧ fg t MOD_NUMERICS_BOUND_ONLY 0 = byteAt p 14 ∧ (∀ k, flagCount t k = 0) ∧ t.pool.seqs = [] ∧ t.pool.use = 0 ∧
        t.watch = {} ∧ t.strag = [] ∧ t.pwr.jobUj = 0 ∧ t.store.returnReady = false ∧ t.store.fail.closed = false ∧ t.fuses = s.fuses) ∧
      (∀ st d, assignBad s p = some (st, d) → Gives (.jobAssign tr peer packet) s fun t => OnlyReplied s t r st d [] ∧ t.mc.job = s.mc.job ∧
        fg t MC_STATUS_JOB 0 = fg s MC_STATUS_JOB 0 ∧ t.store = s.store)) ∧
    (hasJob s = true → assignBad s p = some (0x15, 0)) ∧ (hasJob s = false → fg s MC_STATUS_READY 0 = 0 → assignBad s p = some (0x17, 1)) ∧
    (Accepted s r 0x31 →
      (hasJob s = false → Gives (.jobUnassign tr peer packet) s fun t => OnlyReplied s t r 0x16 0 []) ∧
      (hasJob s = true → nobody → WaitingWrites s → Gives (.jobUnassign tr peer packet) s fun t =>
        Answered t r 0 0 (toBytesLE 8 (s.pwr.jobUj / 1000) ++ zeros ++ toBytesLE 4 s.mc.job) ∧
        fg t MC_STATUS_JOB 0 = 0 ∧ t.mc.job = 0 ∧ t.pool.seqs = [] ∧ t.pool.use = 0 ∧ t.mc.waiting = [] ∧ t.watch.totals = [] ∧ t.watch.items = [] ∧
        (s.watch.journaled = [] → s.mc.marked = false → t.mc.stepRegs = [])) ∧
      (∀ k, hasJob s = true → (stream s k).st = .enabled → Gives (.jobUnassign tr peer packet) s fun t =>
        waits t [k] ∧ AbortBy.unassign ∈ (stream t k).req ∧ (stream t k).st = .enabled ∧ fg t MC_STATUS_JOB 0 = 1 ∧ t.mc.replies = s.mc.replies)) ∧
    (Accepted s r 0x60 →
      ((stream s m).st = .disabled → Gives (.streamAbort tr peer packet) s fun t => OnlyReplied s t r 5 0 (abortData s m 5)) ∧
      ((stream s m).st = .faulted → Gives (.streamAbort tr peer packet) s fun t => OnlyReplied s t r 4 (fg s WARD_SFAULT_CODE m) (abortData s m 4)) ∧
      ((stream s m).st = .aborted → Gives (.streamAbort tr peer packet) s fun t => OnlyReplied s t r 3 0 (abortData s m 3)) ∧
      ((stream s m).st = .enabled → Gives (.streamAbort tr peer packet) s fun t => waits t [m] ∧ (stream t m).req = (stream s m).req ++ [.packet] ∧
        (stream t m).st = .enabled ∧ (stream t m).cmds = (stream s m).cmds ∧ t.mc.replies = s.mc.replies ∧ t.mem = s.mem ∧ t.regs = s.regs)) ∧
    (r.op = 0x60 → s.mc.waiting = [⟨r.src, packet, [m], [], false⟩] → s.mc.inbox = [] → s.mc.held = false → s.mc.storing = none → (stream s m).st = .aborting →
      (∀ c ∈ (stream s m).cmds, c.phase ≠ .issued) → streamTxns s m = [] → Gives (.abortSettle m) s fun t =>
        Replied s t r 3 0 (abortData t m 3) ∧ t.mc.waiting = []) ∧
    (Accepted s r 0x62 →
      (nobody → Gives (.abortAll tr peer packet) s fun t => OnlyReplied s t r 0 0 (zeros ++ zeros)) ∧
      (∀ k, (stream s k).st = .enabled → Gives (.abortAll tr peer packet) s fun t =>
        waits t [k] ∧ AbortBy.packet ∈ (stream t k).req ∧ (stream t k).st = .enabled ∧ t.mc.replies = s.mc.replies)) ∧
    (Accepted s r 0xA0 →
      (hasJob s = true → byteAt p 0 = 0 → Gives (.moduleReset tr peer packet) s fun t => OnlyReplied s t r 0x15 0 []) ∧
      (∀ k, hasJob s = true → byteAt p 0 = 1 → fg s THM_STATUS_COOLANT_STOP 0 = 0 → (stream s k).st = .enabled → Gives (.moduleReset tr peer packet) s fun t =>
        waits t [k] ∧ AbortBy.unassign ∈ (stream t k).req ∧ t.mc.replies = s.mc.replies) ∧
      (hasJob s = false → fg s THM_STATUS_COOLANT_STOP 0 = 0 → Gives (.moduleReset tr peer packet) s fun t =>
        (tr ≠ 3 → t.mc.replies = s.mc.replies ++ [(r.src, replyTo r 0 0 [])]) ∧ t.mc.stages = allStages ∧ t.mc.kept = [] ∧ t.streams = [] ∧ t.queues = [] ∧
        t.engines = [] ∧ t.store = storeAfter s.store ∧ t.fuses = s.fuses ∧ t.life.resets = s.life.resets + 1 ∧ t.mc.held = false))

/-- Image restore, firmware staging and activation, policy, keys, seal, debug, erasing, self-test and return, and the end of a long operation.
IMG_RESTORE, FW_STAGE_END, SECURE_ERASE, SELF_TEST and PREPARE_RETURN start a long operation (ST_ACCEPTED) or are refused; its end clears
it, shows opcode and status and raises one event, the erased tiers then reading 0. FW_STAGE_BEGIN and _DATA fill the other bank; FW_ACTIVATE
of a verified bank makes it the next. FW_POLICY, once its record is stored, and KEY_PROVISION keep what they carry, or are refused while
user keys are. SEAL_REARM arms the seal; DEBUG_UNLOCK sets DEBUG without a job. -/
def Obligations.FirmwareKeysAndErasureFollowTheirRules : Prop :=
  (∀ (tr peer : Nat) (packet : List Byte) (s : State),
    let r : Req := ⟨(tr, peer), packet⟩
    let p := r.par
    let k := otherBank s
    let long := fun (t : State) (op : Nat) => Replied s t r 1 0 [] ∧ t.mc.longOp = some op ∧ fg t MC_STATUS_LONG_OP 0 = 1 ∧ t.flash = s.flash ∧ t.fuses = s.fuses
    let refused := fun (i : Instr) (st d : Nat) => Gives i s fun t => OnlyReplied s t r st d [] ∧ t.store = s.store ∧ t.banks = s.banks ∧ t.mc.longOp = s.mc.longOp
    let done := fun (t : State) => Replied s t r 0 0 [] ∧ t.queues = s.queues ∧ t.flash = s.flash
    (Accepted s r 0x72 → (∀ d, restoreBad s (numAt p 0 4) = some d → refused (.imgRestore tr peer packet) 0x1A d) ∧
      (restoreBad s (numAt p 0 4) = none → Gives (.imgRestore tr peer packet) s fun t => long t 0x72 ∧ t.mc.longParam = numAt p 0 4 ∧ t.store = s.store)) ∧
    (Accepted s r 0x80 → Gives (.fwStageBegin tr peer packet) s fun t => done t ∧
      t.banks = setNth s.banks k { length := numAt p 0 4, rev := numAt p 4 4, standing := 1 }) ∧
    (Accepted s r 0x81 → let b := bankOf s k
      (b.standing = 1 → numAt p 0 4 + (p.length - 4) ≤ b.length → k < s.banks.length → Gives (.fwStageData tr peer packet) s fun t => done t ∧
        bankBytes (bankOf t k) (numAt p 0 4) (p.length - 4) = p.drop 4 ∧ (bankOf t k).standing = 1) ∧
      (b.standing ≠ 1 → refused (.fwStageData tr peer packet) 0x12 0)) ∧
    (Accepted s r 0x82 → Gives (.fwStageEnd tr peer packet) s fun t => long t 0x82 ∧ t.banks = s.banks) ∧
    (Accepted s r 0x83 → let b := bankOf s k
      (b.standing ≠ 2 → refused (.fwActivate tr peer packet) 0x12 0) ∧
      (b.standing = 2 → hasJob s = true → byteAt p 0 = 0 → refused (.fwActivate tr peer packet) 0x15 0) ∧
      (b.standing = 2 → hasJob s = false → byteAt p 0 = 0 → r.tier = 0 → policyAdmits s b.rev = false → refused (.fwActivate tr peer packet) 0x21 0) ∧
      (b.standing = 2 → hasJob s = false → r.tier = 1 → k < s.banks.length → Gives (.fwActivate tr peer packet) s fun t => done t ∧
        (bankOf t k).standing = 3 ∧ (bankOf t k).activation = some (((runningBank s).activation.getD 0) + 1) ∧ fg t MC_STATUS_ACT_PENDING 0 = 1)) ∧
    (Accepted s r 0x84 →
      (fg s MC_SEC_KEYS_REFUSED 0 = 1 → refused (.fwPolicy tr peer packet) 0x1E 0) ∧
      (fg s MC_SEC_KEYS_REFUSED 0 = 0 → policyGood s p = false → refused (.fwPolicy tr peer packet) 0x1F 0) ∧
      (fg s MC_SEC_KEYS_REFUSED 0 = 0 → policyGood s p = true → Gives (.fwPolicy tr peer packet) s fun t =>
        if s.flash.protect then OnlyReplied s t r 0x22 0 [] else StoreWaits s t r)) ∧
    (Storing s r 0x84 → fg s MC_SEC_KEYS_REFUSED 0 = 0 → policyGood s p = true → Gives (.configRecordCommit true []) s fun t =>
      done t ∧ t.mc.storing = none ∧ t.store = { recorded s.store with policy := some p }) ∧
    (Accepted s r 0x91 →
      (fg s MC_STATUS_SEAL 0 = 2 → refused (.keyProvision tr peer packet) 0x1E 0) ∧
      (fg s MC_STATUS_SEAL 0 ≠ 2 → Gives (.keyProvision tr peer packet) s fun t => done t ∧ fg t MC_SEC_KEYS_REFUSED 0 = 0 ∧
        t.store.returnReady = false ∧ t.store.fail.closed = false ∧
        (t.store.keys.find? (fun x => x.1 == byteAt p 0)) = (if byteAt p 1 = 0 then some (byteAt p 0, (p.drop 4).take 97) else none) ∧
        (fg s MC_SEC_KEYS_REFUSED 0 = 0 → ∀ j, j ≠ byteAt p 0 → t.store.keys.find? (fun x => x.1 == j) = s.store.keys.find? (fun x => x.1 == j)))) ∧
    (Accepted s r 0x92 → Gives (.sealRearm tr peer packet) s fun t => done t ∧ fg t MC_STATUS_SEAL 0 = 1 ∧ t.mc.sealOpen = 0 ∧ RegsKept s t [(MC_STATUS, 0), (MC_MBOX, 0)]) ∧
    (Accepted s r 0x93 → (hasJob s = true → refused (.debugUnlock tr peer packet) 0x15 0) ∧
      (hasJob s = false → Gives (.debugUnlock tr peer packet) s fun t => done t ∧ fg t MC_STATUS_DEBUG 0 = 1 ∧ RegsKept s t [(MC_STATUS, 0), (MC_MBOX, 0)])) ∧
    (Accepted s r 0x94 → (hasJob s = true → refused (.secureErase tr peer packet) 0x15 0) ∧
      (hasJob s = false → Gives (.secureErase tr peer packet) s fun t => long t 0x94 ∧ t.store = { s.store with resume := some 0x94 })) ∧
    (Accepted s r 0xA1 → (hasJob s = true → refused (.selfTest tr peer packet) 0x15 0) ∧
      (hasJob s = false → fg s MOD_SELFTEST_RUNNING 0 = 0 → Gives (.selfTest tr peer packet) s fun t => long t 0xA1 ∧ fg t MOD_SELFTEST_RUNNING 0 = 1)) ∧
    (Accepted s r 0xA3 → (hasJob s = true → refused (.prepareReturn tr peer packet) 0x15 0) ∧
      (hasJob s = false → s.store.fail.closed = false → Gives (.prepareReturn tr peer packet) s fun t => long t 0xA3 ∧ t.store.resume = some 0xA3 ∧
        t.store.fail.closed = true ∧ t.store.fail.eseq = s.store.fail.eseq + 1 ∧ (t.store.fail.entries.head?.map FailEntry.kind) = some 0x15))) ∧
  ∀ (op mismatch : Nat) (media : List FlashEvt) (s : State), McIdle s → s.mc.longOp = some op → ¬(op = 0xA1 ∧ fg s MOD_SELFTEST_RUNNING 0 = 1) →
    Gives (.longOpComplete mismatch media) s fun t =>
      t.mc.longOp = none ∧ fg t MC_STATUS_LONG_OP 0 = 0 ∧ t.mc.lastOp = op ∧ t.mc.evseq = s.mc.evseq + 1 ∧
      (op = 0x72 → (mismatch ≠ 0 ∨ lostSection (flashEvents s media) s.mc.longParam = true → t.mc.lastStat = 0x1A ∧ t.mem = s.mem) ∧
        (mismatch = 0 → lostSection (flashEvents s media) s.mc.longParam = false → t.mc.lastStat = 0)) ∧
      (op = 0x82 → (bankSigned s { bankOf s (otherBank s) with rev := bankWord (bankOf s (otherBank s)) 4 4, secver := bankWord (bankOf s (otherBank s)) 8 2 } = false →
        t.mc.lastStat = 0x1F)) ∧
      (op ∈ [0x94, 0xA3] → t.mc.lastStat = 0 ∧ t.flash.records = [] ∧ t.flash.images = [] ∧ t.flash.host = [] ∧ t.store.resume = none ∧
        (∀ a, a < tier1Size ∨ (tier2Base ≤ a ∧ a < tier2Base + tier2Size) → readByte t a = 0) ∧ (∀ j, j < 16 → slotState t j = 0)) ∧
      (op = 0xA3 → t.store.returnReady = true ∧ t.store.keys = [] ∧ t.store.policy = none)

/-- The presence window, the seal loop and its trip, and the answers to MCTP control, ARP, ICMP echo and the Alert Response Address.
PRESENCE_ASSERT opens the window with 30 s shown; DEASSERT starts its 30 s; WINDOW_CLOSE closes it unless PRESENCE_N is asserted again.
SEAL_CHECK shows the loop; open while ARMED it counts, else the count starts over, and at the tenth in a row the seal trips: TRIPPED,
SEAL_TRIPS one more (at most 15), KEYS_REFUSED, a failure entry unless the record is closed, an event. Each check passes a millisecond of
the window (the model's choice, log 58). On an MCTP carriage that is up each control message gets one answer (bytes presumed, log 59): Set
Endpoint ID takes the EID, the others report. The Ethernet port with its address set answers ARP for it and ICMP echo with a valid checksum,
and nothing else. With an unacknowledged event the module answers the Alert Response Address with its own address. -/
def Obligations.PinsAndProtocolMessagesAreFollowed : Prop :=
  (∀ s : State, Gives .presenceAssert s fun t =>
    t = { s with regs := t.regs, mc := { s.mc with present := true, windowMs := 0 } } ∧ fg t MC_STATUS_PRESENCE_OPEN 0 = 1 ∧ fg t MC_SEC_WINDOW_S 0 = 30 ∧
    fg t MC_STATUS_SEAL 0 = fg s MC_STATUS_SEAL 0 ∧ RegsKept s t [(MC_STATUS, 0), (MC_SEC, 0)]) ∧
  (∀ s : State, s.mc.present = true → Gives .presenceDeassert s fun t =>
    t = { s with mc := { s.mc with present := false, windowMs := 30000 } }) ∧
  (∀ s : State, s.mc.present = false → Gives .presenceDeassert s fun t => t = s) ∧
  (∀ s : State, s.mc.present = true → Gives .presenceWindowClose s fun t => t = s) ∧
  (∀ s : State, s.mc.present = false → Gives .presenceWindowClose s fun t =>
    t = { s with regs := t.regs, mc := { s.mc with windowMs := 0 } } ∧ fg t MC_STATUS_PRESENCE_OPEN 0 = 0 ∧ fg t MC_SEC_WINDOW_S 0 = 0 ∧
    RegsKept s t [(MC_STATUS, 0), (MC_SEC, 0)]) ∧
  (∀ (loop : Nat) (s : State), Gives (.sealCheck loop) s fun t =>
    fg t MC_STATUS_LOOP_CLOSED 0 = (if loop = 1 then 1 else 0) ∧ fg t MC_STATUS_PRESENCE_OPEN 0 = fg s MC_STATUS_PRESENCE_OPEN 0 ∧
    t.mc.windowMs = s.mc.windowMs - 1 ∧ (s.mc.windowMs ≠ 0 → s.mc.windowMs ≤ 30000 → fg t MC_SEC_WINDOW_S 0 = (s.mc.windowMs + 998) / 1000) ∧
    t.mem = s.mem ∧ t.streams = s.streams ∧ t.queues = s.queues ∧ t.flash = s.flash ∧ t.store.keys = s.store.keys ∧
    RegsKept s t [(MC_STATUS, 0), (MC_SEC, 0), (MC_EVENT, 0), (MOD_FAILREC, 0)] ∧
    (loop = 1 ∨ fg s MC_STATUS_SEAL 0 ≠ 1 → t.mc.sealOpen = 0 ∧ fg t MC_STATUS_SEAL 0 = fg s MC_STATUS_SEAL 0 ∧ t.fuses = s.fuses ∧ t.mc.events = s.mc.events) ∧
    (loop ≠ 1 → fg s MC_STATUS_SEAL 0 = 1 → s.mc.sealOpen < 9 → t.mc.sealOpen = s.mc.sealOpen + 1 ∧ fg t MC_STATUS_SEAL 0 = 1 ∧ t.fuses = s.fuses ∧
      t.mc.events = s.mc.events) ∧
    (loop ≠ 1 → fg s MC_STATUS_SEAL 0 = 1 → s.mc.sealOpen = 9 → fg t MC_STATUS_SEAL 0 = 2 ∧ fg t MC_SEC_KEYS_REFUSED 0 = 1 ∧
      t.fuses = { s.fuses with sealTrips := min 15 (s.fuses.sealTrips + 1) } ∧ fg t MC_SEC_SEAL_TRIPS 0 = min 15 (s.fuses.sealTrips + 1) ∧ t.mc.sealOpen = 0 ∧
      t.mc.evseq = s.mc.evseq + 1 ∧ (t.mc.events.getLast?.map Event.code) = some 0x000E ∧
      (s.store.fail.closed = false → (t.store.fail.entries.head?.map FailEntry.kind) = some 0x000F ∧ t.store.fail.eseq = s.store.fail.eseq + 1))) ∧
  (∀ (tr peer : Nat) (s : State), mctpOn s tr = true →
    let sent := fun (t : State) (bs : List Byte) => t.mc.replies = s.mc.replies ++ [((tr, peer), bs)] ∧ t.regs = s.regs ∧ t.mem = s.mem ∧
      t.streams = s.streams ∧ t.queues = s.queues ∧ t.store = s.store ∧ t.flash = s.flash
    (∀ op eid, op ≤ 1 → 0 < eid → eid < 255 → Gives (.setEndpointId tr peer op eid) s fun t => sent t [0, 0, BitVec.ofNat 8 eid, 0] ∧
      endpointOf t tr = eid ∧ ∀ k, k ≠ tr → endpointOf t k = endpointOf s k) ∧
    (∀ op eid, 1 < op ∨ eid = 0 ∨ 255 ≤ eid → Gives (.setEndpointId tr peer op eid) s fun t =>
      sent t [2, 0, BitVec.ofNat 8 (endpointOf s tr), 0] ∧ t.mc.eids = s.mc.eids) ∧
    (Gives (.getEndpointId tr peer) s fun t => sent t [0, BitVec.ofNat 8 (endpointOf s tr), 0, 0] ∧ t.mc.eids = s.mc.eids) ∧
    (∀ ty, ty = 0xFF ∨ ty = 0 ∨ ty = 0x7F → Gives (.getMctpVersionSupport tr peer ty) s fun t => t.mc.eids = s.mc.eids ∧
      ∃ v : Nat, sent t ([0, 1] ++ toBytesLE 4 v)) ∧
    (∀ ty, ty ≠ 0xFF → ty ≠ 0 → ty ≠ 0x7F → Gives (.getMctpVersionSupport tr peer ty) s fun t => sent t [0x80, 0]) ∧
    (Gives (.getMessageTypeSupport tr peer) s fun t => sent t [0, 1, 0x7F] ∧ t.mc.eids = s.mc.eids)) ∧
  (∀ (tr peer op eid ty : Nat) (s : State), mctpOn s tr = false →
    (Gives (.setEndpointId tr peer op eid) s fun t => t = s) ∧ (Gives (.getEndpointId tr peer) s fun t => t = s) ∧
    (Gives (.getMctpVersionSupport tr peer ty) s fun t => t = s) ∧ Gives (.getMessageTypeSupport tr peer) s fun t => t = s) ∧
  (∀ (peer mac target : Nat) (message : List Byte) (s : State),
    let ip := baseItem s.store.base 0x0300
    (ip = 0 ∨ s.mc.held = true ∨ target ≠ ip → (Gives (.arpRequest peer mac target) s fun t => t = s) ∧ Gives (.icmpEcho peer target message) s fun t => t = s) ∧
    (ip ≠ 0 → s.mc.held = false → target = ip →
      (Gives (.arpRequest peer mac target) s fun t => ∃ b, t = { s with mc := { s.mc with replies := s.mc.replies ++ [((2, peer), b)] } } ∧ b.length = 28 ∧
        (b.drop 6).take 2 = [0, 2] ∧ (b.drop 14).take 4 = toBytesBE 4 ip ∧ (b.drop 18).take 6 = toBytesBE 6 mac ∧ b.drop 24 = toBytesBE 4 peer) ∧
      Gives (.icmpEcho peer target message) s fun t => ∃ b, t = { s with mc := { s.mc with replies := s.mc.replies ++ [((2, peer), b)] } } ∧
        b.take 2 = [0, 0] ∧ b.drop 4 = message ∧ onesSum b = 0xFFFF)) ∧
  ∀ s : State,
    (unacked s > 0 → s.mc.held = false → Gives .alertResponseAddress s fun t =>
      t = { s with mc := { s.mc with replies := s.mc.replies ++ [((0, 0), [BitVec.ofNat 8 (2 * (0x60 + s.board % 16))])] } }) ∧
    (unacked s = 0 → Gives .alertResponseAddress s fun t => t = s)

/-- A badly framed packet is discarded, a bad header refused, a full queue busy, a retry answered again; the mailbox takes and releases packets.
PACKET_REJECT: a wrong size or CRC is counted and answered nothing; a wrong version, TIER, reserved byte or opcode is answered with its
refusal and counted. For every packet row: a packet on a transport that is not up, badly framed or of another opcode is not that row's and
changes nothing; one that finds 32 in the queue gets ST_BUSY at once and is not queued; a retry of a request whose reply is kept gets that
reply again and executes nothing. MAILBOX_GO runs the packet in the request buffer and puts its reply in the reply buffer with DONE, counts
a badly framed one, or, while BUSY or an uncleared DONE is 1, sets REFUSED and takes LEN alone; MAILBOX_RELEASE clears DONE and changes
nothing else. -/
def Obligations.PacketsAreCheckedQueuedAndKept : Prop :=
  (∀ (tr peer : Nat) (packet : List Byte) (s : State),
    let r : Req := ⟨(tr, peer), packet⟩
    (reachable s tr = true → McIdle s → framed packet = false → Gives (.packetReject tr peer packet) s fun t =>
      fg t MC_PKT_CNT_CRC_FAIL 0 = min 0xFFFF (fg s MC_PKT_CNT_CRC_FAIL 0 + 1) ∧ fg t MC_PKT_CNT_REFUSED 0 = fg s MC_PKT_CNT_REFUSED 0 ∧
      t.mc = s.mc ∧ t.store = s.store ∧ t.mem = s.mem ∧ RegsKept s t [(MC_PKT_CNT, 0), (MC_MBOX, 0)]) ∧
    (∀ st d, reachable s tr = true → McIdle s → framed packet = true → keptFor s r = none → headerBad r = some (st, d) →
      Gives (.packetReject tr peer packet) s fun t => OnlyReplied s t r st d [] ∧ t.store = s.store ∧ t.mc.job = s.mc.job ∧
        fg t MC_PKT_CNT_REFUSED 0 = min 0xFFFF (fg s MC_PKT_CNT_REFUSED 0 + 1) ∧ RegsKept s t [(MC_PKT_CNT, 0), (MC_MBOX, 0)]) ∧
    (r.ver < 1 ∨ 2 < r.ver → headerBad r = some (0x10, 0x0102)) ∧
    (1 ≤ r.ver → r.ver ≤ 2 → 1 < r.tier → headerBad r = some (0x12, 6)) ∧
    (1 ≤ r.ver → r.ver ≤ 2 → r.tier ≤ 1 → byteAt packet 7 ≠ 0 → headerBad r = some (0x12, 7)) ∧
    (r.ver = 2 → r.tier ≤ 1 → byteAt packet 7 = 0 → headerBad r = if knownOp r.op then none else some (0x11, 0)) ∧
    (reachable s tr = false ∨ (framed packet = true ∧ headerBad r = none) → exec (.packetReject tr peer packet) s = .next s) ∧
    ∀ i op, (i, op) ∈ [(Instr.getIdentity tr peer packet, 0x00), (.getVersions tr peer packet, 0x01), (.getStatus tr peer packet, 0x02),
      (.cfgRead tr peer packet, 0x10), (.cfgWrite tr peer packet, 0x11), (.cfgRestore tr peer packet, 0x12), (.ovlApply tr peer packet, 0x13),
      (.pwrRead tr peer packet, 0x20), (.pwrCtrlWrite tr peer packet, 0x21), (.budgetWrite tr peer packet, 0x22),
      (.jobAssign tr peer packet, 0x30), (.jobUnassign tr peer packet, 0x31), (.energyRead tr peer packet, 0x32),
      (.eventRead tr peer packet, 0x40), (.eventAck tr peer packet, 0x41), (.countersRead tr peer packet, 0x42),
      (.fabAssign tr peer packet, 0x50), (.routeWrite tr peer packet, 0x51), (.routeRead tr peer packet, 0x52),
      (.nbrRead tr peer packet, 0x53), (.portReset tr peer packet, 0x54), (.portV2Slice tr peer packet, 0x55),
      (.streamAbort tr peer packet, 0x60), (.streamRead tr peer packet, 0x61), (.abortAll tr peer packet, 0x62),
      (.jnlStatusRead tr peer packet, 0x70), (.jnlRead tr peer packet, 0x71), (.imgRestore tr peer packet, 0x72),
      (.fwStageBegin tr peer packet, 0x80), (.fwStageData tr peer packet, 0x81), (.fwStageEnd tr peer packet, 0x82),
      (.fwActivate tr peer packet, 0x83), (.fwPolicy tr peer packet, 0x84), (.secRead tr peer packet, 0x90),
      (.keyProvision tr peer packet, 0x91), (.sealRearm tr peer packet, 0x92), (.debugUnlock tr peer packet, 0x93),
      (.secureErase tr peer packet, 0x94), (.moduleReset tr peer packet, 0xA0), (.selfTest tr peer packet, 0xA1),
      (.failRead tr peer packet, 0xA2), (.prepareReturn tr peer packet, 0xA3), (.regRead tr peer packet, 0xA4),
      (.regWrite tr peer packet, 0xA5)] →
      (reachable s tr = false ∨ framed packet = false ∨ r.op ≠ op → exec i s = .next s) ∧
      (reachable s tr = true → framed packet = true → r.op = op →
        (32 ≤ s.mc.inbox.length → unassigning s = true → (∀ w ∈ s.mc.waiting, w.streams ≠ []) → s.mc.storing = none →
          Gives i s fun t => OnlyReplied s t r 0x14 0 [] ∧ t.mc.inbox = s.mc.inbox ∧ t.mc.kept = s.mc.kept) ∧
        (∀ k, tr ≠ 3 → McIdle s → keptFor s r = some k → Gives i s fun t =>
          t.mc = { s.mc with replies := s.mc.replies ++ [(r.src, k.reply)] } ∧ t.regs = s.regs ∧ t.mem = s.mem ∧ t.store = s.store ∧ t.fuses = s.fuses ∧
          t.queues = s.queues) ∧
        (∀ k, tr = 3 → McIdle s → keptFor s r = some k → Gives i s fun t =>
          t.mc = s.mc ∧ memRead t (ctrlBase + mboxReply) k.reply.length = k.reply ∧ fg t MC_MBOX_DONE 0 = 1 ∧ RegsKept s t [(MC_MBOX, 0)] ∧
          MemKept s t (ctrlBase + mboxReply) k.reply.length ∧ t.store = s.store ∧ t.fuses = s.fuses ∧ t.queues = s.queues))) ∧
  (∀ (value : Word) (s : State), McIdle s →
    let bs := memRead s (ctrlBase + mboxRequest) (min (bits value.toNat 12 0) 4120)
    let r : Req := ⟨(3, 0), bs⟩
    let clears := fieldIn value MC_MBOX_DONE = 1
    let free := fg s MC_MBOX_BUSY 0 = 0 ∧ (fg s MC_MBOX_DONE 0 = 0 ∨ clears)
    let reads := [0x00, 0x01, 0x02, 0x10, 0x20, 0x32, 0x40, 0x42, 0x52, 0x53, 0x61, 0x70, 0x71, 0x90, 0xA2, 0xA4]
    (free → framed bs = true → keptFor s r = none → (∀ st d, refusal s r = some (st, d) → Gives (.mailboxGo value) s fun t => OnlyReplied s t r st d []) ∧
      (refusal s r = none → r.op = 0x00 → Gives (.mailboxGo value) s fun t => OnlyReplied s t r 0 0 (identityRecord s)) ∧
      (refusal s r = none → r.op ∈ reads → Gives (.mailboxGo value) s fun t => ∃ st d data, OnlyReplied s t r st d data)) ∧
    (free → framed bs = false → Gives (.mailboxGo value) s fun t => t.mc = s.mc ∧ t.mem = s.mem ∧ fg t MC_MBOX_BUSY 0 = 0 ∧ fg t MC_MBOX_DONE 0 = 0 ∧
      fg t MC_PKT_CNT_CRC_FAIL 0 = min 0xFFFF (fg s MC_PKT_CNT_CRC_FAIL 0 + 1) ∧ RegsKept s t [(MC_MBOX, 0), (MC_PKT_CNT, 0)]) ∧
    (¬free → Gives (.mailboxGo value) s fun t => fg t MC_MBOX_REFUSED 0 = 1 ∧ fg t MC_MBOX_BUSY 0 = fg s MC_MBOX_BUSY 0 ∧
      fg t MC_MBOX_DONE 0 = (if clears then 0 else fg s MC_MBOX_DONE 0) ∧ fg t MC_MBOX_LEN 0 = fieldIn value MC_MBOX_LEN ∧ t.mc = s.mc ∧ t.mem = s.mem ∧
      RegsKept s t [(MC_MBOX, 0)])) ∧
  ∀ s : State, McIdle s → Gives .mailboxRelease s fun t =>
    fg t MC_MBOX_DONE 0 = 0 ∧ fg t MC_MBOX_BUSY 0 = fg s MC_MBOX_BUSY 0 ∧ fg t MC_MBOX_REFUSED 0 = fg s MC_MBOX_REFUSED 0 ∧
    fg t MC_MBOX_LEN 0 = fg s MC_MBOX_LEN 0 ∧ t.mc = s.mc ∧ t.mem = s.mem ∧ RegsKept s t [(MC_MBOX, 0)]
end

