-- ==== Sys2Proof/Laws/Maps.lean ====
section
/-!
SUPPORT. The sparse maps: what a key reads as after an update, and that every update keeps the canonical form.
-/

namespace Sys2Proof.Machine

variable {α : Type}

@[simp] theorem sget_nil (d : α) (k : Nat) : sget d [] k = d := rfl

theorem sget_cons (d : α) (k' : Nat) (v : α) (m : SMap α) (k : Nat) : sget d ((k', v) :: m) k = if k = k' then v else sget d m k := rfl

theorem sget_filter (d : α) (f : Nat × α → Bool) (m : SMap α) (k : Nat) (keep : ∀ v, f (k, v) = true) :
    sget d (m.filter f) k = sget d m k := by
  induction m with
  | nil => rfl
  | cons p m ih =>
    obtain ⟨k', v⟩ := p
    by_cases e : k = k'
    · subst e; simp [keep, sget_cons]
    · by_cases h : f (k', v) <;> simp [h, sget_cons, e, ih]

theorem sget_filter_drop (d : α) (f : Nat × α → Bool) (m : SMap α) (k : Nat) (drop : ∀ v, f (k, v) = false) :
    sget d (m.filter f) k = d := by
  induction m with
  | nil => rfl
  | cons p m ih =>
    obtain ⟨k', v⟩ := p
    by_cases e : k = k'
    · subst e; simp [drop, ih]
    · by_cases h : f (k', v) <;> simp [h, sget_cons, e, ih]

@[simp] theorem sget_serase_same (d : α) (m : SMap α) (k : Nat) : sget d (serase m k) k = d :=
  sget_filter_drop d _ m k (by simp)

theorem sget_serase_other (d : α) (m : SMap α) {k k' : Nat} (ne : k' ≠ k) : sget d (serase m k) k' = sget d m k' :=
  sget_filter d _ m k' (fun _ => by simpa using ne)

theorem sget_sput_other (d : α) (m : SMap α) {k k' : Nat} (v : α) (ne : k' ≠ k) : sget d (sput m k v) k' = sget d m k' := by
  induction m with
  | nil => simp [sput, sget_cons, ne]
  | cons p m ih =>
    obtain ⟨j, w⟩ := p
    by_cases h : k < j <;> simp [sput, h, sget_cons, ne, ih]

theorem sget_sput_same (d : α) (m : SMap α) (k : Nat) (v : α) (new : ∀ p ∈ m, p.1 ≠ k) : sget d (sput m k v) k = v := by
  induction m with
  | nil => simp [sput, sget_cons]
  | cons p m ih =>
    obtain ⟨j, w⟩ := p
    have hj : k ≠ j := fun e => new (j, w) (by simp) e.symm
    by_cases h : k < j
    · simp [sput, h, sget_cons]
    · simp [sput, h, sget_cons, hj, ih (fun p hp => new p (by simp [hp]))]

theorem sset_eq [DecidableEq α] (d : α) (m : SMap α) (k : Nat) (v : α) :
    sset d m k v = if v = d then serase m k else sput (serase m k) k v := by
  cases m <;> simp [sset, serase, sput]

@[simp] theorem sget_sset_same [DecidableEq α] (d : α) (m : SMap α) (k : Nat) (v : α) : sget d (sset d m k v) k = v := by
  rw [sset_eq]
  split
  · simp_all
  · exact sget_sput_same d _ k v (by simp [serase])

theorem sget_sset_other [DecidableEq α] (d d' : α) (m : SMap α) {k k' : Nat} (v : α) (ne : k' ≠ k) :
    sget d' (sset d m k v) k' = sget d' m k' := by
  rw [sset_eq]
  split
  · exact sget_serase_other d' m ne
  · rw [sget_sput_other d' _ v ne, sget_serase_other d' m ne]

/-! ### Every entry changed -/

@[simp] theorem mem_onceEach (ks : List Nat) (k : Nat) : k ∈ onceEach ks ↔ k ∈ ks := by
  induction ks with
  | nil => simp [onceEach]
  | cons j ks ih =>
    simp only [onceEach]
    split
    · rename_i h
      rw [List.contains_iff_mem] at h
      by_cases e : k = j <;> simp_all
    · simp [ih]

theorem nodup_onceEach (ks : List Nat) : (onceEach ks).Nodup := by
  induction ks with
  | nil => simp [onceEach]
  | cons j ks ih =>
    simp only [onceEach]
    split
    · exact ih
    · rename_i h
      exact List.nodup_cons.mpr ⟨by simpa using h, ih⟩

section
variable [DecidableEq α] (d : α) (f : Nat → α → α)

theorem sget_smapKeys (ks : List Nat) (m : SMap α) (k : Nat) (once : ks.Nodup) :
    sget d (smapKeys d f ks m) k = if k ∈ ks then f k (sget d m k) else sget d m k := by
  induction ks generalizing m with
  | nil => simp [smapKeys]
  | cons j ks ih =>
    obtain ⟨nj, once⟩ := List.nodup_cons.mp once
    have step : smapKeys d f (j :: ks) m = smapKeys d f ks (sset d m j (f j (sget d m j))) := rfl
    rw [step, ih _ once]
    by_cases e : k = j
    · subst e; simp [nj]
    · simp [e, sget_sset_other d d m _ e]

omit [DecidableEq α] in
theorem sget_unlisted (m : SMap α) (k : Nat) (h : k ∉ m.map Prod.fst) : sget d m k = d := by
  induction m with
  | nil => rfl
  | cons p m ih =>
    simp only [List.map_cons, List.mem_cons, not_or] at h
    rw [sget_cons, if_neg h.1, ih h.2]

/-- Every key reads what f makes of its entry, where f leaves the default. -/
theorem sget_smapVals (m : SMap α) (k : Nat) (keep : ∀ k, f k d = d) : sget d (smapVals d f m) k = f k (sget d m k) := by
  rw [smapVals, sget_smapKeys d f _ m k (nodup_onceEach _)]
  split
  · rfl
  · rename_i h
    rw [sget_unlisted d m k (fun hk => h ((mem_onceEach _ _).mpr hk)), keep]

end

/-! ### The canonical form -/

section
variable [DecidableEq α] (d : Nat → α)

theorem swfFrom_mono {lo lo' : Nat} (m : SMap α) (le : lo' ≤ lo) (h : swfFrom d lo m = true) : swfFrom d lo' m = true := by
  cases m with
  | nil => rfl
  | cons p m => simp only [swfFrom, Bool.and_eq_true, decide_eq_true_eq] at *; exact ⟨⟨by omega, h.1.2⟩, h.2⟩

theorem swfFrom_filter (f : Nat × α → Bool) (m : SMap α) (lo : Nat) (h : swfFrom d lo m = true) : swfFrom d lo (m.filter f) = true := by
  induction m generalizing lo with
  | nil => rfl
  | cons p m ih =>
    obtain ⟨k, v⟩ := p
    simp only [swfFrom, Bool.and_eq_true, decide_eq_true_eq] at h
    by_cases hf : f (k, v)
    · simp [hf, swfFrom, h.1.1, h.1.2, ih (k + 1) h.2]
    · simpa [hf] using swfFrom_mono d _ (by omega) (ih (k + 1) h.2)

theorem swf_filter (f : Nat × α → Bool) (m : SMap α) (h : swf d m = true) : swf d (m.filter f) = true := swfFrom_filter d f m 0 h

theorem swf_serase (m : SMap α) (k : Nat) (h : swf d m = true) : swf d (serase m k) = true := swf_filter d _ m h

theorem swf_sdropRange (m : SMap α) (lo hi : Nat) (h : swf d m = true) : swf d (sdropRange lo hi m) = true := swf_filter d _ m h

theorem swfFrom_sput (m : SMap α) (k lo : Nat) (v : α) (le : lo ≤ k) (nd : v ≠ d k) (new : ∀ p ∈ m, p.1 ≠ k)
    (h : swfFrom d lo m = true) : swfFrom d lo (sput m k v) = true := by
  induction m generalizing lo with
  | nil => simp [sput, swfFrom, le, nd]
  | cons p m ih =>
    obtain ⟨j, w⟩ := p
    simp only [swfFrom, Bool.and_eq_true, decide_eq_true_eq] at h
    have hj : j ≠ k := new (j, w) (by simp)
    by_cases lt : k < j
    · simp [sput, lt, swfFrom, le, nd, h.1.2, h.2]
    · simp [sput, lt, swfFrom, h.1.1, h.1.2, ih (j + 1) (by omega) (fun p hp => new p (by simp [hp])) h.2]

theorem swf_sset (m : SMap α) (k : Nat) (v : α) (h : swf d m = true) : swf d (sset (d k) m k v) = true := by
  rw [sset_eq]
  split
  · exact swf_serase d m k h
  · exact swfFrom_sput d _ k 0 v (by omega) (by assumption) (by simp [serase]) (swf_serase d m k h)

theorem swf_smapVals (d : α) (f : Nat → α → α) (m : SMap α) (h : swf (fun _ => d) m = true) : swf (fun _ => d) (smapVals d f m) = true := by
  rw [smapVals, smapKeys]
  generalize onceEach (m.map Prod.fst) = ks
  induction ks generalizing m with
  | nil => exact h
  | cons k ks ih => exact ih _ (swf_sset (fun _ => d) m k _ h)

/-- A canonical map's entries from lo on and those of another from hi on stand together where the first ends below hi. -/
theorem swfFrom_append (m n : SMap α) (lo hi : Nat) (le : lo ≤ hi) (low : ∀ p ∈ m, p.1 < hi) (hm : swfFrom d lo m = true)
    (hn : swfFrom d hi n = true) : swfFrom d lo (m ++ n) = true := by
  induction m generalizing lo with
  | nil => exact swfFrom_mono d n le hn
  | cons p m ih =>
    obtain ⟨k, v⟩ := p
    have hk : k < hi := low (k, v) (by simp)
    simp only [List.cons_append, swfFrom, Bool.and_eq_true, decide_eq_true_eq] at *
    exact ⟨hm.1, ih (k + 1) (by omega) (fun p hp => low p (by simp [hp])) hm.2⟩

/-- The entries from hi on of a canonical map are canonical from hi on. -/
theorem swfFrom_above (m : SMap α) (lo hi : Nat) (f : Nat × α → Bool) (above : ∀ p, f p = true → hi ≤ p.1) (h : swfFrom d lo m = true) :
    swfFrom d hi (m.filter f) = true := by
  induction m generalizing lo with
  | nil => rfl
  | cons p m ih =>
    obtain ⟨k, v⟩ := p
    simp only [swfFrom, Bool.and_eq_true, decide_eq_true_eq] at h
    by_cases hf : f (k, v)
    · simp [hf, swfFrom, above _ hf, h.1.2, swfFrom_filter d f m (k + 1) h.2]
    · simpa [hf] using ih (k + 1) h.2

end

end Sys2Proof.Machine
end

