-- ==== Sys2Proof/Laws/State.lean ====
section
/-!
SUPPORT. For each shared update of the state, what it leaves alone: one lemma for each field, so that no later proof unfolds the
record update.
-/

namespace Sys2Proof.Machine

/-! ### wr: a register word written -/

@[simp] theorem wr_pending (s : State) (r : Reg) (i : Nat) (v : Word) : (wr s r i v).pending = s.pending := rfl
@[simp] theorem wr_mem (s : State) (r : Reg) (i : Nat) (v : Word) : (wr s r i v).mem = s.mem := rfl
@[simp] theorem wr_boot (s : State) (r : Reg) (i : Nat) (v : Word) : (wr s r i v).boot = s.boot := rfl
@[simp] theorem wr_poison (s : State) (r : Reg) (i : Nat) (v : Word) : (wr s r i v).poison = s.poison := rfl
@[simp] theorem wr_worn (s : State) (r : Reg) (i : Nat) (v : Word) : (wr s r i v).worn = s.worn := rfl
@[simp] theorem wr_streams (s : State) (r : Reg) (i : Nat) (v : Word) : (wr s r i v).streams = s.streams := rfl
@[simp] theorem wr_queues (s : State) (r : Reg) (i : Nat) (v : Word) : (wr s r i v).queues = s.queues := rfl
@[simp] theorem wr_engines (s : State) (r : Reg) (i : Nat) (v : Word) : (wr s r i v).engines = s.engines := rfl
@[simp] theorem wr_me (s : State) (r : Reg) (i : Nat) (v : Word) : (wr s r i v).me = s.me := rfl
@[simp] theorem wr_ve (s : State) (r : Reg) (i : Nat) (v : Word) : (wr s r i v).ve = s.ve := rfl
@[simp] theorem wr_ue (s : State) (r : Reg) (i : Nat) (v : Word) : (wr s r i v).ue = s.ue := rfl
@[simp] theorem wr_watch (s : State) (r : Reg) (i : Nat) (v : Word) : (wr s r i v).watch = s.watch := rfl
@[simp] theorem wr_quiet (s : State) (r : Reg) (i : Nat) (v : Word) : (wr s r i v).quiet = s.quiet := rfl
@[simp] theorem wr_stalled (s : State) (r : Reg) (i : Nat) (v : Word) : (wr s r i v).stalled = s.stalled := rfl
@[simp] theorem wr_fuses (s : State) (r : Reg) (i : Nat) (v : Word) : (wr s r i v).fuses = s.fuses := rfl
@[simp] theorem wr_life (s : State) (r : Reg) (i : Nat) (v : Word) : (wr s r i v).life = s.life := rfl
@[simp] theorem wr_store (s : State) (r : Reg) (i : Nat) (v : Word) : (wr s r i v).store = s.store := rfl
@[simp] theorem wr_banks (s : State) (r : Reg) (i : Nat) (v : Word) : (wr s r i v).banks = s.banks := rfl
@[simp] theorem wr_mc (s : State) (r : Reg) (i : Nat) (v : Word) : (wr s r i v).mc = s.mc := rfl
@[simp] theorem wr_libLoaded (s : State) (r : Reg) (i : Nat) (v : Word) : (wr s r i v).libLoaded = s.libLoaded := rfl
@[simp] theorem wr_pwards (s : State) (r : Reg) (i : Nat) (v : Word) : (wr s r i v).pwards = s.pwards := rfl
@[simp] theorem wr_dists (s : State) (r : Reg) (i : Nat) (v : Word) : (wr s r i v).dists = s.dists := rfl
@[simp] theorem wr_remapDeferred (s : State) (r : Reg) (i : Nat) (v : Word) : (wr s r i v).remapDeferred = s.remapDeferred := rfl
@[simp] theorem wr_pwr (s : State) (r : Reg) (i : Nat) (v : Word) : (wr s r i v).pwr = s.pwr := rfl
@[simp] theorem wr_therm (s : State) (r : Reg) (i : Nat) (v : Word) : (wr s r i v).therm = s.therm := rfl
@[simp] theorem wr_standby (s : State) (r : Reg) (i : Nat) (v : Word) : (wr s r i v).standby = s.standby := rfl
@[simp] theorem wr_board (s : State) (r : Reg) (i : Nat) (v : Word) : (wr s r i v).board = s.board := rfl
@[simp] theorem wr_ksReq (s : State) (r : Reg) (i : Nat) (v : Word) : (wr s r i v).ksReq = s.ksReq := rfl
@[simp] theorem wr_samples (s : State) (r : Reg) (i : Nat) (v : Word) : (wr s r i v).samples = s.samples := rfl
@[simp] theorem wr_trace (s : State) (r : Reg) (i : Nat) (v : Word) : (wr s r i v).trace = s.trace := rfl
@[simp] theorem wr_txns (s : State) (r : Reg) (i : Nat) (v : Word) : (wr s r i v).txns = s.txns := rfl
@[simp] theorem wr_nextTid (s : State) (r : Reg) (i : Nat) (v : Word) : (wr s r i v).nextTid = s.nextTid := rfl
@[simp] theorem wr_ports (s : State) (r : Reg) (i : Nat) (v : Word) : (wr s r i v).ports = s.ports := rfl
@[simp] theorem wr_arrivals (s : State) (r : Reg) (i : Nat) (v : Word) : (wr s r i v).arrivals = s.arrivals := rfl
@[simp] theorem wr_strag (s : State) (r : Reg) (i : Nat) (v : Word) : (wr s r i v).strag = s.strag := rfl
@[simp] theorem wr_flash (s : State) (r : Reg) (i : Nat) (v : Word) : (wr s r i v).flash = s.flash := rfl
@[simp] theorem wr_pool (s : State) (r : Reg) (i : Nat) (v : Word) : (wr s r i v).pool = s.pool := rfl
@[simp] theorem wr_scrubs (s : State) (r : Reg) (i : Nat) (v : Word) : (wr s r i v).scrubs = s.scrubs := rfl
@[simp] theorem wr_links (s : State) (r : Reg) (i : Nat) (v : Word) : (wr s r i v).links = s.links := rfl
@[simp] theorem wr_host (s : State) (r : Reg) (i : Nat) (v : Word) : (wr s r i v).host = s.host := rfl
@[simp] theorem wr_xings (s : State) (r : Reg) (i : Nat) (v : Word) : (wr s r i v).xings = s.xings := rfl
@[simp] theorem wr_slips (s : State) (r : Reg) (i : Nat) (v : Word) : (wr s r i v).slips = s.slips := rfl
@[simp] theorem wr_cache (s : State) (r : Reg) (i : Nat) (v : Word) : (wr s r i v).cache = s.cache := rfl
@[simp] theorem wr_lines (s : State) (r : Reg) (i : Nat) (v : Word) : (wr s r i v).lines = s.lines := rfl
@[simp] theorem wr_free (s : State) (r : Reg) (i : Nat) (v : Word) : (wr s r i v).free = s.free := rfl

/-! ### fs: a register field set -/

@[simp] theorem fs_pending (s : State) (f : Fld) (i v : Nat) : (fs s f i v).pending = s.pending := rfl
@[simp] theorem fs_mem (s : State) (f : Fld) (i v : Nat) : (fs s f i v).mem = s.mem := rfl
@[simp] theorem fs_boot (s : State) (f : Fld) (i v : Nat) : (fs s f i v).boot = s.boot := rfl
@[simp] theorem fs_poison (s : State) (f : Fld) (i v : Nat) : (fs s f i v).poison = s.poison := rfl
@[simp] theorem fs_worn (s : State) (f : Fld) (i v : Nat) : (fs s f i v).worn = s.worn := rfl
@[simp] theorem fs_streams (s : State) (f : Fld) (i v : Nat) : (fs s f i v).streams = s.streams := rfl
@[simp] theorem fs_queues (s : State) (f : Fld) (i v : Nat) : (fs s f i v).queues = s.queues := rfl
@[simp] theorem fs_engines (s : State) (f : Fld) (i v : Nat) : (fs s f i v).engines = s.engines := rfl
@[simp] theorem fs_me (s : State) (f : Fld) (i v : Nat) : (fs s f i v).me = s.me := rfl
@[simp] theorem fs_ve (s : State) (f : Fld) (i v : Nat) : (fs s f i v).ve = s.ve := rfl
@[simp] theorem fs_ue (s : State) (f : Fld) (i v : Nat) : (fs s f i v).ue = s.ue := rfl
@[simp] theorem fs_watch (s : State) (f : Fld) (i v : Nat) : (fs s f i v).watch = s.watch := rfl
@[simp] theorem fs_quiet (s : State) (f : Fld) (i v : Nat) : (fs s f i v).quiet = s.quiet := rfl
@[simp] theorem fs_stalled (s : State) (f : Fld) (i v : Nat) : (fs s f i v).stalled = s.stalled := rfl
@[simp] theorem fs_fuses (s : State) (f : Fld) (i v : Nat) : (fs s f i v).fuses = s.fuses := rfl
@[simp] theorem fs_life (s : State) (f : Fld) (i v : Nat) : (fs s f i v).life = s.life := rfl
@[simp] theorem fs_store (s : State) (f : Fld) (i v : Nat) : (fs s f i v).store = s.store := rfl
@[simp] theorem fs_banks (s : State) (f : Fld) (i v : Nat) : (fs s f i v).banks = s.banks := rfl
@[simp] theorem fs_mc (s : State) (f : Fld) (i v : Nat) : (fs s f i v).mc = s.mc := rfl
@[simp] theorem fs_libLoaded (s : State) (f : Fld) (i v : Nat) : (fs s f i v).libLoaded = s.libLoaded := rfl
@[simp] theorem fs_pwards (s : State) (f : Fld) (i v : Nat) : (fs s f i v).pwards = s.pwards := rfl
@[simp] theorem fs_dists (s : State) (f : Fld) (i v : Nat) : (fs s f i v).dists = s.dists := rfl
@[simp] theorem fs_remapDeferred (s : State) (f : Fld) (i v : Nat) : (fs s f i v).remapDeferred = s.remapDeferred := rfl
@[simp] theorem fs_pwr (s : State) (f : Fld) (i v : Nat) : (fs s f i v).pwr = s.pwr := rfl
@[simp] theorem fs_therm (s : State) (f : Fld) (i v : Nat) : (fs s f i v).therm = s.therm := rfl
@[simp] theorem fs_standby (s : State) (f : Fld) (i v : Nat) : (fs s f i v).standby = s.standby := rfl
@[simp] theorem fs_board (s : State) (f : Fld) (i v : Nat) : (fs s f i v).board = s.board := rfl
@[simp] theorem fs_ksReq (s : State) (f : Fld) (i v : Nat) : (fs s f i v).ksReq = s.ksReq := rfl
@[simp] theorem fs_samples (s : State) (f : Fld) (i v : Nat) : (fs s f i v).samples = s.samples := rfl
@[simp] theorem fs_trace (s : State) (f : Fld) (i v : Nat) : (fs s f i v).trace = s.trace := rfl
@[simp] theorem fs_txns (s : State) (f : Fld) (i v : Nat) : (fs s f i v).txns = s.txns := rfl
@[simp] theorem fs_nextTid (s : State) (f : Fld) (i v : Nat) : (fs s f i v).nextTid = s.nextTid := rfl
@[simp] theorem fs_ports (s : State) (f : Fld) (i v : Nat) : (fs s f i v).ports = s.ports := rfl
@[simp] theorem fs_arrivals (s : State) (f : Fld) (i v : Nat) : (fs s f i v).arrivals = s.arrivals := rfl
@[simp] theorem fs_strag (s : State) (f : Fld) (i v : Nat) : (fs s f i v).strag = s.strag := rfl
@[simp] theorem fs_flash (s : State) (f : Fld) (i v : Nat) : (fs s f i v).flash = s.flash := rfl
@[simp] theorem fs_pool (s : State) (f : Fld) (i v : Nat) : (fs s f i v).pool = s.pool := rfl
@[simp] theorem fs_scrubs (s : State) (f : Fld) (i v : Nat) : (fs s f i v).scrubs = s.scrubs := rfl
@[simp] theorem fs_links (s : State) (f : Fld) (i v : Nat) : (fs s f i v).links = s.links := rfl
@[simp] theorem fs_host (s : State) (f : Fld) (i v : Nat) : (fs s f i v).host = s.host := rfl
@[simp] theorem fs_xings (s : State) (f : Fld) (i v : Nat) : (fs s f i v).xings = s.xings := rfl
@[simp] theorem fs_slips (s : State) (f : Fld) (i v : Nat) : (fs s f i v).slips = s.slips := rfl
@[simp] theorem fs_cache (s : State) (f : Fld) (i v : Nat) : (fs s f i v).cache = s.cache := rfl
@[simp] theorem fs_lines (s : State) (f : Fld) (i v : Nat) : (fs s f i v).lines = s.lines := rfl
@[simp] theorem fs_free (s : State) (f : Fld) (i v : Nat) : (fs s f i v).free = s.free := rfl

/-! ### bump: a counter field counted up -/

@[simp] theorem bump_pending (s : State) (f : Fld) (i n : Nat) : (bump s f i n).pending = s.pending := rfl
@[simp] theorem bump_mem (s : State) (f : Fld) (i n : Nat) : (bump s f i n).mem = s.mem := rfl
@[simp] theorem bump_boot (s : State) (f : Fld) (i n : Nat) : (bump s f i n).boot = s.boot := rfl
@[simp] theorem bump_poison (s : State) (f : Fld) (i n : Nat) : (bump s f i n).poison = s.poison := rfl
@[simp] theorem bump_worn (s : State) (f : Fld) (i n : Nat) : (bump s f i n).worn = s.worn := rfl
@[simp] theorem bump_streams (s : State) (f : Fld) (i n : Nat) : (bump s f i n).streams = s.streams := rfl
@[simp] theorem bump_queues (s : State) (f : Fld) (i n : Nat) : (bump s f i n).queues = s.queues := rfl
@[simp] theorem bump_engines (s : State) (f : Fld) (i n : Nat) : (bump s f i n).engines = s.engines := rfl
@[simp] theorem bump_me (s : State) (f : Fld) (i n : Nat) : (bump s f i n).me = s.me := rfl
@[simp] theorem bump_ve (s : State) (f : Fld) (i n : Nat) : (bump s f i n).ve = s.ve := rfl
@[simp] theorem bump_ue (s : State) (f : Fld) (i n : Nat) : (bump s f i n).ue = s.ue := rfl
@[simp] theorem bump_watch (s : State) (f : Fld) (i n : Nat) : (bump s f i n).watch = s.watch := rfl
@[simp] theorem bump_quiet (s : State) (f : Fld) (i n : Nat) : (bump s f i n).quiet = s.quiet := rfl
@[simp] theorem bump_stalled (s : State) (f : Fld) (i n : Nat) : (bump s f i n).stalled = s.stalled := rfl
@[simp] theorem bump_fuses (s : State) (f : Fld) (i n : Nat) : (bump s f i n).fuses = s.fuses := rfl
@[simp] theorem bump_life (s : State) (f : Fld) (i n : Nat) : (bump s f i n).life = s.life := rfl
@[simp] theorem bump_store (s : State) (f : Fld) (i n : Nat) : (bump s f i n).store = s.store := rfl
@[simp] theorem bump_banks (s : State) (f : Fld) (i n : Nat) : (bump s f i n).banks = s.banks := rfl
@[simp] theorem bump_mc (s : State) (f : Fld) (i n : Nat) : (bump s f i n).mc = s.mc := rfl
@[simp] theorem bump_libLoaded (s : State) (f : Fld) (i n : Nat) : (bump s f i n).libLoaded = s.libLoaded := rfl
@[simp] theorem bump_pwards (s : State) (f : Fld) (i n : Nat) : (bump s f i n).pwards = s.pwards := rfl
@[simp] theorem bump_dists (s : State) (f : Fld) (i n : Nat) : (bump s f i n).dists = s.dists := rfl
@[simp] theorem bump_remapDeferred (s : State) (f : Fld) (i n : Nat) : (bump s f i n).remapDeferred = s.remapDeferred := rfl
@[simp] theorem bump_pwr (s : State) (f : Fld) (i n : Nat) : (bump s f i n).pwr = s.pwr := rfl
@[simp] theorem bump_therm (s : State) (f : Fld) (i n : Nat) : (bump s f i n).therm = s.therm := rfl
@[simp] theorem bump_standby (s : State) (f : Fld) (i n : Nat) : (bump s f i n).standby = s.standby := rfl
@[simp] theorem bump_board (s : State) (f : Fld) (i n : Nat) : (bump s f i n).board = s.board := rfl
@[simp] theorem bump_ksReq (s : State) (f : Fld) (i n : Nat) : (bump s f i n).ksReq = s.ksReq := rfl
@[simp] theorem bump_samples (s : State) (f : Fld) (i n : Nat) : (bump s f i n).samples = s.samples := rfl
@[simp] theorem bump_trace (s : State) (f : Fld) (i n : Nat) : (bump s f i n).trace = s.trace := rfl
@[simp] theorem bump_txns (s : State) (f : Fld) (i n : Nat) : (bump s f i n).txns = s.txns := rfl
@[simp] theorem bump_nextTid (s : State) (f : Fld) (i n : Nat) : (bump s f i n).nextTid = s.nextTid := rfl
@[simp] theorem bump_ports (s : State) (f : Fld) (i n : Nat) : (bump s f i n).ports = s.ports := rfl
@[simp] theorem bump_arrivals (s : State) (f : Fld) (i n : Nat) : (bump s f i n).arrivals = s.arrivals := rfl
@[simp] theorem bump_strag (s : State) (f : Fld) (i n : Nat) : (bump s f i n).strag = s.strag := rfl
@[simp] theorem bump_flash (s : State) (f : Fld) (i n : Nat) : (bump s f i n).flash = s.flash := rfl
@[simp] theorem bump_pool (s : State) (f : Fld) (i n : Nat) : (bump s f i n).pool = s.pool := rfl
@[simp] theorem bump_scrubs (s : State) (f : Fld) (i n : Nat) : (bump s f i n).scrubs = s.scrubs := rfl
@[simp] theorem bump_links (s : State) (f : Fld) (i n : Nat) : (bump s f i n).links = s.links := rfl
@[simp] theorem bump_host (s : State) (f : Fld) (i n : Nat) : (bump s f i n).host = s.host := rfl
@[simp] theorem bump_xings (s : State) (f : Fld) (i n : Nat) : (bump s f i n).xings = s.xings := rfl
@[simp] theorem bump_slips (s : State) (f : Fld) (i n : Nat) : (bump s f i n).slips = s.slips := rfl
@[simp] theorem bump_cache (s : State) (f : Fld) (i n : Nat) : (bump s f i n).cache = s.cache := rfl
@[simp] theorem bump_lines (s : State) (f : Fld) (i n : Nat) : (bump s f i n).lines = s.lines := rfl
@[simp] theorem bump_free (s : State) (f : Fld) (i n : Nat) : (bump s f i n).free = s.free := rfl

/-! ### fresh: a free value taken -/

@[simp] theorem fresh_pending (s : State) : ((fresh s).2).pending = s.pending := rfl
@[simp] theorem fresh_regs (s : State) : ((fresh s).2).regs = s.regs := rfl
@[simp] theorem fresh_mem (s : State) : ((fresh s).2).mem = s.mem := rfl
@[simp] theorem fresh_boot (s : State) : ((fresh s).2).boot = s.boot := rfl
@[simp] theorem fresh_poison (s : State) : ((fresh s).2).poison = s.poison := rfl
@[simp] theorem fresh_worn (s : State) : ((fresh s).2).worn = s.worn := rfl
@[simp] theorem fresh_streams (s : State) : ((fresh s).2).streams = s.streams := rfl
@[simp] theorem fresh_queues (s : State) : ((fresh s).2).queues = s.queues := rfl
@[simp] theorem fresh_engines (s : State) : ((fresh s).2).engines = s.engines := rfl
@[simp] theorem fresh_me (s : State) : ((fresh s).2).me = s.me := rfl
@[simp] theorem fresh_ve (s : State) : ((fresh s).2).ve = s.ve := rfl
@[simp] theorem fresh_ue (s : State) : ((fresh s).2).ue = s.ue := rfl
@[simp] theorem fresh_watch (s : State) : ((fresh s).2).watch = s.watch := rfl
@[simp] theorem fresh_quiet (s : State) : ((fresh s).2).quiet = s.quiet := rfl
@[simp] theorem fresh_stalled (s : State) : ((fresh s).2).stalled = s.stalled := rfl
@[simp] theorem fresh_fuses (s : State) : ((fresh s).2).fuses = s.fuses := rfl
@[simp] theorem fresh_life (s : State) : ((fresh s).2).life = s.life := rfl
@[simp] theorem fresh_store (s : State) : ((fresh s).2).store = s.store := rfl
@[simp] theorem fresh_banks (s : State) : ((fresh s).2).banks = s.banks := rfl
@[simp] theorem fresh_mc (s : State) : ((fresh s).2).mc = s.mc := rfl
@[simp] theorem fresh_libLoaded (s : State) : ((fresh s).2).libLoaded = s.libLoaded := rfl
@[simp] theorem fresh_pwards (s : State) : ((fresh s).2).pwards = s.pwards := rfl
@[simp] theorem fresh_dists (s : State) : ((fresh s).2).dists = s.dists := rfl
@[simp] theorem fresh_remapDeferred (s : State) : ((fresh s).2).remapDeferred = s.remapDeferred := rfl
@[simp] theorem fresh_pwr (s : State) : ((fresh s).2).pwr = s.pwr := rfl
@[simp] theorem fresh_therm (s : State) : ((fresh s).2).therm = s.therm := rfl
@[simp] theorem fresh_standby (s : State) : ((fresh s).2).standby = s.standby := rfl
@[simp] theorem fresh_board (s : State) : ((fresh s).2).board = s.board := rfl
@[simp] theorem fresh_ksReq (s : State) : ((fresh s).2).ksReq = s.ksReq := rfl
@[simp] theorem fresh_samples (s : State) : ((fresh s).2).samples = s.samples := rfl
@[simp] theorem fresh_trace (s : State) : ((fresh s).2).trace = s.trace := rfl
@[simp] theorem fresh_txns (s : State) : ((fresh s).2).txns = s.txns := rfl
@[simp] theorem fresh_nextTid (s : State) : ((fresh s).2).nextTid = s.nextTid := rfl
@[simp] theorem fresh_ports (s : State) : ((fresh s).2).ports = s.ports := rfl
@[simp] theorem fresh_arrivals (s : State) : ((fresh s).2).arrivals = s.arrivals := rfl
@[simp] theorem fresh_strag (s : State) : ((fresh s).2).strag = s.strag := rfl
@[simp] theorem fresh_flash (s : State) : ((fresh s).2).flash = s.flash := rfl
@[simp] theorem fresh_pool (s : State) : ((fresh s).2).pool = s.pool := rfl
@[simp] theorem fresh_scrubs (s : State) : ((fresh s).2).scrubs = s.scrubs := rfl
@[simp] theorem fresh_links (s : State) : ((fresh s).2).links = s.links := rfl
@[simp] theorem fresh_host (s : State) : ((fresh s).2).host = s.host := rfl
@[simp] theorem fresh_xings (s : State) : ((fresh s).2).xings = s.xings := rfl
@[simp] theorem fresh_slips (s : State) : ((fresh s).2).slips = s.slips := rfl
@[simp] theorem fresh_cache (s : State) : ((fresh s).2).cache = s.cache := rfl
@[simp] theorem fresh_lines (s : State) : ((fresh s).2).lines = s.lines := rfl

/-! ### memWrite: bytes written -/

@[simp] theorem memWrite_pending (s : State) (a : Nat) (bs : List Byte) : (memWrite s a bs).pending = s.pending := rfl
@[simp] theorem memWrite_regs (s : State) (a : Nat) (bs : List Byte) : (memWrite s a bs).regs = s.regs := rfl
@[simp] theorem memWrite_boot (s : State) (a : Nat) (bs : List Byte) : (memWrite s a bs).boot = s.boot := rfl
@[simp] theorem memWrite_worn (s : State) (a : Nat) (bs : List Byte) : (memWrite s a bs).worn = s.worn := rfl
@[simp] theorem memWrite_streams (s : State) (a : Nat) (bs : List Byte) : (memWrite s a bs).streams = s.streams := rfl
@[simp] theorem memWrite_queues (s : State) (a : Nat) (bs : List Byte) : (memWrite s a bs).queues = s.queues := rfl
@[simp] theorem memWrite_engines (s : State) (a : Nat) (bs : List Byte) : (memWrite s a bs).engines = s.engines := rfl
@[simp] theorem memWrite_me (s : State) (a : Nat) (bs : List Byte) : (memWrite s a bs).me = s.me := rfl
@[simp] theorem memWrite_ve (s : State) (a : Nat) (bs : List Byte) : (memWrite s a bs).ve = s.ve := rfl
@[simp] theorem memWrite_ue (s : State) (a : Nat) (bs : List Byte) : (memWrite s a bs).ue = s.ue := rfl
@[simp] theorem memWrite_watch (s : State) (a : Nat) (bs : List Byte) : (memWrite s a bs).watch = s.watch := rfl
@[simp] theorem memWrite_quiet (s : State) (a : Nat) (bs : List Byte) : (memWrite s a bs).quiet = s.quiet := rfl
@[simp] theorem memWrite_stalled (s : State) (a : Nat) (bs : List Byte) : (memWrite s a bs).stalled = s.stalled := rfl
@[simp] theorem memWrite_fuses (s : State) (a : Nat) (bs : List Byte) : (memWrite s a bs).fuses = s.fuses := rfl
@[simp] theorem memWrite_life (s : State) (a : Nat) (bs : List Byte) : (memWrite s a bs).life = s.life := rfl
@[simp] theorem memWrite_store (s : State) (a : Nat) (bs : List Byte) : (memWrite s a bs).store = s.store := rfl
@[simp] theorem memWrite_banks (s : State) (a : Nat) (bs : List Byte) : (memWrite s a bs).banks = s.banks := rfl
@[simp] theorem memWrite_mc (s : State) (a : Nat) (bs : List Byte) : (memWrite s a bs).mc = s.mc := rfl
@[simp] theorem memWrite_libLoaded (s : State) (a : Nat) (bs : List Byte) : (memWrite s a bs).libLoaded = s.libLoaded := rfl
@[simp] theorem memWrite_pwards (s : State) (a : Nat) (bs : List Byte) : (memWrite s a bs).pwards = s.pwards := rfl
@[simp] theorem memWrite_dists (s : State) (a : Nat) (bs : List Byte) : (memWrite s a bs).dists = s.dists := rfl
@[simp] theorem memWrite_remapDeferred (s : State) (a : Nat) (bs : List Byte) : (memWrite s a bs).remapDeferred = s.remapDeferred := rfl
@[simp] theorem memWrite_pwr (s : State) (a : Nat) (bs : List Byte) : (memWrite s a bs).pwr = s.pwr := rfl
@[simp] theorem memWrite_therm (s : State) (a : Nat) (bs : List Byte) : (memWrite s a bs).therm = s.therm := rfl
@[simp] theorem memWrite_standby (s : State) (a : Nat) (bs : List Byte) : (memWrite s a bs).standby = s.standby := rfl
@[simp] theorem memWrite_board (s : State) (a : Nat) (bs : List Byte) : (memWrite s a bs).board = s.board := rfl
@[simp] theorem memWrite_ksReq (s : State) (a : Nat) (bs : List Byte) : (memWrite s a bs).ksReq = s.ksReq := rfl
@[simp] theorem memWrite_samples (s : State) (a : Nat) (bs : List Byte) : (memWrite s a bs).samples = s.samples := rfl
@[simp] theorem memWrite_trace (s : State) (a : Nat) (bs : List Byte) : (memWrite s a bs).trace = s.trace := rfl
@[simp] theorem memWrite_txns (s : State) (a : Nat) (bs : List Byte) : (memWrite s a bs).txns = s.txns := rfl
@[simp] theorem memWrite_nextTid (s : State) (a : Nat) (bs : List Byte) : (memWrite s a bs).nextTid = s.nextTid := rfl
@[simp] theorem memWrite_ports (s : State) (a : Nat) (bs : List Byte) : (memWrite s a bs).ports = s.ports := rfl
@[simp] theorem memWrite_arrivals (s : State) (a : Nat) (bs : List Byte) : (memWrite s a bs).arrivals = s.arrivals := rfl
@[simp] theorem memWrite_strag (s : State) (a : Nat) (bs : List Byte) : (memWrite s a bs).strag = s.strag := rfl
@[simp] theorem memWrite_flash (s : State) (a : Nat) (bs : List Byte) : (memWrite s a bs).flash = s.flash := rfl
@[simp] theorem memWrite_pool (s : State) (a : Nat) (bs : List Byte) : (memWrite s a bs).pool = s.pool := rfl
@[simp] theorem memWrite_scrubs (s : State) (a : Nat) (bs : List Byte) : (memWrite s a bs).scrubs = s.scrubs := rfl
@[simp] theorem memWrite_links (s : State) (a : Nat) (bs : List Byte) : (memWrite s a bs).links = s.links := rfl
@[simp] theorem memWrite_host (s : State) (a : Nat) (bs : List Byte) : (memWrite s a bs).host = s.host := rfl
@[simp] theorem memWrite_xings (s : State) (a : Nat) (bs : List Byte) : (memWrite s a bs).xings = s.xings := rfl
@[simp] theorem memWrite_slips (s : State) (a : Nat) (bs : List Byte) : (memWrite s a bs).slips = s.slips := rfl
@[simp] theorem memWrite_cache (s : State) (a : Nat) (bs : List Byte) : (memWrite s a bs).cache = s.cache := rfl
@[simp] theorem memWrite_lines (s : State) (a : Nat) (bs : List Byte) : (memWrite s a bs).lines = s.lines := rfl
@[simp] theorem memWrite_free (s : State) (a : Nat) (bs : List Byte) : (memWrite s a bs).free = s.free := rfl

/-! ### poisonAt: units poisoned -/

@[simp] theorem poisonAt_pending (s : State) (a n : Nat) : (poisonAt s a n).pending = s.pending := rfl
@[simp] theorem poisonAt_regs (s : State) (a n : Nat) : (poisonAt s a n).regs = s.regs := rfl
@[simp] theorem poisonAt_mem (s : State) (a n : Nat) : (poisonAt s a n).mem = s.mem := rfl
@[simp] theorem poisonAt_boot (s : State) (a n : Nat) : (poisonAt s a n).boot = s.boot := rfl
@[simp] theorem poisonAt_worn (s : State) (a n : Nat) : (poisonAt s a n).worn = s.worn := rfl
@[simp] theorem poisonAt_streams (s : State) (a n : Nat) : (poisonAt s a n).streams = s.streams := rfl
@[simp] theorem poisonAt_queues (s : State) (a n : Nat) : (poisonAt s a n).queues = s.queues := rfl
@[simp] theorem poisonAt_engines (s : State) (a n : Nat) : (poisonAt s a n).engines = s.engines := rfl
@[simp] theorem poisonAt_me (s : State) (a n : Nat) : (poisonAt s a n).me = s.me := rfl
@[simp] theorem poisonAt_ve (s : State) (a n : Nat) : (poisonAt s a n).ve = s.ve := rfl
@[simp] theorem poisonAt_ue (s : State) (a n : Nat) : (poisonAt s a n).ue = s.ue := rfl
@[simp] theorem poisonAt_watch (s : State) (a n : Nat) : (poisonAt s a n).watch = s.watch := rfl
@[simp] theorem poisonAt_quiet (s : State) (a n : Nat) : (poisonAt s a n).quiet = s.quiet := rfl
@[simp] theorem poisonAt_stalled (s : State) (a n : Nat) : (poisonAt s a n).stalled = s.stalled := rfl
@[simp] theorem poisonAt_fuses (s : State) (a n : Nat) : (poisonAt s a n).fuses = s.fuses := rfl
@[simp] theorem poisonAt_life (s : State) (a n : Nat) : (poisonAt s a n).life = s.life := rfl
@[simp] theorem poisonAt_store (s : State) (a n : Nat) : (poisonAt s a n).store = s.store := rfl
@[simp] theorem poisonAt_banks (s : State) (a n : Nat) : (poisonAt s a n).banks = s.banks := rfl
@[simp] theorem poisonAt_mc (s : State) (a n : Nat) : (poisonAt s a n).mc = s.mc := rfl
@[simp] theorem poisonAt_libLoaded (s : State) (a n : Nat) : (poisonAt s a n).libLoaded = s.libLoaded := rfl
@[simp] theorem poisonAt_pwards (s : State) (a n : Nat) : (poisonAt s a n).pwards = s.pwards := rfl
@[simp] theorem poisonAt_dists (s : State) (a n : Nat) : (poisonAt s a n).dists = s.dists := rfl
@[simp] theorem poisonAt_remapDeferred (s : State) (a n : Nat) : (poisonAt s a n).remapDeferred = s.remapDeferred := rfl
@[simp] theorem poisonAt_pwr (s : State) (a n : Nat) : (poisonAt s a n).pwr = s.pwr := rfl
@[simp] theorem poisonAt_therm (s : State) (a n : Nat) : (poisonAt s a n).therm = s.therm := rfl
@[simp] theorem poisonAt_standby (s : State) (a n : Nat) : (poisonAt s a n).standby = s.standby := rfl
@[simp] theorem poisonAt_board (s : State) (a n : Nat) : (poisonAt s a n).board = s.board := rfl
@[simp] theorem poisonAt_ksReq (s : State) (a n : Nat) : (poisonAt s a n).ksReq = s.ksReq := rfl
@[simp] theorem poisonAt_samples (s : State) (a n : Nat) : (poisonAt s a n).samples = s.samples := rfl
@[simp] theorem poisonAt_trace (s : State) (a n : Nat) : (poisonAt s a n).trace = s.trace := rfl
@[simp] theorem poisonAt_txns (s : State) (a n : Nat) : (poisonAt s a n).txns = s.txns := rfl
@[simp] theorem poisonAt_nextTid (s : State) (a n : Nat) : (poisonAt s a n).nextTid = s.nextTid := rfl
@[simp] theorem poisonAt_ports (s : State) (a n : Nat) : (poisonAt s a n).ports = s.ports := rfl
@[simp] theorem poisonAt_arrivals (s : State) (a n : Nat) : (poisonAt s a n).arrivals = s.arrivals := rfl
@[simp] theorem poisonAt_strag (s : State) (a n : Nat) : (poisonAt s a n).strag = s.strag := rfl
@[simp] theorem poisonAt_flash (s : State) (a n : Nat) : (poisonAt s a n).flash = s.flash := rfl
@[simp] theorem poisonAt_pool (s : State) (a n : Nat) : (poisonAt s a n).pool = s.pool := rfl
@[simp] theorem poisonAt_scrubs (s : State) (a n : Nat) : (poisonAt s a n).scrubs = s.scrubs := rfl
@[simp] theorem poisonAt_links (s : State) (a n : Nat) : (poisonAt s a n).links = s.links := rfl
@[simp] theorem poisonAt_host (s : State) (a n : Nat) : (poisonAt s a n).host = s.host := rfl
@[simp] theorem poisonAt_xings (s : State) (a n : Nat) : (poisonAt s a n).xings = s.xings := rfl
@[simp] theorem poisonAt_slips (s : State) (a n : Nat) : (poisonAt s a n).slips = s.slips := rfl
@[simp] theorem poisonAt_cache (s : State) (a n : Nat) : (poisonAt s a n).cache = s.cache := rfl
@[simp] theorem poisonAt_lines (s : State) (a n : Nat) : (poisonAt s a n).lines = s.lines := rfl
@[simp] theorem poisonAt_free (s : State) (a n : Nat) : (poisonAt s a n).free = s.free := rfl

/-! ### setPward: a physical ward replaced -/

@[simp] theorem setPward_pending (s : State) (p : Nat) (x : PWard) : (setPward s p x).pending = s.pending := rfl
@[simp] theorem setPward_regs (s : State) (p : Nat) (x : PWard) : (setPward s p x).regs = s.regs := rfl
@[simp] theorem setPward_mem (s : State) (p : Nat) (x : PWard) : (setPward s p x).mem = s.mem := rfl
@[simp] theorem setPward_boot (s : State) (p : Nat) (x : PWard) : (setPward s p x).boot = s.boot := rfl
@[simp] theorem setPward_poison (s : State) (p : Nat) (x : PWard) : (setPward s p x).poison = s.poison := rfl
@[simp] theorem setPward_worn (s : State) (p : Nat) (x : PWard) : (setPward s p x).worn = s.worn := rfl
@[simp] theorem setPward_streams (s : State) (p : Nat) (x : PWard) : (setPward s p x).streams = s.streams := rfl
@[simp] theorem setPward_queues (s : State) (p : Nat) (x : PWard) : (setPward s p x).queues = s.queues := rfl
@[simp] theorem setPward_engines (s : State) (p : Nat) (x : PWard) : (setPward s p x).engines = s.engines := rfl
@[simp] theorem setPward_me (s : State) (p : Nat) (x : PWard) : (setPward s p x).me = s.me := rfl
@[simp] theorem setPward_ve (s : State) (p : Nat) (x : PWard) : (setPward s p x).ve = s.ve := rfl
@[simp] theorem setPward_ue (s : State) (p : Nat) (x : PWard) : (setPward s p x).ue = s.ue := rfl
@[simp] theorem setPward_watch (s : State) (p : Nat) (x : PWard) : (setPward s p x).watch = s.watch := rfl
@[simp] theorem setPward_quiet (s : State) (p : Nat) (x : PWard) : (setPward s p x).quiet = s.quiet := rfl
@[simp] theorem setPward_stalled (s : State) (p : Nat) (x : PWard) : (setPward s p x).stalled = s.stalled := rfl
@[simp] theorem setPward_fuses (s : State) (p : Nat) (x : PWard) : (setPward s p x).fuses = s.fuses := rfl
@[simp] theorem setPward_life (s : State) (p : Nat) (x : PWard) : (setPward s p x).life = s.life := rfl
@[simp] theorem setPward_store (s : State) (p : Nat) (x : PWard) : (setPward s p x).store = s.store := rfl
@[simp] theorem setPward_banks (s : State) (p : Nat) (x : PWard) : (setPward s p x).banks = s.banks := rfl
@[simp] theorem setPward_mc (s : State) (p : Nat) (x : PWard) : (setPward s p x).mc = s.mc := rfl
@[simp] theorem setPward_libLoaded (s : State) (p : Nat) (x : PWard) : (setPward s p x).libLoaded = s.libLoaded := rfl
@[simp] theorem setPward_dists (s : State) (p : Nat) (x : PWard) : (setPward s p x).dists = s.dists := rfl
@[simp] theorem setPward_remapDeferred (s : State) (p : Nat) (x : PWard) : (setPward s p x).remapDeferred = s.remapDeferred := rfl
@[simp] theorem setPward_pwr (s : State) (p : Nat) (x : PWard) : (setPward s p x).pwr = s.pwr := rfl
@[simp] theorem setPward_therm (s : State) (p : Nat) (x : PWard) : (setPward s p x).therm = s.therm := rfl
@[simp] theorem setPward_standby (s : State) (p : Nat) (x : PWard) : (setPward s p x).standby = s.standby := rfl
@[simp] theorem setPward_board (s : State) (p : Nat) (x : PWard) : (setPward s p x).board = s.board := rfl
@[simp] theorem setPward_ksReq (s : State) (p : Nat) (x : PWard) : (setPward s p x).ksReq = s.ksReq := rfl
@[simp] theorem setPward_samples (s : State) (p : Nat) (x : PWard) : (setPward s p x).samples = s.samples := rfl
@[simp] theorem setPward_trace (s : State) (p : Nat) (x : PWard) : (setPward s p x).trace = s.trace := rfl
@[simp] theorem setPward_txns (s : State) (p : Nat) (x : PWard) : (setPward s p x).txns = s.txns := rfl
@[simp] theorem setPward_nextTid (s : State) (p : Nat) (x : PWard) : (setPward s p x).nextTid = s.nextTid := rfl
@[simp] theorem setPward_ports (s : State) (p : Nat) (x : PWard) : (setPward s p x).ports = s.ports := rfl
@[simp] theorem setPward_arrivals (s : State) (p : Nat) (x : PWard) : (setPward s p x).arrivals = s.arrivals := rfl
@[simp] theorem setPward_strag (s : State) (p : Nat) (x : PWard) : (setPward s p x).strag = s.strag := rfl
@[simp] theorem setPward_flash (s : State) (p : Nat) (x : PWard) : (setPward s p x).flash = s.flash := rfl
@[simp] theorem setPward_pool (s : State) (p : Nat) (x : PWard) : (setPward s p x).pool = s.pool := rfl
@[simp] theorem setPward_scrubs (s : State) (p : Nat) (x : PWard) : (setPward s p x).scrubs = s.scrubs := rfl
@[simp] theorem setPward_links (s : State) (p : Nat) (x : PWard) : (setPward s p x).links = s.links := rfl
@[simp] theorem setPward_host (s : State) (p : Nat) (x : PWard) : (setPward s p x).host = s.host := rfl
@[simp] theorem setPward_xings (s : State) (p : Nat) (x : PWard) : (setPward s p x).xings = s.xings := rfl
@[simp] theorem setPward_slips (s : State) (p : Nat) (x : PWard) : (setPward s p x).slips = s.slips := rfl
@[simp] theorem setPward_cache (s : State) (p : Nat) (x : PWard) : (setPward s p x).cache = s.cache := rfl
@[simp] theorem setPward_lines (s : State) (p : Nat) (x : PWard) : (setPward s p x).lines = s.lines := rfl
@[simp] theorem setPward_free (s : State) (p : Nat) (x : PWard) : (setPward s p x).free = s.free := rfl

/-! ### setDist: a district replaced -/

@[simp] theorem setDist_pending (s : State) (d : Nat) (x : Dist) : (setDist s d x).pending = s.pending := rfl
@[simp] theorem setDist_regs (s : State) (d : Nat) (x : Dist) : (setDist s d x).regs = s.regs := rfl
@[simp] theorem setDist_mem (s : State) (d : Nat) (x : Dist) : (setDist s d x).mem = s.mem := rfl
@[simp] theorem setDist_boot (s : State) (d : Nat) (x : Dist) : (setDist s d x).boot = s.boot := rfl
@[simp] theorem setDist_poison (s : State) (d : Nat) (x : Dist) : (setDist s d x).poison = s.poison := rfl
@[simp] theorem setDist_worn (s : State) (d : Nat) (x : Dist) : (setDist s d x).worn = s.worn := rfl
@[simp] theorem setDist_streams (s : State) (d : Nat) (x : Dist) : (setDist s d x).streams = s.streams := rfl
@[simp] theorem setDist_queues (s : State) (d : Nat) (x : Dist) : (setDist s d x).queues = s.queues := rfl
@[simp] theorem setDist_engines (s : State) (d : Nat) (x : Dist) : (setDist s d x).engines = s.engines := rfl
@[simp] theorem setDist_me (s : State) (d : Nat) (x : Dist) : (setDist s d x).me = s.me := rfl
@[simp] theorem setDist_ve (s : State) (d : Nat) (x : Dist) : (setDist s d x).ve = s.ve := rfl
@[simp] theorem setDist_ue (s : State) (d : Nat) (x : Dist) : (setDist s d x).ue = s.ue := rfl
@[simp] theorem setDist_watch (s : State) (d : Nat) (x : Dist) : (setDist s d x).watch = s.watch := rfl
@[simp] theorem setDist_quiet (s : State) (d : Nat) (x : Dist) : (setDist s d x).quiet = s.quiet := rfl
@[simp] theorem setDist_stalled (s : State) (d : Nat) (x : Dist) : (setDist s d x).stalled = s.stalled := rfl
@[simp] theorem setDist_fuses (s : State) (d : Nat) (x : Dist) : (setDist s d x).fuses = s.fuses := rfl
@[simp] theorem setDist_life (s : State) (d : Nat) (x : Dist) : (setDist s d x).life = s.life := rfl
@[simp] theorem setDist_store (s : State) (d : Nat) (x : Dist) : (setDist s d x).store = s.store := rfl
@[simp] theorem setDist_banks (s : State) (d : Nat) (x : Dist) : (setDist s d x).banks = s.banks := rfl
@[simp] theorem setDist_mc (s : State) (d : Nat) (x : Dist) : (setDist s d x).mc = s.mc := rfl
@[simp] theorem setDist_libLoaded (s : State) (d : Nat) (x : Dist) : (setDist s d x).libLoaded = s.libLoaded := rfl
@[simp] theorem setDist_pwards (s : State) (d : Nat) (x : Dist) : (setDist s d x).pwards = s.pwards := rfl
@[simp] theorem setDist_remapDeferred (s : State) (d : Nat) (x : Dist) : (setDist s d x).remapDeferred = s.remapDeferred := rfl
@[simp] theorem setDist_pwr (s : State) (d : Nat) (x : Dist) : (setDist s d x).pwr = s.pwr := rfl
@[simp] theorem setDist_therm (s : State) (d : Nat) (x : Dist) : (setDist s d x).therm = s.therm := rfl
@[simp] theorem setDist_standby (s : State) (d : Nat) (x : Dist) : (setDist s d x).standby = s.standby := rfl
@[simp] theorem setDist_board (s : State) (d : Nat) (x : Dist) : (setDist s d x).board = s.board := rfl
@[simp] theorem setDist_ksReq (s : State) (d : Nat) (x : Dist) : (setDist s d x).ksReq = s.ksReq := rfl
@[simp] theorem setDist_samples (s : State) (d : Nat) (x : Dist) : (setDist s d x).samples = s.samples := rfl
@[simp] theorem setDist_trace (s : State) (d : Nat) (x : Dist) : (setDist s d x).trace = s.trace := rfl
@[simp] theorem setDist_txns (s : State) (d : Nat) (x : Dist) : (setDist s d x).txns = s.txns := rfl
@[simp] theorem setDist_nextTid (s : State) (d : Nat) (x : Dist) : (setDist s d x).nextTid = s.nextTid := rfl
@[simp] theorem setDist_ports (s : State) (d : Nat) (x : Dist) : (setDist s d x).ports = s.ports := rfl
@[simp] theorem setDist_arrivals (s : State) (d : Nat) (x : Dist) : (setDist s d x).arrivals = s.arrivals := rfl
@[simp] theorem setDist_strag (s : State) (d : Nat) (x : Dist) : (setDist s d x).strag = s.strag := rfl
@[simp] theorem setDist_flash (s : State) (d : Nat) (x : Dist) : (setDist s d x).flash = s.flash := rfl
@[simp] theorem setDist_pool (s : State) (d : Nat) (x : Dist) : (setDist s d x).pool = s.pool := rfl
@[simp] theorem setDist_scrubs (s : State) (d : Nat) (x : Dist) : (setDist s d x).scrubs = s.scrubs := rfl
@[simp] theorem setDist_links (s : State) (d : Nat) (x : Dist) : (setDist s d x).links = s.links := rfl
@[simp] theorem setDist_host (s : State) (d : Nat) (x : Dist) : (setDist s d x).host = s.host := rfl
@[simp] theorem setDist_xings (s : State) (d : Nat) (x : Dist) : (setDist s d x).xings = s.xings := rfl
@[simp] theorem setDist_slips (s : State) (d : Nat) (x : Dist) : (setDist s d x).slips = s.slips := rfl
@[simp] theorem setDist_cache (s : State) (d : Nat) (x : Dist) : (setDist s d x).cache = s.cache := rfl
@[simp] theorem setDist_lines (s : State) (d : Nat) (x : Dist) : (setDist s d x).lines = s.lines := rfl
@[simp] theorem setDist_free (s : State) (d : Nat) (x : Dist) : (setDist s d x).free = s.free := rfl

/-! ### setQueue: a queue replaced -/

@[simp] theorem setQueue_pending (s : State) (n : Nat) (q : QueueRt) : (setQueue s n q).pending = s.pending := rfl
@[simp] theorem setQueue_regs (s : State) (n : Nat) (q : QueueRt) : (setQueue s n q).regs = s.regs := rfl
@[simp] theorem setQueue_mem (s : State) (n : Nat) (q : QueueRt) : (setQueue s n q).mem = s.mem := rfl
@[simp] theorem setQueue_boot (s : State) (n : Nat) (q : QueueRt) : (setQueue s n q).boot = s.boot := rfl
@[simp] theorem setQueue_poison (s : State) (n : Nat) (q : QueueRt) : (setQueue s n q).poison = s.poison := rfl
@[simp] theorem setQueue_worn (s : State) (n : Nat) (q : QueueRt) : (setQueue s n q).worn = s.worn := rfl
@[simp] theorem setQueue_streams (s : State) (n : Nat) (q : QueueRt) : (setQueue s n q).streams = s.streams := rfl
@[simp] theorem setQueue_engines (s : State) (n : Nat) (q : QueueRt) : (setQueue s n q).engines = s.engines := rfl
@[simp] theorem setQueue_me (s : State) (n : Nat) (q : QueueRt) : (setQueue s n q).me = s.me := rfl
@[simp] theorem setQueue_ve (s : State) (n : Nat) (q : QueueRt) : (setQueue s n q).ve = s.ve := rfl
@[simp] theorem setQueue_ue (s : State) (n : Nat) (q : QueueRt) : (setQueue s n q).ue = s.ue := rfl
@[simp] theorem setQueue_watch (s : State) (n : Nat) (q : QueueRt) : (setQueue s n q).watch = s.watch := rfl
@[simp] theorem setQueue_quiet (s : State) (n : Nat) (q : QueueRt) : (setQueue s n q).quiet = s.quiet := rfl
@[simp] theorem setQueue_stalled (s : State) (n : Nat) (q : QueueRt) : (setQueue s n q).stalled = s.stalled := rfl
@[simp] theorem setQueue_fuses (s : State) (n : Nat) (q : QueueRt) : (setQueue s n q).fuses = s.fuses := rfl
@[simp] theorem setQueue_life (s : State) (n : Nat) (q : QueueRt) : (setQueue s n q).life = s.life := rfl
@[simp] theorem setQueue_store (s : State) (n : Nat) (q : QueueRt) : (setQueue s n q).store = s.store := rfl
@[simp] theorem setQueue_banks (s : State) (n : Nat) (q : QueueRt) : (setQueue s n q).banks = s.banks := rfl
@[simp] theorem setQueue_mc (s : State) (n : Nat) (q : QueueRt) : (setQueue s n q).mc = s.mc := rfl
@[simp] theorem setQueue_libLoaded (s : State) (n : Nat) (q : QueueRt) : (setQueue s n q).libLoaded = s.libLoaded := rfl
@[simp] theorem setQueue_pwards (s : State) (n : Nat) (q : QueueRt) : (setQueue s n q).pwards = s.pwards := rfl
@[simp] theorem setQueue_dists (s : State) (n : Nat) (q : QueueRt) : (setQueue s n q).dists = s.dists := rfl
@[simp] theorem setQueue_remapDeferred (s : State) (n : Nat) (q : QueueRt) : (setQueue s n q).remapDeferred = s.remapDeferred := rfl
@[simp] theorem setQueue_pwr (s : State) (n : Nat) (q : QueueRt) : (setQueue s n q).pwr = s.pwr := rfl
@[simp] theorem setQueue_therm (s : State) (n : Nat) (q : QueueRt) : (setQueue s n q).therm = s.therm := rfl
@[simp] theorem setQueue_standby (s : State) (n : Nat) (q : QueueRt) : (setQueue s n q).standby = s.standby := rfl
@[simp] theorem setQueue_board (s : State) (n : Nat) (q : QueueRt) : (setQueue s n q).board = s.board := rfl
@[simp] theorem setQueue_ksReq (s : State) (n : Nat) (q : QueueRt) : (setQueue s n q).ksReq = s.ksReq := rfl
@[simp] theorem setQueue_samples (s : State) (n : Nat) (q : QueueRt) : (setQueue s n q).samples = s.samples := rfl
@[simp] theorem setQueue_trace (s : State) (n : Nat) (q : QueueRt) : (setQueue s n q).trace = s.trace := rfl
@[simp] theorem setQueue_txns (s : State) (n : Nat) (q : QueueRt) : (setQueue s n q).txns = s.txns := rfl
@[simp] theorem setQueue_nextTid (s : State) (n : Nat) (q : QueueRt) : (setQueue s n q).nextTid = s.nextTid := rfl
@[simp] theorem setQueue_ports (s : State) (n : Nat) (q : QueueRt) : (setQueue s n q).ports = s.ports := rfl
@[simp] theorem setQueue_arrivals (s : State) (n : Nat) (q : QueueRt) : (setQueue s n q).arrivals = s.arrivals := rfl
@[simp] theorem setQueue_strag (s : State) (n : Nat) (q : QueueRt) : (setQueue s n q).strag = s.strag := rfl
@[simp] theorem setQueue_flash (s : State) (n : Nat) (q : QueueRt) : (setQueue s n q).flash = s.flash := rfl
@[simp] theorem setQueue_pool (s : State) (n : Nat) (q : QueueRt) : (setQueue s n q).pool = s.pool := rfl
@[simp] theorem setQueue_scrubs (s : State) (n : Nat) (q : QueueRt) : (setQueue s n q).scrubs = s.scrubs := rfl
@[simp] theorem setQueue_links (s : State) (n : Nat) (q : QueueRt) : (setQueue s n q).links = s.links := rfl
@[simp] theorem setQueue_host (s : State) (n : Nat) (q : QueueRt) : (setQueue s n q).host = s.host := rfl
@[simp] theorem setQueue_xings (s : State) (n : Nat) (q : QueueRt) : (setQueue s n q).xings = s.xings := rfl
@[simp] theorem setQueue_slips (s : State) (n : Nat) (q : QueueRt) : (setQueue s n q).slips = s.slips := rfl
@[simp] theorem setQueue_cache (s : State) (n : Nat) (q : QueueRt) : (setQueue s n q).cache = s.cache := rfl
@[simp] theorem setQueue_lines (s : State) (n : Nat) (q : QueueRt) : (setQueue s n q).lines = s.lines := rfl
@[simp] theorem setQueue_free (s : State) (n : Nat) (q : QueueRt) : (setQueue s n q).free = s.free := rfl

/-! ### setStream: a stream replaced -/

@[simp] theorem setStream_pending (s : State) (m : Nat) (x : Stream) : (setStream s m x).pending = s.pending := rfl
@[simp] theorem setStream_regs (s : State) (m : Nat) (x : Stream) : (setStream s m x).regs = s.regs := rfl
@[simp] theorem setStream_mem (s : State) (m : Nat) (x : Stream) : (setStream s m x).mem = s.mem := rfl
@[simp] theorem setStream_boot (s : State) (m : Nat) (x : Stream) : (setStream s m x).boot = s.boot := rfl
@[simp] theorem setStream_poison (s : State) (m : Nat) (x : Stream) : (setStream s m x).poison = s.poison := rfl
@[simp] theorem setStream_worn (s : State) (m : Nat) (x : Stream) : (setStream s m x).worn = s.worn := rfl
@[simp] theorem setStream_queues (s : State) (m : Nat) (x : Stream) : (setStream s m x).queues = s.queues := rfl
@[simp] theorem setStream_engines (s : State) (m : Nat) (x : Stream) : (setStream s m x).engines = s.engines := rfl
@[simp] theorem setStream_me (s : State) (m : Nat) (x : Stream) : (setStream s m x).me = s.me := rfl
@[simp] theorem setStream_ve (s : State) (m : Nat) (x : Stream) : (setStream s m x).ve = s.ve := rfl
@[simp] theorem setStream_ue (s : State) (m : Nat) (x : Stream) : (setStream s m x).ue = s.ue := rfl
@[simp] theorem setStream_watch (s : State) (m : Nat) (x : Stream) : (setStream s m x).watch = s.watch := rfl
@[simp] theorem setStream_quiet (s : State) (m : Nat) (x : Stream) : (setStream s m x).quiet = s.quiet := rfl
@[simp] theorem setStream_stalled (s : State) (m : Nat) (x : Stream) : (setStream s m x).stalled = s.stalled := rfl
@[simp] theorem setStream_fuses (s : State) (m : Nat) (x : Stream) : (setStream s m x).fuses = s.fuses := rfl
@[simp] theorem setStream_life (s : State) (m : Nat) (x : Stream) : (setStream s m x).life = s.life := rfl
@[simp] theorem setStream_store (s : State) (m : Nat) (x : Stream) : (setStream s m x).store = s.store := rfl
@[simp] theorem setStream_banks (s : State) (m : Nat) (x : Stream) : (setStream s m x).banks = s.banks := rfl
@[simp] theorem setStream_mc (s : State) (m : Nat) (x : Stream) : (setStream s m x).mc = s.mc := rfl
@[simp] theorem setStream_libLoaded (s : State) (m : Nat) (x : Stream) : (setStream s m x).libLoaded = s.libLoaded := rfl
@[simp] theorem setStream_pwards (s : State) (m : Nat) (x : Stream) : (setStream s m x).pwards = s.pwards := rfl
@[simp] theorem setStream_dists (s : State) (m : Nat) (x : Stream) : (setStream s m x).dists = s.dists := rfl
@[simp] theorem setStream_remapDeferred (s : State) (m : Nat) (x : Stream) : (setStream s m x).remapDeferred = s.remapDeferred := rfl
@[simp] theorem setStream_pwr (s : State) (m : Nat) (x : Stream) : (setStream s m x).pwr = s.pwr := rfl
@[simp] theorem setStream_therm (s : State) (m : Nat) (x : Stream) : (setStream s m x).therm = s.therm := rfl
@[simp] theorem setStream_standby (s : State) (m : Nat) (x : Stream) : (setStream s m x).standby = s.standby := rfl
@[simp] theorem setStream_board (s : State) (m : Nat) (x : Stream) : (setStream s m x).board = s.board := rfl
@[simp] theorem setStream_ksReq (s : State) (m : Nat) (x : Stream) : (setStream s m x).ksReq = s.ksReq := rfl
@[simp] theorem setStream_samples (s : State) (m : Nat) (x : Stream) : (setStream s m x).samples = s.samples := rfl
@[simp] theorem setStream_trace (s : State) (m : Nat) (x : Stream) : (setStream s m x).trace = s.trace := rfl
@[simp] theorem setStream_txns (s : State) (m : Nat) (x : Stream) : (setStream s m x).txns = s.txns := rfl
@[simp] theorem setStream_nextTid (s : State) (m : Nat) (x : Stream) : (setStream s m x).nextTid = s.nextTid := rfl
@[simp] theorem setStream_ports (s : State) (m : Nat) (x : Stream) : (setStream s m x).ports = s.ports := rfl
@[simp] theorem setStream_arrivals (s : State) (m : Nat) (x : Stream) : (setStream s m x).arrivals = s.arrivals := rfl
@[simp] theorem setStream_strag (s : State) (m : Nat) (x : Stream) : (setStream s m x).strag = s.strag := rfl
@[simp] theorem setStream_flash (s : State) (m : Nat) (x : Stream) : (setStream s m x).flash = s.flash := rfl
@[simp] theorem setStream_pool (s : State) (m : Nat) (x : Stream) : (setStream s m x).pool = s.pool := rfl
@[simp] theorem setStream_scrubs (s : State) (m : Nat) (x : Stream) : (setStream s m x).scrubs = s.scrubs := rfl
@[simp] theorem setStream_links (s : State) (m : Nat) (x : Stream) : (setStream s m x).links = s.links := rfl
@[simp] theorem setStream_host (s : State) (m : Nat) (x : Stream) : (setStream s m x).host = s.host := rfl
@[simp] theorem setStream_xings (s : State) (m : Nat) (x : Stream) : (setStream s m x).xings = s.xings := rfl
@[simp] theorem setStream_slips (s : State) (m : Nat) (x : Stream) : (setStream s m x).slips = s.slips := rfl
@[simp] theorem setStream_cache (s : State) (m : Nat) (x : Stream) : (setStream s m x).cache = s.cache := rfl
@[simp] theorem setStream_lines (s : State) (m : Nat) (x : Stream) : (setStream s m x).lines = s.lines := rfl
@[simp] theorem setStream_free (s : State) (m : Nat) (x : Stream) : (setStream s m x).free = s.free := rfl

/-! ### setCmd: a command of a stream replaced -/

@[simp] theorem setCmd_pending (s : State) (m : Nat) (c : Cmd) : (setCmd s m c).pending = s.pending := rfl
@[simp] theorem setCmd_regs (s : State) (m : Nat) (c : Cmd) : (setCmd s m c).regs = s.regs := rfl
@[simp] theorem setCmd_mem (s : State) (m : Nat) (c : Cmd) : (setCmd s m c).mem = s.mem := rfl
@[simp] theorem setCmd_boot (s : State) (m : Nat) (c : Cmd) : (setCmd s m c).boot = s.boot := rfl
@[simp] theorem setCmd_poison (s : State) (m : Nat) (c : Cmd) : (setCmd s m c).poison = s.poison := rfl
@[simp] theorem setCmd_worn (s : State) (m : Nat) (c : Cmd) : (setCmd s m c).worn = s.worn := rfl
@[simp] theorem setCmd_queues (s : State) (m : Nat) (c : Cmd) : (setCmd s m c).queues = s.queues := rfl
@[simp] theorem setCmd_engines (s : State) (m : Nat) (c : Cmd) : (setCmd s m c).engines = s.engines := rfl
@[simp] theorem setCmd_me (s : State) (m : Nat) (c : Cmd) : (setCmd s m c).me = s.me := rfl
@[simp] theorem setCmd_ve (s : State) (m : Nat) (c : Cmd) : (setCmd s m c).ve = s.ve := rfl
@[simp] theorem setCmd_ue (s : State) (m : Nat) (c : Cmd) : (setCmd s m c).ue = s.ue := rfl
@[simp] theorem setCmd_watch (s : State) (m : Nat) (c : Cmd) : (setCmd s m c).watch = s.watch := rfl
@[simp] theorem setCmd_quiet (s : State) (m : Nat) (c : Cmd) : (setCmd s m c).quiet = s.quiet := rfl
@[simp] theorem setCmd_stalled (s : State) (m : Nat) (c : Cmd) : (setCmd s m c).stalled = s.stalled := rfl
@[simp] theorem setCmd_fuses (s : State) (m : Nat) (c : Cmd) : (setCmd s m c).fuses = s.fuses := rfl
@[simp] theorem setCmd_life (s : State) (m : Nat) (c : Cmd) : (setCmd s m c).life = s.life := rfl
@[simp] theorem setCmd_store (s : State) (m : Nat) (c : Cmd) : (setCmd s m c).store = s.store := rfl
@[simp] theorem setCmd_banks (s : State) (m : Nat) (c : Cmd) : (setCmd s m c).banks = s.banks := rfl
@[simp] theorem setCmd_mc (s : State) (m : Nat) (c : Cmd) : (setCmd s m c).mc = s.mc := rfl
@[simp] theorem setCmd_libLoaded (s : State) (m : Nat) (c : Cmd) : (setCmd s m c).libLoaded = s.libLoaded := rfl
@[simp] theorem setCmd_pwards (s : State) (m : Nat) (c : Cmd) : (setCmd s m c).pwards = s.pwards := rfl
@[simp] theorem setCmd_dists (s : State) (m : Nat) (c : Cmd) : (setCmd s m c).dists = s.dists := rfl
@[simp] theorem setCmd_remapDeferred (s : State) (m : Nat) (c : Cmd) : (setCmd s m c).remapDeferred = s.remapDeferred := rfl
@[simp] theorem setCmd_pwr (s : State) (m : Nat) (c : Cmd) : (setCmd s m c).pwr = s.pwr := rfl
@[simp] theorem setCmd_therm (s : State) (m : Nat) (c : Cmd) : (setCmd s m c).therm = s.therm := rfl
@[simp] theorem setCmd_standby (s : State) (m : Nat) (c : Cmd) : (setCmd s m c).standby = s.standby := rfl
@[simp] theorem setCmd_board (s : State) (m : Nat) (c : Cmd) : (setCmd s m c).board = s.board := rfl
@[simp] theorem setCmd_ksReq (s : State) (m : Nat) (c : Cmd) : (setCmd s m c).ksReq = s.ksReq := rfl
@[simp] theorem setCmd_samples (s : State) (m : Nat) (c : Cmd) : (setCmd s m c).samples = s.samples := rfl
@[simp] theorem setCmd_trace (s : State) (m : Nat) (c : Cmd) : (setCmd s m c).trace = s.trace := rfl
@[simp] theorem setCmd_txns (s : State) (m : Nat) (c : Cmd) : (setCmd s m c).txns = s.txns := rfl
@[simp] theorem setCmd_nextTid (s : State) (m : Nat) (c : Cmd) : (setCmd s m c).nextTid = s.nextTid := rfl
@[simp] theorem setCmd_ports (s : State) (m : Nat) (c : Cmd) : (setCmd s m c).ports = s.ports := rfl
@[simp] theorem setCmd_arrivals (s : State) (m : Nat) (c : Cmd) : (setCmd s m c).arrivals = s.arrivals := rfl
@[simp] theorem setCmd_strag (s : State) (m : Nat) (c : Cmd) : (setCmd s m c).strag = s.strag := rfl
@[simp] theorem setCmd_flash (s : State) (m : Nat) (c : Cmd) : (setCmd s m c).flash = s.flash := rfl
@[simp] theorem setCmd_pool (s : State) (m : Nat) (c : Cmd) : (setCmd s m c).pool = s.pool := rfl
@[simp] theorem setCmd_scrubs (s : State) (m : Nat) (c : Cmd) : (setCmd s m c).scrubs = s.scrubs := rfl
@[simp] theorem setCmd_links (s : State) (m : Nat) (c : Cmd) : (setCmd s m c).links = s.links := rfl
@[simp] theorem setCmd_host (s : State) (m : Nat) (c : Cmd) : (setCmd s m c).host = s.host := rfl
@[simp] theorem setCmd_xings (s : State) (m : Nat) (c : Cmd) : (setCmd s m c).xings = s.xings := rfl
@[simp] theorem setCmd_slips (s : State) (m : Nat) (c : Cmd) : (setCmd s m c).slips = s.slips := rfl
@[simp] theorem setCmd_cache (s : State) (m : Nat) (c : Cmd) : (setCmd s m c).cache = s.cache := rfl
@[simp] theorem setCmd_lines (s : State) (m : Nat) (c : Cmd) : (setCmd s m c).lines = s.lines := rfl
@[simp] theorem setCmd_free (s : State) (m : Nat) (c : Cmd) : (setCmd s m c).free = s.free := rfl

/-! ### signalFlag: a flag signalled -/

@[simp] theorem signalFlag_pending (s : State) (n inc : Nat) : (signalFlag s n inc).pending = s.pending := rfl
@[simp] theorem signalFlag_mem (s : State) (n inc : Nat) : (signalFlag s n inc).mem = s.mem := rfl
@[simp] theorem signalFlag_boot (s : State) (n inc : Nat) : (signalFlag s n inc).boot = s.boot := rfl
@[simp] theorem signalFlag_poison (s : State) (n inc : Nat) : (signalFlag s n inc).poison = s.poison := rfl
@[simp] theorem signalFlag_worn (s : State) (n inc : Nat) : (signalFlag s n inc).worn = s.worn := rfl
@[simp] theorem signalFlag_streams (s : State) (n inc : Nat) : (signalFlag s n inc).streams = s.streams := rfl
@[simp] theorem signalFlag_queues (s : State) (n inc : Nat) : (signalFlag s n inc).queues = s.queues := rfl
@[simp] theorem signalFlag_engines (s : State) (n inc : Nat) : (signalFlag s n inc).engines = s.engines := rfl
@[simp] theorem signalFlag_me (s : State) (n inc : Nat) : (signalFlag s n inc).me = s.me := rfl
@[simp] theorem signalFlag_ve (s : State) (n inc : Nat) : (signalFlag s n inc).ve = s.ve := rfl
@[simp] theorem signalFlag_ue (s : State) (n inc : Nat) : (signalFlag s n inc).ue = s.ue := rfl
@[simp] theorem signalFlag_watch (s : State) (n inc : Nat) : (signalFlag s n inc).watch = s.watch := rfl
@[simp] theorem signalFlag_quiet (s : State) (n inc : Nat) : (signalFlag s n inc).quiet = s.quiet := rfl
@[simp] theorem signalFlag_stalled (s : State) (n inc : Nat) : (signalFlag s n inc).stalled = s.stalled := rfl
@[simp] theorem signalFlag_fuses (s : State) (n inc : Nat) : (signalFlag s n inc).fuses = s.fuses := rfl
@[simp] theorem signalFlag_life (s : State) (n inc : Nat) : (signalFlag s n inc).life = s.life := rfl
@[simp] theorem signalFlag_store (s : State) (n inc : Nat) : (signalFlag s n inc).store = s.store := rfl
@[simp] theorem signalFlag_banks (s : State) (n inc : Nat) : (signalFlag s n inc).banks = s.banks := rfl
@[simp] theorem signalFlag_mc (s : State) (n inc : Nat) : (signalFlag s n inc).mc = s.mc := rfl
@[simp] theorem signalFlag_libLoaded (s : State) (n inc : Nat) : (signalFlag s n inc).libLoaded = s.libLoaded := rfl
@[simp] theorem signalFlag_pwards (s : State) (n inc : Nat) : (signalFlag s n inc).pwards = s.pwards := rfl
@[simp] theorem signalFlag_dists (s : State) (n inc : Nat) : (signalFlag s n inc).dists = s.dists := rfl
@[simp] theorem signalFlag_remapDeferred (s : State) (n inc : Nat) : (signalFlag s n inc).remapDeferred = s.remapDeferred := rfl
@[simp] theorem signalFlag_pwr (s : State) (n inc : Nat) : (signalFlag s n inc).pwr = s.pwr := rfl
@[simp] theorem signalFlag_therm (s : State) (n inc : Nat) : (signalFlag s n inc).therm = s.therm := rfl
@[simp] theorem signalFlag_standby (s : State) (n inc : Nat) : (signalFlag s n inc).standby = s.standby := rfl
@[simp] theorem signalFlag_board (s : State) (n inc : Nat) : (signalFlag s n inc).board = s.board := rfl
@[simp] theorem signalFlag_ksReq (s : State) (n inc : Nat) : (signalFlag s n inc).ksReq = s.ksReq := rfl
@[simp] theorem signalFlag_samples (s : State) (n inc : Nat) : (signalFlag s n inc).samples = s.samples := rfl
@[simp] theorem signalFlag_trace (s : State) (n inc : Nat) : (signalFlag s n inc).trace = s.trace := rfl
@[simp] theorem signalFlag_txns (s : State) (n inc : Nat) : (signalFlag s n inc).txns = s.txns := rfl
@[simp] theorem signalFlag_nextTid (s : State) (n inc : Nat) : (signalFlag s n inc).nextTid = s.nextTid := rfl
@[simp] theorem signalFlag_ports (s : State) (n inc : Nat) : (signalFlag s n inc).ports = s.ports := rfl
@[simp] theorem signalFlag_arrivals (s : State) (n inc : Nat) : (signalFlag s n inc).arrivals = s.arrivals := rfl
@[simp] theorem signalFlag_strag (s : State) (n inc : Nat) : (signalFlag s n inc).strag = s.strag := rfl
@[simp] theorem signalFlag_flash (s : State) (n inc : Nat) : (signalFlag s n inc).flash = s.flash := rfl
@[simp] theorem signalFlag_pool (s : State) (n inc : Nat) : (signalFlag s n inc).pool = s.pool := rfl
@[simp] theorem signalFlag_scrubs (s : State) (n inc : Nat) : (signalFlag s n inc).scrubs = s.scrubs := rfl
@[simp] theorem signalFlag_links (s : State) (n inc : Nat) : (signalFlag s n inc).links = s.links := rfl
@[simp] theorem signalFlag_host (s : State) (n inc : Nat) : (signalFlag s n inc).host = s.host := rfl
@[simp] theorem signalFlag_xings (s : State) (n inc : Nat) : (signalFlag s n inc).xings = s.xings := rfl
@[simp] theorem signalFlag_slips (s : State) (n inc : Nat) : (signalFlag s n inc).slips = s.slips := rfl
@[simp] theorem signalFlag_cache (s : State) (n inc : Nat) : (signalFlag s n inc).cache = s.cache := rfl
@[simp] theorem signalFlag_lines (s : State) (n inc : Nat) : (signalFlag s n inc).lines = s.lines := rfl
@[simp] theorem signalFlag_free (s : State) (n inc : Nat) : (signalFlag s n inc).free = s.free := rfl

/-! ### setEbuf: an engine buffer replaced -/

@[simp] theorem setEbuf_pending (s : State) (w e : Nat) (b : List (Nat × Nat)) : (setEbuf s w e b).pending = s.pending := rfl
@[simp] theorem setEbuf_regs (s : State) (w e : Nat) (b : List (Nat × Nat)) : (setEbuf s w e b).regs = s.regs := rfl
@[simp] theorem setEbuf_mem (s : State) (w e : Nat) (b : List (Nat × Nat)) : (setEbuf s w e b).mem = s.mem := rfl
@[simp] theorem setEbuf_boot (s : State) (w e : Nat) (b : List (Nat × Nat)) : (setEbuf s w e b).boot = s.boot := rfl
@[simp] theorem setEbuf_poison (s : State) (w e : Nat) (b : List (Nat × Nat)) : (setEbuf s w e b).poison = s.poison := rfl
@[simp] theorem setEbuf_worn (s : State) (w e : Nat) (b : List (Nat × Nat)) : (setEbuf s w e b).worn = s.worn := rfl
@[simp] theorem setEbuf_streams (s : State) (w e : Nat) (b : List (Nat × Nat)) : (setEbuf s w e b).streams = s.streams := rfl
@[simp] theorem setEbuf_queues (s : State) (w e : Nat) (b : List (Nat × Nat)) : (setEbuf s w e b).queues = s.queues := rfl
@[simp] theorem setEbuf_me (s : State) (w e : Nat) (b : List (Nat × Nat)) : (setEbuf s w e b).me = s.me := rfl
@[simp] theorem setEbuf_ve (s : State) (w e : Nat) (b : List (Nat × Nat)) : (setEbuf s w e b).ve = s.ve := rfl
@[simp] theorem setEbuf_ue (s : State) (w e : Nat) (b : List (Nat × Nat)) : (setEbuf s w e b).ue = s.ue := rfl
@[simp] theorem setEbuf_watch (s : State) (w e : Nat) (b : List (Nat × Nat)) : (setEbuf s w e b).watch = s.watch := rfl
@[simp] theorem setEbuf_quiet (s : State) (w e : Nat) (b : List (Nat × Nat)) : (setEbuf s w e b).quiet = s.quiet := rfl
@[simp] theorem setEbuf_stalled (s : State) (w e : Nat) (b : List (Nat × Nat)) : (setEbuf s w e b).stalled = s.stalled := rfl
@[simp] theorem setEbuf_fuses (s : State) (w e : Nat) (b : List (Nat × Nat)) : (setEbuf s w e b).fuses = s.fuses := rfl
@[simp] theorem setEbuf_life (s : State) (w e : Nat) (b : List (Nat × Nat)) : (setEbuf s w e b).life = s.life := rfl
@[simp] theorem setEbuf_store (s : State) (w e : Nat) (b : List (Nat × Nat)) : (setEbuf s w e b).store = s.store := rfl
@[simp] theorem setEbuf_banks (s : State) (w e : Nat) (b : List (Nat × Nat)) : (setEbuf s w e b).banks = s.banks := rfl
@[simp] theorem setEbuf_mc (s : State) (w e : Nat) (b : List (Nat × Nat)) : (setEbuf s w e b).mc = s.mc := rfl
@[simp] theorem setEbuf_libLoaded (s : State) (w e : Nat) (b : List (Nat × Nat)) : (setEbuf s w e b).libLoaded = s.libLoaded := rfl
@[simp] theorem setEbuf_pwards (s : State) (w e : Nat) (b : List (Nat × Nat)) : (setEbuf s w e b).pwards = s.pwards := rfl
@[simp] theorem setEbuf_dists (s : State) (w e : Nat) (b : List (Nat × Nat)) : (setEbuf s w e b).dists = s.dists := rfl
@[simp] theorem setEbuf_remapDeferred (s : State) (w e : Nat) (b : List (Nat × Nat)) : (setEbuf s w e b).remapDeferred = s.remapDeferred := rfl
@[simp] theorem setEbuf_pwr (s : State) (w e : Nat) (b : List (Nat × Nat)) : (setEbuf s w e b).pwr = s.pwr := rfl
@[simp] theorem setEbuf_therm (s : State) (w e : Nat) (b : List (Nat × Nat)) : (setEbuf s w e b).therm = s.therm := rfl
@[simp] theorem setEbuf_standby (s : State) (w e : Nat) (b : List (Nat × Nat)) : (setEbuf s w e b).standby = s.standby := rfl
@[simp] theorem setEbuf_board (s : State) (w e : Nat) (b : List (Nat × Nat)) : (setEbuf s w e b).board = s.board := rfl
@[simp] theorem setEbuf_ksReq (s : State) (w e : Nat) (b : List (Nat × Nat)) : (setEbuf s w e b).ksReq = s.ksReq := rfl
@[simp] theorem setEbuf_samples (s : State) (w e : Nat) (b : List (Nat × Nat)) : (setEbuf s w e b).samples = s.samples := rfl
@[simp] theorem setEbuf_trace (s : State) (w e : Nat) (b : List (Nat × Nat)) : (setEbuf s w e b).trace = s.trace := rfl
@[simp] theorem setEbuf_txns (s : State) (w e : Nat) (b : List (Nat × Nat)) : (setEbuf s w e b).txns = s.txns := rfl
@[simp] theorem setEbuf_nextTid (s : State) (w e : Nat) (b : List (Nat × Nat)) : (setEbuf s w e b).nextTid = s.nextTid := rfl
@[simp] theorem setEbuf_ports (s : State) (w e : Nat) (b : List (Nat × Nat)) : (setEbuf s w e b).ports = s.ports := rfl
@[simp] theorem setEbuf_arrivals (s : State) (w e : Nat) (b : List (Nat × Nat)) : (setEbuf s w e b).arrivals = s.arrivals := rfl
@[simp] theorem setEbuf_strag (s : State) (w e : Nat) (b : List (Nat × Nat)) : (setEbuf s w e b).strag = s.strag := rfl
@[simp] theorem setEbuf_flash (s : State) (w e : Nat) (b : List (Nat × Nat)) : (setEbuf s w e b).flash = s.flash := rfl
@[simp] theorem setEbuf_pool (s : State) (w e : Nat) (b : List (Nat × Nat)) : (setEbuf s w e b).pool = s.pool := rfl
@[simp] theorem setEbuf_scrubs (s : State) (w e : Nat) (b : List (Nat × Nat)) : (setEbuf s w e b).scrubs = s.scrubs := rfl
@[simp] theorem setEbuf_links (s : State) (w e : Nat) (b : List (Nat × Nat)) : (setEbuf s w e b).links = s.links := rfl
@[simp] theorem setEbuf_host (s : State) (w e : Nat) (b : List (Nat × Nat)) : (setEbuf s w e b).host = s.host := rfl
@[simp] theorem setEbuf_xings (s : State) (w e : Nat) (b : List (Nat × Nat)) : (setEbuf s w e b).xings = s.xings := rfl
@[simp] theorem setEbuf_slips (s : State) (w e : Nat) (b : List (Nat × Nat)) : (setEbuf s w e b).slips = s.slips := rfl
@[simp] theorem setEbuf_cache (s : State) (w e : Nat) (b : List (Nat × Nat)) : (setEbuf s w e b).cache = s.cache := rfl
@[simp] theorem setEbuf_lines (s : State) (w e : Nat) (b : List (Nat × Nat)) : (setEbuf s w e b).lines = s.lines := rfl
@[simp] theorem setEbuf_free (s : State) (w e : Nat) (b : List (Nat × Nat)) : (setEbuf s w e b).free = s.free := rfl

/-! ### sendPacket: a packet sent -/

@[simp] theorem sendPacket_pending (s : State) (dest : Nat × Nat) (bs : List Byte) : (sendPacket s dest bs).pending = s.pending := rfl
@[simp] theorem sendPacket_regs (s : State) (dest : Nat × Nat) (bs : List Byte) : (sendPacket s dest bs).regs = s.regs := rfl
@[simp] theorem sendPacket_mem (s : State) (dest : Nat × Nat) (bs : List Byte) : (sendPacket s dest bs).mem = s.mem := rfl
@[simp] theorem sendPacket_boot (s : State) (dest : Nat × Nat) (bs : List Byte) : (sendPacket s dest bs).boot = s.boot := rfl
@[simp] theorem sendPacket_poison (s : State) (dest : Nat × Nat) (bs : List Byte) : (sendPacket s dest bs).poison = s.poison := rfl
@[simp] theorem sendPacket_worn (s : State) (dest : Nat × Nat) (bs : List Byte) : (sendPacket s dest bs).worn = s.worn := rfl
@[simp] theorem sendPacket_streams (s : State) (dest : Nat × Nat) (bs : List Byte) : (sendPacket s dest bs).streams = s.streams := rfl
@[simp] theorem sendPacket_queues (s : State) (dest : Nat × Nat) (bs : List Byte) : (sendPacket s dest bs).queues = s.queues := rfl
@[simp] theorem sendPacket_engines (s : State) (dest : Nat × Nat) (bs : List Byte) : (sendPacket s dest bs).engines = s.engines := rfl
@[simp] theorem sendPacket_me (s : State) (dest : Nat × Nat) (bs : List Byte) : (sendPacket s dest bs).me = s.me := rfl
@[simp] theorem sendPacket_ve (s : State) (dest : Nat × Nat) (bs : List Byte) : (sendPacket s dest bs).ve = s.ve := rfl
@[simp] theorem sendPacket_ue (s : State) (dest : Nat × Nat) (bs : List Byte) : (sendPacket s dest bs).ue = s.ue := rfl
@[simp] theorem sendPacket_watch (s : State) (dest : Nat × Nat) (bs : List Byte) : (sendPacket s dest bs).watch = s.watch := rfl
@[simp] theorem sendPacket_quiet (s : State) (dest : Nat × Nat) (bs : List Byte) : (sendPacket s dest bs).quiet = s.quiet := rfl
@[simp] theorem sendPacket_stalled (s : State) (dest : Nat × Nat) (bs : List Byte) : (sendPacket s dest bs).stalled = s.stalled := rfl
@[simp] theorem sendPacket_fuses (s : State) (dest : Nat × Nat) (bs : List Byte) : (sendPacket s dest bs).fuses = s.fuses := rfl
@[simp] theorem sendPacket_life (s : State) (dest : Nat × Nat) (bs : List Byte) : (sendPacket s dest bs).life = s.life := rfl
@[simp] theorem sendPacket_store (s : State) (dest : Nat × Nat) (bs : List Byte) : (sendPacket s dest bs).store = s.store := rfl
@[simp] theorem sendPacket_banks (s : State) (dest : Nat × Nat) (bs : List Byte) : (sendPacket s dest bs).banks = s.banks := rfl
@[simp] theorem sendPacket_libLoaded (s : State) (dest : Nat × Nat) (bs : List Byte) : (sendPacket s dest bs).libLoaded = s.libLoaded := rfl
@[simp] theorem sendPacket_pwards (s : State) (dest : Nat × Nat) (bs : List Byte) : (sendPacket s dest bs).pwards = s.pwards := rfl
@[simp] theorem sendPacket_dists (s : State) (dest : Nat × Nat) (bs : List Byte) : (sendPacket s dest bs).dists = s.dists := rfl
@[simp] theorem sendPacket_remapDeferred (s : State) (dest : Nat × Nat) (bs : List Byte) : (sendPacket s dest bs).remapDeferred = s.remapDeferred := rfl
@[simp] theorem sendPacket_pwr (s : State) (dest : Nat × Nat) (bs : List Byte) : (sendPacket s dest bs).pwr = s.pwr := rfl
@[simp] theorem sendPacket_therm (s : State) (dest : Nat × Nat) (bs : List Byte) : (sendPacket s dest bs).therm = s.therm := rfl
@[simp] theorem sendPacket_standby (s : State) (dest : Nat × Nat) (bs : List Byte) : (sendPacket s dest bs).standby = s.standby := rfl
@[simp] theorem sendPacket_board (s : State) (dest : Nat × Nat) (bs : List Byte) : (sendPacket s dest bs).board = s.board := rfl
@[simp] theorem sendPacket_ksReq (s : State) (dest : Nat × Nat) (bs : List Byte) : (sendPacket s dest bs).ksReq = s.ksReq := rfl
@[simp] theorem sendPacket_samples (s : State) (dest : Nat × Nat) (bs : List Byte) : (sendPacket s dest bs).samples = s.samples := rfl
@[simp] theorem sendPacket_trace (s : State) (dest : Nat × Nat) (bs : List Byte) : (sendPacket s dest bs).trace = s.trace := rfl
@[simp] theorem sendPacket_txns (s : State) (dest : Nat × Nat) (bs : List Byte) : (sendPacket s dest bs).txns = s.txns := rfl
@[simp] theorem sendPacket_nextTid (s : State) (dest : Nat × Nat) (bs : List Byte) : (sendPacket s dest bs).nextTid = s.nextTid := rfl
@[simp] theorem sendPacket_ports (s : State) (dest : Nat × Nat) (bs : List Byte) : (sendPacket s dest bs).ports = s.ports := rfl
@[simp] theorem sendPacket_arrivals (s : State) (dest : Nat × Nat) (bs : List Byte) : (sendPacket s dest bs).arrivals = s.arrivals := rfl
@[simp] theorem sendPacket_strag (s : State) (dest : Nat × Nat) (bs : List Byte) : (sendPacket s dest bs).strag = s.strag := rfl
@[simp] theorem sendPacket_flash (s : State) (dest : Nat × Nat) (bs : List Byte) : (sendPacket s dest bs).flash = s.flash := rfl
@[simp] theorem sendPacket_pool (s : State) (dest : Nat × Nat) (bs : List Byte) : (sendPacket s dest bs).pool = s.pool := rfl
@[simp] theorem sendPacket_scrubs (s : State) (dest : Nat × Nat) (bs : List Byte) : (sendPacket s dest bs).scrubs = s.scrubs := rfl
@[simp] theorem sendPacket_links (s : State) (dest : Nat × Nat) (bs : List Byte) : (sendPacket s dest bs).links = s.links := rfl
@[simp] theorem sendPacket_host (s : State) (dest : Nat × Nat) (bs : List Byte) : (sendPacket s dest bs).host = s.host := rfl
@[simp] theorem sendPacket_xings (s : State) (dest : Nat × Nat) (bs : List Byte) : (sendPacket s dest bs).xings = s.xings := rfl
@[simp] theorem sendPacket_slips (s : State) (dest : Nat × Nat) (bs : List Byte) : (sendPacket s dest bs).slips = s.slips := rfl
@[simp] theorem sendPacket_cache (s : State) (dest : Nat × Nat) (bs : List Byte) : (sendPacket s dest bs).cache = s.cache := rfl
@[simp] theorem sendPacket_lines (s : State) (dest : Nat × Nat) (bs : List Byte) : (sendPacket s dest bs).lines = s.lines := rfl
@[simp] theorem sendPacket_free (s : State) (dest : Nat × Nat) (bs : List Byte) : (sendPacket s dest bs).free = s.free := rfl

end Sys2Proof.Machine
end

