-- ==== Sys2Proof/Laws/Regs.lean ====
section
/-!
SUPPORT. Register words and fields: what a field reads as after a write of it, of another field of its word, and of another register.
-/

namespace Sys2Proof.Machine

/-! ### Fields of a word -/

/-- A word's number with a field replaced, and what stands above and below the field. -/
theorem withField_toNat (w : Word) (hi lo v : Nat) (ord : lo ≤ hi) (top : hi ≤ 31) :
    (withField w hi lo v).toNat =
      w.toNat / 2 ^ (hi + 1) * 2 ^ (hi + 1) + v % 2 ^ (hi + 1 - lo) * 2 ^ lo + w.toNat % 2 ^ lo := by
  obtain ⟨k, rfl⟩ : ∃ k, hi = lo + k := ⟨hi - lo, by omega⟩
  have e : lo + k + 1 - lo = k + 1 := by omega
  have p : (2 : Nat) ^ (lo + k + 1) = 2 ^ lo * 2 ^ (k + 1) := by rw [← pow_add]; congr 1
  have q : (2 : Nat) ^ 32 = 2 ^ (lo + k + 1) * 2 ^ (31 - (lo + k)) := by rw [← pow_add]; congr 1; omega
  unfold withField bits
  simp only [e, BitVec.toNat_ofNat]
  have hn : w.toNat < 2 ^ 32 := w.isLt
  generalize w.toNat = n at *
  have a1 : n / 2 ^ (lo + k + 1) = n / 2 ^ lo / 2 ^ (k + 1) := by rw [p, Nat.div_div_eq_div_mul]
  have a2 := Nat.div_add_mod n (2 ^ lo)
  have a3 := Nat.div_add_mod (n / 2 ^ lo) (2 ^ (k + 1))
  have a4 : v % 2 ^ (k + 1) < 2 ^ (k + 1) := Nat.mod_lt _ (by positivity)
  have a5 : n % 2 ^ lo < 2 ^ lo := Nat.mod_lt _ (by positivity)
  have a6 : n / 2 ^ (lo + k + 1) < 2 ^ (31 - (lo + k)) := by rw [Nat.div_lt_iff_lt_mul (by positivity)]; rw [q] at hn; linarith [mul_comm (2 ^ (lo + k + 1)) (2 ^ (31 - (lo + k)))]
  rw [a1] at a6 ⊢
  generalize v % 2 ^ (k + 1) = x at *
  generalize n % 2 ^ lo = c at *
  generalize n / 2 ^ lo % 2 ^ (k + 1) = b at *
  generalize n / 2 ^ lo / 2 ^ (k + 1) = a at *
  have s : n = a * 2 ^ (lo + k + 1) + b * 2 ^ lo + c := by rw [p, ← a2, ← a3]; ring
  have t : n - b * 2 ^ lo + x * 2 ^ lo = a * 2 ^ (lo + k + 1) + x * 2 ^ lo + c := by omega
  rw [t]
  apply Nat.mod_eq_of_lt
  have u : x * 2 ^ lo + c < 2 ^ (lo + k + 1) := by
    rw [p]
    calc x * 2 ^ lo + c < x * 2 ^ lo + 2 ^ lo := by omega
      _ = 2 ^ lo * (x + 1) := by ring
      _ ≤ 2 ^ lo * 2 ^ (k + 1) := Nat.mul_le_mul_left _ a4
  calc a * 2 ^ (lo + k + 1) + x * 2 ^ lo + c < a * 2 ^ (lo + k + 1) + 2 ^ (lo + k + 1) := by omega
    _ = 2 ^ (lo + k + 1) * (a + 1) := by ring
    _ ≤ 2 ^ (lo + k + 1) * 2 ^ (31 - (lo + k)) := Nat.mul_le_mul_left _ a6
    _ = 2 ^ 32 := q.symm

theorem bits_eq (n hi lo : Nat) (ord : lo ≤ hi) : bits n hi lo = n % 2 ^ (hi + 1) / 2 ^ lo := by
  unfold bits
  have p : (2 : Nat) ^ (hi + 1) = 2 ^ lo * 2 ^ (hi + 1 - lo) := by rw [← pow_add]; congr 1; omega
  rw [p, Nat.mod_mul_right_div_self]

@[simp] theorem fieldOf_withField_same (w : Word) (hi lo v : Nat) (ord : lo ≤ hi) (top : hi ≤ 31) :
    fieldOf (withField w hi lo v) hi lo = v % 2 ^ (hi + 1 - lo) := by
  unfold fieldOf
  rw [bits_eq _ _ _ ord, withField_toNat w hi lo v ord top]
  have p : (2 : Nat) ^ (hi + 1) = 2 ^ lo * 2 ^ (hi + 1 - lo) := by rw [← pow_add]; congr 1; omega
  have a4 : v % 2 ^ (hi + 1 - lo) < 2 ^ (hi + 1 - lo) := Nat.mod_lt _ (by positivity)
  have a5 : w.toNat % 2 ^ lo < 2 ^ lo := Nat.mod_lt _ (by positivity)
  generalize v % 2 ^ (hi + 1 - lo) = x at *
  generalize w.toNat % 2 ^ lo = c at *
  have u : x * 2 ^ lo + c < 2 ^ (hi + 1) := by
    rw [p]
    calc x * 2 ^ lo + c < x * 2 ^ lo + 2 ^ lo := by omega
      _ = 2 ^ lo * (x + 1) := by ring
      _ ≤ 2 ^ lo * 2 ^ (hi + 1 - lo) := Nat.mul_le_mul_left _ a4
  rw [Nat.add_assoc, Nat.mul_add_mod', Nat.mod_eq_of_lt u]
  rw [mul_comm, Nat.mul_add_div (by positivity), Nat.div_eq_of_lt a5, Nat.add_zero]

/-- A field above or below the one written keeps its value. -/
theorem fieldOf_withField_other (w : Word) (hi lo v hi' lo' : Nat) (ord : lo ≤ hi) (top : hi ≤ 31) (ord' : lo' ≤ hi')
    (apart : hi' < lo ∨ hi < lo') : fieldOf (withField w hi lo v) hi' lo' = fieldOf w hi' lo' := by
  unfold fieldOf
  rw [bits_eq _ _ _ ord', bits_eq _ _ _ ord', withField_toNat w hi lo v ord top]
  rcases apart with h | h
  · have m : ∀ a b c : Nat, (a * 2 ^ (hi + 1) + b * 2 ^ lo + c) % 2 ^ (hi' + 1) = c % 2 ^ (hi' + 1) := by
      intro a b c
      have d1 : (2 : Nat) ^ (hi' + 1) ∣ 2 ^ lo := pow_dvd_pow 2 (by omega)
      have d2 : (2 : Nat) ^ (hi' + 1) ∣ 2 ^ (hi + 1) := pow_dvd_pow 2 (by omega)
      have z : (a * 2 ^ (hi + 1) + b * 2 ^ lo) % 2 ^ (hi' + 1) = 0 :=
        Nat.mod_eq_zero_of_dvd (dvd_add (Dvd.dvd.mul_left d2 a) (Dvd.dvd.mul_left d1 b))
      rw [Nat.add_mod, z]; simp
    rw [m, Nat.mod_mod_of_dvd _ (pow_dvd_pow 2 (by omega))]
  · have p : (2 : Nat) ^ (hi + 1) = 2 ^ lo * 2 ^ (hi + 1 - lo) := by rw [← pow_add]; congr 1; omega
    have a4 : v % 2 ^ (hi + 1 - lo) < 2 ^ (hi + 1 - lo) := Nat.mod_lt _ (by positivity)
    have a5 : w.toNat % 2 ^ lo < 2 ^ lo := Nat.mod_lt _ (by positivity)
    generalize v % 2 ^ (hi + 1 - lo) = x at *
    have u : x * 2 ^ lo + w.toNat % 2 ^ lo < 2 ^ (hi + 1) := by
      rw [p]
      calc x * 2 ^ lo + w.toNat % 2 ^ lo < x * 2 ^ lo + 2 ^ lo := by omega
        _ = 2 ^ lo * (x + 1) := by ring
        _ ≤ 2 ^ lo * 2 ^ (hi + 1 - lo) := Nat.mul_le_mul_left _ a4
    have n := Nat.div_add_mod w.toNat (2 ^ (hi + 1))
    have r : ∀ y : Nat, y < 2 ^ (hi + 1) →
        (w.toNat / 2 ^ (hi + 1) * 2 ^ (hi + 1) + y) % 2 ^ (hi' + 1) / 2 ^ lo' =
          w.toNat / 2 ^ (hi + 1) % 2 ^ (hi' + 1 - (hi + 1)) / 2 ^ (lo' - (hi + 1)) := by
      intro y hy
      have e1 : (2 : Nat) ^ (hi' + 1) = 2 ^ (hi + 1) * 2 ^ (hi' + 1 - (hi + 1)) := by rw [← pow_add]; congr 1; omega
      have e2 : (2 : Nat) ^ lo' = 2 ^ (hi + 1) * 2 ^ (lo' - (hi + 1)) := by rw [← pow_add]; congr 1; omega
      rw [e2, ← Nat.div_div_eq_div_mul, e1, Nat.mod_mul_right_div_self, mul_comm (w.toNat / 2 ^ (hi + 1)),
        Nat.mul_add_div (by positivity), Nat.div_eq_of_lt hy, Nat.add_zero]
    rw [Nat.add_assoc, r _ u]
    conv_rhs => rw [← n, mul_comm (2 ^ (hi + 1))]
    rw [r _ (Nat.mod_lt _ (by positivity))]

/-! ### Registers -/

@[simp] theorem rd_wr_same (s : State) (r : Reg) (i : Nat) (v : Word) : rd (wr s r i v) r i = v := by
  unfold rd wr; exact sget_sset_same _ _ _ _

theorem rd_wr_other (s : State) (r r' : Reg) (i i' : Nat) (v : Word) (ne : r'.key i' ≠ r.key i) : rd (wr s r i v) r' i' = rd s r' i' := by
  unfold rd wr; exact sget_sset_other _ _ _ _ ne

theorem fg_fs_same (s : State) (f : Fld) (i v : Nat) (ord : f.lo ≤ f.hi) (top : f.hi ≤ 31) :
    fg (fs s f i v) f i = v % 2 ^ (f.hi + 1 - f.lo) := by
  unfold fg fs; rw [rd_wr_same]; exact fieldOf_withField_same _ _ _ _ ord top

theorem fg_fs_field (s : State) (f g : Fld) (i v : Nat) (reg : g.reg = f.reg) (ord : f.lo ≤ f.hi) (top : f.hi ≤ 31) (ord' : g.lo ≤ g.hi)
    (apart : g.hi < f.lo ∨ f.hi < g.lo) : fg (fs s f i v) g i = fg s g i := by
  unfold fg fs; rw [reg, rd_wr_same]; exact fieldOf_withField_other _ _ _ _ _ _ ord top ord' apart

theorem fg_fs_other (s : State) (f g : Fld) (i j v : Nat) (ne : g.reg.key j ≠ f.reg.key i) : fg (fs s f i v) g j = fg s g j := by
  unfold fg fs; rw [rd_wr_other _ _ _ _ _ _ ne]

theorem wr_regsKept (s : State) (r : Reg) (i : Nat) (v : Word) : RegsKept s (wr s r i v) [(r, i)] := by
  intro k hk; unfold wr; exact sget_sset_other _ _ _ _ (hk (r, i) (by simp))

theorem fs_regsKept (s : State) (f : Fld) (i v : Nat) : RegsKept s (fs s f i v) [(f.reg, i)] := wr_regsKept s f.reg i _

theorem bump_regsKept (s : State) (f : Fld) (i n : Nat) : RegsKept s (bump s f i n) [(f.reg, i)] := fs_regsKept s f i _

theorem wr_wf (s : State) (r : Reg) (i : Nat) (v : Word) (h : Registers.wf s = true) : Registers.wf (wr s r i v) = true :=
  swf_sset regReset s.regs (r.key i) v h

theorem fs_wf (s : State) (f : Fld) (i v : Nat) (h : Registers.wf s = true) : Registers.wf (fs s f i v) = true := wr_wf s f.reg i _ h

theorem bump_wf (s : State) (f : Fld) (i n : Nat) (h : Registers.wf s = true) : Registers.wf (bump s f i n) = true := fs_wf s f i _ h

end Sys2Proof.Machine
end

