-- ==== Sys2Proof/Laws/Memory.lean ====
section
/-!
SUPPORT. Memory: what a byte reads as after a write, and that every operation on memory keeps its canonical form.
-/

namespace Sys2Proof.Machine

/-! ### Reading after writing -/

theorem sget_append_right {α : Type} (e : α) (m n : SMap α) (k : Nat) (out : ∀ p ∈ m, p.1 ≠ k) : sget e (m ++ n) k = sget e n k := by
  induction m with
  | nil => rfl
  | cons p m ih =>
    have hp : k ≠ p.1 := fun x => out p (by simp) x.symm
    simp [sget, hp, ih (fun q hq => out q (by simp [hq]))]

theorem cellsOf_range (d : Nat → Byte) (a : Nat) (bs : List Byte) : ∀ p ∈ cellsOf d a bs, a ≤ p.1 ∧ p.1 < a + bs.length := by
  induction bs generalizing a with
  | nil => simp [cellsOf]
  | cons b bs ih =>
    intro p hp
    have step : p ∈ cellsOf d (a + 1) bs → a ≤ p.1 ∧ p.1 < a + (b :: bs).length := by
      intro h; have := ih (a + 1) p h; simp at *; omega
    by_cases h : b = d a
    · simp [cellsOf, h] at hp; simpa using step hp
    · simp [cellsOf, h] at hp
      rcases hp with rfl | hp
      · simp
      · exact step hp

theorem sget_cellsOf (d : Nat → Byte) (a : Nat) (bs : List Byte) (n : SMap Byte) (i : Nat) (h : i < bs.length)
    (out : ∀ p ∈ n, p.1 ≠ a + i) : sget (d (a + i)) (cellsOf d a bs ++ n) (a + i) = bs[i] := by
  induction bs generalizing a i with
  | nil => simp at h
  | cons b bs ih =>
    cases i with
    | zero =>
      by_cases e : b = d a
      · have o : ∀ p ∈ cellsOf d (a + 1) bs, p.1 ≠ a := fun p hp => by have := cellsOf_range d (a + 1) bs p hp; omega
        have z : sget (d a) n a = d a := by
          have : ∀ p ∈ n, p.1 ≠ a := by simpa using out
          simpa using sget_append_right (d a) n [] a this
        simp [cellsOf, e, sget_append_right _ _ _ _ o, z]
      · simp [cellsOf, e, sget]
    | succ i =>
      have e : a + (i + 1) = a + 1 + i := by omega
      have := ih (a + 1) i (by simpa using h) (by rw [← e]; exact out)
      rw [e]
      by_cases g : b = d a
      · rw [show cellsOf d a (b :: bs) = cellsOf d (a + 1) bs from by simp [cellsOf, g]]; exact this
      · have ne : a + 1 + i ≠ a := by omega
        simpa [cellsOf, g, sget, ne] using this

/-- A byte inside a write reads as the byte written. -/
theorem readByte_memWrite_in (s : State) (a : Nat) (bs : List Byte) (i : Nat) (h : i < bs.length) :
    readByte (memWrite s a bs) (a + i) = bs[i] := by
  unfold readByte memWrite writeBytes
  simp only [List.append_assoc]
  rw [sget_append_right]
  · exact sget_cellsOf _ a bs _ i h (by simp; omega)
  · simp; omega

/-- A byte outside a write reads as before. -/
theorem readByte_memWrite_out (s : State) (a : Nat) (bs : List Byte) (k : Nat) (h : k < a ∨ a + bs.length ≤ k) :
    readByte (memWrite s a bs) k = readByte s k := by
  unfold readByte memWrite writeBytes
  simp only [List.append_assoc]
  have mid : ∀ p ∈ cellsOf (memDefault s.boot) a bs, p.1 ≠ k := fun p hp => by
    have := cellsOf_range (memDefault s.boot) a bs p hp; omega
  generalize cellsOf (memDefault s.boot) a bs = c at *
  rcases h with h | h
  · have back : sget (memDefault s.boot k) (c ++ s.mem.filter (fun p => a + bs.length ≤ p.1)) k = memDefault s.boot k := by
      rw [sget_append_right _ _ _ _ mid]
      exact sget_filter_drop _ _ _ _ (by simp; omega)
    have front : sget (memDefault s.boot k) (s.mem.filter (fun p => p.1 < a)) k = sget (memDefault s.boot k) s.mem k :=
      sget_filter _ _ _ _ (by simp [h])
    rw [← front]
    generalize s.mem.filter (fun p => decide (p.1 < a)) = m
    revert back
    generalize c ++ s.mem.filter (fun p => decide (a + bs.length ≤ p.1)) = n
    intro back
    induction m with
    | nil => simpa using back
    | cons p m ih =>
      obtain ⟨j, w⟩ := p
      simp only [List.cons_append, sget_cons]
      split
      · rfl
      · exact ih
  · rw [sget_append_right _ _ _ _ (by simp; omega), sget_append_right _ _ _ _ mid]
    exact sget_filter _ _ _ _ (by simp [h])

theorem memWrite_memKept (s : State) (a : Nat) (bs : List Byte) : MemKept s (memWrite s a bs) a bs.length :=
  fun k h => readByte_memWrite_out s a bs k h

theorem memKept_of_mem (s t : State) (a n : Nat) (m : t.mem = s.mem) (b : t.boot = s.boot) : MemKept s t a n := by
  intro k _; unfold readByte; rw [m, b]

/-! ### The canonical form -/

theorem cellsOf_wf (d : Nat → Byte) (a : Nat) (bs : List Byte) : swfFrom d a (cellsOf d a bs) = true := by
  induction bs generalizing a with
  | nil => rfl
  | cons b bs ih =>
    by_cases h : b = d a
    · rw [show cellsOf d a (b :: bs) = cellsOf d (a + 1) bs from by simp [cellsOf, h]]
      exact swfFrom_mono d _ (by omega) (ih (a + 1))
    · rw [show cellsOf d a (b :: bs) = (a, b) :: cellsOf d (a + 1) bs from by simp [cellsOf, h]]
      simp [swfFrom, h, ih (a + 1)]

theorem writeBytes_wf (d : Nat → Byte) (m : SMap Byte) (a : Nat) (bs : List Byte) (h : swf d m = true) :
    swf d (writeBytes d m a bs) = true := by
  unfold swf writeBytes at *
  rw [List.append_assoc]
  refine swfFrom_append d _ _ 0 a (by omega) (by simp) (swfFrom_filter d _ m 0 h) ?_
  refine swfFrom_append d _ _ a (a + bs.length) (by omega) (fun p hp => (cellsOf_range d a bs p hp).2) (cellsOf_wf d a bs) ?_
  exact swfFrom_above d m 0 (a + bs.length) _ (by simp) h

/-- A write of bytes keeps the canonical form. -/
theorem memWrite_wf (s : State) (a : Nat) (bs : List Byte) (h : Memory.wf s = true) : Memory.wf (memWrite s a bs) = true :=
  writeBytes_wf (memDefault s.boot) s.mem a bs h

/-- Zeros in a run of memory keep the canonical form. -/
theorem zeroRange_wf (s : State) (lo hi : Nat) (h : Memory.wf s = true) : Memory.wf (zeroRange s lo hi) = true :=
  swf_sdropRange (memDefault s.boot) s.mem lo hi h

/-- Zeros in the banks of a ward's store keep the canonical form. -/
theorem zeroBanks_wf (s : State) (w keep : Nat) (h : Memory.wf s = true) : Memory.wf (zeroBanks s w keep) = true := by
  unfold zeroBanks
  generalize below 12 = bs
  induction bs generalizing s with
  | nil => exact h
  | cons b bs ih =>
    simp only [List.foldl_cons]
    apply ih
    split
    · exact h
    · exact swf_sdropRange (memDefault s.boot) s.mem _ _ h

/-- Where the boot stage's bytes are what an unlisted byte reads as, memory without its run is canonical either way. -/
theorem swf_boot (m : SMap Byte) (b b' : Bool) (h : swf (memDefault b) m = true) (out : ∀ p ∈ m, p.1 < bootBase ∨ bootBase + bootSize ≤ p.1) :
    swf (memDefault b') m = true := by
  unfold swf at *
  generalize (0 : Nat) = lo at *
  induction m generalizing lo with
  | nil => rfl
  | cons p m ih =>
    obtain ⟨k, v⟩ := p
    have o := out (k, v) (by simp)
    have e : ∀ c : Bool, memDefault c k = 0 := by
      intro c; unfold memDefault; simp only [Bool.and_eq_true, decide_eq_true_eq]; rw [if_neg]; simp at o; omega
    simp only [swfFrom, Bool.and_eq_true, decide_eq_true_eq] at *
    refine ⟨⟨h.1.1, ?_⟩, ih (fun p hp => out p (by simp [hp])) (k + 1) h.2⟩
    rw [e b']; rw [e b] at h; exact h.1.2

/-- The boot stage's copy into Tier 1 keeps the canonical form. -/
theorem handoffMemory_wf (s : State) (b : Bool) (h : Memory.wf s = true) :
    swf (memDefault b) (sdropRange bootBase (bootBase + bootSize) s.mem) = true := by
  refine swf_boot _ s.boot b (swf_sdropRange _ _ _ _ h) ?_
  intro p hp
  simp [sdropRange] at hp
  omega

end Sys2Proof.Machine
end

