-- ==== Sys2Proof/WellFormed.lean ====
section
/-!
DEFINITION. The commands whose operands name something that the module has: its logical wards (80 at most), streams, queues, flags, physical
wards, ports, stacks, harts and the like, with fields no wider than the manual gives them. A command that fails these checks stands for no
event of the machine; its meaning is total all the same.
-/

namespace Sys2Proof

/-- A block's fields fit their places in a link block (12, R301), with at most 256 bytes of payload. -/
def RxBlock.wf (b : RxBlock) : Bool :=
  b.port < 28 && b.seq < 2 ^ 20 && b.ack.all (· < 2 ^ 20) && b.dst < 2 ^ 16 && b.src < 2 ^ 16 && b.slice < 2 ^ 12 &&
  b.reason < 16 && b.tid < 2 ^ 16 && b.offset < 2 ^ 48 && b.side < 2 ^ 32 && b.payload.length ≤ 256

/-- The wards that a microsecond of the fast loop names exist (16, R392). -/
def FastIn.wf (x : FastIn) : Bool :=
  x.acts.all (fun a => a.ward < 100 && a.kind < 9 && a.classF ≤ a.total) && x.rails.length ≤ 7 &&
  x.withheld.all (fun u => u.1 < 80) && x.lifted.all (· < 80) && x.capped.all (fun u => u.1 < 80)

/-- Twenty stacks and twenty districts of five sensors, each sample of 12 bits (16, R404). -/
def ThermIn.wf (x : ThermIn) : Bool :=
  x.pairs.length == 20 && x.dies.length == 20 && x.pairs.all (fun u => u.1 < 4096 && u.2 < 4096) &&
  x.dies.all (fun d => d.length == 5 && d.all (· < 4096))

/-- A finding names a district, one of its five positions or a context bank, a unit code of the failure record and its result (20, R493). -/
def Finding.wf (f : Finding) : Bool := f.district < 20 && f.unit ≤ 10 && (f.result == 1 || f.result == 2)

/-- A finding of the media is of a read, a program or an erase, and at most 15 pages rebuild a page (14, R338, R339). -/
def FlashEvt.wf (e : FlashEvt) : Bool := e.op < 3 && e.peers ≤ 15

/-- A hart is one of 32, its access one of 1 to 8 bytes, and a PCIe access goes to one of three windows (19, R474, R486). -/
def HostOp.wf : HostOp → Bool
  | .load hart rd _ n _ _ => hart < 32 && rd < 32 && [1, 2, 4, 8].contains n
  | .store hart _ n _ _ => hart < 32 && [1, 2, 4, 8].contains n
  | .loadReserved hart rd _ n _ => hart < 32 && rd < 32 && [4, 8].contains n
  | .storeConditional hart rd _ n _ _ => hart < 32 && rd < 32 && [4, 8].contains n
  | .fence hart => hart < 32
  | .visible hart _ => hart < 32
  | .evict hart _ => hart < 32
  | .cacheError hart _ _ => hart < 32
  | .pcieRead window _ _ _ => window < 3
  | .pcieWrite window _ _ _ => window < 3

/-- The operands of a command lie in their ranges. -/
def Instr.wf : Instr → Bool
  | .coldStart board loop => board < 32 && loop ≤ 1
  | .bringupStageDone stage _ _ => 1 ≤ stage && stage ≤ 12
  | .wardSelfTestEnd findings => findings.all Finding.wf
  | .warmReset => true
  | .vbusStop => true
  | .vbusLow _ => true
  | .pfwAssert _ => true
  | .pfwRelease => true
  | .coreCurrentLimit => true
  | .coreConverterShutdown _ => true
  | .phaseFail pw phase => pw < 100 && phase < 9
  | .sparePhaseSwapEnd pw => pw < 100
  | .regulatorFail pw => pw < 100
  | .squareRegulatorFail district reg => district < 20 && reg < 2
  | .wardDark ward cause => ward < 80 && 1 ≤ cause && cause ≤ 3
  | .refclkLoss => true
  | .refclkReturn => true
  | .droopStretch region _ => region < 100
  | .crossingSlip region _ _ => region < 100
  | .crossingRecentre _ _ => true
  | .crossingRecal district _ _ => district < 20
  | .tier1Refresh stack => stack < 20
  | .framePulse _ => true
  | .frameWord word => word < 2 ^ 64
  | .frameLoss => true
  | .frameSynth => true
  | .fastLoop x => x.wf
  | .thermalSample x => x.wf
  | .coolantStop => true
  | .voteChange domain _ => domain ≤ 100
  | .streamVoteHoldExpiry m => m < 640
  | .wardStateEntry pw => pw < 100
  | .entryClampsEngaged pw => pw < 100
  | .wakeAdmit pw _ _ => pw < 100
  | .wakeRetry pw _ _ => pw < 100
  | .wakeStageEnd pw grid => pw < 100 && grid ≤ 1
  | .wakeZeroFillEnd pw => pw < 100
  | .standbyEntry event => event.all (fun e => e.2 < 16)
  | .standbyWake findings => findings.all Finding.wf
  | .commandLoad m _ => m < 640
  | .commandIssue m => m < 640
  | .commandComplete m _ => m < 640
  | .tileVisible n => n < 5120
  | .waitUnitBoundary ward _ => ward < 80
  | .spillHandover ward me _ => ward < 80 && me < 4
  | .moveIn ward unit _ => ward < 80 && unit < 2
  | .moveOut ward unit _ => ward < 80 && unit < 2
  | .moveCopy ward unit _ => ward < 80 && unit < 2
  | .mma ward me _ => ward < 80 && me < 4
  | .mmaWg ward me _ => ward < 80 && me < 4
  | .vop ward _ => ward < 80
  | .factoredApply ward _ => ward < 80
  | .elementwiseApply ward _ => ward < 80
  | .columnEmit ward _ => ward < 80
  | .columnFinish ward _ => ward < 80
  | .fold ward unit _ => ward < 80 && unit < 2
  | .quant ward _ => ward < 80
  | .send ward unit _ => ward < 80 && unit < 2
  | .sendTileTransmit ward unit => ward < 80 && unit < 2
  | .reduce ward _ => ward < 80
  | .publish ward unit _ => ward < 80 && unit < 2
  | .journal ward unit _ => ward < 80 && unit < 2
  | .journalCommit media => media.all FlashEvt.wf
  | .journalCommitTimeout media => media.all FlashEvt.wf
  | .imageBegin ward unit => ward < 80 && unit < 2
  | .imageRange ward unit => ward < 80 && unit < 2
  | .imageModule ward unit => ward < 80 && unit < 2
  | .imageClose ward unit => ward < 80 && unit < 2
  | .imageTrim ward unit => ward < 80 && unit < 2
  | .wait m => m < 640
  | .signal m => m < 640
  | .hint m => m < 640
  | .mark m => m < 640
  | .fadd ward d a b => ward < 80 && d < 64 && a < 64 && b < 64
  | .fsub ward d a b => ward < 80 && d < 64 && a < 64 && b < 64
  | .fmul ward d a b => ward < 80 && d < 64 && a < 64 && b < 64
  | .ffma ward d a b c => ward < 80 && d < 64 && a < 64 && b < 64 && c < 64
  | .fmin ward d a b => ward < 80 && d < 64 && a < 64 && b < 64
  | .fmax ward d a b => ward < 80 && d < 64 && a < 64 && b < 64
  | .fsqrt ward d a => ward < 80 && d < 64 && a < 64
  | .fcmp ward d a b m => ward < 80 && d < 64 && a < 64 && b < 64 && m < 256
  | .fsel ward d a b c => ward < 80 && d < 64 && a < 64 && b < 64 && c < 64
  | .cvt ward d a m => ward < 80 && d < 64 && a < 64 && m < 256
  | .vint ward d a b m => ward < 80 && d < 64 && a < 64 && b < 64 && m < 256
  | .badd ward d a b => ward < 80 && d < 64 && a < 64 && b < 64
  | .bmul ward d a b => ward < 80 && d < 64 && a < 64 && b < 64
  | .bfma ward d a b c => ward < 80 && d < 64 && a < 64 && b < 64 && c < 64
  | .tlu ward d a k => ward < 80 && d < 64 && a < 64 && k < 2 ^ 24
  | .scalb ward d a b => ward < 80 && d < 64 && a < 64 && b < 64
  | .frexp ward d a => ward < 80 && d < 64 && a < 64
  | .rsum ward d a => ward < 80 && d < 64 && a < 64
  | .rmax ward d a => ward < 80 && d < 64 && a < 64
  | .ridx ward d a => ward < 80 && d < 64 && a < 64
  | .ldt ward d a m k _ => ward < 80 && d < 64 && a < 64 && m < 256 && k < 2 ^ 24
  | .ldr ward d a m k _ => ward < 80 && d < 64 && a < 64 && m < 256 && k < 2 ^ 24
  | .stt ward a b m => ward < 80 && a < 64 && b < 64 && m < 256
  | .push ward m => ward < 80 && m < 256
  | .ldh ward d b m k => ward < 80 && d < 64 && b < 64 && m < 256 && k < 2 ^ 24
  | .xalu ward d a b m => ward < 80 && d < 64 && a < 64 && b < 64 && m < 256
  | .xldp ward d k => ward < 80 && d < 64 && k < 2 ^ 24
  | .br ward a b m k => ward < 80 && a < 64 && b < 64 && m < 256 && k < 2 ^ 24
  | .endKernel ward => ward < 80
  | .kerf ward d a b c => ward < 80 && d < 64 && a < 64 && b < 64 && c < 64
  | .faultSettle m => m < 640
  | .waitTimeout m => m < 640
  | .quiescenceStall => true
  | .abortAccept m => m < 640
  | .abortSettle m => m < 640
  | .abortForce m => m < 640
  | .shadowSample _ _ _ => true
  | .patrolScrub store _ _ _ _ _ _ => 1 ≤ store && store ≤ 11
  | .t2Retrain device _ => device < 32
  | .imageStreaming _ _ _ _ media => media.all FlashEvt.wf
  | .imageCommit _ media => media.all FlashEvt.wf
  | .flashRefresh _ _ media => media.all FlashEvt.wf
  | .wearManagement _ _ media => media.all FlashEvt.wf
  | .configRecordCommit _ media => media.all FlashEvt.wf
  | .flagWatchFire k => k < 256
  | .doorbellWrite m avail before => m < 640 && avail < 2 ^ 32 && before.all HostOp.wf
  | .flagSignalWrite n inc before => n < 20480 && inc < 2 ^ 32 && before.all HostOp.wf
  | .streamEnable m _ => m < 640
  | .streamDisable m _ => m < 640
  | .queueEnable n _ => n < 5120
  | .queueDisable n _ => n < 5120
  | .alloc seq => seq < 2 ^ 32
  | .touch seq => seq < 2 ^ 32
  | .free seq => seq < 2 ^ 32
  | .unpinAll seq => seq < 2 ^ 32
  | .poolEnable _ => true
  | .slotOpen k _ => k < 16
  | .slotSeal k _ => k < 16
  | .slotClose k _ => k < 16
  | .kstoreDigestReq w => w < 80
  | .kstoreBroadcastWrite off _ => off < 0x40000 && off % 4 == 0
  | .collClear => true
  | .wardReset ward _ => ward < 80
  | .hartRelease _ => true
  | .hartStop hart => hart < 32
  | .hostPointWrite _ => true
  | .mailboxGo _ => true
  | .mailboxRelease => true
  | .pcieModeWrite _ => true
  | .perstDeassert => true
  | .registerWrite offset _ before => offset < 2 ^ 26 && offset % 4 == 0 && before.all HostOp.wf
  | .atomicAdd src rd _ fmt v _ => src ≤ 33 && rd < 32 && fmt ≤ 5 && v < 2 ^ 64
  | .atomicMax src rd _ fmt v _ => src ≤ 33 && rd < 32 && fmt ≤ 5 && v < 2 ^ 64
  | .atomicMin src rd _ fmt v _ => src ≤ 33 && rd < 32 && fmt ≤ 5 && v < 2 ^ 64
  | .atomicSwap src rd _ fmt v _ => src ≤ 33 && rd < 32 && fmt ≤ 5 && v < 2 ^ 64
  | .atomicCas src rd _ fmt v cmp _ => src ≤ 33 && rd < 32 && fmt ≤ 5 && v < 2 ^ 64 && cmp < 2 ^ 64
  | .amofaddS hart rd _ v _ => hart < 32 && rd < 32 && v < 2 ^ 64
  | .amofaddB hart rd _ v _ => hart < 32 && rd < 32 && v < 2 ^ 64
  | .amofmax hart rd _ v half _ => hart < 32 && rd < 32 && v < 2 ^ 64 && half ≤ 1
  | .amofmin hart rd _ v half _ => hart < 32 && rd < 32 && v < 2 ^ 64 && half ≤ 1
  | .nvmeIdentify queue _ _ => queue ≤ 32
  | .nvmeCreateIoQueue queue => queue ≤ 32
  | .nvmeDeleteIoQueue queue => queue ≤ 32
  | .nvmeGetLogPage queue _ => queue ≤ 32
  | .nvmeRead queue _ _ _ _ media => queue ≤ 32 && media.all FlashEvt.wf
  | .nvmeWrite queue _ _ _ _ media => queue ≤ 32 && media.all FlashEvt.wf
  | .nvmeFlush queue => queue ≤ 32
  | .nvmeDatasetManagement queue _ _ => queue ≤ 32
  | .idle b => b.wf
  | .write b _ => b.wf
  | .readReq b _ _ => b.wf
  | .readData b => b.wf
  | .completion b => b.wf
  | .release b => b.wf
  | .signalBlock b => b.wf
  | .sendData b total => b.wf && 16 ≤ total
  | .arrivalDrain n _ => n < 5120
  | .retryReq b => b.wf
  | .hello b => b.wf
  | .laneSwap b wave => b.wf && wave < 9
  | .switch b => b.wf
  | .linkBlockReject p bytes _ _ => p < 28 && bytes.length ≤ 288
  | .wavelengthFail p wave _ => p < 28 && wave < 9
  | .ackTimeout p => p < 28
  | .portRetrain p _ => p < 28
  | .e2eTimeout tid chip => tid < 2 ^ 16 && chip < 2 ^ 16
  | .portTrainingEnd p lanes => p < 28 && lanes < 512
  | .helloTimeout p => p < 28
  | .switchTimeout p => p < 28
  | .darkPortRetry p _ => p < 28
  | .presenceAssert => true
  | .presenceWindowClose => true
  | .sealCheck loop => loop ≤ 1
  | .setEndpointId transport _ operation eid => transport ≤ 1 && operation < 256 && eid < 256
  | .getEndpointId transport _ => transport ≤ 1
  | .getMctpVersionSupport transport _ ty => transport ≤ 1 && ty < 256
  | .getMessageTypeSupport transport _ => transport ≤ 1
  | .arpRequest peer mac target => peer < 2 ^ 32 && mac < 2 ^ 48 && target < 2 ^ 32
  | .icmpEcho peer target _ => peer < 2 ^ 32 && target < 2 ^ 32
  | .getIdentity transport _ packet => transport ≤ 3 && packet.length ≤ 4120
  | .getVersions transport _ packet => transport ≤ 3 && packet.length ≤ 4120
  | .getStatus transport _ packet => transport ≤ 3 && packet.length ≤ 4120
  | .cfgRead transport _ packet => transport ≤ 3 && packet.length ≤ 4120
  | .cfgWrite transport _ packet => transport ≤ 3 && packet.length ≤ 4120
  | .cfgRestore transport _ packet => transport ≤ 3 && packet.length ≤ 4120
  | .ovlApply transport _ packet => transport ≤ 3 && packet.length ≤ 4120
  | .pwrRead transport _ packet => transport ≤ 3 && packet.length ≤ 4120
  | .pwrCtrlWrite transport _ packet => transport ≤ 3 && packet.length ≤ 4120
  | .budgetWrite transport _ packet => transport ≤ 3 && packet.length ≤ 4120
  | .jobAssign transport _ packet => transport ≤ 3 && packet.length ≤ 4120
  | .jobUnassign transport _ packet => transport ≤ 3 && packet.length ≤ 4120
  | .energyRead transport _ packet => transport ≤ 3 && packet.length ≤ 4120
  | .eventRead transport _ packet => transport ≤ 3 && packet.length ≤ 4120
  | .eventAck transport _ packet => transport ≤ 3 && packet.length ≤ 4120
  | .countersRead transport _ packet => transport ≤ 3 && packet.length ≤ 4120
  | .fabAssign transport _ packet => transport ≤ 3 && packet.length ≤ 4120
  | .routeWrite transport _ packet => transport ≤ 3 && packet.length ≤ 4120
  | .routeRead transport _ packet => transport ≤ 3 && packet.length ≤ 4120
  | .nbrRead transport _ packet => transport ≤ 3 && packet.length ≤ 4120
  | .portReset transport _ packet => transport ≤ 3 && packet.length ≤ 4120
  | .portV2Slice transport _ packet => transport ≤ 3 && packet.length ≤ 4120
  | .streamAbort transport _ packet => transport ≤ 3 && packet.length ≤ 4120
  | .streamRead transport _ packet => transport ≤ 3 && packet.length ≤ 4120
  | .abortAll transport _ packet => transport ≤ 3 && packet.length ≤ 4120
  | .jnlStatusRead transport _ packet => transport ≤ 3 && packet.length ≤ 4120
  | .jnlRead transport _ packet => transport ≤ 3 && packet.length ≤ 4120
  | .imgRestore transport _ packet => transport ≤ 3 && packet.length ≤ 4120
  | .longOpComplete _ media => media.all FlashEvt.wf
  | .fwStageBegin transport _ packet => transport ≤ 3 && packet.length ≤ 4120
  | .fwStageData transport _ packet => transport ≤ 3 && packet.length ≤ 4120
  | .fwStageEnd transport _ packet => transport ≤ 3 && packet.length ≤ 4120
  | .fwActivate transport _ packet => transport ≤ 3 && packet.length ≤ 4120
  | .fwPolicy transport _ packet => transport ≤ 3 && packet.length ≤ 4120
  | .secRead transport _ packet => transport ≤ 3 && packet.length ≤ 4120
  | .keyProvision transport _ packet => transport ≤ 3 && packet.length ≤ 4120
  | .sealRearm transport _ packet => transport ≤ 3 && packet.length ≤ 4120
  | .debugUnlock transport _ packet => transport ≤ 3 && packet.length ≤ 4120
  | .secureErase transport _ packet => transport ≤ 3 && packet.length ≤ 4120
  | .moduleReset transport _ packet => transport ≤ 3 && packet.length ≤ 4120
  | .selfTest transport _ packet => transport ≤ 3 && packet.length ≤ 4120
  | .failRead transport _ packet => transport ≤ 3 && packet.length ≤ 4120
  | .prepareReturn transport _ packet => transport ≤ 3 && packet.length ≤ 4120
  | .regRead transport _ packet => transport ≤ 3 && packet.length ≤ 4120
  | .regWrite transport _ packet => transport ≤ 3 && packet.length ≤ 4120
  | .vfSlewEnd => true
  | .hostPointChangeEnd => true
  | .wardEntryComplete pw => pw < 100
  | .napExitComplete pw => pw < 100
  | .resetRelease => true
  | .presenceDeassert => true
  | .perstAssert => true
  | .pcieLinkUp => true
  | .packetReject transport _ _ => transport ≤ 3
  | .alertResponseAddress => true
  | .makerTestModeEntry => true
  | .calibration kind _ _ _ _ _ _ => kind ≤ 4
  | .tier2Refresh device => device < 32
  | .kstoreDigestDone w => w < 80
  | .busConverterLimit => true
  | .wardResetComplete ward findings => ward < 80 && findings.all Finding.wf

end Sys2Proof
end

