-- ==== Sys2Proof/Tests/Slice0.lean ====
section
/-!
SUPPORT. Small checks of the model: ill-formed commands that the check refuses, single steps on small states, and for every statement with
hypotheses a state and operands that meet them.
-/

namespace Sys2Proof.Machine

set_option maxRecDepth 20000

/-- A module with four logical wards in every district, nothing else set. -/
def fourWards : State := (below 20).foldl (fun s d => fs s PWR_SREG_LOGICAL d 4) {}

/-- A physical ward put into a state. -/
def withPward (p : Nat) (x : PWard) : State := setPward fourWards p x

/-- A module of chip 5 in slice 9 whose port 0 carries transactions and whose route to chip 6 is open. -/
def onFabric : State :=
  let s := fs (fs (fs fourWards FAB_CHIP_VALID 0 1) FAB_CHIP_CHIP 0 5) FAB_SLICE_ID 0 9
  fs (fs (fs (setPortState s 0 3) FAB_ROUTE_VALID 6 1) FAB_ROUTE_ALLOW 6 1) FAB_ROUTE_PORTS 6 1

/-- An arrival queue of two slots of a tile's least size on ward 0, queue 0, with one rank and a window of two rounds. -/
def withArrival (s : State) : State :=
  let s1 := fs (fs (fs s WARD_QCFG_EN 0 1) WARD_QCFG_DEPTH 0 2) WARD_QCFG_SLOT 0 1
  fs (fs (fs s1 WARD_QBIND_PROD_WARD 0 0xFE) WARD_QARR_CFG_NRANK 0 1) WARD_QARR_CFG_WINDOW 0 2

/-- Ward 0's VE at an instruction word: a VOP of one iteration whose invocation stands at the first word of the user region. -/
def veAtWord (word : Nat) : State :=
  let c : Cmd := { w0 := 0x10, desc := [0x11000000, 0, 0, 0, 0, 0x100000000], phase := .issued }
  let s := setStream { fourWards with engines := [(4, [(0, 0)])] } 0 { st := .enabled, cmds := [c] }
  setVe (memWrite s (kstoreKey 0 0x10000) (toBytesLE 8 word)) 0 { active := true, pc := 0x2000 }

/-- Each check of a command's operands refuses an operand just past its range. -/
theorem test_ill_formed_commands :
    [Instr.coldStart 32 1, .coldStart 0 2, .bringupStageDone 0 0 [], .bringupStageDone 13 0 [], .wardSelfTestEnd [⟨20, 0, 0, 1, 0⟩],
     .wardSelfTestEnd [⟨0, 0, 11, 1, 0⟩], .wardSelfTestEnd [⟨0, 0, 0, 3, 0⟩], .phaseFail 100 0, .phaseFail 0 9, .squareRegulatorFail 20 0,
     .squareRegulatorFail 0 2, .wardDark 80 1, .wardDark 0 0, .wardDark 0 4, .droopStretch 100 1, .tier1Refresh 20, .frameWord (2 ^ 64),
     .voteChange 101 0, .standbyEntry (some (true, 16)), .streamVoteHoldExpiry 640, .wakeStageEnd 0 2, .tileVisible 5120, .mma 0 4 .none,
     .moveIn 0 2 .none, .fadd 0 64 0 0, .fadd 0 0 64 0, .fadd 0 0 0 64, .ffma 0 0 0 0 64, .cvt 0 0 0 256, .tlu 0 0 0 (2 ^ 24),
     .patrolScrub 0 0 0 0 0 0 0, .patrolScrub 12 0 0 0 0 0 0, .t2Retrain 32 0, .imageCommit 0 [⟨true, 0, 3, false, false, 0, 0, .none⟩],
     .imageCommit 0 [⟨true, 0, 0, false, true, 16, 0, .none⟩], .calibration 5 0 0 0 0 0 .none].all (fun i => !i.wf) = true := by decide

theorem test_ill_formed_host_commands :
    let none' : Word := 0
    [Instr.flagWatchFire 256, .doorbellWrite 0 (2 ^ 32) [], .doorbellWrite 0 0 [.fence 32], .flagSignalWrite 20480 1 [], .flagSignalWrite 0 (2 ^ 32) [],
     .queueEnable 5120 none', .alloc (2 ^ 32), .slotOpen 16 none', .kstoreDigestReq 80, .kstoreBroadcastWrite 0x40000 none', .kstoreBroadcastWrite 2 none',
     .hartStop 32, .registerWrite (2 ^ 26) none' [], .registerWrite 1 none' [], .registerWrite 0 none' [.load 0 32 0 4 true .none],
     .registerWrite 0 none' [.store 0 0 3 0 .none], .registerWrite 0 none' [.loadReserved 0 0 0 2 .none], .registerWrite 0 none' [.pcieRead 3 0 4 .none],
     .atomicAdd 34 0 0 0 0 .none, .atomicAdd 0 32 0 0 0 .none, .atomicAdd 0 0 0 6 0 .none, .atomicAdd 0 0 0 0 (2 ^ 64) .none,
     .atomicCas 0 0 0 0 0 (2 ^ 64) .none, .amofmax 0 0 0 0 2 .none, .nvmeFlush 33].all (fun i => !i.wf) = true := by decide

theorem test_ill_formed_link_and_packet_commands :
    [Instr.linkBlockReject 28 [] false 0, .linkBlockReject 0 (List.replicate 289 0) false 0, .wavelengthFail 0 9 0, .e2eTimeout (2 ^ 16) 0,
     .e2eTimeout 0 (2 ^ 16), .portTrainingEnd 0 512, .setEndpointId 2 0 0 1, .setEndpointId 0 0 256 1, .setEndpointId 0 0 0 256,
     .getMctpVersionSupport 0 0 256, .arpRequest (2 ^ 32) 0 0, .arpRequest 0 (2 ^ 48) 0, .arpRequest 0 0 (2 ^ 32), .getStatus 4 0 []].all
      (fun i => !i.wf) = true ∧
    [({ port := 28, seq := 0, ack := none } : RxBlock), { port := 0, seq := 2 ^ 20, ack := none }, { port := 0, seq := 0, ack := some (2 ^ 20) },
     { port := 0, seq := 0, ack := none, dst := 2 ^ 16 }, { port := 0, seq := 0, ack := none, src := 2 ^ 16 }, { port := 0, seq := 0, ack := none, slice := 4096 },
     { port := 0, seq := 0, ack := none, reason := 16 }, { port := 0, seq := 0, ack := none, tid := 2 ^ 16 }, { port := 0, seq := 0, ack := none, offset := 2 ^ 48 },
     { port := 0, seq := 0, ack := none, side := 2 ^ 32 }, { port := 0, seq := 0, ack := none, payload := List.replicate 257 0 }].all
      (fun b => !(Instr.write b .none).wf) = true ∧
    (Instr.sendData { port := 0, seq := 0, ack := none } 15).wf = false ∧ (Instr.getStatus 0 0 (List.replicate 4121 0)).wf = false ∧
    [({ meas := 0, vin := 0, lifted := [80] } : FastIn), { meas := 0, vin := 0, acts := [⟨100, 0, 0, 0⟩] }, { meas := 0, vin := 0, acts := [⟨0, 9, 0, 0⟩] },
     { meas := 0, vin := 0, acts := [⟨0, 0, 1, 2⟩] }, { meas := 0, vin := 0, rails := [0, 0, 0, 0, 0, 0, 0, 0] },
     { meas := 0, vin := 0, withheld := [(80, 0, 0)] }, { meas := 0, vin := 0, capped := [(80, 0)] }].all (fun x => !(Instr.fastLoop x).wf) = true ∧
    (Instr.thermalSample { pairs := [], dies := [] }).wf = false := by decide

/-- Well-formed commands at the ends of their ranges. -/
theorem test_well_formed_commands :
    [Instr.coldStart 31 1, .bringupStageDone 12 0 [], .phaseFail 99 8, .mma 79 3 .none, .fadd 79 63 63 63, .tlu 0 0 0 (2 ^ 24 - 1),
     .flagSignalWrite 20479 1 [.visible 31 0], .registerWrite (2 ^ 26 - 4) 0 [], .write { port := 27, seq := 2 ^ 20 - 1, ack := some (2 ^ 20 - 1) } .none,
     .getStatus 3 0 [], .imageCommit 0 [⟨true, 0, 2, false, true, 15, 0, .none⟩],
     .thermalSample { pairs := List.replicate 20 (0, 4095), dies := List.replicate 20 [0, 0, 0, 0, 4095] }].all Instr.wf = true := by decide

/-- The opcode table gives no row any bits, so no word spells a command. -/
theorem test_words_spell_no_command : decodeTableWord 64 0xFFFFFFFFFFFFFFFF = none := by decide

/-- States and operands that meet the hypotheses of StepPerformsTheFrontCommand, clause by clause. -/
theorem test_StepPerformsTheFrontCommand_witness : (State.reset).pending = [] := rfl

/-- States and operands that meet the hypotheses of MemoryAndRegistersStayCanonical, clause by clause. -/
theorem test_MemoryAndRegistersStayCanonical_witness : Memory.wf fourWards = true ∧ Registers.wf fourWards = true ∧
    step fourWards = .next fourWards := ⟨by decide, by decide, rfl⟩

/-- States and operands that meet the hypotheses of FusesAreOnlyBurned, clause by clause. -/
theorem test_FusesAreOnlyBurned_witness : fourWards.fuses.sealTrips ≤ 15 ∧ exec .resetRelease fourWards = .next { fourWards with mc := { fourWards.mc with held := false } } :=
  ⟨by decide, rfl⟩

/-- States and operands that meet the hypotheses of RecordsStayWithinTheirRings, clause by clause. -/
theorem test_RecordsStayWithinTheirRings_witness : fourWards.mc.events.length ≤ 1024 ∧ fourWards.store.fail.entries.length ≤ 64 ∧
    step fourWards = .next fourWards := ⟨by decide, by decide, rfl⟩

/-- States and operands that meet the hypotheses of WardEntriesAndRests, clause by clause. -/
theorem test_WardEntriesAndRests_witness :
    ((pward fourWards 4).enter = none ∧ (pward fourWards 4).stage = 0 ∧ (pward fourWards 4).wakeBy = none ∧
      (pward fourWards 4).napExit = false ∧ logicalAt fourWards 4 = none ∧ 2 ≤ (wardTarget fourWards 4).1 ∧
      (pward fourWards 4).st < (wardTarget fourWards 4).1) ∧
    ((pward (withPward 4 { enter := some 3 }) 4).enter = some 3) ∧
    ((pward (withPward 4 { enter := some 4, clamped := true }) 4).clamped = true) ∧
    ((pward (withPward 4 { napExit := true }) 4).napExit = true) ∧
    ((stream (setStream fourWards 3 { st := .faulted, vote := 1 }) 3).vote < wantedVote (setStream fourWards 3 { st := .faulted, vote := 1 }) 3) ∧
    ((pward (setStream (withPward 0 { st := 1 }) 0 { vote := 0 }) 0).st = 1 ∧
      (wardTarget (setStream (withPward 0 { st := 1 }) 0 { vote := 0 }) 0).1 = 0) := by decide

/-- States and operands that meet the hypotheses of WakesRunTheirStages, clause by clause. -/
theorem test_WakesRunTheirStages_witness :
    (let s := withPward 4 { st := 4, wakeBy := some 4, late := true }
     (pward s 4).wakeBy ≠ none ∧ (pward s 4).stage = 0 ∧ wakingIn s (4 / 5) = false ∧ fg s THM_STATUS_COOLANT_STOP 0 = 0 ∧
       s.pwr.slew = none ∧ 460 + 20 ≤ 480 ∧ 5980 + 20 * (wakesNow s + 1) ≤ 6000 ∧ (pward s 4).late = true) ∧
    (pward (withPward 4 { st := 4, stage := 3 }) 4).stage = 3 ∧
    (pward (withPward 4 { st := 4, stage := 4 }) 4).stage = 4 ∧
    ((pward (withPward 0 { st := 3, stage := 5, kept := 1 }) 0).stage = 5 ∧ logicalAt (withPward 0 { st := 3, stage := 5, kept := 1 }) 0 = some 0) := by
  decide

/-- States and operands that meet the hypotheses of FailuresOfRegulatorsAndWards, clause by clause. -/
theorem test_FailuresOfRegulatorsAndWards_witness :
    (pward fourWards 4).phases ≤ 2 ∧ 3 ≤ (pward (withPward 4 { phases := 3 }) 4).phases ∧ physFailed fourWards 0 = false ∧
    logicalAt fourWards 0 = some 0 ∧ (distOf fourWards 19).lostA = false ∧ (distOf fourWards 19).lostB = false ∧
    79 < wardCount fourWards ∧ isDark fourWards 79 = false ∧ (stream (setStream fourWards 639 { st := .enabled }) 639).st = .enabled := by decide

/-- States and operands that meet the hypotheses of PowerFailAndConverters, clause by clause. -/
theorem test_PowerFailAndConverters_witness :
    (let s : State := { fourWards with pwr := { warned := true } }
     s.pwr.warned = true ∧ fg s THM_STATUS_COOLANT_STOP 0 = 0 ∧ fg (fs s THM_STATUS_COOLANT_STOP 0 1) THM_STATUS_COOLANT_STOP 0 = 1) ∧
    fourWards.pwr.warned = false ∧ fourWards.flash.commits = [] ∧ fg fourWards JNL_STATUS_PFW_ACTIVE 0 = 0 ∧ fourWards.store.queue = [] ∧
    fourWards.store.compact = none ∧ Registers.wf fourWards = true ∧ fg fourWards THM_STATUS_COOLANT_STOP 0 = 0 := by decide

/-- States and operands that meet the hypotheses of WaitingWritesNameTheirRegisters, clause by clause. -/
theorem test_WaitingWritesNameTheirRegisters_witness : WaitingWrites fourWards ∧ step fourWards = .next fourWards :=
  ⟨⟨by intro x h; simp [show fourWards.pwr.nextRegs = [] from rfl] at h, by intro x h; simp [show fourWards.mc.stepRegs = [] from rfl] at h⟩, rfl⟩

/-- States and operands that meet the hypotheses of ReadyComesOnlyWhenBringupEnds, clause by clause. -/
theorem test_ReadyComesOnlyWhenBringupEnds_witness :
    let s : State := { mc := { stages := [6] } }
    WaitingWrites s ∧ fg s MC_STATUS_READY 0 = 0 ∧
    (match exec (.bringupStageDone 6 100 []) s with | .next t => fg t MC_STATUS_READY 0 == 1 | _ => false) = true :=
  ⟨⟨by intro x h; simp at h, by intro x h; simp at h⟩, by decide, by decide⟩

/-- States and operands that meet the hypotheses of FramesOpenAndGrantsTakeEffect, clause by clause. -/
theorem test_FramesOpenAndGrantsTakeEffect_witness :
    let p : Pwr := { seen := true, awaits := true, goodWord := true }
    let s : State := { fourWards with pwr := p }
    let l : State := { fourWards with pwr := { p with lossFrom := some (600, 7) } }
    (s.pwr.seen = true ∧ 499 < 500 ∧ 500 ≤ 500) ∧ (s.pwr.nextRegs = [] ∧ s.mc.stepRegs = []) ∧
    crc8 ((below 7).map (fun i => bits 0 (63 - 8 * i) (56 - 8 * i))) = bits 0 7 0 ∧
    crc8 ((below 7).map (fun i => bits 1 (63 - 8 * i) (56 - 8 * i))) ≠ bits 1 7 0 ∧ s.pwr.lossFrom = none ∧ l.pwr.lossFrom = some (600, 7) ∧
    l.pwr.next = none := by decide

/-- States and operands that meet the hypotheses of LoopsFollowTheirFormulas, clause by clause. -/
theorem test_LoopsFollowTheirFormulas_witness :
    (fourWards.pwr.limit = false ∧ hostForced fourWards = false ∧ fourWards.pwr.bub < 64 ∧ fg fourWards PWR_EST_DRIFT 0 = 0) ∧
    (thermalFull fourWards = false) ∧
    (let s : State := { fourWards with pwr := { slew := some 11 } }
     s.pwr.slew = some 11 ∧ s.pwr.wait = none) ∧
    (let xs := [padTo 40 0 (([] : List (Nat × Nat)).flatMap (fun p => [p.1, p.2])) ++ padTo 100 0 ([] : List (List Nat)).flatten]
     excluded (sensorMean xs 38) = false ∧ excluded (sensorMean xs 39) = false ∧ (sensorMean xs 38 - sensorMean xs 39).natAbs ≤ 48 ∧
     fg fourWards THM_STACK_CTL_SUSPECT 19 = 0) := by decide

/-- States and operands that meet the hypotheses of ClocksCrossingsAndCalibration, clause by clause. -/
theorem test_ClocksCrossingsAndCalibration_witness :
    6 ∉ fourWards.mc.reasons ∧ fourWards.xings.any (fun p => p.2.late > 0) = false ∧
    6 ∈ ({ fourWards with mc := { fourWards.mc with reasons := [6] } } : State).mc.reasons ∧ 79 < wardCount fourWards ∧
    (xing (setXing fourWards 7 { lat := 4, late := 2, due := true }) 7).due = true ∧
    budgetCovers fourWards actCalib 0 0 0 = true := by decide

/-- States and operands that meet the hypotheses of BringupAndResets, clause by clause. -/
theorem test_BringupAndResets_witness :
    (let s : State := { mc := { stages := [7, 8] } }
     7 ∈ s.mc.stages ∧ (stageAfter 7).any s.mc.stages.contains = false ∧ s.mc.recovery = false ∧ s.mc.held = false ∧ s.mc.isCold = true ∧
       s.mc.stages ≠ []) ∧
    fg (fs fourWards MOD_SELFTEST_RUNNING 0 1) MOD_SELFTEST_RUNNING 0 = 1 ∧
    (let s := fs fourWards WARD_RST_BUSY 79 1
     79 < wardCount s ∧ fg s WARD_RST_BUSY 79 = 1 ∧ (pward s (physOf s 79)).test = false ∧ (pward s (physOf s 79)).st = 0) := by decide

/-- States and operands that meet the hypotheses of StandbyAndHostControl, clause by clause. -/
theorem test_StandbyAndHostControl_witness :
    (let s := fs fourWards MOD_PSTATE_HOST_VOTE 0 2
     s.standby = false ∧ (modTarget s).1 = 2 ∧ hasJob s = false ∧ fg s MOD_HOST_RUN_RUNNING 0 = 0) ∧
    (let s : State := { fourWards with standby := true }
     s.standby = true ∧ (modTarget s).1 < 2) ∧
    (let s := fs (fs fourWards MOD_HOST_CLK_CORES 0 32) MOD_BOOT_STATUS_STAGE 0 9
     31 < fg s MOD_HOST_CLK_CORES 0 ∧ fg s MOD_HOST_RUN_RUNNING 0 = 0 ∧ fg s MOD_BOOT_STATUS_STAGE 0 ≠ 0 ∧ 8 ∉ s.mc.stages) ∧
    bit (fg (fs fourWards MOD_HOST_RUN_RUNNING 0 (2 ^ 31)) MOD_HOST_RUN_RUNNING 0) 31 = true ∧
    (fieldIn 0x20000000 MOD_HOST_CLK_POINT ≤ 4 ∧ fg fourWards MOD_HOST_CLK_CHANGING 0 = 0 ∧ hostForced fourWards = false) ∧
    fg (fs fourWards MOD_HOST_CLK_CHANGING 0 1) MOD_HOST_CLK_CHANGING 0 = 1 ∧
    (let s := fs (fs fourWards MOD_IRQ_WATCH_EN 255 1) MOD_IRQ_WATCH_WARD 255 79
     fg s MOD_IRQ_WATCH_EN 255 = 1 ∧ fg s MOD_IRQ_WATCH_WARD 255 < wardCount s ∧
       flagReached s (flagIdx (fg s MOD_IRQ_WATCH_WARD 255) (fg s MOD_IRQ_WATCH_FLAG 255)) (fg s MOD_IRQ_DEST_TARGET 255) = true) ∧
    fg fourWards MOD_PCIE_CFG_MODE 0 = 0 ∧ fourWards.host.perst = true ∧ fourWards.host.detect = true ∧
    fg (fs fourWards MOD_PCIE_CFG_MODE 0 1) MOD_PCIE_CFG_MODE 0 = 1 := by decide

/-- States and operands that meet the hypotheses of PcieModesAndReset, clause by clause. -/
theorem test_PcieModesAndReset_witness :
    fieldIn 0x80000000 MOD_PCIE_CFG_MODE ≠ fg fourWards MOD_PCIE_CFG_MODE 0 ∧ fieldIn 0 MOD_PCIE_CFG_MODE = fg fourWards MOD_PCIE_CFG_MODE 0 ∧
    fourWards.host.detect = true ∧ fourWards.host.perst = true ∧ fg fourWards MOD_PCIE_CFG_MODE 0 = 0 ∧
    fg (fs fourWards MOD_PCIE_CFG_MODE 0 1) MOD_PCIE_CFG_MODE 0 = 1 ∧
    (let s : State := { fourWards with host := { perst := false, detect := false } }
     s.host.perst = false ∧ s.host.detect = false ∧ fieldIn 0x80000000 MOD_PCIE_CFG_MODE ≠ fg s MOD_PCIE_CFG_MODE 0) ∧
    (let s : State := { fourWards with host := { perst := false, detect := true } }
     s.host.detect = true ∧ s.host.perst = false ∧ fg s MOD_PCIE_CFG_MODE 0 = 0) := by decide

/-- States and operands that meet the hypotheses of HostBlockDevice, clause by clause. -/
theorem test_HostBlockDevice_witness :
    (let s : State := { fourWards with host := { queues := [32] } }
     0 + 4096 ≤ tier1Size ∧ 31 ∉ s.host.queues ∧ 32 ∈ s.host.queues ∧ 0 + 2 ≤ nvmeBlocks s ∧ 4096 + 2 * blockBytes ≤ tier1Size ∧
     swf (fun _ => 0) s.flash.host = true ∧ fg s JNL_STATUS_PFW_ACTIVE 0 = 0 ∧ fg s JNL_STATUS_T3_DEGRADED 0 = 0 ∧ Memory.wf s = true ∧
     partialPoison s 32 4096 = none ∧ lostHost (flashEvents s []) 0 2 = false ∧ (writeErr s .none 32 8192).2 = none ∧
     poisonDetail s 0 8192 = none) ∧
    (let s : State := { fourWards with poison := [0], flash := { lost := [.host 1] } }
     (partialPoison s 32 4096).isSome = true ∧ (poisonDetail s 0 8192).isSome = true ∧ lostHost (flashEvents s []) 0 2 = true) := by decide

/-- States and operands that meet the hypotheses of LinkBlocksAreTakenInOrder, clause by clause. -/
theorem test_LinkBlocksAreTakenInOrder_witness :
    let x : Port := { retry := [⟨4, 1, { ty := 1 }, 0⟩, ⟨5, 8, { ty := 1 }, 0⟩], rxSeq := 3 }
    let s : State := setPort (setPortState fourWards 0 3) 0 x
    linkLive s 0 = true ∧ (port s 0).step = 0 ∧ Acknowledged 5 ⟨4, 1, { ty := 1 }, 0⟩ ∧ ¬ Acknowledged 5 ⟨5, 8, { ty := 1 }, 0⟩ ∧
    2 ≠ (port s 0).rxSeq ∧ ((port s 0).retry.filter (fun h => !decide (Acknowledged 5 h)) = [⟨5, 8, { ty := 1 }, 0⟩]) ∧
    ((port s 0).retry.filter (fun h => !decide (Acknowledged (2 ^ 20 - 1) h)) ≠ []) ∧ (port s 0).waiting = [] ∧ framingV2 s 0 = false ∧
    parseBlock 0 [] = none ∧ blockType 0xA = true ∧ 2 ^ 20 - 1 < 2 ^ 20 := by decide

/-- States and operands that meet the hypotheses of PortsComeUpByHelloAndSwitch, clause by clause. -/
theorem test_PortsComeUpByHelloAndSwitch_witness :
    let s : Nat → Nat → State := fun st step => setPort (setPortState fourWards 0 st) 0 { step := step, frames := 1024 }
    ((port (s 1 1) 0).step = 1 ∧ portState (s 1 1) 0 = 1 ∧ ((below 9).filter (fun k => bit 0x3F k)).length < 7 ∧
      7 ≤ ((below 9).filter (fun k => bit 0x7F k)).length) ∧
    (linkLive (s 1 4) 0 = true ∧ 0 = (port (s 1 4) 0).rxSeq ∧ (port (s 1 4) 0).known = false ∧ (port (s 1 4) 0).retry = []) ∧
    (linkLive (s 1 3) 0 = true ∧ linkLive (s 1 2) 0 = true ∧ (port (s 1 3) 0).swapping = false) ∧ budgetCovers fourWards actCalib 0 0 0 = true ∧
    (portState (s 6 0) 0 = 6 ∧ (port (s 6 0) 0).tries < 8 ∧ portState (s 2 0) 0 = 2) := by decide

/-- States and operands that meet the hypotheses of SpareWavelengthsTakeOver, clause by clause. -/
theorem test_SpareWavelengthsTakeOver_witness :
    let s : Nat → Nat → State := fun n spare =>
      fs (setPort (setPortState fourWards 27 3) 27 { spare := spare, swapping := true }) FAB_PORT_STATUS_LANES_FAILED 27 n
    linkLive (s 0 8) 27 = true ∧ 7 ∉ (port (s 0 8) 27).lost ∧ 7 ≠ (port (s 0 8) 27).spare ∧ fg (s 0 8) FAB_PORT_STATUS_LANES_FAILED 27 = 0 ∧
    fg (s 1 9) FAB_PORT_STATUS_LANES_FAILED 27 = 1 ∧ (port (s 1 9) 27).spare = 9 ∧ 2 ≤ fg (s 2 9) FAB_PORT_STATUS_LANES_FAILED 27 ∧
    0 = (port (s 0 8) 27).rxSeq ∧ (port (s 0 8) 27).swapping = true ∧ (port (s 0 8) 27).waiting = [] := by decide

/-- States and operands that meet the hypotheses of TransactionsAreRefusedAtIngress, clause by clause. -/
theorem test_TransactionsAreRefusedAtIngress_witness :
    let b : RxBlock := { port := 0, seq := 0, ack := none, dst := 5, src := 6, slice := 8 }
    portUsable onFabric 0 = true ∧ b.seq = (port onFabric 0).rxSeq ∧ b.dst = ownChip onFabric ∧ 4 ≠ ownChip onFabric ∧
    fg onFabric FAB_CHIP_VALID 0 = 1 ∧ (takeTxnBlock onFabric b).2 = true ∧ b.slice ≠ ownSlice onFabric ∧
    (takeTxnBlock fourWards { b with ack := none }).2 = false := by decide

/-- States and operands that meet the hypotheses of RemoteWritesReadsAndSignals, clause by clause. -/
theorem test_RemoteWritesReadsAndSignals_witness :
    let b : RxBlock := { port := 0, seq := 0, ack := none, dst := 5, src := 6, slice := 9, offset := tier1Size - 2, payload := [1, 2] }
    let u := (takeTxnBlock onFabric b).1
    (takeTxnBlock onFabric b).2 = true ∧ sliceCheck u b = none ∧ b.offset + b.payload.length ≤ tier1Size ∧
    partialPoison u b.offset b.payload.length = none ∧ readTxn u true true (b.offset : Int) ((b.offset : Int), 2) = .ok [0, 0] ∧ (meetErr u (.lost b.offset) [(b.offset, 2)]).2 ≠ none ∧
    slotHolding u 2 ((tier2Base : Int) - (tier2Base : Int)) ((tier2Base : Int) + 256 - (tier2Base : Int)) = none ∧
    bits b.offset 14 8 ≥ wardCount u ∧ 79 < wardCount u ∧ isDark u 79 = false ∧
    fg (fs u WARD_FCFG_EXT (flagIdx 79 255) 1) WARD_FCFG_EXT (flagIdx 79 255) = 1 ∧ fg u WARD_FCFG_EXT (flagIdx 79 255) = 0 := by decide

/-- States and operands that meet the hypotheses of AnswersEndTransactions, clause by clause. -/
theorem test_AnswersEndTransactions_witness :
    let x : Txn := ⟨3, 2, 0, 0, 6, 64, 64, 400, none, false⟩
    let c : Cmd := { phase := .issued }
    let e : Window := ⟨6, 1, 2, 0, [0]⟩
    let s : State := setStream { onFabric with txns := [x] } 0 { st := .enabled, cmds := [c], windows := [e] }
    let b : RxBlock := { port := 0, seq := 0, ack := none, dst := 5, src := 6, slice := 9, tid := 3, offset := releaseOffset 0 1 2 }
    let u := (takeTxnBlock s b).1
    (takeTxnBlock s b).2 = true ∧ findTxn u b.tid b.src = some x ∧ x.ty = 2 ∧ x.dead = false ∧ findCmd (stream u 0).cmds 0 = some c ∧
    (stream u 0).st = .enabled ∧
    ((u.streams.find? (fun p => p.2.windows.any (fun e => windowIs (6, 1, 2) e && e.nextRel == 0 && e.sent.contains 0))).map Prod.fst = some 0) ∧
    (bits b.offset 23 17, bits b.offset 16 11, bits b.offset 39 24) = (1, 2, 0) ∧ bit b.offset 47 = true ∧ bit 3 47 = false ∧ (stream u 0).windows.find? (windowIs (6, 1, 2)) = some e ∧
    fg s FAB_CFG_E2E_TIMEOUT 0 ≤ x.age := by decide

/-- States and operands that meet the hypotheses of TilesArriveInRankOrder, clause by clause. -/
theorem test_TilesArriveInRankOrder_witness :
    let b : RxBlock := { port := 0, seq := 0, ack := none, dst := 5, src := 6, slice := 9, offset := 0, payload := [1] }
    let s := withArrival onFabric
    let u := (takeTxnBlock s b).1
    let x : ASlot := ⟨0, 0, 0, 0, 6, none, 17, [0]⟩
    let d := setArrival s 0 { slots := [x] }
    (takeTxnBlock s b).2 = true ∧ sliceCheck u b = none ∧ isV2 u 0 = false ∧ isV2 (fs u FAB_PORT_STATUS_V2 0 1) 0 = true ∧
    arrivalRefuses u 0 0 0 0 6 0 17 = false ∧ arrivalPoison u 0 0 0 0 17 0 b.payload = none ∧ 0 < ceilDiv 17 256 ∧ arrivalRefuses u 0 0 1 0 6 0 17 = true ∧
    isArrival d 0 = true ∧ drainTile d 0 = some x ∧ qFree d 0 (queueRt d 0).resvPush = true ∧
    poisoned d (regionKey d 0 0) 1 = false ∧ egressPort d 6 0 true = some 0 := by decide

/-- States and operands that meet the hypotheses of AtomicsReadModifyAndWrite, clause by clause. -/
theorem test_AtomicsReadModifyAndWrite_witness :
    atomFmtOk .add 1 = true ∧ atomSourceOk fourWards 31 .add 1 = true ∧ atomSourceOk fourWards 32 .cas 3 = true ∧ atomFmtOk .max 5 = true ∧
    (tier1Size - 8) % 8 = 0 ∧ tier1Size - 8 + 8 ≤ tier1Size ∧ poisoned fourWards (tier1Size - 8) 8 = false ∧ 4 % 8 ≠ 0 ∧
    tier1Size < tier1Size + 8 ∧ 33 % 32 ≠ 0 ∧ 32 % 32 = 0 ∧ atomFmtOk .swap 4 = false ∧
    (meetErr fourWards .none [(tier1Size - 8, 8)]).2 = none ∧ (meetErr fourWards (.lost 4096) [(4096, 4)]).2 = some 0x100010010000 := by decide

/-- States and operands that meet the hypotheses of NarrowElementsDecodeByTheirScale, clause by clause. -/
theorem test_NarrowElementsDecodeByTheirScale_witness :
    (elemValue 5 1 = (.fin false 1 1 (-16), {}) ∧ decodeNarrow 5 0 0 1 = (0x40, {}) ∧ 1 * 4 * pow2 ((-145 : Int) - 100) < 2 ^ 28 * pow2 (100 - (-145 : Int))) ∧
    (elemValue 4 0xFE = (.fin true 14 1 5, {}) ∧ decodeNarrow 4 127 0 0xFE = (0xC3E00000, {})) ∧
    (elemValue 10 0x80 = (.fin true 128 1 (-6), {}) ∧ decodeNarrow 10 128 0 0x80 = (0xC0800000, {})) ∧
    decodeNarrow 9 127 3 7 = (0x41280000, {}) ∧ ofFp32 0xFF800000 = (.fin true (2 ^ 24 - 1) 1 104, ⟨1, 0⟩) ∧ (0xFF800000 : Nat) % 2 ^ 31 = 0x7F800000 ∧
    wideElem 2 0xFF80 = (0xFF7F0000, ⟨1, 0⟩) ∧ wideElem 2 0xFFC1 = (nan32, {}) ∧ elemValue 5 0xFC = (.fin true 7 1 13, ⟨1, 0⟩) := by decide

/-- VeAt as a closed question. -/
def veAtB (s : State) (w m : Nat) (word : Nat) : Bool :=
  ((jobOf s w 4 0x10).map (fun p => p.1) == some m) && (veRt s w).active && decide ((veRt s w).pc < 0x4000) &&
  (kstoreWord s w (8 * (veRt s w).pc) 8 == word) && !poisoned s (fetchRun w (veRt s w)).1 8 &&
  ((jobOf s w 4 0x10).map (fun p => isLibrary p.2) == some false) && veWellFormed word && decide ((veRt s w).count < 2 ^ 24)

/-- States and operands that meet the hypotheses of LaneInstructionsWriteTheirResults, clause by clause. -/
theorem test_LaneInstructionsWriteTheirResults_witness :
    (veAtB (veAtWord (veWord 0x01 63 62 61 0 0 0)) 0 0 (veWord 0x01 63 62 61 0 0 0)) = true ∧
    (veAtB (veAtWord (veWord 0x08 63 62 61 0 2 0)) 0 0 (veWord 0x08 63 62 61 0 2 0)) = true ∧
    (veAtB (veAtWord (veWord 0x38 63 31 31 63 0 0)) 0 0 (veWord 0x38 63 31 31 63 0 0)) = true := by decide

/-- States and operands that meet the hypotheses of ScalarAndTileInstructionsOfTheVe, clause by clause. -/
theorem test_ScalarAndTileInstructionsOfTheVe_witness :
    let at' := fun (word : Nat) => veAtB (veAtWord word) 0 0 word
    let s := veAtWord (veWord 0x28 63 31 0 0 3 5)
    at' (veWord 0x28 63 31 0 0 3 5) = true ∧ at' (veWord 0x29 63 31 0 0 0 0) = true ∧ at' (veWord 0x18 63 63 0 0 0 0xFFFC) = true ∧
    at' (veWord 0x1A 62 63 0 0 0 0) = true ∧ at' (veWord 0x2A 0 31 63 0 1 0) = true ∧ at' (veWord 0x2C 31 0 31 0 3 0xFFFFFF) = true ∧
    at' (veWord 0x30 31 31 31 0 5 0) = true ∧ at' (veWord 0x31 31 0 0 0 0 15) = true ∧ at' (veWord 0x32 0 31 31 0 2 0x3FFF) = true ∧
    (veRt s 0).xreg 31 < 64 ∧ veTile s 0 { w0 := 0x10, desc := [0x11000000, 0, 0, 0, 0, 0x100000000], phase := .issued } 3 5 = none ∧
    (stream s 0).st = .enabled ∧ hdrField { rows := 7 } 4 = 7 ∧ poisoned s (kstoreKey 0 (0x30000 + 4 * 15)) 4 = false ∧ (0xFFFC + 4 * 0 + 4 ≤ 0x10000) ∧ ¬ (0xFFFD + 4 * 0 + 4 ≤ 0x10000) := by decide

/-- The VE of ward 0 with a tile visible on its first input end. -/
def veWithTile (word : Nat) : State :=
  let c : Cmd := { w0 := 0x10, w1 := 0x8000000000, desc := [0x11000000, 0, 0, 0, 0, 0x100000000], phase := .issued }
  let s := fs (fs (fs (veAtWord word) WARD_QCFG_EN 0 1) WARD_QCFG_DEPTH 0 2) WARD_QCFG_SLOT 0 1
  setQueue (setStream s 0 { st := .enabled, cmds := [c] }) 0 { tail := 1, resvPush := 1 }

theorem test_ScalarAndTileInstructionsOfTheVe_tiles :
    let s := veWithTile (veWord 0x29 63 31 0 0 0 0)
    (match jobOf s 0 4 0x10 with
     | some (_, c) => (match veTile s 0 c 0 0 with | some (.ok (h, _)) => h == hdrOf (memRead s (hdrKey s 0 0) 16) | _ => false)
     | none => false) = true := by decide

/-- A kernel header that pushes one tile of output end 0. -/
def pushingCmd : Cmd :=
  { w0 := 0x800000000010, w2 := 0, desc := [0x11000000, 0, 0, 0, 0, 0x100000000], phase := .issued, ext := [2 ^ 52], outBase := [0, 0],
    outRes := [1, 0], outFill := [0, 0] }

def vePushing (word : Nat) : State :=
  let s := fs (fs (fs (veAtWord word) WARD_QCFG_EN 0 1) WARD_QCFG_DEPTH 0 2) WARD_QCFG_SLOT 0 1
  setStream s 0 { st := .enabled, cmds := [pushingCmd] }

/-- States and operands that meet the hypotheses of KernelsStartPushAndEnd, clause by clause. -/
theorem test_KernelsStartPushAndEnd_witness :
    let s := vePushing (veWord 0x2B 0 0 0 0 0 0)
    let e := veAtWord (veWord 0x33 0 0 0 0 0 0)
    (jobOf (setVe s 0 {}) 0 4 0x10 = some (0, pushingCmd) ∧ (veRt (setVe s 0 {}) 0).active = false ∧
      inputsVisible (setVe s 0 {}) 0 pushingCmd (runOf pushingCmd) = true) ∧
    (veAtB s 0 0 (veWord 0x2B 0 0 0 0 0 0) = true ∧ (veRt s 0).push0 < pushesDue pushingCmd 0 ∧ outPresent (pushingCmd.out 0) = true ∧
      isDark s (outWard 0 (pushingCmd.out 0)) = false ∧ canPush s 0 pushingCmd 0 1 = true ∧ pushesDue pushingCmd 1 ≤ (veRt s 0).push1 ∧
      (stream s 0).st = .enabled) ∧
    (veAtB e 0 0 (veWord 0x33 0 0 0 0 0 0) = true ∧ pushesDue {} 0 ≤ (veRt e 0).push0 ∧ (veRt e 0).push0 < pushesDue pushingCmd 0) := by decide

/-- A QUANT of one tile of an FP32 input to an INT8 output, its input tile visible. -/
def quantCmd : Cmd :=
  { w0 := 0x800100000028, w1 := 0x8000A01000, desc := [0x11000000, 0, 0, 0, 0, 0x100000000], phase := .issued, outBase := [0, 0],
    outRes := [1, 0], outFill := [0, 0] }

def quantAt (h : Hdr) : State :=
  let s0 := setStream { fourWards with engines := [(4, [(0, 0)])] } 0 { st := .enabled, cmds := [quantCmd] }
  let s1 := fs (fs (fs s0 WARD_QCFG_EN 0 1) WARD_QCFG_DEPTH 0 1) WARD_QCFG_SLOT 0 1
  let s2 := fs (fs (fs s1 WARD_QCFG_EN 1 1) WARD_QCFG_DEPTH 1 1) WARD_QCFG_SLOT 1 1
  setQueue (memWrite s2 (hdrKey s2 0 0) h.bytes) 0 { tail := 1, resvPush := 1 }

/-- States and operands that meet the hypotheses of QuantPushesItsTileOrFaults, clause by clause. -/
theorem test_QuantPushesItsTileOrFaults_witness :
    let s := quantAt { fmt := 1, rows := 1, cols := 1, marks := 0x80 }
    let z := quantAt { fmt := 2, rows := 1, cols := 1, marks := 0xC0, ptag := 9 }
    jobOf s 0 4 0x28 = some (0, quantCmd) ∧ nth (units quantCmd) 0 [] = [[0]] ∧
    (match readIn s 0 quantCmd 0 (inOffset quantCmd.desc 0 [0]) with | .ok (h, _) => h.fmt == quantCmd.fmtA | _ => false) = true ∧
    isDark s (outWard 0 (quantCmd.out 0)) = false ∧ canPush s 0 quantCmd 0 1 = true ∧ (stream s 0).st = .enabled ∧
    readIn z 0 quantCmd 0 (inOffset quantCmd.desc 0 [0]) = .fault 0x13 9 ∧ jobOf z 0 4 0x28 = some (0, quantCmd) := by decide

/-- States and operands that meet the hypotheses of CommandsLoadInOrder, clause by clause. -/
theorem test_CommandsLoadInOrder_witness :
    let s := setStream fourWards 639 { st := .enabled, avail := 1 }
    (stream s 639).st = .enabled ∧ wardActive s (639 / 8) = true ∧ (stream s 639).avail ≠ fg s WARD_SFETCH_LOADED 639 ∧
    (stream s 639).cmds = [] ∧ poisoned s (ringKey s 639 0) 32 = false ∧ fg s WARD_SCFG_VERSION 639 ≠ 2 ∧
    poisonDetail { s with poison := [0] } (ringKey { s with poison := [0] } 639 0) 32 = some 0x20000000 ∧
    (meetErr s (.lost 31) [(ringKey s 639 0, 32)]).2.isSome = true := by decide

/-- Stream 0 of ward 0 with one loaded command. -/
def oneCommand (c : Cmd) : State := setStream fourWards 0 { st := .enabled, cmds := [c], avail := 1 }

/-- States and operands that meet the hypotheses of SequencerCommandsActAtIssue, clause by clause. -/
theorem test_SequencerCommandsActAtIssue_witness :
    let wait : Cmd := { w0 := 0x8048 }
    let late : Cmd := { w0 := 0x8048, w2 := 1 }
    let sig : Cmd := { w0 := 0x4049, w2 := 0x1FE00000000 }
    let hint : Cmd := { w0 := 0x50, w3 := 0xF03 }
    let mark : Cmd := { w0 := 0x58, w1 := 1 }
    let may := fun (c : Cmd) => (oneCommand c).streams != [] && (stream (oneCommand c) 0).st == .enabled && wardActive (oneCommand c) 0 &&
      nextLoaded (stream (oneCommand c) 0) == some c && c.fault == none && issueReady (oneCommand c) 0 c
    wait.opcode = 0x48 ∧ may wait = true ∧ may late = false ∧ issueReady (oneCommand late) 0 late = false ∧ sig.opcode = 0x49 ∧ may sig = true ∧
    sig.sigEn = true ∧ isDark (oneCommand sig) 0 = false ∧ isDark (fs (oneCommand sig) PWR_WREG_DARK 0 1) 0 = true ∧ sig.sigWard = 0x7F ∧
    hint.opcode = 0x50 ∧ may hint = true ∧ mark.opcode = 0x58 ∧ may mark = true ∧ fg fourWards WARD_SDONE_RETIRED 0 = 0 := by decide

/-- States and operands that meet the hypotheses of CommandsIssueWithTheirReservations, clause by clause. -/
theorem test_CommandsIssueWithTheirReservations_witness :
    let move : Cmd := { w0 := 0x800000000001, w3 := 0xFFFF000000000000, desc := [0x21000000, 32, 0, 0, 0, 0x100000000] }
    let s0 := fs (fs (fs (oneCommand move) WARD_QCFG_EN 0 1) WARD_QCFG_DEPTH 0 2) WARD_QCFG_SLOT 0 1
    let s := fs (fs s0 WARD_QBIND_PROD_WARD 0 0) WARD_QBIND_PROD_STREAM 0 0
    let bad : Cmd := { w0 := 0xFF, fault := some (1, 0xFF) }
    (stream s 0).st = .enabled ∧ wardActive s 0 = true ∧ nextLoaded (stream s 0) = some move ∧ issueReady s 0 move = true ∧
    isSeqOp move.opcode = false ∧ issueCheck s 0 { move with bounds := readBounds s 0 move } = none ∧ unitCount move ≠ 0 ∧
    outPresent (move.out 0) = true ∧ outPresent (move.out 1) = false ∧
    (issueCheck (oneCommand move) 0 { move with bounds := readBounds (oneCommand move) 0 move }).map Prod.fst = some 8 ∧
    nextLoaded (stream (oneCommand bad) 0) = some bad ∧ bad.fault = some (1, 0xFF) := by decide

/-- States and operands that meet the hypotheses of CommandsCompleteAndSignal, clause by clause. -/
theorem test_CommandsCompleteAndSignal_witness :
    let c : Cmd := { w0 := 0x4020, w2 := 0x1FE00000000, phase := .issued, iter := 1 }
    let far : Cmd := { w0 := 0x4002, w2 := 0x1FE00000000, w3 := 0x6000000000000, desc := [0x21000000, 32, 0x8000000000000000, 0, 0, 0x100000000],
                       phase := .issued, iter := 1 }
    let s := oneCommand c
    let f := setStream onFabric 0 { st := .enabled, cmds := [far] }
    findCmd (stream s 0).cmds 0 = some c ∧ workDone s 0 c = true ∧ remoteSignal c = false ∧ c.sigEn = true ∧ isDark s 0 = false ∧
    isDark (fs s PWR_WREG_DARK 0 1) 0 = true ∧ c.num = fg s WARD_SDONE_RETIRED 0 ∧
    findCmd (stream f 0).cmds 0 = some far ∧ workDone f 0 far = true ∧ remoteSignal far = true ∧
    egressPort f (chipOf (moveDest far)) (f.nextTid % 2 ^ 16) false = some 0 ∧ portHeld f 0 1 = false ∧ wardTxns f 0 < wardTxnLimit ∧
    workDone f 0 { far with aux := 2 } = true ∧ workDone f 0 { far with iter := 0 } = false := by decide

/-- States and operands that meet the hypotheses of TilesBecomeVisibleInOrder, clause by clause. -/
theorem test_TilesBecomeVisibleInOrder_witness :
    let s0 := fs (fs (fs fourWards WARD_QCFG_EN 5119 1) WARD_QCFG_DEPTH 5119 1) WARD_QCFG_SLOT 5119 1
    let s := fun (ph : Bool) (tail : Nat) => setQueue s0 5119 { tail := tail, resvPush := tail + 1, pushed := [(tail, ⟨{}, ph⟩)] }
    qEnabled (s false 0) 5119 = true ∧ (findPushed (queueRt (s false 0) 5119).pushed 0 = some ⟨{}, false⟩) ∧ qFree (s true 0) 5119 0 = true ∧
    qFree (s true 1) 5119 1 = false ∧ findPushed (queueRt s0 5119).pushed 0 = none ∧ 79 < wardCount fourWards ∧ (pward fourWards (physOf fourWards 79)).st ≤ 2 ∧
    waitsIn (setQueue (quantAt {}) 0 {}) 0 quantCmd = [(0, 0)] ∧
    engineWait (quantAt {}) 0 4 = none ∧ (engineWait (setQueue (quantAt {}) 0 {}) 0 4 = some (2, 0)) ∧
    (engineWait (setQueue (quantAt {}) 1 { head := 0, tail := 1, resvPush := 1 }) 0 4 = none) ∧
    (job (quantAt {}) 0 4).isSome = true := by decide

/-- States and operands that meet the hypotheses of FaultsAndAbortsSettle, clause by clause. -/
theorem test_FaultsAndAbortsSettle_witness :
    let s := fun (x : Stream) => setStream fourWards 639 x
    McIdle (s { st := .enabled }) ∧
    (let x : Stream := { st := .enabled, req := [.packet], cmds := [{ phase := .issued, iter := 1 }] }
     (stream (s x) 639).st = .enabled ∧ x.req ≠ [] ∧ committing (s x) 639 = false ∧ fg (s x) WARD_SDONE_RETIRED 639 = x.avail ∧
     fg (s { x with avail := 1 }) WARD_SDONE_RETIRED 639 ≠ (stream (s { x with avail := 1 }) 639).avail ∧ x.req.any (fun r => r != .packet) = false ∧
     [AbortBy.enClear].any (fun r => r != .packet) = true) ∧
    (let x : Stream := { st := .aborting, abort := some ⟨true, 4, 0, 0⟩ }
     (stream (s x) 639).st = .aborting ∧ streamTxns (s x) 639 = [] ∧ x.abort.map AbortRun.toDisabled = some true ∧
     (stream (s { x with abort := some ⟨false, 3, 0, 0⟩ }) 639).abort = some ⟨false, 3, 0, 0⟩) ∧
    (stream (s { st := .faulting }) 639).st = .faulting := ⟨⟨rfl, rfl, rfl, rfl, rfl⟩, by decide⟩

/-- States and operands that meet the hypotheses of WaitTimeoutsAndStalls, clause by clause. -/
theorem test_WaitTimeoutsAndStalls_witness :
    let c : Cmd := { w0 := 0x8048, w2 := 1 }
    let s := { oneCommand c with quiet := some 512 }
    let e := fs s WARD_FCFG_EXT 0 1
    let late := setStream e 0 { stream e 0 with waitPulse := 65535 }
    (stream late 0).st = .enabled ∧ nextLoaded (stream late 0) = some c ∧ waitsExt late 0 = true ∧ c.fault = none ∧
    fg late WARD_FCFG_TIMEOUT (flagIdx 0 c.waitFlag) ≤ (stream late 0).waitPulse ∧ (stream e 0).waitPulse < fg e WARD_FCFG_TIMEOUT 0 ∧
    (let q := fs (fs s MOD_QUIESCE_CFG_ENABLE 0 1) MOD_QUIESCE_CFG_WINDOW 0 512
     q.quiet = some 512 ∧ fg q MOD_QUIESCE_CFG_ENABLE 0 = 1 ∧ quiescent q = true ∧ fg q MOD_QUIESCE_CFG_WINDOW 0 ≤ 512 ∧ q.stalled = false ∧
     q.store.fail.closed = false ∧ ({ q with stalled := true } : State).stalled = true) := by decide

/-- An MMA over a reduction of `k` steps with both operand tiles visible on ward 0, and ME 0's own state. -/
def mmaCmd (k : Nat) : Cmd :=
  { w0 := 0x800200000008, w1 := 0x818000122000, desc := [0x11080000, 0, 0, 0, 0, BitVec.ofNat 64 (k * 2 ^ 32)], phase := .issued,
    inBase := [0, 0], inRes := [1, 1], inPop := [0, 0], outBase := [0, 0], outRes := [1, 0], outFill := [0, 0] }

def mmaAt (c : Cmd) (rt : MeRt) : State :=
  let s0 := setStream { fourWards with engines := [(0, [(0, 0)])] } 0 { st := .enabled, cmds := [c] }
  let on := fun (t : State) (q : Nat) => fs (fs (fs t WARD_QCFG_EN q 1) WARD_QCFG_DEPTH q 1) WARD_QCFG_SLOT q 1
  let s1 := on (on (on (fs s0 MOD_ACCUM_CFG_C_LOG2 0 8) 0) 1) 2
  setMe (setQueue (setQueue s1 0 { tail := 1, resvPush := 1 }) 1 { tail := 1, resvPush := 1 }) 0 rt

/-- States and operands that meet the hypotheses of MatrixProductsSumInOrder, clause by clause. -/
theorem test_MatrixProductsSumInOrder_witness :
    let c := mmaCmd 4
    let s := mmaAt c {}
    let readOk := fun (e : Nat) => match readIn s 0 c e (inOffset c.desc e [0]) with | .ok _ => true | _ => false
    jobOf s 0 0 0x08 = some (0, c) ∧ (mmaSteps c)[c.iter]? = some ([0], true) ∧ stepInfo c [0] = (0, 512) ∧ spillNeed s c ≤ 1 ∧
    inUsed c 2 = false ∧ readOk 0 = true ∧ readOk 1 = true ∧ bit c.mode 0 = false ∧ c.stopping = false ∧
    (engineMeets s 0 0 .none (endRuns s 0 c ++ spillRuns s 0 0 c)).2 = none ∧ bit { c with w1 := c.w1 + 1 }.mode 0 = true ∧
    ((mmaSteps (mmaCmd 0))[0]? = some ([0], false)) ∧ ueAt s 1 (accumKey 319 0x7FFFF) = 0x7FFFF813F0000 ∧ (0 + 128) % chunkLen s ≠ 0 ∧ chunkLen s = 256 ∧
    (384 % 256 ≠ 0 ∧ 128 + 128 < 512 ∧ (128 + 128) % 256 = 0 ∧ 512 ≤ 384 + 128) ∧ bit (mmaCmd 4).mode 1 = false ∧
    spillFits (rd s ME_SPILL 0) 1 = false ∧ 0 < spillNeed s c ∧ canPush s 0 c 0 1 = true ∧ isDark s (outWard 0 (c.out 0)) = false ∧
    jobOf (mmaAt { c with w0 := 0x800200000009 } { latch := some (0, []), checked := true }) 0 0 0x09 =
      some (0, { c with w0 := 0x800200000009 }) := by decide

/-- A FOLD or a REDUCE of one partial of queue 0 into queue 1, its input tile visible with header h. -/
def foldCmd (op : Nat) : Cmd :=
  { w0 := BitVec.ofNat 64 (0x800100000000 + op), w1 := 0x8000100000, w3 := 1, desc := [0x11000000, 0, 0, 0, 0, 0x100000000], phase := .issued,
    outBase := [0, 0], outRes := [1, 0], outFill := [0, 0] }

def foldAt (op e : Nat) (h : Hdr) : State :=
  let s := setStream { quantAt h with engines := [(e, [(0, 0)])] } 0 { st := .enabled, cmds := [foldCmd op] }
  s

/-- States and operands that meet the hypotheses of FoldsAndRoundsAreSummedInRankOrder, clause by clause. -/
theorem test_FoldsAndRoundsAreSummedInRankOrder_witness :
    let s := foldAt 0x20 8 { fmt := 1, marks := 0x80 }
    let z := foldAt 0x20 8 { fmt := 1, marks := 0xC0, ptag := 7 }
    let r := foldAt 0x31 9 { fmt := 1, marks := 0x80 }
    (jobOf s 0 8 0x20 = some (0, foldCmd 0x20)) ∧ canPush s 0 (foldCmd 0x20) 0 1 = true ∧ isDark s (outWard 0 ((foldCmd 0x20).out 0)) = false ∧
    (below 4).filter (inUsed (foldCmd 0x20)) = [0] ∧ nth (units (foldCmd 0x20)) 0 [] = [[0]] ∧
    (match readIn s 0 (foldCmd 0x20) 0 0 with | .ok (h, _) => h.fmt == 1 | _ => false) = true ∧
    readPartials z 0 (foldCmd 0x20) [0] [0] = .fault 0x13 7 ∧ (stream z 0).st = .enabled ∧
    jobOf r 0 9 0x31 = some (0, foldCmd 0x31) ∧ bits (foldCmd 0x31).imm 7 0 = 1 ∧
    (match readRound r 0 0 0 1 with | .ok ts => ts.length == 1 | _ => false) = true ∧
    readRound (foldAt 0x31 9 { fmt := 1, marks := 0xC0, ptag := 7 }) 0 0 0 1 = .fault 0x13 7 ∧
    (match readTile r 0 0 with | .ok (h, _) => isWide h.fmt | _ => false) = true := by decide

/-- An UPDATE of one tile by a rule, inputs on queues 0, 1 and 2 of ward 0, outputs on 3 and 4. -/
def updCmd (rule : Nat) : Cmd :=
  { w0 := 0x8004800300000018, w1 := BitVec.ofNat 64 (0x828180 * 2 ^ 32 + rule), desc := [0x11000000, 0x100000000, 0, 0, 0, 0x100000000],
    phase := .issued, inBase := [0, 0, 0], inRes := [1, 1, 1], inPop := [0, 0, 0], outBase := [0, 0], outRes := [1, 1], outFill := [0, 0] }

def updAt (rule : Nat) (u : UeRt) : State :=
  let s0 := setStream { fourWards with engines := [(5, [(0, 0)])] } 0 { st := .enabled, cmds := [updCmd rule] }
  let s1 := (below 5).foldl (fun t q => fs (fs (fs t WARD_QCFG_EN q 1) WARD_QCFG_DEPTH q 1) WARD_QCFG_SLOT q 1) s0
  setUe ((below 3).foldl (fun t q => setQueue t q { tail := 1, resvPush := 1 }) s1) 0 u

/-- States and operands that meet the hypotheses of UpdatesPushTheirTiles, clause by clause. -/
theorem test_UpdatesPushTheirTiles_witness :
    let sched : UeRt := { sched := [0, 0, 0, 0, 0] }
    let isOk := fun (s : State) (c : Cmd) (e : Nat) => match readIn s 0 c e (inOffset c.desc e [0]) with | .ok _ => true | _ => false
    (∀ r ∈ [0, 1, 2, 3], jobOf (updAt r sched) 0 5 0x18 = some (0, updCmd r) ∧ updRule (updCmd r) = r ∧ updReady (updAt r sched) 0 (updCmd r) = true ∧
      darkOut (updAt r sched) 0 (updCmd r) = none ∧ updSched (updAt r sched) 0 (updCmd r) = .ok ([0, 0, 0, 0, 0], {}) ∧
      outQ 0 (updCmd r) 0 ≠ outQ 0 (updCmd r) 1 ∧ nth (units (updCmd r)) 0 [] = [[0]] ∧ unitCount (updCmd r) ≤ (updCmd r).iter + 1 ∧
      isOk (updAt r sched) (updCmd r) 0 = true ∧ isOk (updAt r sched) (updCmd r) 1 = true ∧ isOk (updAt r sched) (updCmd r) 2 = true) ∧
    updMask (updCmd 0) = 0 ∧ (ueRt (updAt 0 sched) 0).run = none ∧ engineWait (updAt 0 sched) 0 5 = none ∧
    (engineMeets (updAt 0 sched) 0 5 .none (endRuns (updAt 0 sched) 0 (updCmd 0) ++ schedRuns (updAt 0 sched) 0 (updCmd 0))).2 = none ∧ (ueRt (updAt 0 { sched with run := some {} }) 0).run = some {} := by decide

/-- A MOVE of one tile of 512 bytes at offset 4096, through queue 0 of ward 0. -/
def moveCmd (op : Nat) : Cmd :=
  { w0 := BitVec.ofNat 64 (0x800000000000 + op), w1 := if op = 2 then 0x8000000000 else 0, w3 := 0xFFFF000000001000, phase := .issued,
    desc := [0x21000000, 512, 0, 0xFFFF000000010000, 0, 0x100000000],
    inBase := [0], inRes := [1], inPop := [0], outBase := [0, 0], outRes := [1, 0], outFill := [0, 0] }

def moveAt (op : Nat) (c : Cmd) : State :=
  let s0 := setStream { fourWards with engines := [(7, [(0, 0)])] } 0 { st := .enabled, cmds := [c] }
  let s1 := fs (fs (fs s0 WARD_QCFG_EN 0 1) WARD_QCFG_DEPTH 0 1) WARD_QCFG_SLOT 0 1
  if op = 2 then setQueue s1 0 { tail := 1, resvPush := 1 } else s1

def moveGot (g : Got (List Byte)) : Nat × Nat := match g with | .ok bs => (0, bs.length) | .wait => (1, 0) | .fault code d => (code, d)

/-- The MOVE_OUT of the AVAIL 0 to the doorbell of stream 1. -/
def bellCmd : Cmd := { moveCmd 2 with w3 := 0xFFFF300000000000 + BitVec.ofNat 64 (WARD_SDBELL.base + 0x40) }

/-- States and operands that meet the hypotheses of MovesCarryTilesBetweenTiersAndQueues, clause by clause. -/
theorem test_MovesCarryTilesBetweenTiersAndQueues_witness :
    let i := moveAt 1 (moveCmd 1)
    let o := moveAt 2 (moveCmd 2)
    let y := moveAt 3 (moveCmd 3)
    let far := { moveCmd 1 with w3 := 0xFFFF700000000000 }
    let b := fs (fs (moveAt 2 bellCmd) WARD_SCFG_EN 1 1) WARD_SCFG_RING_LOG2 1 4
    (jobOf i 0 7 0x01 = some (0, moveCmd 1) ∧ isLocal i (moveCmd 1).imm = true ∧ (nth (units (moveCmd 1)) 0 []).headD [] = [0] ∧
      outPresent ((moveCmd 1).out 0) = true ∧ isDark i 0 = false ∧ canPush i 0 (moveCmd 1) 0 1 = true ∧
      moveGot (readTxns i false true 4096 (txns 4096 512)) = (0, 512) ∧ (stream i 0).st = .enabled ∧ (moveCmd 1).stopping = false ∧
      (meetErr i .none [(4096, 512)]).2 = none ∧ (meetErr i (.lost 4100) [(4096, 512)]).2.isSome = true ∧
      canPush (setQueue i 0 { head := 0, tail := 1 }) 0 { moveCmd 1 with outBase := [1, 0] } 0 1 = false) ∧
    (jobOf (moveAt 1 far) 0 7 0x01 = some (0, far) ∧ moveGot (readTxns i false true 0x700000000000 (txns (walkAddr far.imm (dSrcStride far.desc) [0]) 512)) = (0x11, 0)) ∧
    (jobOf o 0 7 0x02 = some (0, moveCmd 2) ∧ (match readIn o 0 (moveCmd 2) 0 0 with | .ok (_, bs) => bs.length == 512 | _ => false) = true ∧
      regionOf o (walkAddr (moveCmd 2).imm (dDstStride (moveCmd 2).desc) [0]) 512 = .tier1 ∧ regionOf o (-1) 1 = .unmapped ∧ (meetErr o .none (endRuns o 0 (moveCmd 2))).2 = none ∧ o.poison = [] ∧
      (0x1000 ≤ 0x10FF ∧ 0x10FF < 0x1000 + min 512 (256 - 0x1000 % 256) ∧ 0x10FF < wardBase) ∧
      regionOf o (wardBase + 0x1000 : Nat) 512 = .ward 0 ∧ storeGuarded o 0 0x1000 512 = false ∧ storeGuarded o 0 0x100 512 = true) ∧
    (jobOf b 0 7 0x02 = some (0, bellCmd) ∧ isDoorbell b (walkAddr bellCmd.imm (dDstStride bellCmd.desc) [0]) = some 1 ∧ fg b WARD_SCFG_EN 1 = 1 ∧
      (0 + 2 ^ 32 - fg b WARD_SFETCH_LOADED 1) % 2 ^ 32 ≤ ringCommands b 1 ∧ (0 + 2 ^ 32 - (stream b 1).avail) % 2 ^ 32 < 2 ^ 31 ∧ isDark b (1 / 8) = false) ∧
    (let r := { moveCmd 1 with w3 := 0x6000000001000 }
     let x := { moveAt 1 r with txns := [⟨0, 2, 0, 0, 6, 4096, 256, 0, none, false⟩] }
     isLocal x r.imm = false ∧ (cmdTxns x 0 0).length = 1 ∧ ((cmdTxns x 0 0).all (fun t => t.data.isSome)) = false ∧ (cmdTxns (moveAt 1 r) 0 0) = [] ∧
     0 ≤ walkAddr r.imm (dSrcStride r.desc) [0] ∧ walkAddr r.imm (dSrcStride r.desc) [0] + 512 ≤ 2 ^ 48) ∧
    (jobOf y 0 7 0x03 = some (0, moveCmd 3) ∧ isLocal y (dBase2 (moveCmd 3).desc) = true ∧ converts (moveCmd 3) = false ∧ y.poison = [] ∧ Memory.wf y = true ∧
      regionOf y (walkAddr (moveCmd 3).imm (dSrcStride (moveCmd 3).desc) [0]) 512 = .tier1 ∧
      regionOf y (walkAddr (dBase2 (moveCmd 3).desc) (dDstStride (moveCmd 3).desc) [0]) 512 = .tier1) := by decide

/-- States and operands that meet the hypotheses of PublishWritesItsOpenSlot, clause by clause. -/
theorem test_PublishWritesItsOpenSlot_witness :
    let c := { moveCmd 0x38 with slot := some 3, w3 := 0xFFFF000000001000 }
    let s := moveAt 1 c
    jobOf s 0 7 0x38 = some (0, c) ∧ c.stopping = false ∧ (meetErr s .none [(65536, 512)]).2 = none ∧ (meetErr s (.lost 65536) [(65536, 512)]).2.isSome = true ∧
    Memory.wf s = true ∧ c.slot.isSome = true ∧ isLocal s (dBase2 c.desc) = true ∧ s.poison = [] ∧ (stream s 0).st = .enabled ∧
    regionOf s (walkAddr (dBase2 c.desc) (dSrcStride c.desc) [0]) 512 = .tier1 ∧ 0 ≤ walkAddr c.imm (dDstStride c.desc) [0] ∧
    regionOf s (walkAddr c.imm (dDstStride c.desc) [0] + (tier2Base : Int)) 512 = .tier2 ∧
    jobOf (moveAt 1 { c with slot := none }) 0 7 0x38 = some (0, { c with slot := none }) := by decide

/-- A SEND of one tile of queue 0 into the own module's ward 0, queue 1, rank 0, round 0, window 2. -/
def sendCmd (chip : Nat) : Cmd :=
  { w0 := 0x30, w1 := 0x8000000000, w3 := BitVec.ofNat 64 (chip * 2 ^ 48 + 2 ^ 34 + 2 * 2 ^ 16), phase := .issued,
    desc := [0x21000000, 32, 0, 0, 0, 0x100000000], inBase := [0], inRes := [1], inPop := [0] }

def sendAt (c : Cmd) (s : State) : State :=
  let s0 := setStream { s with engines := [(6, [(0, 0)])] } 0 { st := .enabled, cmds := [c] }
  let s1 := fs (fs (fs s0 WARD_QCFG_EN 0 1) WARD_QCFG_DEPTH 0 1) WARD_QCFG_SLOT 0 1
  let s2 := fs (fs (fs s1 WARD_QCFG_EN 1 1) WARD_QCFG_DEPTH 1 2) WARD_QCFG_SLOT 1 1
  setQueue (fs (fs (fs s2 WARD_QBIND_PROD_WARD 1 0xFE) WARD_QARR_CFG_NRANK 1 1) WARD_QARR_CFG_WINDOW 1 2) 0 { tail := 1, resvPush := 1 }

/-- States and operands that meet the hypotheses of SendsKeepTheirWindow, clause by clause. -/
theorem test_SendsKeepTheirWindow_witness :
    let c := sendCmd 0xFFFF
    let s := sendAt c fourWards
    let far := sendCmd 6
    let r := sendAt far onFabric
    let full := setStream s 0 { stream s 0 with windows := [⟨0xFFFF, 0, 1, 0xFFFE, []⟩] }
    let open' := setStream r 0 { stream r 0 with windows := [⟨6, 0, 1, 0, []⟩] }
    let held := { c with aux := 1 }
    let tile := ({} : Hdr).bytes ++ padTo 32 0 []
    jobOf s 0 6 0x30 = some (0, c) ∧ (match readIn s 0 c 0 0 with | .ok (_, bs) => bs.length == 512 | _ => false) = true ∧
    (c.aux == 1) = false ∧ (held.aux == 1) = true ∧ jobOf (sendAt held fourWards) 0 6 0x30 = some (0, held) ∧
    (arrival s 1).slots = [] ∧ windowHolds s 0 c = false ∧ windowHolds full 0 c = true ∧ isLocal s c.imm = true ∧
    arrivalRefuses s 0 1 0 0 (ownChip s) 0 48 = false ∧ arrivalPoison s 0 1 0 0 48 0 tile = none ∧
    (engineMeets s 0 6 .none (endRuns s 0 c)).2 = none ∧ sendRemote (fs open' FAB_ROUTE_ALLOW 6 0) 0 far 0 tile = .fault 0x15 6 ∧ arrivalRefuses (fs s WARD_QARR_STAT_DRAIN_ROUND 1 1) 0 1 0 0 (ownChip s) 0 48 = true ∧
    isLocal r far.imm = false ∧ windowHolds open' 0 far = false ∧ ((stream open' 0).windows.find? (windowIs (sendDest open' far))).isSome = true ∧
    (match sendRemote open' 0 far 0 tile with | .ok t => (port t 0).retry.length == 1 | _ => false) = true := by decide

/-- A JOURNAL without an input tile on ward 0's first Mover. -/
def jnlCmd : Cmd := { w0 := 0x40, w3 := 1, desc := [0x21000000, 1040, 0, 0, 0, 0x100000000], phase := .issued, inBase := [0], inRes := [0], inPop := [0] }

def jnlAt (f : Flash) : State := setStream { fourWards with engines := [(6, [(0, 0)])], flash := f } 0 { st := .enabled, cmds := [jnlCmd] }

theorem recordDiff_self (a : List Byte) : recordDiff a a = none := by simp [recordDiff]

/-- States and operands that meet the hypotheses of JournalsAreCommittedOrCompared, clause by clause. -/
theorem test_JournalsAreCommittedOrCompared_witness :
    let s := jnlAt {}
    let replay := fun (bs : List Byte) => fs (jnlAt { records := [⟨0, bs⟩] }) JNL_REPLAY_EN 0 1
    let b := jnlAt { commits := [⟨0, 0, 0, [], true⟩, ⟨0, 1, 1, [], false⟩] }
    let zeros := List.replicate 1040 (0 : Byte)
    (jobOf s 0 6 0x40 = some (0, jnlCmd) ∧ (stream s 0).st = .enabled ∧ pfwActive s = false ∧ pfwActive (fs s JNL_STATUS_PFW_ACTIVE 0 1) = true ∧
      inUsed jnlCmd 0 = false ∧ fg s JNL_REPLAY_EN 0 = 0 ∧ fg (replay []) JNL_REPLAY_EN 0 = 1 ∧ s.flash.records.length + s.flash.commits.length < recordPlaces ∧
      (b.flash.commits.head?.map Commit.burning) = some true ∧ WaitingWrites b ∧ jnlCmd.sigEn = false ∧
      findCmd (stream b 0).cmds 0 = some jnlCmd ∧ workDone b 0 { jnlCmd with iter := 1 } = true) ∧
    journalInput s 0 jnlCmd = .ok zeros ∧ (engineMeets s 0 6 .none (endRuns s 0 jnlCmd)).2 = none ∧
    recordDiff (recordBody (replay []) 0 zeros) [] = some 4 ∧ (∀ a, recordDiff a a = none) ∧
    recordPlaces ≤ (List.replicate recordPlaces (⟨0, []⟩ : JRec)).length + 0 :=
  ⟨⟨by decide, by decide, by decide, by decide, by decide, by decide, by decide, by decide, by decide, ⟨by decide, by decide⟩, by decide, by decide, by decide⟩, rfl, by decide, by decide,
    recordDiff_self, by simp⟩

/-- An IMAGE of operation op of step 5 on ward 0's first Mover, its range 512 bytes at offset 4096. -/
def imgCmd (op : Nat) : Cmd :=
  { w0 := 0x41, w3 := BitVec.ofNat 64 (op * 2 ^ 56 + 5), desc := [0x21000000, 512, 0, 0xFFFF000000001000, 0, 0x100000000], phase := .issued,
    inBase := [0], inRes := [0], inPop := [0] }

def imgAt (op state : Nat) (f : Flash) : State :=
  fs (setStream { fourWards with engines := [(6, [(0, 0)])], flash := f } 0 { st := .enabled, cmds := [imgCmd op] }) JNL_IMG_STATUS_STATE 0 state

/-- An image of step 5 with one record of 512 bytes. -/
def someImage (at' : Nat) : Image := ⟨5, 0, 8, 0, 0, 80, [⟨[(4096, 512)], false, []⟩], at', 0, 0, none⟩

/-- States and operands that meet the hypotheses of ImagesAreTakenAndCommitted, clause by clause. -/
theorem test_ImagesAreTakenAndCommitted_witness :
    let at1 := imgAt 1 0 {}
    let wr' := fun (op : Nat) => imgAt op 1 { wip := some (someImage 0) }
    (∀ op ∈ [1, 2, 3, 4, 5], jobOf (imgAt op 1 {}) 0 6 0x41 = some (0, imgCmd op) ∧ imageOp (imgCmd op) = op ∧ imageStep (imgCmd op) = 5) ∧
    (pfwActive at1 = false ∧ fg at1 JNL_STATUS_T3_DEGRADED 0 = 0 ∧ at1.flash.wip = none ∧ (rd at1 JNL_IMG_CUR 0).toNat < 5 ∧ (rd (wr at1 JNL_IMG_CUR 0 0xFFFFFFFF) JNL_IMG_CUR 0).toNat = 2 ^ 32 - 1 ∧
      (stream at1 0).st = .enabled ∧ fg (fs at1 JNL_STATUS_T3_DEGRADED 0 1) JNL_STATUS_T3_DEGRADED 0 ≠ 0 ∧ (wr' 1).flash.wip ≠ none ∧
      pfwActive (fs at1 JNL_STATUS_PFW_ACTIVE 0 1) = true) ∧
    (∀ op ∈ [2, 3, 4], writingImage (wr' op) (imgCmd op) = some (someImage 0) ∧ isLocal (wr' op) (dBase2 (imgCmd op).desc) = true ∧
      writingImage (imgAt op 0 {}) (imgCmd op) = none) ∧
    ((∀ k ∈ (its (imgCmd 2)).map (walkAddr (dBase2 (imgCmd 2).desc) (dSrcStride (imgCmd 2).desc)), regionOf (wr' 2) k 512 = .tier1) ∧
      offsetOf (dBase2 (imgCmd 3).desc) + 2 ^ 24 ≤ tier1Size ∧ partialPoison (wr' 3) 4096 512 = none ∧
      partialPoison { wr' 3 with poison := [1024] } 4100 512 = some 4096 ∧ tier1Size < offsetOf 0xFFFF007800000000 + 2 ^ 24) ∧
    ((∃ x ∈ (imgAt 5 3 { images := [someImage 1] }).flash.images, x.step = 5) ∧ ∀ x ∈ (imgAt 5 3 {}).flash.images, x.step ≠ 5) ∧
    (let s := fs (wr' 4) PWR_FBU_BYTES_BYTES 5 512
     streamRun (someImage 0) (4096, 512) 512 = (4096, 512) ∧ poisonDetail s 4096 512 = none ∧ (meetErr s .none [(4096, 512)]).2 = none ∧
     (meetErr s (.lost 4096) [(4096, 512)]).2.isSome = true ∧ budgetCovers s 5 512 0 0 = true ∧ (someImage 0).sections[0]? = some ⟨[(4096, 512)], false, []⟩ ∧
       sumNat (s.flash.images.map Image.size) + (someImage 0).size + s.flash.orphans + 512 ≤ imageAreaBytes s ∧
       imageAreaBytes { s with flash := { s.flash with gib := 0 } } < 512 ∧ budgetCovers s 5 512 1000000 0 = false) ∧
    (let s := imgAt 4 2 { wip := some (someImage 1) }
     fg s JNL_IMG_STATUS_STATE 0 = 2 ∧ (someImage 1).sections.length ≤ (someImage 1).atSec ∧ lostSection (flashEvents s []) 5 = false ∧
       lostSection { s with flash := { s.flash with lost := [.image 5 0] } } 5 = true ∧ (someImage 0).atSec < (someImage 0).sections.length) := by decide

/-- States and operands that meet the hypotheses of ShadowSamplesAreCheckedOrSkipped, clause by clause. -/
theorem test_ShadowSamplesAreCheckedOrSkipped_witness :
    let x : Sample := ⟨0, 0xFF00, 3, [0x3F800000], [0x3F800000]⟩
    let s : State := { fourWards with samples := [x] }
    let c := fs (setPward s ((freeWards s 0).headD 0) { pward s ((freeWards s 0).headD 0) with st := 0, stage := 0 }) PWR_FBU_LIM_SLOTS 6 4
    s.samples = [x] ∧ budgetCovers c 6 0 5 0 = false ∧ budgetCovers c 6 0 4 0 = true ∧ freeWards c (districtOf c 0) ≠ [] ∧
    (pward c ((freeWards c 0).headD 0)).st = 0 ∧ (pward c ((freeWards c 0).headD 0)).stage = 0 ∧
    (pward (setPward s ((freeWards s 0).headD 0) { pward s 4 with st := 4 }) ((freeWards s 0).headD 0)).st ≠ 0 ∧
    freeWards (setDist c 0 { take := [(0, 4)] }) 0 = [] ∧
    shadowBucket (shadowDeviation x.y x.r) = 0 ∧ shadowBucket (shadowDeviation [0x40000000] x.r) = 15 ∧ (fourWards.samples = []) := by decide

/-- States and operands that meet the hypotheses of BackgroundWorkKeepsToItsBudget, clause by clause. -/
theorem test_BackgroundWorkKeepsToItsBudget_witness :
    let on := fun (a : Nat) => fs (fs fourWards PWR_FBU_BYTES_BYTES a 4096) PWR_FBU_LIM_ENERGY a 9
    (on 0).scrubs.length = 3 ∧ fg (on 0) MOD_T1_CFG_LOCAL_GIB 0 ≤ 24 ∧ budgetCovers (on 0) 0 4096 0 9 = true ∧ budgetCovers (on 0) 0 4096 0 10 = false ∧
    (scrubClass 3 = 0 ∧ scrubClass 6 = 1 ∧ scrubClass 7 = 2) ∧ 19 < scrubUnits (on 0) 1 ∧ 31 < scrubUnits (on 0) 4 ∧ 19 < scrubUnits (on 0) 9 ∧
    scrubPlace (on 0) 1 0 64 = (0, 64) ∧ scrubAddr (on 0) 1 0 64 = 64 ∧ sectorOf 64 = 64 ∧ poisoned (on 0) 64 64 = false ∧
    (31 ∈ ({ on 2 with links := { due := [31] } } : State).links.due) ∧ budgetCovers (on 2) 2 0 0 9 = true ∧ budgetCovers (on 2) 2 0 0 10 = false ∧
    30 ∉ (on 2).links.due ∧ pfwActive (on 1) = false ∧ budgetCovers (on 1) 1 4096 0 0 = true ∧ budgetCovers (on 3) 3 4096 0 0 = true ∧
    budgetCovers (on 1) 1 4097 0 0 = false ∧ pfwActive (fs (on 1) JNL_STATUS_PFW_ACTIVE 0 1) = true ∧ badBlock (on 1) (blockKey false 7) = false ∧
    slcBlock (blockKey true 0) = true ∧ slcBlock (blockKey false 7) = false := by decide

theorem test_ConfigRecordCommit_witness :
    McIdle fourWards ∧ fourWards.flash.protect = false ∧ pfwActive fourWards = false ∧ fourWards.store.compact = none ∧ fourWards.store.recs < 1024 ∧
    fourWards.store.gens.length = 2 ∧ liveEntries fourWards ≠ 0 ∧ storeHalf { fourWards.store with gens := [some 0, some 1] } = 1 :=
  ⟨⟨rfl, rfl, rfl, rfl, rfl⟩, by decide⟩

/-- States and operands that meet the hypotheses of StreamsAreEnabledRungAndStopped, clause by clause. -/
theorem test_StreamsAreEnabledRungAndStopped_witness :
    let s := fs fourWards MC_STATUS_JOB 0 1
    let on := fs (setStream s 639 { st := .enabled }) WARD_SCFG_EN 639 1
    let r := fs on WARD_SCFG_RING_LOG2 639 4
    639 / 8 < wardCount s ∧ fg s WARD_SCFG_EN 639 = 0 ∧ hasJob s = true ∧
    (∃ v : Word, let s1 := writeFields s WARD_SCFG 639 (withField v 31 31 0)
      (fg s1 WARD_SCFG_VERSION 639 = 3 ∧ ringOk s1 639 = true)) ∧ hasJob fourWards = false ∧
    (fg on WARD_SCFG_EN 639 = 1 ∧ (stream on 639).st = .enabled ∧ isIdle on 639 = true ∧ (stream on 639).req = [] ∧ changes on 639 0x03040000 scfgGuarded = false ∧
      isIdle (setStream on 639 { st := .enabled, avail := 1 }) 639 = false) ∧
    ((16 % 2 ^ 32 + 2 ^ 32 - fg r WARD_SFETCH_LOADED 639) % 2 ^ 32 ≤ ringCommands r 639 ∧ (16 % 2 ^ 32 + 2 ^ 32 - (stream r 639).avail) % 2 ^ 32 < 2 ^ 31 ∧
      ringCommands r 639 < (17 % 2 ^ 32 + 2 ^ 32 - fg r WARD_SFETCH_LOADED 639) % 2 ^ 32) ∧ 20479 / 256 < wardCount s :=
  ⟨by decide, by decide, by decide, ⟨0x03040000, by decide⟩, by decide, by decide, by decide, by decide⟩

/-- States and operands that meet the hypotheses of QueuesAreEnabledWherePlacementAllows, clause by clause. -/
theorem test_QueuesAreEnabledWherePlacementAllows_witness :
    let v := rd (fs (fs (fs fourWards WARD_QCFG_DEPTH 5119 255) WARD_QCFG_SLOT 5119 1) WARD_QCFG_HOME 5119 1) WARD_QCFG 5119
    let s1 := wr fourWards WARD_QCFG 5119 (withField v 31 31 0)
    let bad := wr fourWards WARD_QCFG 5119 0
    let on := fs s1 WARD_QCFG_EN 5119 1
    let held := setStream on 639 { st := .enabled, cmds := [{ w0 := 0xFF3F00000000, phase := .issued, outBase := [0, 0], outRes := [1, 0] }] }
    5119 / 64 < wardCount fourWards ∧ placeBad s1 5119 = false ∧ pinBad s1 5119 = false ∧ placeBad bad 5119 = true ∧ fg fourWards WARD_QCFG_EN 5119 = 0 ∧
    fg on WARD_QCFG_EN 5119 = 1 ∧ qHeld on 5119 = false ∧ changes on 5119 v [WARD_QCFG_HOME, WARD_QCFG_BASE, WARD_QCFG_DEPTH, WARD_QCFG_SLOT] = false ∧
    changes on 5119 0 [WARD_QCFG_HOME, WARD_QCFG_BASE, WARD_QCFG_DEPTH, WARD_QCFG_SLOT] = true ∧ qHeld held 5119 = true := by decide

/-- States and operands that meet the hypotheses of PagesAndSlotsAreGivenUnderTheirRules, clause by clause. -/
theorem test_PagesAndSlotsAreGivenUnderTheirRules_witness :
    let on := fun (seqs : List PSeq) => { fs (fs (fs fourWards MOD_PPOOL_CFG_EN 0 1) MOD_PPOOL_CFG_PAGES 0 1) MOD_PPOOL_CFG_PAGE_UNITS 0 1 with
      pool := { seqs := seqs, use := 2 ^ 32 - 1 } }
    let old : PSeq := ⟨7, 0, false, [0], false⟩
    let v : Word := 0x00010001
    fg (on []) MOD_PPOOL_CFG_EN 0 = 1 ∧ freePage (on []) (on []).pool = some 0 ∧ (on []).pool.seqs.length < 4096 ∧
    (freePage (on [old]) (on [old]).pool = none ∧ poolVictim (on [old]).pool 9 = some old ∧
      freePage (on [old]) (putPseq (on [old]).pool { old with pages := [], evicted := true }) = some 0) ∧
    (poolVictim (on [{ old with pin := true }]).pool 9 = none ∧ freePage (on [{ old with pin := true }]) (on [{ old with pin := true }]).pool = none) ∧
    (pseqOf (on [old]) 7 = some old ∧ old.tracked = true) ∧ fg fourWards MOD_PPOOL_CFG_EN 0 = 0 ∧
    (fieldIn v MOD_PPOOL_CFG_PAGES = 1 ∧ fieldIn v MOD_PPOOL_CFG_PAGE_UNITS = 1 ∧ poolBase fourWards + 65536 ≤ tier1Size) ∧
    slotState fourWards 15 = 0 ∧ slotState (fs fourWards MOD_T2SLOT_CTL_STATE 15 2) 15 = 2 := by decide

/-- States and operands that meet the hypotheses of KernelStoreWritesAreGuarded, clause by clause. -/
theorem test_KernelStoreWritesAreGuarded_witness :
    79 < wardCount fourWards ∧ McIdle fourWards ∧ (0x10000 % 4 = 0 ∧ ¬(0x10000 < 0x10000 ∨ (0x20000 ≤ 0x10000 ∧ 0x10000 < 0x28000))) ∧
    (∀ k, k < 8 → fg fourWards WARD_SCFG_EN (8 * 79 + k) ≠ 1) ∧ (∃ k, k < 8 ∧ fg (fs fourWards WARD_SCFG_EN 639 1) WARD_SCFG_EN (8 * 79 + k) = 1) :=
  ⟨by decide, ⟨rfl, rfl, rfl, rfl, rfl⟩, by decide, by decide, ⟨7, by decide, by decide⟩⟩

/-- States and operands that meet the hypotheses of ControlWritesFollowTheirRegisters, clause by clause. -/
theorem test_ControlWritesFollowTheirRegisters_witness :
    (below (wardCount fourWards)).any (anyEnabled fourWards) = false ∧ wardCount fourWards = 80 ∧ kstoreLibrary 0x3FFFC = false ∧
    (below (wardCount fourWards)).any (anyEnabled (fs fourWards WARD_SCFG_EN 639 1)) = true ∧
    79 ∈ ({ fourWards with ksReq := [79] } : State).ksReq ∧ wardResetBad fourWards 79 = false ∧
    wardResetBad (fs fourWards WARD_RST_BUSY 79 1) 79 = true ∧
    (busMem fourWards 0x70FF8 = .none ∧ regAt 0x70FF8 = some (MOD_GBIN_STAT, 255) ∧ beyond fourWards MOD_GBIN_STAT 255 = false ∧
      MOD_GBIN_STAT ∉ ruledRegs) ∧
    McIdle fourWards := ⟨by decide, by decide, by decide, by decide, by decide, by decide, by decide, by decide, ⟨rfl, rfl, rfl, rfl, rfl⟩⟩

/-- A request packet of an opcode, tier and parameters: version 2, sequence number 7. -/
def packetOf (op tier : Nat) (par : List Byte) : List Byte :=
  let b := toBytesLE 1 2 ++ toBytesLE 1 op ++ toBytesLE 2 7 ++ toBytesLE 2 par.length ++ toBytesLE 1 tier ++ [0] ++ par
  b ++ toBytesLE 4 (crc32 b)

/-- A module reached over Ethernet. -/
def served : State := { fourWards with store := { fourWards.store with base := [(0x0300, 0x0A000002)] } }

def req (op tier : Nat) (par : List Byte) : Req := ⟨(2, 5), packetOf op tier par⟩

/-- States and operands that meet the hypotheses of ReadPacketsReplyWithTheirRecords, clause by clause. -/
theorem test_ReadPacketsReplyWithTheirRecords_witness :
    (∀ x ∈ [(0x00, ([] : List Byte)), (0x01, []), (0x02, []), (0x20, []), (0x42, []), (0x53, []), (0x70, []), (0x90, []), (0x10, [0xFE, 0, 0, 0]),
        (0x10, [0xFD, 0, 0, 0]), (0x10, [15, 0, 0, 0]), (0x32, [64, 0, 0, 0]), (0x40, [0, 0, 0, 0, 64, 0, 0, 0]), (0x52, [0xFF, 0xFF, 1, 0]),
        (0x61, [79, 7, 0, 0]), (0x71, [3, 0, 0, 0]), (0xA2, [63, 64, 0, 0]), (0xA4, [0xFC, 0xFF, 0xFF, 3, 1, 0, 0, 0])],
      Accepted served (req x.1 0 x.2) x.1 ∧ (req x.1 0 x.2).par = x.2) ∧
    Accepted fourWards ⟨(0, 9), packetOf 0x02 0 []⟩ 0x02 ∧ Accepted fourWards ⟨(3, 0), packetOf 0x02 0 []⟩ 0x02 ∧
    framed [1, 2, 3] = false ∧ headerBad (req 0x03 0 []) = some (0x11, 0) ∧ keptFor served (req 0x03 0 []) = none := by decide

/-- States and operands that meet the hypotheses of WritePacketsTakeEffect, clause by clause. -/
theorem test_WritePacketsTakeEffect_witness :
    let item : List Byte := [0xFE, 1, 0, 0, 2, 0, 0, 0] ++ toBytesLE 4 0x00000101
    (∀ x ∈ [(0x11, item), (0x11, [15, 1, 0, 0, 3, 0, 0, 0, 16, 0, 0, 0]), (0x12, [15, 0, 0, 0]), (0x13, [0xFF, 0, 0, 0]), (0x21, [1, 1, 0, 0]),
        (0x22, [6, 0, 0, 0, 1, 0, 0, 0, 2, 0, 3, 0]), (0x41, [9, 0, 0, 0]), (0x50, [5, 0, 9, 0]), (0x51, [0xFF, 0xFF, 1, 0, 1, 0, 0, 0xC0]),
        (0x54, [27, 0, 0, 0]), (0x55, [27, 0, 0xFF, 0x0F]), (0xA5, [0xF8, 0x0F, 7, 0, 1, 0, 0, 0, 0, 0, 0, 0x80])],
      Accepted served (req x.1 0 x.2) x.1 ∧ (req x.1 0 x.2).par = x.2) ∧
    cfgItems item = [(0x0002, 0x101)] ∧ itemIn (overlayItems served.store (overlayNext served)) 0x0002 = none ∧ ctrlOk 0x101 = true ∧
    hasJob served = false ∧ hasJob (fs served MC_STATUS_JOB 0 1) = true ∧ Accepted (fs served MC_STATUS_JOB 0 1) (req 0x50 0 [5, 0, 9, 0]) 0x50 ∧
    portState (setPortState served 27 6) 27 = 6 ∧ portState served 27 ≠ 6 ∧
    (busMem served 0x70FF8 = .none ∧ regAt 0x70FF8 = some (MOD_GBIN_STAT, 255) ∧ beyond served MOD_GBIN_STAT 255 = false ∧ MOD_GBIN_STAT ∉ ruledRegs) := by decide

/-- The served module with a packet whose record the configuration store programs next. -/
def storingOf (packet : List Byte) : State :=
  { served with mc := { served.mc with storing := some ((2, 5), packet) }, store := { served.store with queue := [.packet] } }

theorem test_storing_witness :
    (∀ x ∈ [(0x11, [0xFE, 1, 0, 0, 2, 0, 0, 0, 1, 1, 0, 0]), (0x12, [(15 : Byte), 0, 0, 0]), (0x84, List.replicate 128 0)],
      Storing (storingOf (packetOf x.1 0 x.2)) (req x.1 0 x.2) x.1) ∧ served.flash.protect = false := by decide

theorem test_protected_store_witness :
    Accepted { served with flash := { protect := true } } (req 0x12 0 [15, 0, 0, 0]) 0x12 ∧
    ({ served with flash := { protect := true } } : State).flash.protect = true := by decide

def readyModule : State := fs served MC_STATUS_READY 0 1
def withJob : State := fs readyModule MC_STATUS_JOB 0 1
def jobPlan : List Byte := [1, 0, 0, 0, 2, 0, 0, 0, 3, 0, 0, 0, 16, 80, 1, 0xFF, 0, 0, 0, 0, 0, 0, 0, 0]
def oneStream (x : StreamSt) : State := setStream withJob 639 { st := x }
def abortReq : Req := req 0x60 0 [79, 7, 0, 0]
def abortWaits : State :=
  setStream { withJob with mc := { withJob.mc with waiting := [⟨abortReq.src, abortReq.raw, [639], [], false⟩] } } 639
    { st := .aborting, abort := some ⟨false, 0, 0, 0⟩ }

/-- States and operands that meet the hypotheses of JobsAreAssignedAndStreamsStopped, clause by clause. -/
theorem test_JobsAreAssignedAndStreamsStopped_witness :
    (Accepted readyModule (req 0x30 0 jobPlan) 0x30 ∧ (req 0x30 0 jobPlan).par = jobPlan ∧ Accepted withJob (req 0x30 0 jobPlan) 0x30) := by decide

theorem test_unassignment_witness :
    (Accepted served (req 0x31 0 []) 0x31 ∧ hasJob served = false ∧ Accepted withJob (req 0x31 0 []) 0x31 ∧ hasJob withJob = true ∧ withJob.streams.length = 0) ∧
    (Accepted (oneStream .enabled) (req 0x31 0 []) 0x31 ∧ (stream (oneStream .enabled) 639).st = .enabled) := by decide

theorem test_unassignment_writes_witness : WaitingWrites withJob := ⟨by decide, by decide⟩

theorem test_stream_abort_witness :
    (∀ x ∈ [StreamSt.disabled, StreamSt.faulted, StreamSt.aborted, StreamSt.enabled], Accepted (oneStream x) abortReq 0x60 ∧
      (stream (oneStream x) 639).st = x) ∧ streamOf abortReq.par = 639 := by decide

theorem test_abort_all_and_reset_witness :
    (Accepted withJob (req 0x62 0 []) 0x62 ∧ Accepted (oneStream .enabled) (req 0x62 0 []) 0x62 ∧ Accepted withJob (req 0xA0 0 [0, 0, 0, 0]) 0xA0 ∧
      Accepted (oneStream .enabled) (req 0xA0 0 [1, 0, 0, 0]) 0xA0 ∧ Accepted served (req 0xA0 0 [0, 0, 0, 0]) 0xA0 ∧ fg served THM_STATUS_COOLANT_STOP 0 = 0) := by decide

theorem test_abort_answer_witness :
    (abortReq.op = 0x60 ∧ abortWaits.mc.inbox = [] ∧ abortWaits.mc.held = false ∧ (stream abortWaits 639).st = .aborting ∧
      (stream abortWaits 639).cmds = [] ∧ streamTxns abortWaits 639 = []) := by decide

/-- A module in good order can take a job. -/
theorem test_job_can_be_assigned :
    let s := (below 20).foldl (fun t d => fs t PWR_SREG_NEXT_LOGICAL d 4) readyModule
    assignBad { s with fuses := { s.fuses with grade := 80 } } jobPlan = none := by decide

/-- The served module with its loop closed and the presence window open. -/
def owned : State := fs (fs served MC_STATUS_LOOP_CLOSED 0 1) MC_STATUS_PRESENCE_OPEN 0 1

def withBank (b : Bank) : State := { owned with banks := [{}, b] }

/-- States and operands that meet the hypotheses of FirmwareKeysAndErasureFollowTheirRules, clause by clause. -/
theorem test_FirmwareKeysAndErasureFollowTheirRules_witness :
    (∀ x ∈ [(0x72, 0, [5, 0, 0, 0]), (0x80, 0, [0, 2, 0, 0, 1, 0, 0, 0]), (0x81, 0, [0, 0, 0, 0, 1, 2, 3, 4]), (0x82, 0, []), (0x83, 0, [0, 0, 0, 0]), (0x83, 1, [1, 0, 0, 0]),
        (0x92, 1, []), (0x93, 1, []), (0x94, 1, []), (0xA1, 0, []), (0xA3, 1, [])], Accepted owned (req x.1 x.2.1 x.2.2) x.1) ∧
    (∀ x ∈ [(0x83, 0, [(0 : Byte), 0, 0, 0]), (0x93, 1, []), (0x94, 1, []), (0xA1, 0, []), (0xA3, 1, [])],
      Accepted (fs owned MC_STATUS_JOB 0 1) (req x.1 x.2.1 x.2.2) x.1) := by decide

theorem test_security_state_witness :
    restoreBad owned 5 = some 6 ∧ (bankOf (withBank { standing := 1, length := 4 }) (otherBank owned)).standing = 1 ∧
    (bankOf (withBank { standing := 2 }) 1).standing = 2 ∧ policyAdmits owned 1 = false ∧ hasJob owned = false ∧
    hasJob (fs owned MC_STATUS_JOB 0 1) = true ∧ owned.store.fail.closed = false ∧ fg owned MOD_SELFTEST_RUNNING 0 = 0 ∧
    fg (fs owned MC_STATUS_SEAL 0 2) MC_STATUS_SEAL 0 = 2 ∧ fg (fs owned MC_SEC_KEYS_REFUSED 0 1) MC_SEC_KEYS_REFUSED 0 = 1 := by decide

theorem test_staged_bank_witness :
    Accepted (withBank { standing := 1, length := 4 }) (req 0x81 0 [0, 0, 0, 0, 1, 2, 3, 4]) 0x81 ∧
    (∀ tier ∈ [0, 1], Accepted (withBank { standing := 2 }) (req 0x83 tier [0, 0, 0, 0]) 0x83) := by decide

theorem test_long_operation_witness :
    let l := { owned with mc := { owned.mc with longOp := some 0x94 } }
    McIdle l ∧ l.mc.longOp = some 0x94 ∧ lostSection (flashEvents l []) l.mc.longParam = false := by decide

/-- A policy and a key packet are accepted as packets; a user key slot is set or cleared. -/
theorem test_key_packets_accepted :
    Accepted owned (req 0x91 1 ([3, 0, 0, 0] ++ List.replicate 97 1 ++ [0, 0, 0])) 0x91 ∧
    Accepted (fs owned MC_STATUS_SEAL 0 2) (req 0x91 1 ([3, 1, 0, 0] ++ List.replicate 97 1 ++ [0, 0, 0])) 0x91 ∧
    Accepted owned (req 0x84 0 (List.replicate 128 0)) 0x84 ∧ policyGood owned (List.replicate 128 0) = false := by decide

/-- States and operands that meet the hypotheses of PinsAndProtocolMessagesAreFollowed, clause by clause. -/
theorem test_PinsAndProtocolMessagesAreFollowed_witness :
    let armed := fs fourWards MC_STATUS_SEAL 0 1
    (owned.mc.present = false ∧ { owned.mc with present := true }.present = true) ∧
    (armed.mc.windowMs = 0 ∧ fg armed MC_STATUS_SEAL 0 = 1 ∧ armed.mc.sealOpen < 9 ∧ fg fourWards MC_STATUS_SEAL 0 ≠ 1 ∧
      { armed.mc with sealOpen := 9 }.sealOpen = 9 ∧ armed.store.fail.closed = false) := by decide

theorem test_protocol_messages_witness :
    mctpOn served 0 = true ∧ mctpOn served 2 = false ∧ baseItem served.store.base 0x0300 = 0x0A000002 ∧ baseItem fourWards.store.base 0x0300 = 0 ∧
    served.mc.held = false ∧ unacked served = 0 ∧ unacked { served with mc := { served.mc with events := [⟨0, 0, false, 1, 0, 0, 0, 0⟩] } } > 0 := by decide

theorem test_echo_checksum : onesSum ([0, 0] ++ toBytesBE 2 (0xFFFF - onesSum [0x12, 0x34, 0, 1, 0xFF]) ++ [0x12, 0x34, 0, 1, 0xFF]) = 0xFFFF := by decide

/-- The served module with a request packet in its mailbox's request buffer. -/
def mailed (bs : List Byte) : State := memWrite served (ctrlBase + mboxRequest) bs

/-- States and operands that meet the hypotheses of PacketsAreCheckedQueuedAndKept, clause by clause. -/
theorem test_PacketsAreCheckedQueuedAndKept_witness :
    let bad := req 0x03 0 []
    let old := req 0x30 0 jobPlan
    let kept := { served with mc := { served.mc with kept := [⟨old.src, old.seq, old.crc, [1, 2, 3]⟩] } }
    (reachable served 2 = true ∧ McIdle served ∧ framed [1, 2, 3] = false ∧ framed bad.raw = true ∧ keptFor served bad = none ∧
      headerBad bad = some (0x11, 0) ∧ reachable served 1 = false ∧ headerBad old = none) ∧
    (framed old.raw = true ∧ keptFor kept old = some ⟨old.src, old.seq, old.crc, [1, 2, 3]⟩ ∧ reachable kept 2 = true ∧ McIdle kept) := by decide

theorem test_busy_queue_witness :
    let s := { served with mc := { served.mc with inbox := List.replicate 32 ((2, 5), []), waiting := [⟨(2, 5), packetOf 0x31 0 [], [639], [], false⟩] } }
    reachable s 2 = true ∧ (req 0x02 0 []).op = 0x02 ∧ framed (req 0x02 0 []).raw = true ∧ 32 ≤ s.mc.inbox.length ∧ unassigning s = true ∧ s.mc.storing = none ∧
    s.mc.waiting.all (fun w => !w.streams.isEmpty) = true := by decide

theorem test_mailbox_witness :
    let s := mailed (packetOf 0x42 0 [])
    let r : Req := ⟨(3, 0), memRead s (ctrlBase + mboxRequest) 12⟩
    McIdle s ∧ fg s MC_MBOX_BUSY 0 = 0 ∧ fg s MC_MBOX_DONE 0 = 0 ∧ r.raw = packetOf 0x42 0 [] ∧ keptFor s r = none ∧ refusal s r = none ∧ r.op = 0x42 ∧
    fieldIn (0x20000000 : Word) MC_MBOX_DONE = 1 ∧ fieldIn (0 : Word) MC_MBOX_DONE = 0 ∧ fg (fs s MC_MBOX_DONE 0 1) MC_MBOX_DONE 0 = 1 ∧
    refusal s ⟨(3, 0), packetOf 0x50 0 [0, 0, 0, 0]⟩ = some (0x13, 0) := by decide

end Sys2Proof.Machine
end

section
/-!
SUPPORT. Registers and bytes written and read back: registers told apart by their numbers, what a write by the access codes leaves in each field
(00, R12), what a fold over the state keeps, and a run of bytes read where it was written.
-/

namespace Sys2Proof.Machine

/-! ### Register keys -/

/-- Registers of different numbers have different keys. -/
theorem key_ne_of_no {r r' : Reg} (ne : r.no ≠ r'.no) (i j : Nat) : r.key i ≠ r'.key j := by
  unfold Reg.key; omega

theorem rd_wr_of_no (s : State) (r r' : Reg) (i j : Nat) (v : Word) (ne : r'.no ≠ r.no) : rd (wr s r i v) r' j = rd s r' j :=
  rd_wr_other s r r' i j v (key_ne_of_no ne j i)

theorem fg_wr_of_no (s : State) (r : Reg) (f : Fld) (i j : Nat) (v : Word) (ne : f.reg.no ≠ r.no) : fg (wr s r i v) f j = fg s f j := by
  unfold fg; rw [rd_wr_of_no s r f.reg i j v ne]

theorem fg_fs_of_no (s : State) (f g : Fld) (i j v : Nat) (ne : g.reg.no ≠ f.reg.no) : fg (fs s f i v) g j = fg s g j :=
  fg_wr_of_no s f.reg g i j _ ne

theorem rd_fs_of_no (s : State) (f : Fld) (r : Reg) (i j v : Nat) (ne : r.no ≠ f.reg.no) : rd (fs s f i v) r j = rd s r j :=
  rd_wr_of_no s f.reg r i j _ ne

theorem fg_of_regs {s t : State} (h : t.regs = s.regs) (f : Fld) (i : Nat) : fg t f i = fg s f i := by unfold fg rd; rw [h]

/-- A field of a word keeps its value where another field of that word is set. -/
theorem fg_fs_apart (s : State) (f g : Fld) (i v : Nat)
    (apart : g.reg = f.reg ∧ f.lo ≤ f.hi ∧ f.hi ≤ 31 ∧ g.lo ≤ g.hi ∧ (g.hi < f.lo ∨ f.hi < g.lo)) : fg (fs s f i v) g i = fg s g i := by
  obtain ⟨reg, ord, top, ord', apart⟩ := apart
  exact fg_fs_field s f g i v reg ord top ord' apart

/-! ### Registers kept -/

theorem RegsKept.of_regs {s t : State} (but : List (Reg × Nat)) (h : t.regs = s.regs) : RegsKept s t but := fun _ _ => by rw [h]

theorem RegsKept.wr {s t : State} {but : List (Reg × Nat)} (h : RegsKept s t but) {r : Reg} {i : Nat} (v : Word) (named : (r, i) ∈ but) :
    RegsKept s (wr t r i v) but := fun k hk =>
  (sget_sset_other _ _ _ _ (hk (r, i) named)).trans (h k hk)

theorem RegsKept.fs {s t : State} {but : List (Reg × Nat)} (h : RegsKept s t but) {f : Fld} {i : Nat} (v : Nat) (named : (f.reg, i) ∈ but) :
    RegsKept s (fs t f i v) but := h.wr _ named

/-! ### A word written by its access codes (00, R12) -/

/-- Fields of one word that share no bit. -/
def FDef.apart (f g : FDef) : Bool := decide (f.hi < g.lo) || decide (g.hi < f.lo)

/-- A register's fields lie within its word and share no bit. -/
def Reg.tidy (r : Reg) : Bool :=
  r.fields.all (fun f => decide (f.lo ≤ f.hi) && decide (f.hi ≤ 31)) && decide (r.fields.Pairwise (fun f g => f.apart g = true))

/-- What a field of an access code holds after v is written over old. -/
def Acc.written (a : Acc) (old v : Nat) : Nat :=
  match a with
  | .rw => v
  | .w1c => old - (old &&& v)
  | _ => old

/-- One field's part of a write, as writeWord folds it. -/
def writeField (old v w : Word) (f : FDef) : Word :=
  match f.acc with
  | .rw => withField w f.hi f.lo (fieldOf v f.hi f.lo)
  | .w1c => withField w f.hi f.lo (fieldOf old f.hi f.lo - (fieldOf old f.hi f.lo &&& fieldOf v f.hi f.lo))
  | _ => w

theorem writeWord_eq_foldl (r : Reg) (old v : Word) : writeWord r old v = r.fields.foldl (writeField old v) old := rfl

theorem fieldOf_lt (w : Word) (hi lo : Nat) : fieldOf w hi lo < 2 ^ (hi + 1 - lo) := Nat.mod_lt _ (by positivity)

theorem fg_lt (s : State) (f : Fld) (i : Nat) : fg s f i < 2 ^ (f.hi + 1 - f.lo) := fieldOf_lt _ _ _

theorem fieldOf_writeField_apart (old v w : Word) (f g : FDef) (ord : f.lo ≤ f.hi) (top : f.hi ≤ 31) (ord' : g.lo ≤ g.hi)
    (h : f.apart g = true) : fieldOf (writeField old v w f) g.hi g.lo = fieldOf w g.hi g.lo := by
  have apart : g.hi < f.lo ∨ f.hi < g.lo := by simpa [FDef.apart, or_comm] using h
  unfold writeField
  split
  · exact fieldOf_withField_other _ _ _ _ _ _ ord top ord' apart
  · exact fieldOf_withField_other _ _ _ _ _ _ ord top ord' apart
  · rfl

theorem fieldOf_writeField_same (old v w : Word) (f : FDef) (ord : f.lo ≤ f.hi) (top : f.hi ≤ 31)
    (unwritten : fieldOf w f.hi f.lo = fieldOf old f.hi f.lo) :
    fieldOf (writeField old v w f) f.hi f.lo = f.acc.written (fieldOf old f.hi f.lo) (fieldOf v f.hi f.lo) := by
  have hv := fieldOf_lt v f.hi f.lo
  have ho := fieldOf_lt old f.hi f.lo
  unfold writeField Acc.written
  split
  · rw [fieldOf_withField_same _ _ _ _ ord top, Nat.mod_eq_of_lt hv]
  · rw [fieldOf_withField_same _ _ _ _ ord top, Nat.mod_eq_of_lt (by omega)]
  · exact unwritten

theorem fieldOf_foldl_writeField_apart (old v w : Word) (g : FDef) (ord' : g.lo ≤ g.hi) (fields : List FDef)
    (ok : ∀ f ∈ fields, f.lo ≤ f.hi ∧ f.hi ≤ 31 ∧ f.apart g = true) :
    fieldOf (fields.foldl (writeField old v) w) g.hi g.lo = fieldOf w g.hi g.lo := by
  induction fields generalizing w with
  | nil => rfl
  | cons f fields ih =>
    obtain ⟨ord, top, apart⟩ := ok f (by simp)
    rw [List.foldl_cons, ih _ (fun x hx => ok x (by simp [hx])), fieldOf_writeField_apart old v w f g ord top ord' apart]

theorem FDef.apart_comm (f g : FDef) : f.apart g = g.apart f := by simp [FDef.apart, Bool.or_comm]

/-- Every field of a written register holds what its access code makes of it. -/
theorem fieldOf_writeWord (r : Reg) (old v : Word) (f : FDef) (tidy : r.tidy = true) (mem : f ∈ r.fields) :
    fieldOf (writeWord r old v) f.hi f.lo = f.acc.written (fieldOf old f.hi f.lo) (fieldOf v f.hi f.lo) := by
  rw [writeWord_eq_foldl]
  simp only [Reg.tidy, Bool.and_eq_true, List.all_eq_true, decide_eq_true_eq] at tidy
  obtain ⟨within, pairwise⟩ := tidy
  obtain ⟨before, after, parts⟩ := List.append_of_mem mem
  rw [parts] at within pairwise ⊢
  obtain ⟨-, later, earlier⟩ := List.pairwise_append.mp pairwise
  obtain ⟨ord, top⟩ := within f (by simp)
  rw [List.foldl_append, List.foldl_cons, fieldOf_foldl_writeField_apart old v _ f ord after,
    fieldOf_writeField_same old v _ f ord top]
  · refine fieldOf_foldl_writeField_apart old v old f ord before (fun g hg => ?_)
    exact ⟨(within g (by simp [hg])).1, (within g (by simp [hg])).2, earlier g hg f (by simp)⟩
  · intro g hg
    exact ⟨(within g (by simp [hg])).1, (within g (by simp [hg])).2, by rw [FDef.apart_comm]; exact (List.pairwise_cons.mp later).1 g hg⟩

theorem fg_writeFields (s : State) (f : Fld) (i : Nat) (v : Word) (acc : Acc) (reset : Nat) (tidy : f.reg.tidy = true)
    (mem : ⟨f.hi, f.lo, acc, reset⟩ ∈ f.reg.fields) : fg (writeFields s f.reg i v) f i = acc.written (fg s f i) (fieldIn v f) := by
  unfold writeFields fg fieldIn
  rw [rd_wr_same]
  exact fieldOf_writeWord f.reg (rd s f.reg i) v ⟨f.hi, f.lo, acc, reset⟩ tidy mem

/-! ### Folds over the state -/

/-- What every step of a fold keeps, the fold keeps. -/
theorem foldl_keeps {α β : Type} (g : State → β) (f : State → α → State) (keep : ∀ t a, g (f t a) = g t) (xs : List α) (s : State) :
    g (xs.foldl f s) = g s := by
  induction xs generalizing s with
  | nil => rfl
  | cons x xs ih => rw [List.foldl_cons, ih, keep]

theorem mem_rangeFrom (start n k : Nat) : k ∈ rangeFrom start n ↔ start ≤ k ∧ k < start + n := by
  induction n generalizing start with
  | zero => simp [rangeFrom]
  | succ n ih => simp [rangeFrom, ih]; omega

@[simp] theorem mem_below (n k : Nat) : k ∈ below n ↔ k < n := by simp [below, mem_rangeFrom]

@[simp] theorem length_rangeFrom (start n : Nat) : (rangeFrom start n).length = n := by
  induction n generalizing start with
  | zero => rfl
  | succ n ih => simp [rangeFrom, ih]

@[simp] theorem length_below (n : Nat) : (below n).length = n := length_rangeFrom 0 n

@[simp] theorem length_toBytesLE (n v : Nat) : (toBytesLE n v).length = n := by
  induction n generalizing v with
  | zero => rfl
  | succ n ih => simp [toBytesLE, ih]

/-! ### Bytes written and read back in one run -/

/-- The bytes bs stand from a on in a map, whatever stands in it elsewhere and in whatever order. -/
def BytesAt (d : Nat → Byte) (m : SMap Byte) (a : Nat) (bs : List Byte) : Prop :=
  ∃ front back, m = front ++ (cellsOf d a bs ++ back) ∧ (∀ p ∈ front, p.1 < a) ∧ ∀ p ∈ back, a + bs.length ≤ p.1

theorem bytesAt_writeBytes (d : Nat → Byte) (m : SMap Byte) (a : Nat) (bs : List Byte) : BytesAt d (writeBytes d m a bs) a bs :=
  ⟨_, _, List.append_assoc _ _ _, by simp, by simp⟩

/-- A write elsewhere leaves the bytes where they stand. -/
theorem BytesAt.writeBytes_apart {d : Nat → Byte} {m : SMap Byte} {a : Nat} {bs : List Byte} (h : BytesAt d m a bs) (b : Nat) (cs : List Byte)
    (apart : b + cs.length ≤ a ∨ a + bs.length ≤ b) : BytesAt d (writeBytes d m b cs) a bs := by
  obtain ⟨front, back, rfl, hf, hb⟩ := h
  have mid := cellsOf_range d a bs
  have new := cellsOf_range d b cs
  rcases apart with low | high
  · have drop : (cellsOf d a bs).filter (fun p => p.1 < b) = [] := by simp only [List.filter_eq_nil_iff]; grind
    have dropBack : back.filter (fun p => p.1 < b) = [] := by simp only [List.filter_eq_nil_iff]; grind
    have keep : (cellsOf d a bs).filter (fun p => b + cs.length ≤ p.1) = cellsOf d a bs := by simp only [List.filter_eq_self]; grind
    refine ⟨front.filter (fun p => p.1 < b) ++ cellsOf d b cs ++ front.filter (fun p => b + cs.length ≤ p.1),
      back.filter (fun p => b + cs.length ≤ p.1), ?_, ?_, ?_⟩
    · simp [writeBytes, drop, dropBack, keep]
    · grind
    · grind
  · have drop : (cellsOf d a bs).filter (fun p => b + cs.length ≤ p.1) = [] := by simp only [List.filter_eq_nil_iff]; grind
    have dropFront : front.filter (fun p => b + cs.length ≤ p.1) = [] := by simp only [List.filter_eq_nil_iff]; grind
    have keep : (cellsOf d a bs).filter (fun p => p.1 < b) = cellsOf d a bs := by simp only [List.filter_eq_self]; grind
    refine ⟨front.filter (fun p => p.1 < b),
      back.filter (fun p => p.1 < b) ++ (cellsOf d b cs ++ back.filter (fun p => b + cs.length ≤ p.1)), ?_, ?_, ?_⟩
    · simp [writeBytes, drop, dropFront, keep]
    · grind
    · grind

theorem readAux_skip (d : Nat → Byte) (n a : Nat) (m : SMap Byte) (h : ∀ p ∈ m, a < p.1) :
    readAux d (n + 1) m a = d a :: readAux d n m (a + 1) := by
  cases m with
  | nil => rfl
  | cons p m =>
    have : p.1 ≠ a := by have := h p (by simp); omega
    simp [readAux, this]

theorem readAux_cellsOf (d : Nat → Byte) (a : Nat) (bs : List Byte) (back : SMap Byte) (hb : ∀ p ∈ back, a + bs.length ≤ p.1) :
    readAux d bs.length (cellsOf d a bs ++ back) a = bs := by
  induction bs generalizing a with
  | nil => cases back <;> rfl
  | cons b bs ih =>
    have rest := ih (a + 1) (fun p hp => by have := hb p hp; simp at this; omega)
    by_cases e : b = d a
    · have later : ∀ p ∈ cellsOf d (a + 1) bs ++ back, a < p.1 := by
        intro p hp
        rcases List.mem_append.mp hp with hp | hp
        · have := cellsOf_range d (a + 1) bs p hp; omega
        · have := hb p hp; simp at this; omega
      have skip : cellsOf d a (b :: bs) = cellsOf d (a + 1) bs := by simp [cellsOf, e]
      rw [skip, List.length_cons, readAux_skip d _ a _ later, rest, e]
    · simp [cellsOf, e, readAux, rest]

theorem BytesAt.readBytes {d : Nat → Byte} {m : SMap Byte} {a : Nat} {bs : List Byte} (h : BytesAt d m a bs) :
    readBytes d m a bs.length = bs := by
  obtain ⟨front, back, rfl, hf, hb⟩ := h
  have stop : (cellsOf d a bs ++ back).dropWhile (fun p => decide (p.1 < a)) = cellsOf d a bs ++ back := by
    rw [List.dropWhile_eq_self_iff]
    intro hl
    have at' : a ≤ ((cellsOf d a bs ++ back)[0]).1 := by
      rcases List.mem_append.mp (List.getElem_mem hl) with hp | hp
      · exact (cellsOf_range d a bs _ hp).1
      · have := hb _ hp; omega
    simpa using at'
  rw [Machine.readBytes, List.dropWhile_append_of_pos (by simpa using hf), stop]
  exact readAux_cellsOf d a bs back hb

/-- What was written last over a run reads back. -/
theorem memRead_memWrite_same (s : State) (a : Nat) (bs : List Byte) : memRead (memWrite s a bs) a bs.length = bs :=
  (bytesAt_writeBytes (memDefault s.boot) s.mem a bs).readBytes

end Sys2Proof.Machine
end

section
/-!
SUPPORT. What follows a command: the votes and the quiet episode, the management controller with nothing to do or with one packet to serve (18,
R446, R447), and a word that the register bus carries (00, R12).
-/

namespace Sys2Proof.Machine

/-! ### What follows every command -/

theorem gives_next {c : Instr} {s t : State} {P : State → Prop} (next : exec c s = .next t) (holds : P t) : Gives c s P := ⟨t, next, holds⟩

/-- Looking at streams and quiescence changes votes and the quiet episode alone. -/
theorem observe_eq (s : State) : ∃ streams quiet stalled, observe s = { s with streams := streams, quiet := quiet, stalled := stalled } := by
  unfold observe breakQuiet
  split
  · exact ⟨_, _, _, rfl⟩
  · split <;> exact ⟨_, _, _, rfl⟩

@[simp] theorem observe_regs (s : State) : (observe s).regs = s.regs := by obtain ⟨_, _, _, h⟩ := observe_eq s; rw [h]
@[simp] theorem observe_mem (s : State) : (observe s).mem = s.mem := by obtain ⟨_, _, _, h⟩ := observe_eq s; rw [h]
@[simp] theorem observe_boot (s : State) : (observe s).boot = s.boot := by obtain ⟨_, _, _, h⟩ := observe_eq s; rw [h]
@[simp] theorem observe_mc (s : State) : (observe s).mc = s.mc := by obtain ⟨_, _, _, h⟩ := observe_eq s; rw [h]
@[simp] theorem observe_store (s : State) : (observe s).store = s.store := by obtain ⟨_, _, _, h⟩ := observe_eq s; rw [h]
@[simp] theorem observe_queues (s : State) : (observe s).queues = s.queues := by obtain ⟨_, _, _, h⟩ := observe_eq s; rw [h]

@[simp] theorem rd_observe (s : State) (r : Reg) (i : Nat) : rd (observe s) r i = rd s r i := by unfold rd; rw [observe_regs]
@[simp] theorem fg_observe (s : State) (f : Fld) (i : Nat) : fg (observe s) f i = fg s f i := by unfold fg; rw [rd_observe]
@[simp] theorem memRead_observe (s : State) (a n : Nat) : memRead (observe s) a n = memRead s a n := by
  unfold memRead; rw [observe_mem, observe_boot]

theorem RegsKept.observe {s t : State} {but : List (Reg × Nat)} (h : RegsKept s t but) : RegsKept s (observe t) but := fun k hk => by
  rw [observe_regs]; exact h k hk

/-! ### The management controller with nothing to do (18, R446, R447) -/

theorem McIdle.congr {s t : State} (h : McIdle s) (mc : t.mc = s.mc) (store : t.store = s.store) : McIdle t := by
  unfold McIdle at *; rw [mc, store]; exact h

/-- The state with other packets in the controller's queue. -/
def withInbox (s : State) (packets : List ((Nat × Nat) × List Byte)) : State := { s with mc := { s.mc with inbox := packets } }

theorem answerWaiting_of_none (s : State) (h : s.mc.waiting = []) : answerWaiting s = s := by
  have same : ({ s with mc := { s.mc with waiting := [] } } : State) = s := by rw [← h]
  simp [answerWaiting, h, same]

theorem failStoring_of_none (s : State) (storing : s.mc.storing = none) (queue : s.store.queue.contains .packet = false) : failStoring s = s := by
  have kept : s.store.queue.filter (· != .packet) = s.store.queue := by
    rw [List.filter_eq_self]
    intro x hx
    have : x ≠ .packet := fun e => by simp [← e, hx] at queue
    simpa using this
  unfold failStoring
  split
  · rw [kept]; simp [endStoring, storing]
  · rfl

/-- With an empty queue of packets nothing is served. -/
theorem serve_of_empty (n : Nat) (s : State) (inbox : s.mc.inbox = []) (waiting : s.mc.waiting = []) : serve n s = s := by
  cases n with
  | zero => exact answerWaiting_of_none s waiting
  | succ n =>
    simp only [serve, answerWaiting_of_none s waiting, inbox]
    split <;> rfl

/-- The packet at the head of the queue is executed and the rest served. -/
theorem serve_cons (n : Nat) (s : State) (src : Nat × Nat) (raw : List Byte) (rest : List ((Nat × Nat) × List Byte))
    (inbox : s.mc.inbox = (src, raw) :: rest) (waiting : s.mc.waiting = []) (held : s.mc.held = false) (storing : s.mc.storing = none) :
    serve (n + 1) s = serve n (execute (withInbox s rest) ⟨src, raw⟩) := by
  simp [serve, withInbox, answerWaiting_of_none s waiting, inbox, unassigning, waiting, held, storing]

theorem serveAll_of_idle (s : State) (h : McIdle s) : serveAll s = observe s := by
  obtain ⟨inbox, waiting, -, storing, queue⟩ := h
  rw [serveAll, failStoring_of_none s storing queue, serve_of_empty 64 s inbox waiting]

/-! ### The register bus (00, R12) -/

theorem busWrite_of_regAt (s : State) (off : Nat) (v : Word) (locked : Bool) {r : Reg} {i : Nat} (aligned : off % 4 = 0)
    (notMem : busMem s off = .none) (at' : regAt off = some (r, i)) (here : beyond s r i = false) :
    busWrite s off v locked = writeReg s r i v locked := by
  simp [busWrite, aligned, notMem, at', here]

/-- A write that submits no packet is the register's write alone. -/
theorem busStep_of_inbox (s : State) (off : Nat) (v : Word) (locked : Bool) (h : (busWrite s off v locked).mc.inbox = s.mc.inbox) :
    busStep s off v locked = busWrite s off v locked := by
  simp [busStep, h]

/-- A register write that submits no packet, with the controller idle, and what follows it. -/
theorem serveAll_busStep_of_idle (s t : State) (off : Nat) (v : Word) (idle : McIdle s) (written : busWrite s off v false = t)
    (mc : t.mc = s.mc) (store : t.store = s.store) : serveAll (busStep s off v false) = observe t := by
  rw [busStep_of_inbox s off v false (by rw [written, mc]), written, serveAll_of_idle t (idle.congr mc store)]

/-- A write that submits one packet lets it in. -/
theorem busStep_of_submitted (s t : State) (off : Nat) (v : Word) (locked : Bool) (src : Nat × Nat) (raw : List Byte)
    (h : busWrite s off v locked = withInbox t (s.mc.inbox ++ [(src, raw)])) (inbox : t.mc.inbox = s.mc.inbox) :
    busStep s off v locked = takePacket t src raw := by
  simp [busStep, h, withInbox, ← inbox]

/-- The registers without a rule of their own are written by their access codes. -/
theorem writeReg_of_not_ruled (s : State) (r : Reg) (i : Nat) (v : Word) (locked : Bool) (h : r ∉ ruledRegs) :
    writeReg s r i v locked = writeFields s r i v := by
  simp only [ruledRegs, List.mem_cons, List.not_mem_nil, not_or] at h
  simp [writeReg, packetOnly, h]

/-- The mailbox register's offset (19, R482). -/
theorem regAt_mbox : regAt 0x2A10 = some (MC_MBOX, 0) := by rfl

theorem busWrite_mbox (s : State) (v : Word) (locked : Bool) : busWrite s 0x2A10 v locked = writeMbox s v := by
  rw [busWrite_of_regAt s 0x2A10 v locked rfl (by simp [busMem, descBase, kstoreBase, broadcastBase, mboxRequest, mboxReply, mboxSize]) regAt_mbox rfl]
  rfl

end Sys2Proof.Machine
end

section
/-!
SUPPORT. The control writes one by one: the kernel stores' broadcast window and digests (07, R186 to R188), the straggler entries (13, R335), the
ward reset (20, R498), the PCIe mode (19, R485) and the mailbox (19, R482).
-/

namespace Sys2Proof.Machine

/-! ### The kernel stores' broadcast window (07, R186, R187) -/

/-- Words of different wards' stores share no byte. -/
theorem kstoreKey_apart {w u : Nat} (off : Nat) (ne : w ≠ u) :
    kstoreKey u off + 4 ≤ kstoreKey w off ∨ kstoreKey w off + 4 ≤ kstoreKey u off := by
  unfold kstoreKey; omega

/-- The word of one broadcast in the stores of the wards ws. -/
def kstorePutAll (s : State) (ws : List Nat) (off : Nat) (v : Word) : State := ws.foldl (fun t w => kstorePut t w off v) s

theorem kstoreBroadcast_of_enabled (s : State) (off : Nat) (v : Word) (h : (below (wardCount s)).any (anyEnabled s) = true) :
    kstoreBroadcast s off v = fs s MOD_KSTORE_STATUS_BCAST_REFUSED 0 1 := by
  simp only [kstoreBroadcast, h, if_true]

theorem kstoreBroadcast_of_user (s : State) (off : Nat) (v : Word) (idle : (below (wardCount s)).any (anyEnabled s) = false)
    (user : kstoreLibrary off = false) : kstoreBroadcast s off v = kstorePutAll s (below (wardCount s)) off v := by
  simp [kstoreBroadcast, idle, user, kstorePutAll]

theorem exec_kstoreBroadcastWrite (off : Nat) (v : Word) (s : State) (inside : off < 0x40000) (aligned : off % 4 = 0) :
    exec (.kstoreBroadcastWrite off v) s = .next (kstoreBroadcast s off v) := by
  have h : off < kstoreSize ∧ off % 4 = 0 := ⟨inside, aligned⟩
  show execKstoreBroadcastWrite off v s = _
  rw [execKstoreBroadcastWrite, if_pos h]

@[simp] theorem kstorePutAll_regs (s : State) (ws : List Nat) (off : Nat) (v : Word) : (kstorePutAll s ws off v).regs = s.regs :=
  foldl_keeps State.regs (fun t w => kstorePut t w off v) (fun _ _ => rfl) ws s

@[simp] theorem kstorePutAll_boot (s : State) (ws : List Nat) (off : Nat) (v : Word) : (kstorePutAll s ws off v).boot = s.boot :=
  foldl_keeps State.boot (fun t w => kstorePut t w off v) (fun _ _ => rfl) ws s

theorem kstorePutAll_cons (s : State) (w : Nat) (ws : List Nat) (off : Nat) (v : Word) :
    kstorePutAll s (w :: ws) off v = kstorePutAll (kstorePut s w off v) ws off v := rfl

/-- Bytes outside the words written stay. -/
theorem readByte_kstorePutAll_out (s : State) (ws : List Nat) (off : Nat) (v : Word) (a : Nat)
    (out : ∀ w ∈ ws, a < kstoreKey w off ∨ kstoreKey w off + 4 ≤ a) : readByte (kstorePutAll s ws off v) a = readByte s a := by
  induction ws generalizing s with
  | nil => rfl
  | cons w ws ih =>
    rw [kstorePutAll_cons, ih _ (fun u hu => out u (by simp [hu]))]
    exact readByte_memWrite_out s _ _ a (by simpa using out w (by simp))

/-- A word once written to a ward's store stands there after it is written to any others. -/
theorem bytesAt_kstorePutAll_of_bytesAt (s : State) (ws : List Nat) (off : Nat) (v : Word) (w : Nat)
    (h : BytesAt (memDefault s.boot) s.mem (kstoreKey w off) (toBytesLE 4 v.toNat)) :
    BytesAt (memDefault s.boot) (kstorePutAll s ws off v).mem (kstoreKey w off) (toBytesLE 4 v.toNat) := by
  induction ws generalizing s with
  | nil => exact h
  | cons u ws ih =>
    rw [kstorePutAll_cons]
    refine ih (kstorePut s u off v) ?_
    by_cases e : w = u
    · subst e; exact bytesAt_writeBytes _ _ _ _
    · exact h.writeBytes_apart _ _ (by simpa using kstoreKey_apart off e)

theorem bytesAt_kstorePutAll (s : State) (ws : List Nat) (off : Nat) (v : Word) (w : Nat)
    (named : w ∈ ws) :
    BytesAt (memDefault s.boot) (kstorePutAll s ws off v).mem (kstoreKey w off) (toBytesLE 4 v.toNat) := by
  induction ws generalizing s with
  | nil => simp at named
  | cons u ws ih =>
    rw [kstorePutAll_cons]
    rcases List.mem_cons.mp named with rfl | later
    · exact bytesAt_kstorePutAll_of_bytesAt (kstorePut s w off v) ws off v w (bytesAt_writeBytes _ _ _ _)
    · exact ih (kstorePut s u off v) later

theorem memRead_kstorePutAll (s : State) (ws : List Nat) (off : Nat) (v : Word) (w : Nat)
    (named : w ∈ ws) : memRead (kstorePutAll s ws off v) (kstoreKey w off) 4 = toBytesLE 4 v.toNat := by
  have h := (bytesAt_kstorePutAll s ws off v w named).readBytes
  rw [length_toBytesLE] at h
  rw [memRead, kstorePutAll_boot, h]

/-! ### Kernel store digests (07, R188) -/

theorem exec_kstoreDigestReq (w : Nat) (s : State) (here : w < wardCount s) : exec (.kstoreDigestReq w) s = .next (kstoreDigest s w) := by
  show execKstoreDigestReq w s = _
  rw [execKstoreDigestReq, if_pos here]

theorem mem_ksReq_kstoreDigest (s : State) (w : Nat) : w ∈ (kstoreDigest s w).ksReq := by
  unfold kstoreDigest
  dsimp only
  split
  · rename_i h; simpa using h
  · simp

theorem fg_kstoreDigest_done (s : State) (w : Nat) : fg (kstoreDigest s w) VE_KSCTL_DIGEST_DONE w = 0 :=
  fg_fs_same s VE_KSCTL_DIGEST_DONE w 0 (by decide) (by decide)

theorem kstoreDigest_regsKept (s : State) (w : Nat) : RegsKept s (kstoreDigest s w) [(VE_KSCTL, w)] := fs_regsKept s VE_KSCTL_DIGEST_DONE w 0

/-- The state once ward w's digest has been taken. -/
def kstoreDigested (s : State) (w : Nat) : State :=
  fs (wr { s with ksReq := s.ksReq.filter (· != w) } VE_KSDIGEST w (BitVec.ofNat 32 (kstoreCrc s w))) VE_KSCTL_DIGEST_DONE w 1

theorem exec_kstoreDigestDone (w : Nat) (s : State) (asked : w ∈ s.ksReq) : exec (.kstoreDigestDone w) s = .next (kstoreDigested s w) := by
  have h : s.ksReq.contains w = true := by simpa using asked
  show execKstoreDigestDone w s = _
  rw [execKstoreDigestDone, if_pos h, kstoreDigested]

theorem not_mem_ksReq_kstoreDigested (s : State) (w : Nat) : w ∉ (kstoreDigested s w).ksReq := by simp [kstoreDigested]

theorem fg_kstoreDigested_done (s : State) (w : Nat) : fg (kstoreDigested s w) VE_KSCTL_DIGEST_DONE w = 1 :=
  fg_fs_same _ VE_KSCTL_DIGEST_DONE w 1 (by decide) (by decide)

theorem rd_kstoreDigested_digest (s : State) (w : Nat) : rd (kstoreDigested s w) VE_KSDIGEST w = BitVec.ofNat 32 (kstoreCrc s w) := by
  rw [kstoreDigested, rd_fs_of_no _ _ _ _ _ _ (by decide), rd_wr_same]

theorem kstoreDigested_regsKept (s : State) (w : Nat) : RegsKept s (kstoreDigested s w) [(VE_KSCTL, w), (VE_KSDIGEST, w)] := by
  have asked : RegsKept s { s with ksReq := s.ksReq.filter (· != w) } [(VE_KSCTL, w), (VE_KSDIGEST, w)] := .of_regs _ rfl
  exact (asked.wr _ (by simp)).fs (f := VE_KSCTL_DIGEST_DONE) 1 (by simp [VE_KSCTL_DIGEST_DONE])

/-! ### The straggler entries (13, R335) -/

/-- One straggler entry's registers zeroed. -/
def zeroStraggler (s : State) (k : Nat) : State := wr (wr (wr s MOD_STRAG_INFO k 0) MOD_STRAG_UNITS k 0) MOD_STRAG_PACED k 0

/-- Zeros written leave a zero word zero. -/
theorem rd_wr_zero (s : State) (r r' : Reg) (i j : Nat) (zero : rd s r i = 0) : rd (wr s r' j 0) r i = 0 := by
  by_cases same : r.key i = r'.key j
  · unfold rd wr; rw [same]; exact sget_sset_same _ _ _ _
  · rw [rd_wr_other s r' r j i 0 same, zero]

theorem rd_zeroStraggler_zero (s : State) (r : Reg) (i k : Nat) (zero : rd s r i = 0) : rd (zeroStraggler s k) r i = 0 :=
  rd_wr_zero _ _ _ _ _ (rd_wr_zero _ _ _ _ _ (rd_wr_zero _ _ _ _ _ zero))

theorem rd_zeroStraggler_own (s : State) (r : Reg) (k : Nat) (own : r ∈ [ MOD_STRAG_INFO, MOD_STRAG_UNITS, MOD_STRAG_PACED]) :
    rd (zeroStraggler s k) r k = 0 := by
  simp only [List.mem_cons, List.not_mem_nil, or_false] at own
  rcases own with rfl | rfl | rfl
  · exact rd_wr_zero _ _ _ _ _ (rd_wr_zero _ _ _ _ _ (rd_wr_same _ _ _ _))
  · exact rd_wr_zero _ _ _ _ _ (rd_wr_same _ _ _ _)
  · exact rd_wr_same _ _ _ _

theorem rd_foldl_zeroStraggler (s : State) (ks : List Nat) (r : Reg) (k : Nat)
    (own : r ∈ [ MOD_STRAG_INFO, MOD_STRAG_UNITS, MOD_STRAG_PACED]) (h : k ∈ ks ∨ rd s r k = 0) : rd (ks.foldl zeroStraggler s) r k = 0 := by
  induction ks generalizing s with
  | nil => simpa using h
  | cons j ks ih =>
    refine ih (zeroStraggler s j) ?_
    rcases h with named | zero
    · rcases List.mem_cons.mp named with rfl | later
      · exact .inr (rd_zeroStraggler_own s r k own)
      · exact .inl later
    · exact .inr (rd_zeroStraggler_zero s r k j zero)

/-- The collective wait counters zeroed, after the straggler entries. -/
theorem clearStragglers_eq (s : State) : clearStragglers s =
    { wr (wr (wr (wr ((below 32).foldl zeroStraggler s) MOD_COLL_WAIT_ARR 0 0) MOD_COLL_WAIT_WIN 0 0) MOD_COLL_WAIT_FLAG 0 0) MOD_COLL_OTHER 0 0
        with strag := [] } := rfl

/-- What no register write changes, clearing changes only in the straggler counts. -/
theorem clearStragglers_keeps {β : Type} (g : State → β) (wr_keeps : ∀ t r i v, g (wr t r i v) = g t)
    (strag_keeps : ∀ t x, g { t with strag := x } = g t) (s : State) : g (clearStragglers s) = g s := by
  rw [clearStragglers_eq, strag_keeps, wr_keeps, wr_keeps, wr_keeps, wr_keeps]
  exact foldl_keeps g zeroStraggler (fun t k => by rw [zeroStraggler, wr_keeps, wr_keeps, wr_keeps]) (below 32) s

theorem rd_clearStragglers (s : State) (r : Reg) (i : Nat) : rd (clearStragglers s) r i =
    rd (wr (wr (wr (wr ((below 32).foldl zeroStraggler s) MOD_COLL_WAIT_ARR 0 0) MOD_COLL_WAIT_WIN 0 0) MOD_COLL_WAIT_FLAG 0 0) MOD_COLL_OTHER 0 0) r i := by
  unfold rd; rw [clearStragglers_eq]

theorem rd_clearStragglers_entry (s : State) (r : Reg) (k : Nat) (own : r ∈ [ MOD_STRAG_INFO, MOD_STRAG_UNITS, MOD_STRAG_PACED]) (h : k < 32) :
    rd (clearStragglers s) r k = 0 := by
  rw [rd_clearStragglers]
  have entry := rd_foldl_zeroStraggler s (below 32) r k own (.inl (by simpa using h))
  exact rd_wr_zero _ _ _ _ _ (rd_wr_zero _ _ _ _ _ (rd_wr_zero _ _ _ _ _ (rd_wr_zero _ _ _ _ _ entry)))

theorem rd_clearStragglers_wait (s : State) (r : Reg) (own : r ∈ [ MOD_COLL_WAIT_ARR, MOD_COLL_WAIT_WIN, MOD_COLL_WAIT_FLAG, MOD_COLL_OTHER]) :
    rd (clearStragglers s) r 0 = 0 := by
  rw [rd_clearStragglers]
  simp only [List.mem_cons, List.not_mem_nil, or_false] at own
  rcases own with rfl | rfl | rfl | rfl
  · exact rd_wr_zero _ _ _ _ _ (rd_wr_zero _ _ _ _ _ (rd_wr_zero _ _ _ _ _ (rd_wr_same _ _ _ _)))
  · exact rd_wr_zero _ _ _ _ _ (rd_wr_zero _ _ _ _ _ (rd_wr_same _ _ _ _))
  · exact rd_wr_zero _ _ _ _ _ (rd_wr_same _ _ _ _)
  · exact rd_wr_same _ _ _ _

theorem fg_of_rd_zero (s : State) (f : Fld) (i : Nat) (zero : rd s f.reg i = 0) : fg s f i = 0 := by
  unfold fg fieldOf bits; rw [zero]; simp

/-! ### Ward reset (20, R498) -/

theorem districtAux_congr {s t : State} (logical : logicalOf t = logicalOf s) (ds : List Nat) (w : Nat) : districtAux t ds w = districtAux s ds w := by
  induction ds generalizing w with
  | nil => rfl
  | cons d ds ih => simp only [districtAux, logical, ih]

/-- Where a logical ward stands follows from its districts' counts and shim tables. -/
theorem physOf_congr {s t : State} (logical : logicalOf t = logicalOf s) (dists : t.dists = s.dists) (w : Nat) : physOf t w = physOf s w := by
  simp only [physOf, physPos, wardIndex, firstWard, districtOf, distOf, districtAux_congr logical, logical, dists]

theorem logicalOf_wr (s : State) (r : Reg) (i : Nat) (v : Word) (ne : r.no ≠ PWR_SREG.no) : logicalOf (wr s r i v) = logicalOf s :=
  funext fun d => fg_wr_of_no s r PWR_SREG_LOGICAL i d v (Ne.symm ne)

theorem physOf_wr (s : State) (r : Reg) (i w : Nat) (v : Word) (ne : r.no ≠ PWR_SREG.no) : physOf (wr s r i v) w = physOf s w :=
  physOf_congr (logicalOf_wr s r i v ne) rfl w

theorem physOf_fs (s : State) (f : Fld) (i w v : Nat) (ne : f.reg.no ≠ PWR_SREG.no) : physOf (fs s f i v) w = physOf s w :=
  physOf_wr s f.reg i w _ ne

theorem fg_writeWardRst_busy (s : State) (w : Nat) (v : Word) : fg (writeFields s WARD_RST w v) WARD_RST_BUSY w = fg s WARD_RST_BUSY w :=
  fg_writeFields s WARD_RST_BUSY w v .ro 0 (by decide) (by decide)

theorem fg_writeWardRst_test (s : State) (w : Nat) (v : Word) : fg (writeFields s WARD_RST w v) WARD_RST_TEST w = fieldIn v WARD_RST_TEST :=
  fg_writeFields s WARD_RST_TEST w v .rw 0 (by decide) (by decide)

/-- A write of WARD_RST by its access codes bears on nothing that refuses a START. -/
theorem wardResetBad_writeFields (s : State) (w : Nat) (v : Word) : wardResetBad (writeFields s WARD_RST w v) w = wardResetBad s w := by
  have phys : physOf (writeFields s WARD_RST w v) w = physOf s w := physOf_wr s WARD_RST w w _ (by decide)
  have busy := fg_writeWardRst_busy s w v
  have enabled : qEnabled (writeFields s WARD_RST w v) = qEnabled s :=
    funext fun n => by unfold qEnabled writeFields; rw [fg_wr_of_no _ _ _ _ _ _ (by decide)]
  have home : qHome (writeFields s WARD_RST w v) = qHome s :=
    funext fun n => fg_wr_of_no s WARD_RST WARD_QCFG_HOME w n _ (by decide)
  have dark : isDark (writeFields s WARD_RST w v) w = isDark s w := by
    unfold isDark writeFields; rw [fg_wr_of_no _ _ _ _ _ _ (by decide)]
  have streams : stream (writeFields s WARD_RST w v) = stream s := rfl
  have wards : pward (writeFields s WARD_RST w v) = pward s := rfl
  unfold wardResetBad
  rw [phys, busy, enabled, home, dark, streams, wards]

theorem fieldIn_start (v : Word) : fieldIn (withField v 31 31 1) WARD_RST_START ≠ 0 := by
  rw [fieldIn, show WARD_RST_START.hi = 31 from rfl, show WARD_RST_START.lo = 31 from rfl,
    fieldOf_withField_same _ _ _ _ (by decide) (by decide)]
  decide

theorem fieldIn_withTop (v : Word) (x : Nat) (f : Fld) (ord : f.lo ≤ f.hi) (below : f.hi < 31) : fieldIn (withField v 31 31 x) f = fieldIn v f :=
  fieldOf_withField_other v 31 31 x f.hi f.lo (by decide) (by decide) ord (.inl below)

theorem exec_wardReset (w : Nat) (v : Word) (s : State) (here : w < wardCount s) :
    exec (.wardReset w v) s = .next (writeWardRst s w (withField v 31 31 1)) := by
  show execWardReset w v s = _
  rw [execWardReset, if_pos here]

theorem writeWardRst_of_bad (s : State) (w : Nat) (v : Word) (start : fieldIn v WARD_RST_START ≠ 0) (bad : wardResetBad s w = true) :
    writeWardRst s w v = fs (writeFields s WARD_RST w v) WARD_RST_REFUSED w 1 := by
  simp [writeWardRst, start, wardResetBad_writeFields, bad]

/-- The registers of an accepted START: BUSY, and RESULT cleared. -/
def wardResetBegun (s : State) (w : Nat) (v : Word) : State := fs (fs (writeFields s WARD_RST w v) WARD_RST_BUSY w 1) WARD_RST_RESULT w 0

theorem fg_wardResetBegun_busy (s : State) (w : Nat) (v : Word) : fg (wardResetBegun s w v) WARD_RST_BUSY w = 1 := by
  rw [wardResetBegun, fg_fs_apart _ WARD_RST_RESULT WARD_RST_BUSY _ _ (by decide), fg_fs_same _ _ _ _ (by decide) (by decide)]
  rfl

theorem fg_wardResetBegun_result (s : State) (w : Nat) (v : Word) : fg (wardResetBegun s w v) WARD_RST_RESULT w = 0 :=
  fg_fs_same _ _ _ _ (by decide) (by decide)

theorem fg_wardResetBegun_test (s : State) (w : Nat) (v : Word) : fg (wardResetBegun s w v) WARD_RST_TEST w = fieldIn v WARD_RST_TEST := by
  rw [wardResetBegun, fg_fs_apart _ WARD_RST_RESULT WARD_RST_TEST _ _ (by decide),
    fg_fs_apart _ WARD_RST_BUSY WARD_RST_TEST _ _ (by decide), fg_writeWardRst_test]

theorem physOf_wardResetBegun (s : State) (w : Nat) (v : Word) : physOf (wardResetBegun s w v) w = physOf s w := by
  rw [wardResetBegun, physOf_fs _ _ _ _ _ (by decide), physOf_fs _ _ _ _ _ (by decide), writeFields, physOf_wr _ _ _ _ _ (by decide)]

@[simp] theorem resetEngines_regs (s : State) (w : Nat) : (resetEngines s w).regs = s.regs := rfl
@[simp] theorem resetEngines_pwards (s : State) (w : Nat) : (resetEngines s w).pwards = s.pwards := rfl

@[simp] theorem pward_setPward_same (s : State) (p : Nat) (x : PWard) : pward (setPward s p x) p = x := sget_sset_same _ _ _ _

/-- An accepted START leaves the registers so, and the ward OFF with its wake asked for. -/
theorem writeWardRst_of_good (s : State) (w : Nat) (v : Word) (start : fieldIn v WARD_RST_START ≠ 0) (good : wardResetBad s w = false) :
    ∃ x : PWard, x.st = 4 ∧ x.wakeBy = some 4 ∧ writeWardRst s w v = resetEngines (setPward (wardResetBegun s w v) (physOf s w) x) w := by
  have accepted : ¬wardResetBad (writeFields s WARD_RST w v) w = true := by rw [wardResetBad_writeFields, good]; decide
  rw [writeWardRst, if_neg start, if_neg accepted, ← wardResetBegun]
  simp only [physOf_wardResetBegun]
  exact ⟨_, rfl, rfl, rfl⟩

/-! ### PCIe mode (19, R485) -/

/-- The state once MWIN is written. -/
def pcieWindowSet (s : State) (v : Word) : State := fs (clearBits s MOD_PCIE_CFG 0 v) MOD_PCIE_CFG_MWIN 0 (fieldIn v MOD_PCIE_CFG_MWIN)

theorem clearBits_pcie (s : State) (v : Word) : clearBits s MOD_PCIE_CFG 0 v = fs s MOD_PCIE_CFG_MODE_REFUSED 0
    (fg s MOD_PCIE_CFG_MODE_REFUSED 0 - (fg s MOD_PCIE_CFG_MODE_REFUSED 0 &&& fieldIn v MOD_PCIE_CFG_MODE_REFUSED)) := rfl

theorem fg_pcieWindowSet_mode (s : State) (v : Word) : fg (pcieWindowSet s v) MOD_PCIE_CFG_MODE 0 = fg s MOD_PCIE_CFG_MODE 0 := by
  rw [pcieWindowSet, clearBits_pcie, fg_fs_apart _ MOD_PCIE_CFG_MWIN MOD_PCIE_CFG_MODE _ _ (by decide),
    fg_fs_apart _ MOD_PCIE_CFG_MODE_REFUSED MOD_PCIE_CFG_MODE _ _ (by decide)]

theorem fg_pcieWindowSet_mwin (s : State) (v : Word) : fg (pcieWindowSet s v) MOD_PCIE_CFG_MWIN 0 = fieldIn v MOD_PCIE_CFG_MWIN := by
  rw [pcieWindowSet, fg_fs_same _ _ _ _ (by decide) (by decide)]
  exact Nat.mod_eq_of_lt (fieldOf_lt v _ _)

theorem pcieWindowSet_regsKept (s : State) (v : Word) : RegsKept s (pcieWindowSet s v) [(MOD_PCIE_CFG, 0)] :=
  (wr_regsKept s MOD_PCIE_CFG 0 _).fs (f := MOD_PCIE_CFG_MWIN) _ (by simp [ MOD_PCIE_CFG_MWIN])

theorem writePcie_eq (s : State) (v : Word) : writePcie s v =
    if fieldIn v MOD_PCIE_CFG_MODE = fg s MOD_PCIE_CFG_MODE 0 then pcieWindowSet s v
    else if ¬(s.host.detect = true ∧ (fg s MOD_PCIE_CFG_MODE 0 = 0 → s.host.perst = true)) then fs (pcieWindowSet s v) MOD_PCIE_CFG_MODE_REFUSED 0 1
    else fs { pcieWindowSet s v with host := { s.host with perst := true } } MOD_PCIE_CFG_MODE 0 (fieldIn v MOD_PCIE_CFG_MODE) := by
  have mode := fg_pcieWindowSet_mode s v
  have host : (pcieWindowSet s v).host = s.host := rfl
  unfold pcieWindowSet at mode host
  unfold writePcie pcieWindowSet
  simp only [mode, host]
  congr 2
  cases s.host.detect <;> cases s.host.perst <;> simp

/-! ### The mailbox (19, R482) -/

theorem fg_writeMbox_busy (s : State) (v : Word) : fg (writeFields s MC_MBOX 0 v) MC_MBOX_BUSY 0 = fg s MC_MBOX_BUSY 0 :=
  fg_writeFields s MC_MBOX_BUSY 0 v .ro 0 (by decide) (by decide)

theorem fg_writeMbox_done (s : State) (v : Word) :
    fg (writeFields s MC_MBOX 0 v) MC_MBOX_DONE 0 = fg s MC_MBOX_DONE 0 - (fg s MC_MBOX_DONE 0 &&& fieldIn v MC_MBOX_DONE) :=
  fg_writeFields s MC_MBOX_DONE 0 v .w1c 0 (by decide) (by decide)

theorem fg_writeMbox_len (s : State) (v : Word) : fg (writeFields s MC_MBOX 0 v) MC_MBOX_LEN 0 = fieldIn v MC_MBOX_LEN :=
  fg_writeFields s MC_MBOX_LEN 0 v .rw 0 (by decide) (by decide)

theorem writeMbox_of_noGo (s : State) (v : Word) (go : fieldIn v MC_MBOX_GO = 0) : writeMbox s v = writeFields s MC_MBOX 0 v := by
  rw [writeMbox, if_pos go]

theorem writeMbox_of_busy (s : State) (v : Word) (go : fieldIn v MC_MBOX_GO ≠ 0) (busy : fg s MC_MBOX_BUSY 0 = 1) :
    writeMbox s v = fs (writeFields s MC_MBOX 0 v) MC_MBOX_REFUSED 0 1 := by
  rw [writeMbox, if_neg go, if_pos (.inl ((fg_writeMbox_busy s v).trans busy))]

/-- The mailbox taken for a packet: the written fields, and BUSY. -/
def mailboxTaken (s : State) (v : Word) : State := fs (writeFields s MC_MBOX 0 v) MC_MBOX_BUSY 0 1

/-- The packet that GO submits. -/
def mailboxPacket (s : State) (v : Word) : List Byte := memRead s (ctrlBase + mboxRequest) (min (fieldIn v MC_MBOX_LEN) mboxSize)

theorem writeMbox_of_free (s : State) (v : Word) (go : fieldIn v MC_MBOX_GO ≠ 0) (free : fg s MC_MBOX_BUSY 0 = 0) (done : fg s MC_MBOX_DONE 0 = 0) :
    writeMbox s v = withInbox (mailboxTaken s v) (s.mc.inbox ++ [((3, 0), mailboxPacket s v)]) := by
  have idle : ¬(fg (writeFields s MC_MBOX 0 v) MC_MBOX_BUSY 0 = 1 ∨ fg (writeFields s MC_MBOX 0 v) MC_MBOX_DONE 0 = 1) := by
    rw [fg_writeMbox_busy, fg_writeMbox_done, free, done]; simp
  rw [writeMbox, if_neg go, if_neg idle]
  rfl

theorem fg_mailboxTaken_len (s : State) (v : Word) : fg (mailboxTaken s v) MC_MBOX_LEN 0 = fieldIn v MC_MBOX_LEN := by
  rw [mailboxTaken, fg_fs_apart _ MC_MBOX_BUSY MC_MBOX_LEN _ _ (by decide), fg_writeMbox_len]

theorem fg_mailboxTaken_of_no (s : State) (v : Word) (f : Fld) (i : Nat) (ne : f.reg.no ≠ MC_MBOX.no) : fg (mailboxTaken s v) f i = fg s f i := by
  rw [mailboxTaken, fg_fs_of_no _ MC_MBOX_BUSY f 0 i 1 ne, writeFields, fg_wr_of_no _ _ _ _ _ _ ne]

theorem exec_mailboxGo (v : Word) (s : State) : exec (.mailboxGo v) s = .next (serveAll (busStep s 0x2A10 (withField v 31 31 1) false)) := rfl

/-- The word that MAILBOX_RELEASE writes: DONE, and LEN as it is. -/
def releaseWord (s : State) : Word := BitVec.ofNat 32 (2 ^ 29 + fg s MC_MBOX_LEN 0)

theorem toNat_releaseWord (s : State) : (releaseWord s).toNat = 2 ^ 29 + fg s MC_MBOX_LEN 0 := by
  have small : fg s MC_MBOX_LEN 0 < 2 ^ 13 := fg_lt s MC_MBOX_LEN 0
  rw [releaseWord, BitVec.toNat_ofNat]
  exact Nat.mod_eq_of_lt (by omega)

theorem fieldIn_releaseWord_go (s : State) : fieldIn (releaseWord s) MC_MBOX_GO = 0 := by
  have small : fg s MC_MBOX_LEN 0 < 2 ^ 13 := fg_lt s MC_MBOX_LEN 0
  show (releaseWord s).toNat / 2 ^ 31 % 2 = 0
  rw [toNat_releaseWord]; omega

theorem fieldIn_releaseWord_done (s : State) : fieldIn (releaseWord s) MC_MBOX_DONE = 1 := by
  have small : fg s MC_MBOX_LEN 0 < 2 ^ 13 := fg_lt s MC_MBOX_LEN 0
  show (releaseWord s).toNat / 2 ^ 29 % 2 = 1
  rw [toNat_releaseWord]; omega

theorem exec_mailboxRelease (s : State) : exec .mailboxRelease s = .next (serveAll (busStep s 0x2A10 (releaseWord s) false)) := rfl

theorem exec_registerWrite (off : Nat) (v : Word) (before : List HostOp) (s : State) :
    exec (.registerWrite off v before) s = .next (serveAll (busStep (hostOps s before) off v false)) := rfl

/-! ### One request answered through the mailbox (18, R444 to R449) -/

/-- The common checks look at the request and at little of the state. -/
theorem refusal_congr {s t : State} (r : Req) (recovery : t.mc.recovery = s.mc.recovery) (longOp : t.mc.longOp = s.mc.longOp)
    (loop : fg t MC_STATUS_LOOP_CLOSED 0 = fg s MC_STATUS_LOOP_CLOSED 0) (presence : fg t MC_STATUS_PRESENCE_OPEN 0 = fg s MC_STATUS_PRESENCE_OPEN 0)
    (wards : wardCount t = wardCount s) : refusal t r = refusal s r := by
  have owner : ownerBad t r = ownerBad s r := by simp only [ownerBad, loop, presence]
  have par (op : Nat) (p : List Byte) : paramBad t op p = paramBad s op p := by
    have range : rangeChecks t op p = rangeChecks s op p := by unfold rangeChecks; simp only [wards]
    simp only [paramBad, range]
  simp only [refusal, recovery, longOp, owner, par]

theorem wardCount_congr {s t : State} (logical : logicalOf t = logicalOf s) : wardCount t = wardCount s := by rw [wardCount, wardCount, logical]

theorem logicalOf_mailboxTaken (s : State) (v : Word) : logicalOf (mailboxTaken s v) = logicalOf s :=
  funext fun d => fg_mailboxTaken_of_no s v PWR_SREG_LOGICAL d (by decide)

theorem refusal_mailboxTaken (s : State) (v : Word) (r : Req) : refusal (mailboxTaken s v) r = refusal s r :=
  refusal_congr r rfl rfl (fg_mailboxTaken_of_no s v _ 0 (by decide)) (fg_mailboxTaken_of_no s v _ 0 (by decide))
    (wardCount_congr (logicalOf_mailboxTaken s v))

theorem identityRecord_mailboxTaken (s : State) (v : Word) : identityRecord (mailboxTaken s v) = identityRecord s := by
  have logical : nextLogical (mailboxTaken s v) = nextLogical s := by
    unfold nextLogical
    rw [show fg (mailboxTaken s v) PWR_SREG_NEXT_LOGICAL = fg s PWR_SREG_NEXT_LOGICAL from
      funext fun d => fg_mailboxTaken_of_no s v PWR_SREG_NEXT_LOGICAL d (by decide)]
  have debug := fg_mailboxTaken_of_no s v MC_STATUS_DEBUG 0 (by decide)
  have fuses : (mailboxTaken s v).fuses = s.fuses := rfl
  simp only [identityRecord, availableWards, logical, debug, fuses]

theorem length_flatMap_byte (xs : List Nat) : (xs.flatMap (toBytesLE 1)).length = xs.length := by simp [List.length_flatMap]

@[simp] theorem length_padTo {α : Type} (n : Nat) (d : α) (xs : List α) : (padTo n d xs).length = n := by
  simp [padTo]; omega

theorem length_identityRecord (s : State) : (identityRecord s).length = 64 := by
  simp only [identityRecord, nextLogical, List.length_append, length_flatMap_byte, length_toBytesLE, length_padTo, List.length_map, length_below]

theorem length_replyTo (r : Req) (status detail : Nat) (data : List Byte) : (replyTo r status detail data).length = data.length + 16 := by
  simp [replyTo, replyBytes]; omega

/-- A request for the identity that passes the checks is answered with the identity record. -/
theorem execute_identity (s : State) (r : Req) (op : r.op = 0x00) (kept : keptFor s r = none) (waiting : s.mc.waiting = [])
    (passes : refusal s r = none) : execute s r = reply s r stOk 0 (identityRecord s) true := by
  simp [execute, kept, alreadyWaits, waiting, passes, perform, op, okData, storedOps]

/-- The state once the mailbox's request has its reply: kept, in the reply buffer, DONE. -/
def mailboxAnswered (s : State) (r : Req) (data : List Byte) : State :=
  fs (fs (memWrite (keepReply s ⟨r.src, r.seq, r.crc, replyTo r 0 0 data⟩) (ctrlBase + mboxReply) (replyTo r 0 0 data)) MC_MBOX_BUSY 0 0) MC_MBOX_DONE 0 1

theorem reply_mailbox (s : State) (r : Req) (data : List Byte) (mailbox : r.src.1 = 3) : reply s r stOk 0 data true = mailboxAnswered s r data := by
  simp only [reply, sendReply, mailbox, if_true, stOk, ge_iff_le, Nat.reduceLeDiff, if_false]
  rfl

theorem fg_mailboxAnswered_done (s : State) (r : Req) (data : List Byte) : fg (mailboxAnswered s r data) MC_MBOX_DONE 0 = 1 :=
  fg_fs_same _ MC_MBOX_DONE 0 1 (by decide) (by decide)

theorem fg_mailboxAnswered_busy (s : State) (r : Req) (data : List Byte) : fg (mailboxAnswered s r data) MC_MBOX_BUSY 0 = 0 := by
  rw [mailboxAnswered, fg_fs_apart _ MC_MBOX_DONE MC_MBOX_BUSY _ _ (by decide)]
  exact fg_fs_same _ MC_MBOX_BUSY 0 0 (by decide) (by decide)

theorem fg_mailboxAnswered_len (s : State) (r : Req) (data : List Byte) : fg (mailboxAnswered s r data) MC_MBOX_LEN 0 = fg s MC_MBOX_LEN 0 := by
  rw [mailboxAnswered, fg_fs_apart _ MC_MBOX_DONE MC_MBOX_LEN _ _ (by decide),
    fg_fs_apart _ MC_MBOX_BUSY MC_MBOX_LEN _ _ (by decide)]
  rfl

theorem memRead_mailboxAnswered (s : State) (r : Req) (data : List Byte) :
    memRead (mailboxAnswered s r data) (ctrlBase + mboxReply) (data.length + 16) = replyTo r 0 0 data := by
  rw [← length_replyTo r 0 0 data]
  exact memRead_memWrite_same (keepReply s ⟨r.src, r.seq, r.crc, replyTo r 0 0 data⟩) _ _

/-- Through an idle management controller: a well-framed request for the identity, submitted while the mailbox is free, is answered. -/
theorem serveAll_identity (s t : State) (raw : List Byte) (idle : McIdle s) (mc : t.mc = s.mc) (store : t.store = s.store)
    (good : framed raw = true) (op : (⟨(3, 0), raw⟩ : Req).op = 0x00) (kept : keptFor s ⟨(3, 0), raw⟩ = none)
    (passes : refusal t ⟨(3, 0), raw⟩ = none) :
    serveAll (takePacket t (3, 0) raw) = observe (mailboxAnswered t ⟨(3, 0), raw⟩ (identityRecord t)) := by
  obtain ⟨inbox, waiting, held, storing, queue⟩ := idle.congr mc store
  have kept' : keptFor t ⟨(3, 0), raw⟩ = none := by unfold keptFor at *; rw [mc]; exact kept
  have back : withInbox (withInbox t [((3, 0), raw)]) [] = t := by rw [← inbox]; rfl
  have taken : takePacket t (3, 0) raw = withInbox t [((3, 0), raw)] := by simp [takePacket, good, inbox, withInbox]
  have answered : serve 64 (withInbox t [((3, 0), raw)]) = mailboxAnswered t ⟨(3, 0), raw⟩ (identityRecord t) := by
    rw [serve_cons 63 (withInbox t [((3, 0), raw)]) (3, 0) raw [] rfl waiting held storing, back, execute_identity t _ op kept' waiting passes,
      reply_mailbox t _ _ rfl]
    exact serve_of_empty 63 _ inbox waiting
  rw [taken, serveAll, failStoring_of_none (withInbox t [((3, 0), raw)]) storing queue, answered]

end Sys2Proof.Machine
end

section
/-!
PROOFS. The statement about control writes: a theorem for each clause, and the obligation from them.
-/

namespace Sys2Proof.Machine

/-! ### Each control write's row -/

theorem kstoreBroadcastWrite_refused (off : Nat) (v : Word) (s : State) (inside : off < 0x40000) (aligned : off % 4 = 0)
    (enabled : (below (wardCount s)).any (anyEnabled s) = true) : Gives (.kstoreBroadcastWrite off v) s fun t =>
      fg t MOD_KSTORE_STATUS_BCAST_REFUSED 0 = 1 ∧ t.mem = s.mem ∧ RegsKept s t [( MOD_KSTORE_STATUS, 0)] := by
  refine gives_next (exec_kstoreBroadcastWrite off v s inside aligned) ?_
  rw [kstoreBroadcast_of_enabled s off v enabled]
  exact ⟨fg_fs_same s MOD_KSTORE_STATUS_BCAST_REFUSED 0 1 (by decide) (by decide), rfl, fs_regsKept s MOD_KSTORE_STATUS_BCAST_REFUSED 0 1⟩

theorem kstoreBroadcastWrite_stands (off : Nat) (v : Word) (s : State) (inside : off < 0x40000) (aligned : off % 4 = 0)
    (idle : (below (wardCount s)).any (anyEnabled s) = false) (user : kstoreLibrary off = false) : Gives (.kstoreBroadcastWrite off v) s fun t =>
      t.regs = s.regs ∧ (∀ w, w < wardCount s → memRead t (kstoreKey w off) 4 = toBytesLE 4 v.toNat) ∧
      ∀ a, (∀ w, w < wardCount s → a < kstoreKey w off ∨ kstoreKey w off + 4 ≤ a) → readByte t a = readByte s a := by
  refine gives_next (exec_kstoreBroadcastWrite off v s inside aligned) ?_
  rw [kstoreBroadcast_of_user s off v idle user]
  refine ⟨kstorePutAll_regs _ _ _ _, fun w here => ?_, fun a out => ?_⟩
  · exact memRead_kstorePutAll s _ off v w (by simpa using here)
  · exact readByte_kstorePutAll_out s _ off v a (fun w hw => out w (by simpa using hw))

theorem kstoreDigestReq_clears (w : Nat) (s : State) (here : w < wardCount s) : Gives (.kstoreDigestReq w) s fun t =>
    w ∈ t.ksReq ∧ fg t VE_KSCTL_DIGEST_DONE w = 0 ∧ t.mem = s.mem ∧ RegsKept s t [(VE_KSCTL, w)] :=
  gives_next (exec_kstoreDigestReq w s here) ⟨mem_ksReq_kstoreDigest s w, fg_kstoreDigest_done s w, rfl, kstoreDigest_regsKept s w⟩

theorem kstoreDigestDone_shows (w : Nat) (s : State) (asked : w ∈ s.ksReq) : Gives (.kstoreDigestDone w) s fun t =>
    w ∉ t.ksReq ∧ fg t VE_KSCTL_DIGEST_DONE w = 1 ∧ (rd t VE_KSDIGEST w).toNat = kstoreCrc s w % 2 ^ 32 ∧ t.mem = s.mem ∧
    RegsKept s t [(VE_KSCTL, w), (VE_KSDIGEST, w)] :=
  gives_next (exec_kstoreDigestDone w s asked) ⟨not_mem_ksReq_kstoreDigested s w, fg_kstoreDigested_done s w,
    by rw [rd_kstoreDigested_digest, BitVec.toNat_ofNat], rfl, kstoreDigested_regsKept s w⟩

theorem collClear_zeroes (s : State) : Gives .collClear s fun t => t.strag = [] ∧
    (∀ k, k < 32 → rd t MOD_STRAG_INFO k = 0 ∧ rd t MOD_STRAG_UNITS k = 0 ∧ rd t MOD_STRAG_PACED k = 0) ∧
    fg t MOD_COLL_WAIT_ARR_UNITS 0 = 0 ∧ fg t MOD_COLL_WAIT_WIN_UNITS 0 = 0 ∧ fg t MOD_COLL_WAIT_FLAG_UNITS 0 = 0 ∧ fg t MOD_COLL_OTHER_UNITS 0 = 0 ∧
    t.mem = s.mem ∧ t.streams = s.streams ∧ t.queues = s.queues := by
  have entry (r : Reg) (own : r ∈ [ MOD_STRAG_INFO, MOD_STRAG_UNITS, MOD_STRAG_PACED]) (k : Nat) (h : k < 32) := rd_clearStragglers_entry s r k own h
  have wait (f : Fld) (own : f.reg ∈ [ MOD_COLL_WAIT_ARR, MOD_COLL_WAIT_WIN, MOD_COLL_WAIT_FLAG, MOD_COLL_OTHER]) : fg (clearStragglers s) f 0 = 0 :=
    fg_of_rd_zero _ f 0 (rd_clearStragglers_wait s f.reg own)
  refine gives_next rfl ⟨rfl, fun k h => ⟨entry _ (by simp) k h, entry _ (by simp) k h, entry _ (by simp) k h⟩,
    wait _ (by decide), wait _ (by decide), wait _ (by decide), wait _ (by decide), ?_, ?_, ?_⟩
  · exact clearStragglers_keeps State.mem (fun _ _ _ _ => rfl) (fun _ _ => rfl) s
  · exact clearStragglers_keeps State.streams (fun _ _ _ _ => rfl) (fun _ _ => rfl) s
  · exact clearStragglers_keeps State.queues (fun _ _ _ _ => rfl) (fun _ _ => rfl) s

theorem wardReset_refused (w : Nat) (v : Word) (s : State) (here : w < wardCount s) (bad : wardResetBad s w = true) :
    Gives (.wardReset w v) s fun t => fg t WARD_RST_REFUSED w = 1 ∧ fg t WARD_RST_TEST w = fieldIn v WARD_RST_TEST ∧
      fg t WARD_RST_BUSY w = fg s WARD_RST_BUSY w ∧ RegsKept s t [(WARD_RST, w)] ∧ t.pwards = s.pwards ∧ t.mem = s.mem := by
  refine gives_next (exec_wardReset w v s here) ?_
  rw [writeWardRst_of_bad s w _ (fieldIn_start v) bad]
  refine ⟨fg_fs_same _ WARD_RST_REFUSED w 1 (by decide) (by decide), ?_, ?_, ?_, rfl, rfl⟩
  · rw [fg_fs_apart _ WARD_RST_REFUSED WARD_RST_TEST _ _ (by decide), fg_writeWardRst_test]
    exact fieldIn_withTop v 1 WARD_RST_TEST (by decide) (by decide)
  · rw [fg_fs_apart _ WARD_RST_REFUSED WARD_RST_BUSY _ _ (by decide), fg_writeWardRst_busy]
  · exact (wr_regsKept s WARD_RST w _).fs (f := WARD_RST_REFUSED) 1 (by simp [WARD_RST_REFUSED])

theorem wardReset_begins (w : Nat) (v : Word) (s : State) (here : w < wardCount s) (good : wardResetBad s w = false) :
    Gives (.wardReset w v) s fun t => fg t WARD_RST_BUSY w = 1 ∧ fg t WARD_RST_RESULT w = 0 ∧ fg t WARD_RST_TEST w = fieldIn v WARD_RST_TEST ∧
      (pward t (physOf s w)).st = 4 ∧ (pward t (physOf s w)).wakeBy = some 4 := by
  refine gives_next (exec_wardReset w v s here) ?_
  obtain ⟨x, off, wake, next⟩ := writeWardRst_of_good s w (withField v 31 31 1) (fieldIn_start v) good
  rw [next]
  have ward : pward (resetEngines (setPward (wardResetBegun s w (withField v 31 31 1)) (physOf s w) x) w) (physOf s w) = x := by
    rw [pward, resetEngines_pwards]; exact pward_setPward_same _ _ x
  have field (f : Fld) := fg_of_regs (resetEngines_regs (setPward (wardResetBegun s w (withField v 31 31 1)) (physOf s w) x) w) f w
  refine ⟨?_, ?_, ?_, by rw [ward, off], by rw [ward, wake]⟩
  · rw [field, fg_of_regs (setPward_regs _ _ _), fg_wardResetBegun_busy]
  · rw [field, fg_of_regs (setPward_regs _ _ _), fg_wardResetBegun_result]
  · rw [field, fg_of_regs (setPward_regs _ _ _), fg_wardResetBegun_test, fieldIn_withTop v 1 WARD_RST_TEST (by decide) (by decide)]

theorem fieldIn_go (v : Word) : fieldIn (withField v 31 31 1) MC_MBOX_GO ≠ 0 := fieldIn_start v

theorem mailboxGo_refused (v : Word) (s : State) (idle : McIdle s) (busy : fg s MC_MBOX_BUSY 0 = 1) : Gives (.mailboxGo v) s fun t =>
    fg t MC_MBOX_REFUSED 0 = 1 ∧ RegsKept s t [(MC_MBOX, 0)] ∧ t.mem = s.mem := by
  have written := (busWrite_mbox s _ false).trans (writeMbox_of_busy s (withField v 31 31 1) (fieldIn_go v) busy)
  refine gives_next (exec_mailboxGo v s) ?_
  rw [serveAll_busStep_of_idle s _ _ _ idle written rfl rfl, fg_observe, observe_mem]
  exact ⟨fg_fs_same _ MC_MBOX_REFUSED 0 1 (by decide) (by decide),
    ((wr_regsKept s MC_MBOX 0 _).fs (f := MC_MBOX_REFUSED) 1 (by simp [MC_MBOX_REFUSED])).observe, rfl⟩

theorem mailboxGo_answers (v : Word) (s : State) (idle : McIdle s) (free : fg s MC_MBOX_BUSY 0 = 0) (done : fg s MC_MBOX_DONE 0 = 0)
    (r : Req) (request : r = ⟨(3, 0), memRead s (ctrlBase + mboxRequest) (min (fieldIn v MC_MBOX_LEN) 4120)⟩) (good : framed r.raw = true)
    (kept : keptFor s r = none) (passes : refusal s r = none) (op : r.op = 0x00) : Gives (.mailboxGo v) s fun t =>
      fg t MC_MBOX_DONE 0 = 1 ∧ fg t MC_MBOX_BUSY 0 = 0 ∧ fg t MC_MBOX_LEN 0 = fieldIn v MC_MBOX_LEN ∧
      memRead t (ctrlBase + mboxReply) 80 = replyTo r 0 0 (identityRecord s) ∧ t.queues = s.queues ∧ t.store = s.store := by
  have len : fieldIn (withField v 31 31 1) MC_MBOX_LEN = fieldIn v MC_MBOX_LEN := fieldIn_withTop v 1 MC_MBOX_LEN (by decide) (by decide)
  have packet : r = ⟨(3, 0), mailboxPacket s (withField v 31 31 1)⟩ := by rw [request, mailboxPacket, len]; rfl
  have written := writeMbox_of_free s (withField v 31 31 1) (fieldIn_go v) free done
  have record := identityRecord_mailboxTaken s (withField v 31 31 1)
  have passes' := (refusal_mailboxTaken s (withField v 31 31 1) r).trans passes
  clear request
  subst packet
  refine gives_next (exec_mailboxGo v s) ?_
  rw [busStep_of_submitted s (mailboxTaken s (withField v 31 31 1)) _ _ _ _ _ ((busWrite_mbox _ _ _).trans written) rfl,
    serveAll_identity s (mailboxTaken s (withField v 31 31 1)) _ idle rfl rfl good op kept passes', record]
  refine ⟨?_, ?_, ?_, ?_, by rw [observe_queues]; rfl, by rw [observe_store]; rfl⟩
  · rw [fg_observe, fg_mailboxAnswered_done]
  · rw [fg_observe, fg_mailboxAnswered_busy]
  · rw [fg_observe, fg_mailboxAnswered_len, fg_mailboxTaken_len, len]
  · rw [memRead_observe, ← memRead_mailboxAnswered, length_identityRecord]

theorem mailboxRelease_clears (s : State) (idle : McIdle s) : Gives .mailboxRelease s fun t =>
    fg t MC_MBOX_DONE 0 = 0 ∧ RegsKept s t [(MC_MBOX, 0)] ∧ t.mem = s.mem ∧ t.mc = s.mc := by
  have written := (busWrite_mbox s _ false).trans (writeMbox_of_noGo s (releaseWord s) (fieldIn_releaseWord_go s))
  refine gives_next (exec_mailboxRelease s) ?_
  rw [serveAll_busStep_of_idle s _ _ _ idle written rfl rfl, fg_observe, observe_mem, observe_mc]
  refine ⟨?_, (wr_regsKept s MC_MBOX 0 _).observe, rfl, rfl⟩
  have flag : fg s MC_MBOX_DONE 0 < 2 := fg_lt s MC_MBOX_DONE 0
  rw [fg_writeMbox_done, fieldIn_releaseWord_done, Nat.and_one_is_mod]
  omega

theorem pcieModeWrite_takes (v : Word) (s : State) : Gives (.pcieModeWrite v) s fun t =>
    fg t MOD_PCIE_CFG_MWIN 0 = fieldIn v MOD_PCIE_CFG_MWIN ∧ RegsKept s t [( MOD_PCIE_CFG, 0)] ∧ t.mem = s.mem ∧
    fg t MOD_PCIE_CFG_MODE 0 = if s.host.detect = true ∧ (fg s MOD_PCIE_CFG_MODE 0 = 0 → s.host.perst = true) then fieldIn v MOD_PCIE_CFG_MODE
      else fg s MOD_PCIE_CFG_MODE 0 := by
  have mwin := fg_pcieWindowSet_mwin s v
  have mode := fg_pcieWindowSet_mode s v
  have kept := pcieWindowSet_regsKept s v
  refine gives_next rfl ?_
  rw [writePcie_eq]
  by_cases same : fieldIn v MOD_PCIE_CFG_MODE = fg s MOD_PCIE_CFG_MODE 0
  · rw [if_pos same]
    exact ⟨mwin, kept, rfl, by rw [mode, same, ite_self]⟩
  rw [if_neg same]
  by_cases may : s.host.detect = true ∧ (fg s MOD_PCIE_CFG_MODE 0 = 0 → s.host.perst = true)
  · rw [if_neg (not_not.mpr may), if_pos may]
    have regs : ({ pcieWindowSet s v with host := { s.host with perst := true } } : State).regs = (pcieWindowSet s v).regs := rfl
    refine ⟨?_, ?_, rfl, ?_⟩
    · rw [fg_fs_apart _ MOD_PCIE_CFG_MODE MOD_PCIE_CFG_MWIN _ _ (by decide), fg_of_regs regs, mwin]
    · exact RegsKept.fs (fun k hk => by rw [regs]; exact kept k hk) (f := MOD_PCIE_CFG_MODE) _ (by simp [ MOD_PCIE_CFG_MODE])
    · rw [fg_fs_same _ MOD_PCIE_CFG_MODE _ _ (by decide) (by decide)]
      exact Nat.mod_eq_of_lt (fieldOf_lt v _ _)
  · rw [if_pos may, if_neg may]
    refine ⟨?_, kept.fs (f := MOD_PCIE_CFG_MODE_REFUSED) 1 (by simp [ MOD_PCIE_CFG_MODE_REFUSED]), rfl, ?_⟩
    · rw [fg_fs_apart _ MOD_PCIE_CFG_MODE_REFUSED MOD_PCIE_CFG_MWIN _ _ (by decide), mwin]
    · rw [fg_fs_apart _ MOD_PCIE_CFG_MODE_REFUSED MOD_PCIE_CFG_MODE _ _ (by decide), mode]

theorem registerWrite_plain (r : Reg) (off i : Nat) (v : Word) (s : State) (aligned : off % 4 = 0) (notMem : busMem s off = .none)
    (at' : regAt off = some (r, i)) (here : beyond s r i = false) (plain : r ∉ ruledRegs) (idle : McIdle s) (before : List HostOp) (s0 : State)
    (accessed : s = hostOps s0 before) : Gives (.registerWrite off v before) s0 fun t =>
      rd t r i = writeWord r (rd s r i) v ∧ RegsKept s t [(r, i)] ∧ t.mem = s.mem := by
  have written : busWrite s off v false = writeFields s r i v := by
    rw [busWrite_of_regAt s off v false aligned notMem at' here, writeReg_of_not_ruled s r i v false plain]
  refine gives_next (exec_registerWrite off v before s0) ?_
  rw [← accessed, serveAll_busStep_of_idle s _ off v idle written rfl rfl, rd_observe, observe_mem]
  exact ⟨rd_wr_same _ _ _ _, (wr_regsKept s r i _).observe, rfl⟩

/-- Settles O54: each clause is the row's own theorem above, at the state that the row's control write leaves. -/
theorem controlWritesFollowTheirRegisters : Obligations.ControlWritesFollowTheirRegisters := by
  unfold Obligations.ControlWritesFollowTheirRegisters
  refine ⟨fun off v s inside aligned => ⟨?_, ?_⟩, fun w s here _ => ⟨?_, ?_⟩, collClear_zeroes, fun w v s here _ => ⟨?_, ?_⟩,
    fun v s idle => ⟨?_, ?_, ?_⟩, pcieModeWrite_takes, registerWrite_plain⟩
  · exact kstoreBroadcastWrite_refused off v s inside aligned
  · exact fun none _ user => kstoreBroadcastWrite_stands off v s inside aligned none user
  · exact kstoreDigestReq_clears w s here
  · exact kstoreDigestDone_shows w s
  · exact wardReset_refused w v s here
  · exact wardReset_begins w v s here
  · exact mailboxGo_refused v s idle
  · exact fun free done good kept passes op => mailboxGo_answers v s idle free done _ rfl good kept passes op
  · exact mailboxRelease_clears s idle

end Sys2Proof.Machine
end

section
/-!
SUPPORT. Exact magnitudes: the rational number that a magnitude code stands for, and when a magnitude that fits a binary format is rounded to
itself (02, R36, R37, R42).
-/

namespace Sys2Proof.Machine

/-! ### Powers of two -/

theorem pow2_of_nonneg {k : Int} (h : 0 ≤ k) : (pow2 k : ℚ) = 2 ^ k := by
  rw [pow2, Nat.cast_pow, ← zpow_natCast, Int.toNat_of_nonneg h, Nat.cast_ofNat]

theorem pow2_of_nonpos {k : Int} (h : k ≤ 0) : pow2 k = 1 := by
  rw [pow2, Int.toNat_of_nonpos h, pow_zero]

theorem pow2_pos (k : Int) : 0 < pow2 k := Nat.two_pow_pos _

theorem pow2_eq_zpow_mul (k : Int) : (pow2 k : ℚ) = 2 ^ k * pow2 (-k) := by
  rcases le_total 0 k with h | h
  · rw [pow2_of_nonneg h, pow2_of_nonpos (by omega), Nat.cast_one, mul_one]
  · rw [pow2_of_nonpos h, pow2_of_nonneg (by omega), ← zpow_add₀ (by norm_num), add_neg_cancel, zpow_zero, Nat.cast_one]

/-- The two clamped powers on the sides of a comparison are one power of the exact value. -/
theorem mul_pow2_lt_iff (n b : Nat) (k : Int) : n * pow2 k < b * pow2 (-k) ↔ (n : ℚ) * 2 ^ k < b := by
  have pos : (0 : ℚ) < pow2 (-k) := by exact_mod_cast pow2_pos (-k)
  rw [← Nat.cast_lt (α := ℚ), Nat.cast_mul, Nat.cast_mul, pow2_eq_zpow_mul k, ← mul_assoc, mul_lt_mul_iff_left₀ pos]

/-! ### Magnitudes as rational numbers -/

/-- The rational number of a magnitude: m · 2^e. -/
def dyadic (m : Nat) (e : Int) : ℚ := m * 2 ^ e

theorem dyadic_mul_pow2 (n : Nat) {e q : Int} (h : q ≤ e) : dyadic (n * pow2 (e - q)) q = dyadic n e := by
  rw [dyadic, dyadic, Nat.cast_mul, pow2_of_nonneg (by omega), mul_assoc, ← zpow_add₀ (by norm_num), sub_add_cancel]

theorem dyadic_four_mul (n : Nat) (e : Int) : dyadic (n * 4) (e - 2) = dyadic n e := by
  rw [← dyadic_mul_pow2 n (show e - 2 ≤ e by omega), sub_sub_cancel]
  rfl

/-- Two magnitudes of the same value are the same number of units of 2^-u, when neither has a finer quantum. -/
theorem mul_pow2_eq_of_dyadic_eq {m n : Nat} {e x u : Int} (same : dyadic m e = dyadic n x) (he : 0 ≤ e + u) (hx : 0 ≤ x + u) :
    m * pow2 (e + u) = n * pow2 (x + u) := by
  have scaled : dyadic m e * 2 ^ u = dyadic n x * 2 ^ u := by rw [same]
  rw [dyadic, dyadic, mul_assoc, mul_assoc, ← zpow_add₀ (by norm_num), ← zpow_add₀ (by norm_num), ← pow2_of_nonneg he,
    ← pow2_of_nonneg hx] at scaled
  exact_mod_cast scaled

theorem mul_pow2_lt_iff_dyadic_lt (n b : Nat) (x k : Int) : n * pow2 (x - k) < b * pow2 (k - x) ↔ dyadic n x < dyadic b k := by
  have pos : (0 : ℚ) < 2 ^ k := by positivity
  rw [← neg_sub x k, mul_pow2_lt_iff, ← mul_lt_mul_iff_left₀ pos, mul_assoc, ← zpow_add₀ (by norm_num), sub_add_cancel, dyadic, dyadic]

/-! ### The magnitude of a code (02, R42) -/

/-- A fraction field with its leading bit, j binades up from the subnormals' quantum: the code splits into exponent and fraction there. -/
theorem BinFmt.magnitude_binade (f : BinFmt) (j a : Nat) (fits : a < 2 ^ (f.fbits + 1)) (normal : j = 0 ∨ 2 ^ f.fbits ≤ a) :
    f.magnitude (j * 2 ^ f.fbits + a) = (a, f.qmin + j) := by
  have pos : 0 < 2 ^ f.fbits := Nat.two_pow_pos _
  rw [pow_succ] at fits
  by_cases sub : a < 2 ^ f.fbits
  · obtain rfl : j = 0 := by omega
    simp [magnitude, Nat.div_eq_of_lt sub, Nat.mod_eq_of_lt sub]
  · obtain ⟨r, rfl⟩ : ∃ r, a = 2 ^ f.fbits + r := ⟨a - 2 ^ f.fbits, by omega⟩
    have rest : r < 2 ^ f.fbits := by omega
    have code : j * 2 ^ f.fbits + (2 ^ f.fbits + r) = r + 2 ^ f.fbits * (j + 1) := by ring
    rw [code, magnitude, Nat.add_mul_div_left _ _ pos, Nat.add_mul_mod_self_left, Nat.div_eq_of_lt rest, Nat.mod_eq_of_lt rest]
    rw [if_neg (by omega), Nat.add_comm r]
    exact Prod.ext rfl (by push_cast; ring)

theorem BinFmt.magnitude_fst_lt (f : BinFmt) (code : Nat) : (f.magnitude code).1 < 2 ^ (f.fbits + 1) := by
  have rest : code % 2 ^ f.fbits < 2 ^ f.fbits := Nat.mod_lt _ (Nat.two_pow_pos _)
  rw [magnitude, pow_succ]
  split <;> simp only <;> omega

theorem BinFmt.qmin_le_magnitude_snd (f : BinFmt) (code : Nat) : f.qmin ≤ (f.magnitude code).2 := by
  rw [magnitude]
  generalize code / 2 ^ f.fbits = ex
  split <;> simp only <;> omega

/-- A code whose exponent field passes k has at least the value of the first code of the binade after k. -/
theorem BinFmt.le_dyadic_magnitude (f : BinFmt) {k code : Nat} (h : (k + 1) * 2 ^ f.fbits ≤ code) :
    dyadic (2 ^ f.fbits) (f.qmin + k) ≤ dyadic (f.magnitude code).1 (f.magnitude code).2 := by
  have ex : k + 1 ≤ code / 2 ^ f.fbits := (Nat.le_div_iff_mul_le (Nat.two_pow_pos _)).mpr h
  rw [magnitude, if_neg (by omega)]
  simp only [dyadic]
  have more : 2 ^ f.fbits ≤ code % 2 ^ f.fbits + 2 ^ f.fbits := Nat.le_add_left _ _
  gcongr
  · norm_num
  · omega

/-! ### Magnitudes that a format holds exactly -/

theorem floorLog2_one {n : Nat} (nz : n ≠ 0) : floorLog2 n 1 = Nat.log2 n := by
  have base : (Nat.log2 n : Int) - (Nat.log2 1 : Nat) = Nat.log2 n := sub_zero _
  rw [floorLog2, base, pow2_of_nonpos (by omega), Nat.mul_one, Nat.one_mul, if_pos]
  exact Nat.log2_self_le nz

theorem toGrid_of_le (n : Nat) {e q : Int} (h : q ≤ e) : toGrid n 1 e q = (n * pow2 (e - q), 0, 1) := by
  rw [toGrid, pow2_of_nonpos (k := q - e) (by omega)]
  simp [Nat.mod_one]

/-- A magnitude of no more bits than a format's fraction field and its leading bit is a whole number of the quanta it is rounded to. -/
theorem BinFmt.encodeMag_of_fits (f : BinFmt) (top : Nat) {n : Nat} {e q : Int} (nz : n ≠ 0)
    (hq : q = max (Nat.log2 n + e - f.fbits) f.qmin) (le : q ≤ e) :
    (f.encodeMag .rne top n 1 e).1 = (q - f.qmin).toNat * 2 ^ f.fbits + n * pow2 (e - q) := by
  rw [encodeMag, if_neg nz, floorLog2_one nz, ← hq]
  simp [toGrid_of_le n le, roundsUp, b2n]

/-- Rounding keeps a value that the format holds. -/
theorem BinFmt.dyadic_magnitude_encodeMag (f : BinFmt) (top : Nat) {n : Nat} {e : Int} (fits : n < 2 ^ (f.fbits + 1)) (onGrid : f.qmin ≤ e) :
    dyadic (f.magnitude (f.encodeMag .rne top n 1 e).1).1 (f.magnitude (f.encodeMag .rne top n 1 e).1).2 = dyadic n e := by
  by_cases zero : n = 0
  · simp [zero, encodeMag, magnitude, dyadic]
  have small : Nat.log2 n < f.fbits + 1 := (Nat.log2_lt zero).mpr fits
  obtain ⟨q, hq⟩ : ∃ q, q = max (Nat.log2 n + e - f.fbits) f.qmin := ⟨_, rfl⟩
  have le : q ≤ e := by omega
  have above : n * pow2 (e - q) < 2 ^ (f.fbits + 1) := calc
    n * pow2 (e - q) < 2 ^ (Nat.log2 n + 1) * 2 ^ (e - q).toNat := Nat.mul_lt_mul_of_pos_right Nat.lt_log2_self (pow2_pos _)
    _ = 2 ^ (Nat.log2 n + 1 + (e - q).toNat) := (pow_add ..).symm
    _ ≤ 2 ^ (f.fbits + 1) := Nat.pow_le_pow_right (by norm_num) (by omega)
  have normal : (q - f.qmin).toNat = 0 ∨ 2 ^ f.fbits ≤ n * pow2 (e - q) := by
    rcases eq_or_ne q f.qmin with h | h
    · exact .inl (by omega)
    · refine .inr ?_
      calc 2 ^ f.fbits = 2 ^ (Nat.log2 n + (e - q).toNat) := by congr 1; omega
        _ = 2 ^ Nat.log2 n * 2 ^ (e - q).toNat := pow_add ..
        _ ≤ n * pow2 (e - q) := Nat.mul_le_mul_right _ (Nat.log2_self_le zero)
  rw [f.encodeMag_of_fits top zero hq le, f.magnitude_binade _ _ above normal]
  simp only
  rw [show f.qmin + ((q - f.qmin).toNat : Int) = q by omega, dyadic_mul_pow2 n le]

end Sys2Proof.Machine
end

section
/-!
SUPPORT. Binary patterns and narrow elements: what a pattern reads as and which reads are counted (02, R38, R39), a value written exactly in FP32
(R36, R37), and the value and the event of each narrow element code (R42, R43).
-/

namespace Sys2Proof.Machine

/-! ### Reading a binary pattern (02, R38, R39) -/

/-- The code of a format's infinity; the codes below it are finite. -/
def BinFmt.infCode (f : BinFmt) : Nat := (2 ^ f.ebits - 1) * 2 ^ f.fbits

theorem BinFmt.infCode_lt (f : BinFmt) : f.infCode < 2 ^ (f.ebits + f.fbits) := by
  rw [infCode, pow_add]
  exact Nat.mul_lt_mul_of_pos_right (Nat.sub_lt (Nat.two_pow_pos _) one_pos) (Nat.two_pow_pos _)

/-- An infinity is read as the largest finite value with its sign and counted; no other pattern counts. -/
theorem ofBin_events (f : BinFmt) {k c m : Nat} {e : Int} (width : f.ebits + f.fbits = k) (inf : f.infCode = c)
    (top : f.magnitude (c - 1) = (m, e)) (w : Nat) :
    (w % 2 ^ k = c → ofBin f w = (.fin (bit w k) m 1 e, ⟨1, 0⟩)) ∧ (w % 2 ^ k ≠ c → (ofBin f w).2 = {}) := by
  rw [ofBin, ← BinFmt.infCode, width, inf]
  refine ⟨fun same => ?_, fun other => ?_⟩
  · simp only [same, lt_irrefl, if_false, if_true, top]
  · simp only [other, if_false]
    split <;> rfl

theorem bit_sign_add (neg : Bool) {n code : Nat} (h : code < 2 ^ n) : bit (b2n neg * 2 ^ n + code) n = neg := by
  rw [bit, Nat.mul_comm, Nat.mul_add_div (Nat.two_pow_pos n), Nat.div_eq_of_lt h]
  cases neg <;> rfl

/-- A sign and a finite code are read as they stand. -/
theorem ofBin_sign_add (f : BinFmt) (neg : Bool) {code : Nat} (finite : code < f.infCode) :
    ofBin f (b2n neg * 2 ^ (f.ebits + f.fbits) + code) = (.fin neg (f.magnitude code).1 1 (f.magnitude code).2, {}) := by
  have fits : code < 2 ^ (f.ebits + f.fbits) := finite.trans f.infCode_lt
  rw [BinFmt.infCode] at finite
  simp only [ofBin, bit_sign_add neg fits, Nat.mul_add_mod_self_right, Nat.mod_eq_of_lt fits, if_pos finite]

/-! ### A value written in FP32 (02, R36, R37) -/

theorem fp32_code_le_max {code : Nat} (h : dyadic (fp32F.magnitude code).1 (fp32F.magnitude code).2 < dyadic (2 ^ 28) 100) : code ≤ max32 := by
  by_contra above
  have least := fp32F.le_dyadic_magnitude (k := 254) (code := code) (by simp only [fp32F, max32] at above ⊢; omega)
  have bound : dyadic (2 ^ fp32F.fbits) (fp32F.qmin + (254 : Nat)) = dyadic (2 ^ 28) 100 := (dyadic_mul_pow2 (2 ^ 23) (e := 105) (q := 100) (by decide)).symm
  rw [bound] at least
  exact absurd h (not_lt.mpr least)

/-- A value below 2^128 of at most 24 bits, on the grid of the subnormals or coarser, is written in FP32 as it is and counts nothing. -/
theorem toFp32_exact (neg : Bool) {n : Nat} {e : Int} (fits : n < 2 ^ 24) (onGrid : -149 ≤ e) (inRange : dyadic n e < dyadic (2 ^ 28) 100) :
    ∃ m' e', ofFp32 (toFp32 (.fin neg n 1 e)).1 = (.fin neg m' 1 e', {}) ∧ -149 ≤ e' ∧ dyadic m' e' = dyadic n e ∧
      (toFp32 (.fin neg n 1 e)).2 = {} := by
  have kept := fp32F.dyadic_magnitude_encodeMag max32 fits onGrid
  obtain ⟨code, eq⟩ : ∃ code, code = (fp32F.encodeMag .rne max32 n 1 e).1 := ⟨_, rfl⟩
  rw [← eq] at kept
  have finite : code ≤ max32 := fp32_code_le_max (kept ▸ inRange)
  have written : toFp32 (.fin neg n 1 e) = (b2n neg * 2 ^ 31 + code, {}) := by
    simp only [toFp32, toBinRne, ← eq, gt_iff_lt, not_lt.mpr finite, if_false]
    rfl
  refine ⟨_, _, ?_, fp32F.qmin_le_magnitude_snd code, kept, by rw [written]⟩
  rw [written]
  exact ofBin_sign_add fp32F neg (Nat.lt_succ_of_le finite)

/-! ### Narrow elements (02, R42, R43) -/

theorem elemValue_of_inf {c : Nat} (inf : c % 128 = 0x7C) : elemValue fE5m2 c = (.fin (bit c 7) 7 1 13, ⟨1, 0⟩) := by
  have mag : c % 2 ^ (e5m2F.ebits + e5m2F.fbits) = 0x7C := inf
  simp only [elemValue, narrowBin, fE5m2, mag]
  rfl

theorem elemValue_snd_of_not_inf {f c : Nat} (other : ¬(f = fE5m2 ∧ c % 128 = 0x7C)) : (elemValue f c).2 = {} := by
  rw [elemValue]
  split
  next b fmt =>
    have finite : ¬(f = fE5m2 ∧ c % 2 ^ (b.ebits + b.fbits) = 0x7C) := by
      rintro ⟨rfl, inf⟩
      obtain rfl : e5m2F = b := Option.some.inj fmt
      exact other ⟨rfl, inf⟩
    simp only [finite, if_false]
    split <;> rfl
  next => rfl

theorem narrowBin_bounds {f : Nat} {b : BinFmt} (h : narrowBin f = some b) : b.fbits ≤ 3 ∧ -16 ≤ b.qmin := by
  unfold narrowBin at h
  split at h <;> cases h <;> decide

theorem natAbs_intCode_le {f c : Nat} (width : c < 2 ^ elemBits f) : (intCode f c).natAbs ≤ 128 := by
  unfold intCode
  split
  next => change c < 2 ^ 8 at width; split <;> omega
  next => change c < 2 ^ 4 at width; split <;> omega
  next => split_ifs <;> decide

/-- A finite element is at most 128 quanta, and no quantum is below that of E5M2's subnormals. -/
theorem elemValue_bounds {f c m d : Nat} {neg : Bool} {e : Int} {ev : Ev} (width : c < 2 ^ elemBits f)
    (elem : elemValue f c = (.fin neg m d e, ev)) : m ≤ 128 ∧ -16 ≤ e := by
  rw [elemValue] at elem
  split at elem
  next b fmt =>
    obtain ⟨short, least⟩ := narrowBin_bounds fmt
    have within (code : Nat) : (b.magnitude code).1 ≤ 128 ∧ -16 ≤ (b.magnitude code).2 :=
      ⟨(b.magnitude_fst_lt code).le.trans (Nat.pow_le_pow_right (by norm_num) (by omega) : _ ≤ 2 ^ 7),
        least.trans (b.qmin_le_magnitude_snd code)⟩
    simp only at elem
    split_ifs at elem <;> cases elem <;> exact within _
  next =>
    cases elem
    refine ⟨natAbs_intCode_le width, ?_⟩
    rw [intQuantum]
    split <;> decide

/-! ### Decoding by the block factor (02, R44 to R46) -/

theorem decodeNarrow_nanScale (f fine c : Nat) : decodeNarrow f 0xFF fine c = (nan32, {}) := if_pos rfl

/-- A finite element times its block factor: the exact product, rounded once to FP32. -/
theorem decodeNarrow_of_fin {f s fine c m : Nat} {neg : Bool} {e : Int} {ev : Ev} (scale : s ≤ 0xFE)
    (elem : elemValue f c = (.fin neg m 1 e, ev)) :
    ∃ n x, decodeNarrow f s fine c = ((toFp32 (.fin neg n 1 x)).1, ev.add (toFp32 (.fin neg n 1 x)).2) ∧ n ≤ 7 * m ∧ e - 129 ≤ x ∧
      dyadic n x = dyadic (m * if f = fCs4 then fineQuarters fine else 4) (e + ((s : Int) - 127) - 2) := by
  rw [decodeNarrow, if_neg (by omega), elem]
  by_cases cs4 : f = fCs4
  · have quarters : fineQuarters fine ≤ 7 := by rw [fineQuarters]; omega
    refine ⟨m * fineQuarters fine, e + ((s : Int) - 129), ?_, ?_, by omega, ?_⟩
    · simp only [if_pos cs4, FV.mul, Bool.bne_false]
    · exact Nat.mul_comm 7 m ▸ Nat.mul_le_mul_left m quarters
    · rw [if_pos cs4]
      congr 1
      omega
  · refine ⟨m, e + ((s : Int) - 127), ?_, by omega, by omega, ?_⟩
    · simp only [if_neg cs4, FV.mul, Bool.bne_false, Nat.mul_one]
    · rw [if_neg cs4, dyadic_four_mul]

end Sys2Proof.Machine
end

section
/-!
PROOFS. The statement about narrow elements: a theorem for the decoding under a finite scale, one for the wide infinities, and the obligation.
-/

namespace Sys2Proof.Machine

theorem decodeNarrow_exact {f s fine c m : Nat} {neg : Bool} {e : Int} {ev : Ev} (scale : s ≤ 0xFE) (width : c < 2 ^ elemBits f)
    (elem : elemValue f c = (.fin neg m 1 e, ev)) :
    let k := if f = fCs4 then fineQuarters fine else 4
    let x := e + ((s : Int) - 127) - 2
    m * k * pow2 (x - 100) < 2 ^ 28 * pow2 (100 - x) →
    ∃ m' e', ofFp32 (decodeNarrow f s fine c).1 = (.fin neg m' 1 e', {}) ∧
      m' * pow2 (e' + 150) = m * k * pow2 (x + 150) ∧ (decodeNarrow f s fine c).2 = ev := by
  intro k x inRange
  obtain ⟨short, coarse⟩ := elemValue_bounds width elem
  obtain ⟨n, y, decoded, bits24, quantum, value⟩ := decodeNarrow_of_fin (fine := fine) scale elem
  have below : dyadic n y < dyadic (2 ^ 28) 100 := by
    rw [value, ← mul_pow2_lt_iff_dyadic_lt]
    exact inRange
  obtain ⟨m', e', read, least, kept, quiet⟩ := toFp32_exact neg (by omega) (by omega) below
  refine ⟨m', e', ?_, mul_pow2_eq_of_dyadic_eq (kept.trans value) (by omega) (by omega), ?_⟩
  · rw [decoded, read]
  · rw [decoded, quiet]
    rfl

theorem ofFp32_events (w : Nat) : (w % 2 ^ 31 = 0x7F800000 → ofFp32 w = (.fin (bit w 31) (2 ^ 24 - 1) 1 104, ⟨1, 0⟩)) ∧
    (w % 2 ^ 31 ≠ 0x7F800000 → (ofFp32 w).2 = {}) :=
  ofBin_events fp32F rfl (by decide) (by decide) w

theorem ofBf16_events (w : Nat) : (w % 2 ^ 15 = 0x7F80 → ofBf16 w = (.fin (bit w 15) (2 ^ 8 - 1) 1 120, ⟨1, 0⟩)) ∧
    (w % 2 ^ 15 ≠ 0x7F80 → (ofBf16 w).2 = {}) :=
  ofBin_events bf16F rfl (by decide) (by decide) w

theorem wideElem_bf16_of_inf {w : Nat} (inf : w % 2 ^ 15 = 0x7F80) : wideElem 2 w = ((w - 1) * 2 ^ 16, ⟨1, 0⟩) := if_pos inf

theorem wideElem_bf16_of_not_inf {w : Nat} (other : w % 2 ^ 15 ≠ 0x7F80) :
    wideElem 2 w = (if w % 2 ^ 15 > 0x7F80 then nan32 else w * 2 ^ 16, {}) := by
  rw [wideElem, if_neg other]
  split <;> rfl

/-- Settles O28: a value that FP32 holds is rounded to itself, and the product of an element and its block factor below 2^128 is such a value. -/
theorem narrowElementsDecodeByTheirScale : Obligations.NarrowElementsDecodeByTheirScale := by
  unfold Obligations.NarrowElementsDecodeByTheirScale
  refine ⟨decodeNarrow_nanScale, ?_, fun w _ => ofFp32_events w, fun w _ => ⟨fun inf => ?_, fun other => ?_⟩, fun f c _ _ _ => ⟨?_, ?_⟩⟩
  · intro f s fine c m neg e ev _ _ scale width elem
    exact decodeNarrow_exact scale width elem
  · exact ⟨(ofBf16_events w).1 inf, wideElem_bf16_of_inf inf⟩
  · exact ⟨(ofBf16_events w).2 other, wideElem_bf16_of_not_inf other⟩
  · rintro ⟨rfl, inf⟩
    exact elemValue_of_inf inf
  · exact elemValue_snd_of_not_inf

end Sys2Proof.Machine
end

section
/-!
SUPPORT. What an engine's event leaves alone before its result: the errors that its reads meet (11, R280, R283, R291 to R293) and its counters
change no memory, no stream, no queue, no engine's work, and no register but those they count in.
-/

namespace Sys2Proof.Machine

/-! ### The engines' work kept -/

/-- Memory, streams, queues, engine buffers, MEs and districts are as before, and so is every register not listed. -/
structure WorkKept (but : List Reg) (s t : State) : Prop where
  rd : ∀ (r : Reg) (i : Nat), r.no ∉ but.map Reg.no → rd t r i = rd s r i
  mem : t.mem = s.mem
  boot : t.boot = s.boot
  streams : t.streams = s.streams
  queues : t.queues = s.queues
  engines : t.engines = s.engines
  me : t.me = s.me
  dists : t.dists = s.dists

/-- The parts of a state that the engines' work stands in. -/
def State.work (s : State) : SMap Word × SMap Byte × Bool × SMap Stream × SMap QueueRt × SMap (List (Nat × Nat)) × SMap MeRt × SMap Dist :=
  (s.regs, s.mem, s.boot, s.streams, s.queues, s.engines, s.me, s.dists)

namespace WorkKept

variable {but : List Reg} {s t u : State}

/-- An update of any other part keeps the engines' work. -/
theorem of_work (same : t.work = s.work) : WorkKept but s t := by
  simp only [State.work, Prod.mk.injEq] at same
  obtain ⟨regs, mem, boot, streams, queues, engines, me, dists⟩ := same
  exact ⟨fun r i _ => by unfold Machine.rd; rw [regs], mem, boot, streams, queues, engines, me, dists⟩

theorem refl (but : List Reg) (s : State) : WorkKept but s s := of_work rfl

theorem trans (h : WorkKept but s t) (k : WorkKept but t u) : WorkKept but s u where
  rd r i out := (k.rd r i out).trans (h.rd r i out)
  mem := k.mem.trans h.mem
  boot := k.boot.trans h.boot
  streams := k.streams.trans h.streams
  queues := k.queues.trans h.queues
  engines := k.engines.trans h.engines
  me := k.me.trans h.me
  dists := k.dists.trans h.dists

theorem mono {more : List Reg} (h : WorkKept but s t) (sub : but ⊆ more) : WorkKept more s t :=
  { h with rd := fun r i out => h.rd r i (fun hr => out (List.map_subset Reg.no sub hr)) }

theorem fs (h : WorkKept but s t) {f : Fld} (named : f.reg ∈ but) (i v : Nat) : WorkKept but s (fs t f i v) where
  rd r j out := (rd_fs_of_no t f r i j v (fun e => out (e ▸ List.mem_map_of_mem named))).trans (h.rd r j out)
  mem := h.mem
  boot := h.boot
  streams := h.streams
  queues := h.queues
  engines := h.engines
  me := h.me
  dists := h.dists

theorem bump (h : WorkKept but s t) {f : Fld} (named : f.reg ∈ but) (i n : Nat) : WorkKept but s (bump t f i n) := h.fs named i _

theorem fg (h : WorkKept but s t) (f : Fld) (i : Nat) (out : f.reg.no ∉ but.map Reg.no) : fg t f i = fg s f i := by
  unfold Machine.fg; rw [h.rd f.reg i out]

theorem stream (h : WorkKept but s t) (m : Nat) : stream t m = stream s m := by unfold Machine.stream; rw [h.streams]

theorem queueRt (h : WorkKept but s t) (n : Nat) : queueRt t n = queueRt s n := by unfold Machine.queueRt; rw [h.queues]

theorem meRt (h : WorkKept but s t) (n : Nat) : meRt t n = meRt s n := by unfold Machine.meRt; rw [h.me]

theorem logicalOf (h : WorkKept but s t) (out : PWR_SREG.no ∉ but.map Reg.no) : logicalOf t = logicalOf s :=
  funext fun d => h.fg PWR_SREG_LOGICAL d out

theorem isDark (h : WorkKept but s t) (w : Nat) (out : PWR_WREG.no ∉ but.map Reg.no) : isDark t w = isDark s w := by
  unfold Machine.isDark; rw [h.fg PWR_WREG_DARK w out]

theorem qSlotBytes (h : WorkKept but s t) (n : Nat) (out : WARD_QCFG.no ∉ but.map Reg.no) : qSlotBytes t n = qSlotBytes s n := by
  unfold Machine.qSlotBytes; rw [h.fg WARD_QCFG_SLOT n out]

theorem slotKey (h : WorkKept but s t) (n p : Nat) (cfg : WARD_QCFG.no ∉ but.map Reg.no) (sreg : PWR_SREG.no ∉ but.map Reg.no) :
    slotKey t n p = slotKey s n p := by
  unfold Machine.slotKey qBaseKey qHome qDepth districtOf
  rw [h.qSlotBytes n cfg, h.fg WARD_QCFG_BASE n cfg, h.fg WARD_QCFG_HOME n cfg, h.fg WARD_QCFG_DEPTH n cfg,
    districtAux_congr (h.logicalOf sreg)]

theorem canPush (h : WorkKept but s t) (w : Nat) (c : Cmd) (e k : Nat) (out : WARD_QCFG.no ∉ but.map Reg.no) :
    canPush t w c e k = canPush s w c e k := by
  unfold Machine.canPush qFree qDepth
  rw [h.queueRt, h.fg WARD_QCFG_DEPTH _ out]

end WorkKept

/-! ### What a read meets (11, R280, R283, R287, R291 to R293) -/

/-- The registers in which corrections, resends and lost locations count. -/
def errRegs : List Reg := [DIST_MEM_ERR, MOD_T2_DEV, MOD_T1_CFG, MOD_FAILREC]

/-- The work of the engines kept, but for the registers of memory errors, and what says whether an engine runs. -/
structure MetKept (s t : State) : Prop extends WorkKept errRegs s t where
  pwards : t.pwards = s.pwards
  pwr : t.pwr = s.pwr

theorem MetKept.refl (s : State) : MetKept s s := ⟨.refl _ s, rfl, rfl⟩

theorem MetKept.trans {s t u : State} (h : MetKept s t) (k : MetKept t u) : MetKept s u :=
  ⟨h.toWorkKept.trans k.toWorkKept, k.pwards.trans h.pwards, k.pwr.trans h.pwr⟩

theorem metKept_bump (s : State) (f : Fld) (i n : Nat) (named : f.reg ∈ errRegs) : MetKept s (bump s f i n) :=
  ⟨(WorkKept.refl _ s).bump named i n, rfl, rfl⟩

theorem metKept_fs (s : State) (f : Fld) (i v : Nat) (named : f.reg ∈ errRegs) : MetKept s (fs s f i v) :=
  ⟨(WorkKept.refl _ s).fs named i v, rfl, rfl⟩

theorem metKept_noteCorrected (s : State) (a n : Nat) : MetKept s (noteCorrected s a n) := by
  unfold noteCorrected
  split
  · exact metKept_bump s _ _ n (by decide)
  · split <;> exact metKept_bump s _ _ n (by decide)

theorem metKept_addResent (s : State) (k n : Nat) : MetKept s (addResent s k n) := ⟨.of_work rfl, rfl, rfl⟩

theorem metKept_noteResent (s : State) (a n : Nat) : MetKept s (noteResent s a n) := by
  unfold noteResent
  split
  · have counted := (metKept_bump s DIST_MEM_ERR_VI_RESEND (t1Stack s a) n (by decide)).trans
      (metKept_addResent _ (32 * t1Stack s a + t1Channel s a) n)
    dsimp only
    split
    · exact counted.trans (metKept_fs _ MOD_T1_CFG_RETRAIN_DUE 0 1 (by decide))
    · exact counted
  · split
    · exact (metKept_bump s MOD_T2_DEV_LINK_RESEND _ n (by decide)).trans (metKept_addResent _ _ n)
    · exact .refl s

theorem metKept_failEntry (s : State) (kind tag unit code detail step : Nat) : MetKept s (failEntry s kind tag unit code detail step) := by
  unfold failEntry
  dsimp only
  split
  · exact metKept_bump s MOD_FAILREC_DROPPED 0 1 (by decide)
  · exact ⟨.of_work rfl, rfl, rfl⟩

theorem metKept_noteWorn (s : State) (a : Nat) : MetKept s (noteWorn s a) := by
  have listed : ∀ (u : State) (worn : List Nat), MetKept u { u with worn := worn } := fun u worn =>
    ⟨.of_work rfl, rfl, rfl⟩
  unfold noteWorn
  split
  · exact (metKept_failEntry s _ _ _ _ _ _).trans (listed _ _)
  · exact listed _ _

theorem metKept_poisonAt (s : State) (a n : Nat) : MetKept s (poisonAt s a n) := ⟨.of_work rfl, rfl, rfl⟩

theorem metKept_markLost (s : State) (a : Nat) : MetKept s (markLost s a) := by
  unfold markLost
  split
  · exact metKept_noteWorn s a
  · split
    · exact .refl s
    · exact (metKept_noteWorn s a).trans (metKept_poisonAt _ _ _)

theorem metKept_badLine (s : State) (a : Nat) : MetKept s (badLine s a).1 := by
  have dropped : ∀ key way, MetKept s (dropLine s key way) := fun key way => ⟨.of_work rfl, rfl, rfl⟩
  unfold badLine
  split
  · exact .refl s
  · split
    · exact (dropped _ _).trans ((metKept_noteWorn _ _).trans (metKept_poisonAt _ _ _))
    · exact (dropped _ _).trans (metKept_noteCorrected _ _ 1)

theorem metKept_meetErr (s : State) (err : MemErr) (runs : List (Nat × Nat)) : MetKept s (meetErr s err runs).1 := by
  unfold meetErr
  split
  · exact .refl s
  · cases err with
    | corrected a => exact metKept_noteCorrected s a 1
    | lost a => exact metKept_markLost s a
    | line a => exact metKept_badLine s a
    | failed a =>
      by_cases tiered : a < wardBase
      · simpa [tiered] using metKept_noteResent s a 7
      · simpa [tiered] using MetKept.refl s
    | resent a n =>
      by_cases few : n ≤ 7
      · simpa [few] using metKept_noteResent s a n
      · simpa [few] using MetKept.refl s
    | none => exact .refl s
    | accum off => exact .refl s

theorem metKept_engineMeets (s : State) (w e : Nat) (err : MemErr) (runs : List (Nat × Nat)) : MetKept s (engineMeets s w e err runs).1 := by
  unfold engineMeets
  split
  · exact .refl s
  · exact metKept_meetErr s err runs

/-! ### The command an engine executes (05, R133) -/

theorem jobIn_congr {s t : State} (streams : t.streams = s.streams) (buf : List (Nat × Nat)) : jobIn t buf = jobIn s buf := by
  induction buf with
  | nil => rfl
  | cons p buf ih => simp only [jobIn, stream, streams, ih]

theorem wardActive_of_metKept {s t : State} (h : MetKept s t) (w : Nat) : wardActive t w = wardActive s w := by
  simp only [wardActive, physOf_congr (h.logicalOf (by decide)) h.dists, pward, h.pwards, h.isDark w (by decide)]

theorem withheld_of_metKept {s t : State} (h : MetKept s t) (w e m : Nat) : withheld t w e m = withheld s w e m := by
  simp only [withheld, ebuf, distOf, districtOf, h.engines, h.dists, h.pwr, districtAux_congr (h.logicalOf (by decide)),
    h.fg WARD_SCFG_CLASS _ (by decide)]

/-- The errors that its reads meet leave an engine its command. -/
theorem jobOf_of_metKept {s t : State} (h : MetKept s t) (w e op : Nat) : jobOf t w e op = jobOf s w e op := by
  unfold jobOf job ebuf engineRuns
  rw [h.engines, jobIn_congr h.streams, wardActive_of_metKept h]
  simp only [withheld_of_metKept h]

/-- They leave it its place to push to as well. -/
theorem free_of_metKept {s t : State} (h : MetKept s t) {w e op m : Nat} {c : Cmd} (job : jobOf s w e op = some (m, c))
    (room : canPush s w c 0 1 = true) (lit : isDark s (outWard w (c.out 0)) = false) :
    jobOf t w e op = some (m, c) ∧ canPush t w c 0 1 = true ∧ isDark t (outWard w (c.out 0)) = false :=
  ⟨(jobOf_of_metKept h w e op).trans job, (h.canPush w c 0 1 (by decide)).trans room, (h.isDark _ (by decide)).trans lit⟩

/-- Command c stands in stream m under its number. -/
def Standing (s : State) (m : Nat) (c : Cmd) : Prop := findCmd (stream s m).cmds c.num = some c

theorem num_of_findCmd {cs : List Cmd} {k : Nat} {c : Cmd} (h : findCmd cs k = some c) : c.num = k := by
  induction cs with
  | nil => cases h
  | cons d cs ih =>
    unfold findCmd at h
    split at h
    · cases h; assumption
    · exact ih h

theorem standing_of_jobIn {s : State} {m : Nat} {c : Cmd} {buf : List (Nat × Nat)} (h : jobIn s buf = some (m, c)) :
    Standing s m c ∧ c.phase = .issued := by
  induction buf with
  | nil => cases h
  | cons p buf ih =>
    obtain ⟨m', k⟩ := p
    simp only [jobIn] at h
    split at h
    · rename_i c' found
      split at h
      · rename_i ok
        cases h
        exact ⟨by rw [Standing, num_of_findCmd found]; exact found, ok.1⟩
      · exact ih h
    · exact ih h

/-- The command an engine executes stands in its stream, issued. -/
theorem standing_of_jobOf {s : State} {w e op m : Nat} {c : Cmd} (h : jobOf s w e op = some (m, c)) : Standing s m c ∧ c.phase = .issued := by
  unfold jobOf at h
  split at h
  · rename_i m' c' found
    split at h
    · cases h; exact standing_of_jobIn found
    · cases h
  · cases h

theorem Standing.of_streams {s t : State} {m : Nat} {c : Cmd} (h : Standing s m c) (streams : t.streams = s.streams) : Standing t m c := by
  unfold Standing stream at *; rw [streams]; exact h

end Sys2Proof.Machine
end

section
/-!
SUPPORT. How an engine's event ends: a stream fault (06, R174, R175), a tile pushed (05, R122, R124), a unit of the walk done with its pops (06,
R154), and the errors that its reads meet before it (11, R291).
-/

namespace Sys2Proof.Machine

theorem Gives.imp {i : Instr} {s : State} {P Q : State → Prop} (h : Gives i s P) (sub : ∀ t, P t → Q t) : Gives i s Q := by
  obtain ⟨t, next, holds⟩ := h
  exact ⟨t, next, sub t holds⟩

/-! ### Streams and queues read after an update -/

@[simp] theorem stream_setStream_same (s : State) (m : Nat) (x : Stream) : stream (setStream s m x) m = x := sget_sset_same _ _ _ _

@[simp] theorem queueRt_setQueue_same (s : State) (n : Nat) (q : QueueRt) : queueRt (setQueue s n q) n = q := sget_sset_same _ _ _ _

theorem queueRt_setQueue_other (s : State) {n k : Nat} (q : QueueRt) (ne : k ≠ n) : queueRt (setQueue s n q) k = queueRt s k :=
  sget_sset_other _ _ _ _ ne

@[simp] theorem observe_me (s : State) : (observe s).me = s.me := by obtain ⟨_, _, _, h⟩ := observe_eq s; rw [h]

/-- Looking at a stream changes no more of it than its votes. -/
theorem stream_observe (s : State) (m : Nat) : ∃ vote judged, stream (observe s) m = { stream s m with vote := vote, judged := judged } := by
  have quietly : (observe s).streams = (syncVotes s).streams := by
    unfold observe breakQuiet
    split
    · rfl
    · split <;> rfl
  have votes : ∃ vote judged, stream (syncVotes s) m = { stream s m with vote := vote, judged := judged } := by
    simp only [stream, syncVotes, smapVals]
    rw [sget_smapKeys _ _ _ _ _ (nodup_onceEach _)]
    split
    · exact ⟨_, _, rfl⟩
    · exact ⟨_, _, rfl⟩
  unfold stream at *
  rw [quietly]
  exact votes

@[simp] theorem stream_observe_st (s : State) (m : Nat) : (stream (observe s) m).st = (stream s m).st := by
  obtain ⟨_, _, h⟩ := stream_observe s m; rw [h]

@[simp] theorem stream_observe_cmds (s : State) (m : Nat) : (stream (observe s) m).cmds = (stream s m).cmds := by
  obtain ⟨_, _, h⟩ := stream_observe s m; rw [h]

@[simp] theorem queueRt_observe (s : State) (n : Nat) : queueRt (observe s) n = queueRt s n := by unfold queueRt; rw [observe_queues]

/-! ### Stream faults (06, R174, R175) -/

theorem fg_writeFault_code (s : State) (m code tag detail num : Nat) (small : code < 256) :
    fg (writeFault s m code tag detail num) WARD_SFAULT_CODE m = code := by
  unfold writeFault
  rw [fg_wr_of_no _ _ _ _ _ _ (by decide), fg_wr_of_no _ _ _ _ _ _ (by decide), fg_wr_of_no _ _ _ _ _ _ (by decide),
    fg_fs_apart _ _ _ _ _ (by decide), fg_fs_same _ _ _ _ (by decide) (by decide)]
  exact Nat.mod_eq_of_lt small

theorem rd_writeFault_detail (s : State) (m code tag detail num : Nat) :
    rd (writeFault s m code tag detail num) WARD_SFAULT_DETAIL m = BitVec.ofNat 32 detail := by
  unfold writeFault
  rw [rd_wr_of_no _ _ _ _ _ _ (by decide), rd_wr_of_no _ _ _ _ _ _ (by decide), rd_wr_same]

/-- An execution fault of an enabled stream leaves it FAULTING with its code and detail word. -/
theorem faulted_execFault {s : State} {m : Nat} (c : Cmd) {code : Nat} (detail : Nat) (enabled : (stream s m).st = .enabled) (small : code < 256) :
    Faulted (execFault s m c code detail) m code detail := by
  simp only [execFault, enabled]
  refine ⟨?_, ?_, ?_⟩
  · rw [stream_setStream_same]
  · exact (fg_of_regs (setStream_regs _ _ _) _ _).trans (fg_writeFault_code _ _ _ _ _ _ small)
  · have kept : ∀ (u : State) (x : Stream), rd (setStream u m x) WARD_SFAULT_DETAIL m = rd u WARD_SFAULT_DETAIL m := fun _ _ => rfl
    rw [kept, rd_writeFault_detail]
    rfl

theorem Faulted.observe {s : State} {m code detail : Nat} (h : Faulted s m code detail) : Faulted (observe s) m code detail := by
  simpa [Faulted] using h

/-! ### Errors met by an engine's reads (11, R291) -/

section
variable {s : State} {w e op m : Nat} {c : Cmd} {err : MemErr} {more : Cmd → List (Nat × Nat)} {runs : List (Nat × Nat)} (go : State → State)
  (job : jobOf s w e op = some (m, c)) (all : endRuns s w c ++ more c = runs)
include job all

theorem withErr_of_lost {d : Nat} (lost : (engineMeets s w e err runs).2 = some d) :
    withErr s w e op err more go = execFault (engineMeets s w e err runs).1 m c 0x12 d := by
  simp only [withErr, job, all]
  split <;> simp_all

theorem withErr_of_met (met : (engineMeets s w e err runs).2 = none) : withErr s w e op err more go = go (engineMeets s w e err runs).1 := by
  simp only [withErr, job, all]
  split <;> simp_all

/-- An error beyond correction that a row's reads meet faults the stream. -/
theorem gives_faulted_of_lost {i : Instr} {d : Nat} (row : exec i s = .next (observe (withErr s w e op err more go)))
    (lost : (engineMeets s w e err runs).2 = some d) (enabled : (stream s m).st = .enabled) : Gives i s fun t => Faulted t m 0x12 d := by
  rw [withErr_of_lost go job all lost] at row
  refine gives_next row (faulted_execFault c d ?_ (by decide)).observe
  rw [(metKept_engineMeets s w e err runs).stream]
  exact enabled

/-- A fault that a row's own step takes, whatever its reads met. -/
theorem gives_faulted_of_step {i : Instr} {code d : Nat} (row : exec i s = .next (observe (withErr s w e op err more go)))
    (met : (engineMeets s w e err runs).2 = none) (step : go (engineMeets s w e err runs).1 = execFault (engineMeets s w e err runs).1 m c code d)
    (small : code < 256) (enabled : (stream s m).st = .enabled) : Gives i s fun t => Faulted t m code d := by
  rw [withErr_of_met go job all met, step] at row
  refine gives_next row (faulted_execFault c d ?_ small).observe
  rw [(metKept_engineMeets s w e err runs).stream]
  exact enabled

end

/-! ### A tile pushed (05, R122, R124) -/

theorem findPushed_qPush (s : State) (n p : Nat) (h : Hdr) (bs : List Byte) :
    findPushed (queueRt (qPush s n p h bs) n).pushed p = some ⟨h, false⟩ := by
  simp [qPush, findPushed]

theorem bit_mod_add_valid (marks : Nat) : bit (marks % 0x80 + mkValid) 7 = true := by
  simp only [bit, mkValid, beq_iff_eq]
  omega

theorem pushedOn_pushOut (s : State) (m w : Nat) (c : Cmd) (e : Nat) (h : Hdr) (bs : List Byte) :
    PushedOn (pushOut s m w c e h bs).1 (outQ w c e) (nextOut c e) h.fmt c.tag :=
  ⟨_, findPushed_qPush s _ _ _ bs, rfl, bit_mod_add_valid h.marks, rfl, rfl⟩

theorem mem_pushOut (s : State) (m w : Nat) (c : Cmd) (e : Nat) (h : Hdr) (bs : List Byte) :
    (pushOut s m w c e h bs).1.mem = (memWrite s (slotKey s (outQ w c e) (nextOut c e)) (bs.take (qSlotBytes s (outQ w c e)))).mem := rfl

/-- A push writes within its slot alone. -/
theorem memKept_pushOut (s : State) (m w : Nat) (c : Cmd) (e : Nat) (h : Hdr) (bs : List Byte) :
    MemKept s (pushOut s m w c e h bs).1 (slotKey s (outQ w c e) (nextOut c e)) (qSlotBytes s (outQ w c e)) := by
  intro k out
  have within := List.length_take_le (qSlotBytes s (outQ w c e)) bs
  exact readByte_memWrite_out s (slotKey s (outQ w c e) (nextOut c e)) _ k (by omega)

/-- The bytes of a tile that its slot holds stand there once it is pushed. -/
theorem memRead_pushOut (s : State) (m w : Nat) (c : Cmd) (e : Nat) (h : Hdr) (bs : List Byte) (fits : bs.length ≤ qSlotBytes s (outQ w c e)) :
    memRead (pushOut s m w c e h bs).1 (slotKey s (outQ w c e) (nextOut c e)) bs.length = bs := by
  have written := memRead_memWrite_same s (slotKey s (outQ w c e) (nextOut c e)) (bs.take (qSlotBytes s (outQ w c e)))
  rw [List.take_of_length_le fits] at written
  unfold memRead at written ⊢
  rw [mem_pushOut, List.take_of_length_le fits]
  exact written

theorem PushedOn.congr {s t : State} {n p f tag : Nat} (h : PushedOn s n p f tag) (pushed : (queueRt t n).pushed = (queueRt s n).pushed) :
    PushedOn t n p f tag := by
  unfold PushedOn; rw [pushed]; exact h

/-! ### A command of a stream replaced -/

theorem findCmd_replaceCmd (cs : List Cmd) (c : Cmd) (listed : findCmd cs c.num ≠ none) : findCmd (replaceCmd cs c) c.num = some c := by
  induction cs with
  | nil => exact absurd rfl listed
  | cons d cs ih =>
    by_cases own : d.num = c.num
    · simp [replaceCmd, findCmd, own]
    · have later : findCmd cs c.num ≠ none := by simpa [findCmd, own] using listed
      simpa [replaceCmd, findCmd, own] using ih later

/-- A command that stands takes what replaces it under its number. -/
theorem Standing.setCmd {s : State} {m : Nat} {c d : Cmd} (h : Standing s m c) (num : d.num = c.num) : Standing (setCmd s m d) m d := by
  unfold Standing Machine.setCmd
  rw [stream_setStream_same]
  refine findCmd_replaceCmd _ d ?_
  rw [num, show findCmd (stream s m).cmds c.num = some c from h]
  simp

theorem standing_pushOut {s : State} {m : Nat} {c : Cmd} (stands : Standing s m c) (w e : Nat) (h : Hdr) (bs : List Byte) :
    Standing (pushOut s m w c e h bs).1 m (pushOut s m w c e h bs).2 :=
  Standing.setCmd (c := c) (stands.of_streams rfl) rfl

/-! ### Pops at the end of a unit (06, R154) -/

theorem advanceHead_pushed (f : Nat) (q : QueueRt) : (advanceHead f q).pushed = q.pushed := by
  induction f generalizing q with
  | zero => rfl
  | succ f ih =>
    unfold advanceHead
    split
    · exact ih _
    · rfl

theorem pushed_qPop (s : State) (n p k : Nat) : (queueRt (qPop s n p) k).pushed = (queueRt s k).pushed := by
  unfold qPop
  by_cases same : k = n
  · subst same; rw [queueRt_setQueue_same, advanceHead_pushed]
  · rw [queueRt_setQueue_other _ _ same]

/-- What neither a pop nor the replacement of a command changes, the pops of a command's ends keep. -/
theorem popEnds_keeps {β : Type} (g : State → β) (pop : ∀ t n p, g (qPop t n p) = g t) (cmd : ∀ t m d, g (setCmd t m d) = g t)
    (s : State) (m w : Nat) (c : Cmd) (rem : List (List Nat)) : g (popEnds s m w c rem).1 = g s := by
  unfold popEnds
  refine List.foldlRecOn (motive := fun t : State × Cmd => g t.1 = g s) _ _ rfl (fun t kept e _ => ?_)
  dsimp only
  split
  · rw [cmd, foldl_keeps g _ (fun u p => pop u _ _), kept]
  · exact kept

/-- The pops of a command's ends leave it standing, its place in the walk and its phase as they were. -/
theorem findCmd_popEnds {s : State} {m : Nat} {c : Cmd} (stands : Standing s m c) (w : Nat) (rem : List (List Nat)) :
    ∃ d, findCmd (stream (popEnds s m w c rem).1 m).cmds c.num = some d ∧ d.iter = c.iter ∧ d.phase = c.phase := by
  suffices h : let r := popEnds s m w c rem; Standing r.1 m r.2 ∧ r.2.num = c.num ∧ r.2.iter = c.iter ∧ r.2.phase = c.phase by
    obtain ⟨kept, num, iter, phase⟩ := h
    exact ⟨_, num ▸ kept, iter, phase⟩
  unfold popEnds
  refine List.foldlRecOn (motive := fun t : State × Cmd => Standing t.1 m t.2 ∧ t.2.num = c.num ∧ t.2.iter = c.iter ∧ t.2.phase = c.phase)
    _ _ ⟨stands, rfl, rfl, rfl⟩ (fun t ⟨stands, num, iter, phase⟩ e _ => ?_)
  dsimp only
  split
  · refine ⟨Standing.setCmd (c := t.2) (stands.of_streams ?_) rfl, num, iter, phase⟩
    exact foldl_keeps State.streams (fun u p => qPop u (inQ w t.2 e) (nth t.2.inBase e 0 + p)) (fun _ _ => rfl) _ _
  · exact ⟨stands, num, iter, phase⟩

/-! ### A unit of the walk done -/

theorem unitDone_keeps {β : Type} (g : State → β) (pop : ∀ t n p, g (qPop t n p) = g t) (cmd : ∀ t m d, g (setCmd t m d) = g t)
    (s : State) (m w : Nat) (c : Cmd) : g (unitDone s m w c) = g s := by
  unfold unitDone
  rw [popEnds_keeps g pop cmd, cmd]

@[simp] theorem unitDone_regs (s : State) (m w : Nat) (c : Cmd) : (unitDone s m w c).regs = s.regs :=
  unitDone_keeps State.regs (fun _ _ _ => rfl) (fun _ _ _ => rfl) s m w c
@[simp] theorem unitDone_mem (s : State) (m w : Nat) (c : Cmd) : (unitDone s m w c).mem = s.mem :=
  unitDone_keeps State.mem (fun _ _ _ => rfl) (fun _ _ _ => rfl) s m w c
@[simp] theorem unitDone_boot (s : State) (m w : Nat) (c : Cmd) : (unitDone s m w c).boot = s.boot :=
  unitDone_keeps State.boot (fun _ _ _ => rfl) (fun _ _ _ => rfl) s m w c
@[simp] theorem unitDone_me (s : State) (m w : Nat) (c : Cmd) : (unitDone s m w c).me = s.me :=
  unitDone_keeps State.me (fun _ _ _ => rfl) (fun _ _ _ => rfl) s m w c
@[simp] theorem unitDone_pushed (s : State) (m w : Nat) (c : Cmd) (n : Nat) : (queueRt (unitDone s m w c) n).pushed = (queueRt s n).pushed :=
  unitDone_keeps (fun t => (queueRt t n).pushed) (fun t k p => pushed_qPop t k p n) (fun _ _ _ => rfl) s m w c

/-- A command that stands issued has one unit more behind it. -/
theorem unitDone_does {s : State} {m : Nat} {c : Cmd} (w : Nat) (stands : Standing s m c) (issued : c.phase = .issued) :
    UnitDone (unitDone s m w c) m c := by
  have begun : Standing (setCmd s m { c with iter := c.iter + 1 }) m { c with iter := c.iter + 1 } := stands.setCmd rfl
  obtain ⟨d, found, iter, phase⟩ := findCmd_popEnds begun w (vectorsLeft { c with iter := c.iter + 1 })
  exact ⟨d, found, iter, phase.trans issued⟩

theorem UnitDone.congr {s t : State} {m : Nat} {c : Cmd} (h : UnitDone s m c) (cmds : (stream t m).cmds = (stream s m).cmds) : UnitDone t m c := by
  unfold UnitDone; rw [cmds]; exact h

/-- A command's unit done is no state in which the command stands as before. -/
theorem UnitDone.ne {s t : State} {m : Nat} {c : Cmd} (h : UnitDone t m c) (stands : Standing s m c) : t ≠ s := by
  rintro rfl
  obtain ⟨d, found, iter, -⟩ := h
  have same : c = d := Option.some.inj (stands.symm.trans found)
  rw [← same] at iter
  omega

/-- A unit of command c done that pushed a tile of format f on output end 0: memory outside its slot is as before, and its bytes stand in the
slot where they fit. -/
def UnitPushed (s t : State) (m w : Nat) (c : Cmd) (f : Nat) (bs : List Byte) : Prop :=
  PushedTile s t (outQ w c 0) (nextOut c 0) f c.tag ∧ UnitDone t m c ∧
  (bs.length ≤ qSlotBytes s (outQ w c 0) → memRead t (slotKey s (outQ w c 0) (nextOut c 0)) bs.length = bs)

/-- A tile pushed on output end 0 at the end of a unit. -/
theorem unitPushed_pushOut {s : State} {m : Nat} {c : Cmd} (stands : Standing s m c) (issued : c.phase = .issued) (w : Nat) (h : Hdr)
    (bs : List Byte) :
    UnitPushed s (observe (unitDone (pushOut s m w c 0 h bs).1 m w (pushOut s m w c 0 h bs).2)) m w c h.fmt bs := by
  refine ⟨⟨?_, fun k out => ?_⟩, ?_, fun fits => ?_⟩
  · exact (pushedOn_pushOut s m w c 0 h bs).congr (by rw [queueRt_observe, unitDone_pushed])
  · rw [← memKept_pushOut s m w c 0 h bs k out]
    simp [readByte]
  · exact UnitDone.congr (unitDone_does (c := (pushOut s m w c 0 h bs).2) w (standing_pushOut stands w 0 h bs) issued) (stream_observe_cmds _ _)
  · have written := memRead_pushOut s m w c 0 h bs fits
    unfold memRead at written ⊢
    rw [observe_mem, observe_boot, unitDone_mem, unitDone_boot]
    exact written

/-- A tile pushed in a state of which the engines' work is that of s. -/
theorem PushedTile.of_workKept {but : List Reg} {s u t : State} {n p f tag : Nat} (kept : WorkKept but s u) (h : PushedTile u t n p f tag)
    (cfg : WARD_QCFG.no ∉ but.map Reg.no) (sreg : PWR_SREG.no ∉ but.map Reg.no) : PushedTile s t n p f tag := by
  obtain ⟨on, mem⟩ := h
  refine ⟨on, fun k out => ?_⟩
  rw [← kept.slotKey n p cfg sreg, ← kept.qSlotBytes n cfg] at out
  rw [mem k out]
  unfold readByte
  rw [kept.mem, kept.boot]

/-- A unit done that starts once errors and events have been counted. -/
theorem UnitPushed.of_workKept {but : List Reg} {s u t : State} {m w : Nat} {c : Cmd} {f : Nat} {bs : List Byte} (kept : WorkKept but s u)
    (h : UnitPushed u t m w c f bs) (cfg : WARD_QCFG.no ∉ but.map Reg.no) (sreg : PWR_SREG.no ∉ but.map Reg.no) : UnitPushed s t m w c f bs := by
  obtain ⟨pushed, done, written⟩ := h
  rw [kept.slotKey _ _ cfg sreg, kept.qSlotBytes _ cfg] at written
  exact ⟨pushed.of_workKept kept cfg sreg, done, written⟩

/-- A tile that a row's own step pushes as its unit ends, whatever its reads met. -/
theorem gives_unitPushed {i : Instr} {s : State} {w e op m f : Nat} {c : Cmd} {err : MemErr} {more : Cmd → List (Nat × Nat)}
    {runs : List (Nat × Nat)} {bs : List Byte} (go : State → State) (job : jobOf s w e op = some (m, c)) (all : endRuns s w c ++ more c = runs)
    (row : exec i s = .next (observe (withErr s w e op err more go))) (met : (engineMeets s w e err runs).2 = none)
    (step : UnitPushed (engineMeets s w e err runs).1 (observe (go (engineMeets s w e err runs).1)) m w c f bs) :
    Gives i s fun t => UnitPushed s t m w c f bs := by
  rw [withErr_of_met go job all met] at row
  exact gives_next row (step.of_workKept (metKept_engineMeets s w e err runs).toWorkKept (by decide) (by decide))

end Sys2Proof.Machine
end

section
/-!
SUPPORT. Counted events, which leave an engine's work alone (02, R37 to R39; 04, R113, R115, R535), and the bytes of a tile of 128 rows (03, R65).
-/

namespace Sys2Proof.Machine

/-! ### Counted events -/

theorem addEvTotals_eq (s : State) (st : Nat) (e : Ev) : ∃ watch, addEvTotals s st e = { s with watch := watch } := by
  unfold addEvTotals
  split
  · exact ⟨_, rfl⟩
  · exact ⟨_, rfl⟩

theorem WorkKept.addEvTotals {but : List Reg} {s t : State} (h : WorkKept but s t) (st : Nat) (e : Ev) : WorkKept but s (addEvTotals t st e) := by
  obtain ⟨watch, eq⟩ := addEvTotals_eq t st e
  rw [eq]
  exact h.trans (.of_work rfl)

theorem WorkKept.countEv {but : List Reg} {s t : State} (h : WorkKept but s t) {ovf nanc : Fld} (named : ovf.reg ∈ but ∧ nanc.reg ∈ but)
    (i st : Nat) (e : Ev) : WorkKept but s (countEv t ovf nanc i st e) :=
  ((h.bump named.1 i e.ovf).bump named.2 i e.nanc).addEvTotals st e

theorem WorkKept.countReserved {but : List Reg} {s t : State} (h : WorkKept but s t) (named : WARD_NCNT_MISC ∈ but) (w st k : Nat) :
    WorkKept but s (countReserved t w st k) := by
  have counted := h.bump (f := WARD_NCNT_MISC_CODE_RESERVED) named w k
  unfold Machine.countReserved
  dsimp only
  split
  · exact counted
  · exact counted.trans (.of_work rfl)

/-! ### The bytes of a wide tile (03, R65) -/

theorem flatten_chunksAux {α : Type} {k : Nat} (pos : 0 < k) (f : Nat) (xs : List α) (enough : xs.length ≤ f) : (chunksAux k f xs).flatten = xs := by
  induction f generalizing xs with
  | zero => simp [chunksAux, List.length_eq_zero_iff.mp (Nat.le_zero.mp enough)]
  | succ f ih =>
    unfold chunksAux
    split
    · simp_all
    · rw [List.flatten_cons, ih _ (by rw [List.length_drop]; omega), List.take_append_drop]

theorem flatten_chunks {α : Type} {k : Nat} (pos : 0 < k) (xs : List α) : (chunks k xs).flatten = xs := flatten_chunksAux pos _ xs le_rfl

/-- A wide tile holds its elements row after row, each in its bytes, the least significant first. -/
theorem encodeWideTile_chunks (f : Nat) (xs : List Nat) : encodeWideTile f (chunks 128 xs) = xs.flatMap (toBytesLE (elemBits f / 8)) := by
  unfold encodeWideTile
  conv_rhs => rw [← flatten_chunks (by omega : 0 < 128) xs, List.flatten_eq_flatMap, List.flatMap_assoc]
  rfl

theorem length_flatMap_words (g : Nat → Nat) (ks : List Nat) : (ks.flatMap (fun k => toBytesLE 4 (g k))).length = 4 * ks.length := by
  simp [List.length_flatMap, mul_comm]

/-- An FP32 tile is four bytes to each of its 16,384 elements. -/
theorem length_fp32Tile (g : Nat → Nat) : ((below 16384).flatMap (fun k => toBytesLE 4 (g k))).length = 65536 := by
  rw [length_flatMap_words, length_below]

/-- The bytes of an FP32 tile whose element k of 16,384 is g k, whatever events came with it. -/
theorem encodeWideTile_fp32 (g : Nat → Nat × Ev) :
    encodeWideTile fFp32 (chunks 128 (((below 16384).map g).map Prod.fst)) = (below 16384).flatMap (fun k => toBytesLE 4 (g k).1) := by
  rw [encodeWideTile_chunks, List.map_map, List.flatMap_map]
  rfl

/-- An FP32 tile that a unit pushed into a slot of its size, read back. -/
theorem UnitPushed.memRead_fp32 {s t : State} {m w f : Nat} {c : Cmd} {g : Nat → Nat × Ev}
    (h : UnitPushed s t m w c f (encodeWideTile fFp32 (chunks 128 (((below 16384).map g).map Prod.fst))))
    (fits : 65536 ≤ qSlotBytes s (outQ w c 0)) :
    memRead t (slotKey s (outQ w c 0) (nextOut c 0)) 65536 = (below 16384).flatMap (fun k => toBytesLE 4 (g k).1) := by
  obtain ⟨-, -, written⟩ := h
  rw [encodeWideTile_fp32, length_fp32Tile] at written
  exact written fits

end Sys2Proof.Machine
end

section
/-!
CLAIM. FOLD and REDUCE (03, R80, R81; 13, R329 to R331): the tile that a unit pushes, and the faults that it takes. O41.
-/

namespace Sys2Proof.Machine

/-- The registers that a unit of FOLD or REDUCE counts in. -/
def roundRegs : List Reg := [WARD_NCNT_FOLD, DIST_REDNUM, WARD_NCNT_MISC]

/-! ### One unit of a FOLD (03, R80, R81) -/

theorem foldStep_of_free {s : State} {w e m : Nat} {c : Cmd} (job : jobOf s w e 0x20 = some (m, c)) (room : canPush s w c 0 1 = true)
    (lit : isDark s (outWard w (c.out 0)) = false) :
    let v := (nth (units c) c.iter []).headD []
    let parts := readPartials s w c v ((below 4).filter (inUsed c))
    (∀ ps, parts = .ok ps → foldStep s w e = foldTile s m w e c v ps) ∧
    (∀ code d, parts = .fault code d → foldStep s w e = execFault s m c code d) := by
  refine ⟨fun ps read => ?_, fun code d read => ?_⟩
  · simp only [foldStep, job, room, lit, read, Bool.not_true, Bool.false_eq_true, if_false]
  · simp only [foldStep, job, room, lit, read, Bool.not_true, Bool.false_eq_true, if_false]

/-- The tile of a FOLD's unit: its elements are the partials' sums in rank order. -/
theorem unitPushed_foldTile {s : State} {m : Nat} {c : Cmd} (stands : Standing s m c) (issued : c.phase = .issued) (w e : Nat)
    (v : List Nat) (ps : List (Hdr × List (List Nat))) :
    UnitPushed s (observe (foldTile s m w e c v ps)) m w c c.fmtOut (encodeWideTile c.fmtOut (chunks 128 (((below 16384).map (fun k =>
      foldElem c.fmtOut (ps.map (fun p => partialAt p.1 p.2 (k / 128) (k % 128))))).map Prod.fst))) := by
  have counted : ∀ (st : Nat) (ev : Ev), WorkKept roundRegs s (if e = 9 then countDist s (districtOf s w) st ev else countFold s w st ev) := by
    intro st ev
    split
    · exact (WorkKept.refl _ s).countEv (by decide) _ _ _
    · exact (WorkKept.refl _ s).countEv (by decide) _ _ _
  exact .of_workKept (counted _ _) (unitPushed_pushOut (stands.of_streams (counted _ _).streams) issued w _ _) (by decide) (by decide)

/-! ### One round of a REDUCE (13, R329 to R331) -/

/-- The contributions of the round that a REDUCE's next unit reads. -/
def roundOf (s : State) (w : Nat) (c : Cmd) : Got (List (Hdr × List Byte)) :=
  readRound s w (inQ w c 0) (nth c.inBase 0 0 + (inOffset c.desc 0 ((nth (units c) c.iter []).headD [])).toNat * bits c.imm 7 0) (bits c.imm 7 0)

/-- The sum of a round's contributions at element k, in rank order. -/
def roundElem (ts : List (Hdr × List Byte)) (k : Nat) : Nat × Ev :=
  reduceElem (ts.map (fun t => contribution t.1 (decodeTile t.1.fmt t.2) (k / 128) (k % 128)))

theorem reduceStep_of_free {s : State} {w m : Nat} {c : Cmd} (job : jobOf s w 9 0x31 = some (m, c)) (room : canPush s w c 0 1 = true)
    (lit : isDark s (outWard w (c.out 0)) = false) :
    (∀ ts, roundOf s w c = .ok ts → ∃ (h : Hdr) (ev : Ev) (reserved : Nat), h.fmt = fFp32 ∧ reduceStep s w =
      let r := pushOut (countReserved (countDist s (districtOf s w) c.step ev) w c.step reserved) m w c 0 h
        (encodeWideTile fFp32 (chunks 128 (((below 16384).map (roundElem ts)).map Prod.fst)))
      unitDone r.1 m w r.2) ∧
    (∀ code d, roundOf s w c = .fault code d → reduceStep s w = execFault s m c code d) := by
  refine ⟨fun ts round => ?_, fun code d round => ?_⟩
  · have elem : ∀ k, reduceElem ((ts.map (fun t => (t.1, decodeTile t.1.fmt t.2))).map (fun t => contribution t.1 t.2 (k / 128) (k % 128))) =
        roundElem ts k := fun k => by rw [List.map_map]; rfl
    unfold roundOf at round
    simp only [reduceStep, job, room, lit, round, elem, Bool.not_true, Bool.false_eq_true, if_false]
    exact ⟨_, _, _, rfl, rfl⟩
  · unfold roundOf at round
    simp only [reduceStep, job, room, lit, round, Bool.not_true, Bool.false_eq_true, if_false]

/-- The tile of a REDUCE's unit: in FP32, its elements the contributions' sums in rank order. -/
theorem unitPushed_reduceStep {s : State} {w m : Nat} {c : Cmd} (job : jobOf s w 9 0x31 = some (m, c)) (room : canPush s w c 0 1 = true)
    (lit : isDark s (outWard w (c.out 0)) = false) {ts : List (Hdr × List Byte)} (round : roundOf s w c = .ok ts) :
    UnitPushed s (observe (reduceStep s w)) m w c fFp32 (encodeWideTile fFp32 (chunks 128 (((below 16384).map (roundElem ts)).map Prod.fst))) := by
  obtain ⟨stands, issued⟩ := standing_of_jobOf job
  obtain ⟨h, ev, reserved, fmt, step⟩ := (reduceStep_of_free job room lit).1 ts round
  have counted : WorkKept roundRegs s (countReserved (countDist s (districtOf s w) c.step ev) w c.step reserved) :=
    ((WorkKept.refl _ s).countEv (by decide) _ _ _).countReserved (by decide) _ _ _
  rw [step, ← fmt]
  exact .of_workKept counted (unitPushed_pushOut (stands.of_streams counted.streams) issued w h _) (by decide) (by decide)

/-! ### The rows -/

theorem exec_fold {w u : Nat} (unit : u < 2) (err : MemErr) (s : State) :
    exec (.fold w u err) s = .next (observe (withErr s w (8 + u) 0x20 err (fun _ => []) (fun t => foldStep t w (8 + u)))) := by
  have : u % 2 = u := Nat.mod_eq_of_lt unit
  rw [exec, execFold, this]

theorem exec_reduce (w : Nat) (err : MemErr) (s : State) :
    exec (.reduce w err) s = .next (observe (withErr s w 9 0x31 err (fun _ => []) (fun t => reduceStep t w))) := rfl

section
variable {s : State} {w u m : Nat} {c : Cmd} {err : MemErr}

theorem fold_pushes (unit : u < 2) (job : jobOf s w (8 + u) 0x20 = some (m, c)) (room : canPush s w c 0 1 = true)
    (lit : isDark s (outWard w (c.out 0)) = false) (met : (engineMeets s w (8 + u) err (endRuns s w c)).2 = none)
    {ps : List (Hdr × List (List Nat))} (read : readPartials (engineMeets s w (8 + u) err (endRuns s w c)).1 w c
      ((nth (units c) c.iter []).headD []) ((below 4).filter (inUsed c)) = .ok ps) :
    Gives (.fold w u err) s fun t => UnitPushed s t m w c c.fmtOut (encodeWideTile c.fmtOut (chunks 128 (((below 16384).map (fun k =>
      foldElem c.fmtOut (ps.map (fun p => partialAt p.1 p.2 (k / 128) (k % 128))))).map Prod.fst))) := by
  obtain ⟨there, room, lit⟩ := free_of_metKept (metKept_engineMeets s w (8 + u) err (endRuns s w c)) job room lit
  refine gives_unitPushed _ job (List.append_nil _) (exec_fold unit err s) met ?_
  rw [(foldStep_of_free there room lit).1 ps read]
  exact unitPushed_foldTile (standing_of_jobOf there).1 (standing_of_jobOf there).2 w (8 + u) _ ps

theorem fold_faults (unit : u < 2) (job : jobOf s w (8 + u) 0x20 = some (m, c)) (room : canPush s w c 0 1 = true)
    (lit : isDark s (outWard w (c.out 0)) = false) (met : (engineMeets s w (8 + u) err (endRuns s w c)).2 = none) {code d : Nat}
    (read : readPartials (engineMeets s w (8 + u) err (endRuns s w c)).1 w c ((nth (units c) c.iter []).headD [])
      ((below 4).filter (inUsed c)) = .fault code d) (small : code < 256) (enabled : (stream s m).st = .enabled) :
    Gives (.fold w u err) s fun t => Faulted t m code d := by
  obtain ⟨there, room, lit⟩ := free_of_metKept (metKept_engineMeets s w (8 + u) err (endRuns s w c)) job room lit
  exact gives_faulted_of_step _ job (List.append_nil _) (exec_fold unit err s) met ((foldStep_of_free there room lit).2 code d read) small enabled

theorem reduce_pushes (job : jobOf s w 9 0x31 = some (m, c)) (room : canPush s w c 0 1 = true)
    (lit : isDark s (outWard w (c.out 0)) = false) (met : (engineMeets s w 9 err (endRuns s w c)).2 = none)
    {ts : List (Hdr × List Byte)} (round : roundOf (engineMeets s w 9 err (endRuns s w c)).1 w c = .ok ts) :
    Gives (.reduce w err) s fun t => UnitPushed s t m w c fFp32
      (encodeWideTile fFp32 (chunks 128 (((below 16384).map (roundElem ts)).map Prod.fst))) := by
  obtain ⟨there, room, lit⟩ := free_of_metKept (metKept_engineMeets s w 9 err (endRuns s w c)) job room lit
  exact gives_unitPushed _ job (List.append_nil _) (exec_reduce w err s) met (unitPushed_reduceStep there room lit round)

theorem reduce_faults (job : jobOf s w 9 0x31 = some (m, c)) (room : canPush s w c 0 1 = true)
    (lit : isDark s (outWard w (c.out 0)) = false) (met : (engineMeets s w 9 err (endRuns s w c)).2 = none) {code d : Nat}
    (round : roundOf (engineMeets s w 9 err (endRuns s w c)).1 w c = .fault code d) (small : code < 256)
    (enabled : (stream s m).st = .enabled) : Gives (.reduce w err) s fun t => Faulted t m code d := by
  obtain ⟨there, room, lit⟩ := free_of_metKept (metKept_engineMeets s w 9 err (endRuns s w c)) job room lit
  exact gives_faulted_of_step _ job (List.append_nil _) (exec_reduce w err s) met ((reduceStep_of_free there room lit).2 code d round) small enabled

end

/-- Settles O41: a unit counts its events, pushes the tile of its sums and pops what it has read; the errors met before it leave it its
command and its place to push to. -/
theorem foldsAndRoundsAreSummedInRankOrder : Obligations.FoldsAndRoundsAreSummedInRankOrder := by
  unfold Obligations.FoldsAndRoundsAreSummedInRankOrder
  refine ⟨fun w u m c err s unit job => ⟨fun d lost enabled => ?_, fun met room lit => ⟨fun ps read => ?_, fun code d read small enabled => ?_⟩⟩,
    fun w m c err s job => ⟨fun d lost enabled => ?_, fun met room lit => ⟨fun ts round => ?_, fun code d round small enabled => ?_⟩⟩,
    fun a b => ⟨rfl, rfl⟩⟩
  · exact gives_faulted_of_lost _ job (List.append_nil _) (exec_fold unit err s) lost enabled
  · refine (fold_pushes unit job room lit met read).imp fun t tile => ⟨tile.1, tile.2.1, fun (fp32 : c.fmtOut = fFp32) fits => ?_⟩
    rw [fp32] at tile
    exact tile.memRead_fp32 fits
  · exact fold_faults unit job room lit met read small enabled
  · exact gives_faulted_of_lost _ job (List.append_nil _) (exec_reduce w err s) lost enabled
  · exact (reduce_pushes job room lit met round).imp fun t tile => ⟨tile.1, tile.2.1, tile.memRead_fp32⟩
  · exact reduce_faults job room lit met round small enabled

end Sys2Proof.Machine
end

section
/-!
SUPPORT. A matrix engine's slot: what its sums leave in the tile and the latch (03, R69, R72, R73, R78), and what a finished tile leaves in the final
drain.
-/

namespace Sys2Proof.Machine

/-! ### An ME's own state -/

@[simp] theorem meRt_setMe_same (s : State) (n : Nat) (x : MeRt) : meRt (setMe s n x) n = x := sget_sset_same _ _ _ _

theorem meRt_of_me {s t : State} (h : t.me = s.me) (n : Nat) : meRt t n = meRt s n := by unfold meRt; rw [h]

@[simp] theorem getTile_putTile_same (ts : List (Nat × OpenTile)) (k : Nat) (x : OpenTile) : getTile (putTile ts k x) k = x := by
  simp [getTile, putTile]

theorem fg_bump_clocks (s : State) (f : Fld) (i k : Nat) (word : f.lo = 0 ∧ f.hi = 31) :
    fg (bump s f i k) f i = min (2 ^ 32 - 1) (fg s f i + k) := by
  obtain ⟨lo, hi⟩ := word
  unfold bump
  rw [fg_fs_same _ _ _ _ (by omega) (by omega)]
  simp only [lo, hi, satAdd]
  split <;> omega

/-- The registers that an event of an ME counts in and shows its state in, a shadow check's among them. -/
def meRegs : List Reg := errRegs ++ [ MOD_SHADOW_GRP_CNT, WARD_PCNT, WARD_PLAST, WARD_NCNT_MISC, ME_NUMCNT, ME_STATUS]

theorem WorkKept.meStatus {but : List Reg} {s t : State} (h : WorkKept but s t) (named : ME_STATUS ∈ but) (n : Nat) (c : Cmd) (rt : MeRt)
    (busy : Bool) : WorkKept but s (meStatus t n c rt busy) :=
  (((((h.fs (f := ME_STATUS_TAG) named n _).fs (f := ME_STATUS_OPEN) named n _).fs (f := ME_STATUS_SPILLING) named n _).fs
    (f := ME_STATUS_E48_RES) named n _).fs (f := ME_STATUS_INT32) named n _).fs (f := ME_STATUS_BUSY) named n _

/-! ### A slot or a tile done -/

/-- A unit of command c done on ME n, whose own state is rt: memory and the clocks counted are those of s. -/
def SlotDone (s t : State) (m n : Nat) (c : Cmd) (rt : MeRt) : Prop :=
  meRt t n = rt ∧ UnitDone t m c ∧ t.mem = s.mem ∧ fg t ME_BUSY_CLOCKS n = fg s ME_BUSY_CLOCKS n

/-- A unit's end, from a state that holds the ME's own state already. -/
theorem slotDone_unitDone {s u : State} {m n : Nat} {c : Cmd} {rt : MeRt} (stands : Standing u m c) (issued : c.phase = .issued)
    (me : meRt u n = rt) (mem : u.mem = s.mem) (busy : fg u ME_BUSY_CLOCKS n = fg s ME_BUSY_CLOCKS n) (w : Nat) (d : Cmd) (shown : MeRt)
    (on : Bool) : SlotDone s (meStatus (unitDone u m w c) n d shown on) m n c rt := by
  have status := (WorkKept.refl meRegs (unitDone u m w c)).meStatus (by decide) n d shown on
  refine ⟨?_, ?_, ?_, ?_⟩
  · rw [status.meRt, meRt_of_me (unitDone_me u m w c), me]
  · exact (unitDone_does w stands issued).congr (by rw [status.stream])
  · rw [status.mem, unitDone_mem, mem]
  · rw [status.fg _ _ (by decide), fg_of_regs (unitDone_regs u m w c), busy]

/-- The end of a slot that leaves its tile open: the ME's own state, the counts, the unit. -/
def meAdvance (s : State) (m w n : Nat) (c : Cmd) (rt : MeRt) (ev : Ev) : State :=
  meStatus (unitDone (countMe (setMe s n rt) n c.step ev) m w c) n c rt true

theorem workKept_countMe (s : State) (n st : Nat) (ev : Ev) : WorkKept meRegs s (countMe s n st ev) :=
  (WorkKept.refl meRegs s).countEv (by decide) n st ev

theorem slotDone_meAdvance {s : State} {m : Nat} {c : Cmd} (stands : Standing s m c) (issued : c.phase = .issued) (w n : Nat) (rt : MeRt) (ev : Ev) :
    SlotDone s (meAdvance s m w n c rt ev) m n c rt := by
  have counted := workKept_countMe (setMe s n rt) n c.step ev
  refine slotDone_unitDone (stands.of_streams counted.streams) issued ?_ counted.mem (counted.fg _ _ (by decide)) w c rt true
  rw [counted.meRt, meRt_setMe_same]

theorem shadowDone_eq (s : State) (w : Nat) (c : Cmd) (rt : MeRt) (t : Nat) (sum : List (Option Nat)) :
    ∃ samples picked, shadowDone s w c rt t sum = ({ s with samples := samples }, { rt with picked := picked }) := by
  unfold shadowDone
  split
  · exact ⟨s.samples, rt.picked, rfl⟩
  · exact ⟨_, _, rfl⟩

/-- The end of a tile: the drain's own count of tiles stands with the command. -/
theorem slotDone_drained {s : State} {m : Nat} {c : Cmd} (stands : Standing s m c) (issued : c.phase = .issued) (w n : Nat) (rt : MeRt) (ev : Ev)
    (samples : List Sample) (aux : Nat) :
    SlotDone s (meStatus (unitDone (setCmd (countMe (setMe { s with samples := samples } n rt) n c.step ev) m { c with aux := aux }) m w
      { c with aux := aux }) n { c with aux := aux } rt true) m n c rt := by
  have counted := workKept_countMe (setMe { s with samples := samples } n rt) n c.step ev
  have busy : fg (countMe (setMe { s with samples := samples } n rt) n c.step ev) ME_BUSY_CLOCKS n = fg s ME_BUSY_CLOCKS n :=
    counted.fg _ _ (by decide)
  have me : meRt (countMe (setMe { s with samples := samples } n rt) n c.step ev) n = rt := (counted.meRt n).trans (meRt_setMe_same _ _ _)
  have stands' : Standing (countMe (setMe { s with samples := samples } n rt) n c.step ev) m c := stands.of_streams counted.streams
  exact slotDone_unitDone (c := { c with aux := aux }) (stands'.setCmd rfl) issued me counted.mem busy w _ rt true

/-- A finished tile goes to the final drain, with the unit done. -/
theorem slotDone_meFinish {s : State} {m : Nat} {c : Cmd} (stands : Standing s m c) (issued : c.phase = .issued) (w n : Nat) (rt : MeRt) (v : List Nat)
    (t : Nat) (sum : List (Option Nat)) (ev : Ev) :
    ∃ rt', rt'.out = rt.out ++ tilesOut s w c v (outRows c.fmtOut (colsOf (dRowLen c.desc) (elemBaseOf c.desc v)) sum).1 ∧
      SlotDone s (meFinish s m w n c rt v t sum ev) m n c rt' := by
  obtain ⟨samples, picked, sampled⟩ := shadowDone_eq s w c rt t sum
  simp only [meFinish, sampled]
  exact ⟨_, rfl, slotDone_drained stands issued w n _ _ samples _⟩

/-! ### A tile-product slot (03, R69, R72, R73, R78) -/

/-- Without an input partial a tile starts as it stands. -/
theorem started_of_none (x : OpenTile) : (if x.k = 0 then { x with sum := (none : Option (List (Option Nat))).getD x.sum } else x) = x := by
  split <;> rfl

/-- The slots of a tile's reduction go on after the next. -/
abbrev GoesOn (c : Cmd) (rt : MeRt) (v : List Nat) : Prop := (getTile rt.tiles (stepInfo c v).1).k + 128 < (stepInfo c v).2

/-- The next slot of a tile ends a chunk. -/
abbrev EndsChunk (s : State) (c : Cmd) (rt : MeRt) (v : List Nat) : Prop := ((getTile rt.tiles (stepInfo c v).1).k + 128) % chunkLen s = 0

section
variable {s : State} {c : Cmd} {rt : MeRt} {v : List Nat} (m w n : Nat) (a b : Tile) (la lb : List Line) (ev : Ev)

/-- Within a chunk a slot's sums stay with its tile. -/
theorem meSlotStep_within (more : GoesOn c rt v) (inside : ¬EndsChunk s c rt v) :
    let x := getTile rt.tiles (stepInfo c v).1
    let y := if bit c.mode 0 then { intSlot c.fmtA c.fmtB x a b false with k := x.k + 128 }
      else { x with k := x.k + 128, part := (meSlot x.part la lb).1 }
    ∃ e, meSlotStep s m w n c rt v a b la lb none ev = meAdvance s m w n c { rt with tiles := putTile rt.tiles (stepInfo c v).1 y } e := by
  have last := decide_eq_false (Nat.not_le.mpr more)
  have boundary := decide_eq_false inside
  by_cases int : bit c.mode 0
  · simp only [meSlotStep, started_of_none, ge_iff_le, last, boundary, int, Bool.or_false, if_true, Bool.false_eq_true, if_false]
    exact ⟨_, rfl⟩
  · simp only [meSlotStep, started_of_none, ge_iff_le, last, boundary, int, Bool.or_false, Bool.false_and, Bool.false_eq_true, if_false]
    exact ⟨_, rfl⟩

/-- At the end of a chunk FP32 partials go to the drain latch. -/
theorem meSlotStep_handover (more : GoesOn c rt v) (ends : EndsChunk s c rt v) (fp : bit c.mode 0 = false) (spilled : bit c.mode 1 = false)
    (free : rt.latch = none) :
    let x := getTile rt.tiles (stepInfo c v).1
    ∃ e, meSlotStep s m w n c rt v a b la lb none ev = meAdvance s m w n c
      { rt with latch := some ((stepInfo c v).1, (meSlot x.part la lb).1),
                tiles := putTile rt.tiles (stepInfo c v).1 { x with k := x.k + 128, part := [] } } e := by
  have last := decide_eq_false (Nat.not_le.mpr more)
  have boundary := decide_eq_true ends
  simp only [meSlotStep, started_of_none, ge_iff_le, last, boundary, fp, spilled, free, Bool.false_or, Option.isSome_none, Bool.and_false,
    Bool.false_eq_true, if_true, if_false]
  exact ⟨_, rfl⟩

/-- In E48-resident mode the partials of a chunk go to the running sum, and so do INT32 runs in every mode. -/
theorem meSlotStep_resident (more : GoesOn c rt v) (ends : EndsChunk s c rt v) (resident : bit c.mode 0 = true ∨ bit c.mode 1 = true) :
    let x := getTile rt.tiles (stepInfo c v).1
    let y := if bit c.mode 0 then { intSlot c.fmtA c.fmtB x a b true with k := x.k + 128 }
      else { x with k := x.k + 128, part := [], sum := sumInto x.sum (meSlot x.part la lb).1 }
    ∃ e, meSlotStep s m w n c rt v a b la lb none ev = meAdvance s m w n c { rt with tiles := putTile rt.tiles (stepInfo c v).1 y } e := by
  have last := decide_eq_false (Nat.not_le.mpr more)
  have boundary := decide_eq_true ends
  by_cases int : bit c.mode 0
  · simp only [meSlotStep, started_of_none, ge_iff_le, last, boundary, int, Bool.or_true, if_true, Bool.false_eq_true, if_false]
    exact ⟨_, rfl⟩
  · have resident := resident.resolve_left int
    simp only [meSlotStep, started_of_none, ge_iff_le, last, boundary, int, resident, Bool.false_or, Bool.not_true, Bool.and_false, Bool.false_and,
      Bool.false_eq_true, if_true, if_false]
    exact ⟨_, rfl⟩

/-- At the end of its reduction a tile is finished. -/
theorem meSlotStep_last (last : ¬GoesOn c rt v) (free : bit c.mode 0 = true ∨ rt.latch = none) :
    let x := getTile rt.tiles (stepInfo c v).1
    let sum := if bit c.mode 0 then (intSlot c.fmtA c.fmtB x a b true).sum else sumInto x.sum (meSlot x.part la lb).1
    ∃ e, meSlotStep s m w n c rt v a b la lb none ev = meFinish s m w n c rt v (stepInfo c v).1 sum e := by
  have last := decide_eq_true (Nat.not_lt.mp last)
  by_cases int : bit c.mode 0
  · simp only [meSlotStep, started_of_none, ge_iff_le, last, int, Bool.true_or, if_true]
    exact ⟨_, rfl⟩
  · have free := free.resolve_left int
    simp only [meSlotStep, started_of_none, ge_iff_le, last, int, free, Bool.true_or, Option.isSome_none, Bool.and_false, Bool.false_eq_true,
      if_true, if_false]
    exact ⟨_, rfl⟩

end

end Sys2Proof.Machine
end

section
/-!
SUPPORT. One event of a matrix engine, whatever its reads met: the command's beginning and its shadow check (03, R87; 04, R107, R111), the slot or the
finished tile (03, R69, R77), and the tile that leaves the final drain (03, R78).
-/

namespace Sys2Proof.Machine

/-! ### An event's beginning: the shadow check picks its tiles, ME_SPILL is taken (03, R87; 04, R107, R111) -/

theorem workKept_countAborted (s : State) (p client k : Nat) : WorkKept meRegs s (countAborted s p client k) := by
  unfold countAborted
  split
  · exact .refl _ s
  · exact (((WorkKept.refl _ s).bump (by decide) _ _).fs (by decide) _ _).fs (by decide) _ _

theorem workKept_setPward (s : State) (p : Nat) (x : PWard) : WorkKept meRegs s (setPward s p x) :=
  .of_work rfl

theorem workKept_wakeWard (s : State) (p client : Nat) : WorkKept meRegs s (wakeWard s p client) := by
  unfold wakeWard
  dsimp only
  split
  · split
    · split
      · exact .refl _ s
      · exact (workKept_setPward s p _).trans (workKept_countAborted _ p client _)
    · exact (workKept_setPward s p _).trans (workKept_countAborted _ p client _)
  · split
    · exact .refl _ s
    · split
      · exact .refl _ s
      · exact workKept_setPward s p _
      · exact workKept_setPward s p _
      · split
        · exact .refl _ s
        · exact workKept_setPward s p _

theorem workKept_shadowStart (s : State) (w : Nat) (c : Cmd) : WorkKept meRegs s (shadowStart s w c).1 := by
  unfold shadowStart
  refine List.foldlRecOn (motive := fun r : State × List (Nat × List Nat) => WorkKept meRegs s r.1) _ _ (.refl _ s) (fun r kept t _ => ?_)
  dsimp only
  split
  · exact kept.bump (by decide) _ _
  · have spent : WorkKept meRegs r.1 (spend r.1 actShadow
        (((mmaSteps c).filter (fun x => x.2 && (stepInfo c x.1).1 == t)).length * (tileBytes c.fmtA + tileBytes c.fmtB)) 0 0) :=
      .of_work rfl
    exact (kept.trans spent).trans (workKept_wakeWard _ _ _)

/-! ### One event of an ME (03, R69, R77, R78) -/

theorem WorkKept.chunkLen {but : List Reg} {s t : State} (h : WorkKept but s t) (out : MOD_ACCUM_CFG.no ∉ but.map Reg.no) :
    chunkLen t = chunkLen s := by
  unfold Machine.chunkLen; rw [h.fg MOD_ACCUM_CFG_C_LOG2 0 out]

theorem WorkKept.spillNeed {but : List Reg} {s t : State} (h : WorkKept but s t) (c : Cmd) (out : MOD_ACCUM_CFG.no ∉ but.map Reg.no) :
    spillNeed t c = spillNeed s c := by
  unfold Machine.spillNeed; rw [h.chunkLen out]

theorem WorkKept.tilesOut {but : List Reg} {s t : State} (h : WorkKept but s t) (w : Nat) (c : Cmd) (v : List Nat) (full : List (List Nat))
    (out : WARD_QCFG.no ∉ but.map Reg.no ∧ MOD_GBIN_CFG.no ∉ but.map Reg.no) : tilesOut t w c v full = tilesOut s w c v full := by
  unfold Machine.tilesOut; rw [h.qSlotBytes _ out.1, h.fg MOD_GBIN_CFG_SPLIT _ out.2]

/-- ME n's spill region, as ME_SPILL reads at the command's start (03, R87). -/
def spillWord (s : State) (n : Nat) (c : Cmd) : Word := if c.iter = 0 then rd s ME_SPILL n else (meRt s n).spill

/-- The spill need of a command is met, or was checked before (03, R77). -/
abbrev SpillMet (s : State) (n : Nat) (c : Cmd) : Prop :=
  (meRt s n).checked = true ∨ spillNeed s c = 0 ∨ spillFits (spillWord s n c) (spillNeed s c) = true

/-- The tile of a step has no input partial to read. -/
abbrev NoPartial (s : State) (n : Nat) (c : Cmd) (v : List Nat) : Prop :=
  inUsed c 2 = false ∨ (getTile (meRt s n).tiles (stepInfo c v).1).k ≠ 0

/-- The state, and the tiles picked for a shadow check, once command c has begun on an ME of ward w. -/
def begunState (s : State) (w n : Nat) (c : Cmd) : State × List (Nat × List Nat) := if c.iter = 0 then shadowStart s w c else (s, (meRt s n).picked)

/-- The ME's own state once command c has begun on it. -/
def begunRt (s : State) (w n : Nat) (c : Cmd) : MeRt :=
  if c.iter = 0 then { meRt s n with spill := rd s ME_SPILL n, picked := (begunState s w n c).2 } else meRt s n

section
variable (s : State) (w n : Nat) (c : Cmd)

@[simp] theorem begunRt_tiles : (begunRt s w n c).tiles = (meRt s n).tiles := by unfold begunRt; split <;> rfl
@[simp] theorem begunRt_latch : (begunRt s w n c).latch = (meRt s n).latch := by unfold begunRt; split <;> rfl
@[simp] theorem begunRt_out : (begunRt s w n c).out = (meRt s n).out := by unfold begunRt; split <;> rfl
@[simp] theorem begunRt_checked : (begunRt s w n c).checked = (meRt s n).checked := by unfold begunRt; split <;> rfl
@[simp] theorem begunRt_spill : (begunRt s w n c).spill = spillWord s n c := by unfold begunRt spillWord; split <;> rfl

theorem workKept_begunState : WorkKept meRegs s (begunState s w n c).1 := by
  unfold begunState
  split
  · exact workKept_shadowStart s w c
  · exact .refl _ s

end

theorem begunState_fold (s : State) (w n : Nat) (c : Cmd) :
    (if c.iter = 0 then shadowStart s w c else (s, (meRt s n).picked)) = begunState s w n c := rfl

theorem begunRt_fold (s : State) (w n : Nat) (c : Cmd) : (if c.iter = 0 then
    { tiles := (meRt s n).tiles, latch := (meRt s n).latch, checked := (meRt s n).checked, spill := rd s ME_SPILL n, out := (meRt s n).out,
      picked := (begunState s w n c).2 } else meRt s n) = begunRt s w n c := rfl

/-- An operand tile, zero outside its ROWS and COLS. -/
abbrev operandTile (f : Nat) (h : Hdr) (bs : List Byte) : Tile := (decodeTile f bs).mask h.rows h.cols

/-- An operand tile's lines in FP32. -/
abbrev operandLines (t : Tile) : List Line := (below 128).map (fun r => (t.line r).map Prod.fst)

theorem operand_eq (c : Cmd) (e f : Nat) (v : List Nat) (h : Hdr) (bs : List Byte) :
    ∃ ev reserved, operand c e f v h bs = (operandTile f h bs, operandLines (operandTile f h bs), ev, reserved) := by
  unfold operand
  dsimp only
  rw [List.map_map]
  split
  · exact ⟨_, _, rfl⟩
  · exact ⟨_, _, rfl⟩

theorem SpillMet.noFault {s : State} {n : Nat} {c : Cmd} (spill : SpillMet s n c) (due : Bool) :
    (!(meRt s n).checked && due && decide (spillNeed s c > 0) && !spillFits (spillWord s n c) (spillNeed s c)) = false := by
  rcases spill with h | h | h <;> simp [h]

theorem NoPartial.not_read {s : State} {n : Nat} {c : Cmd} {v : List Nat} (h : NoPartial s n c v) :
    ¬(inUsed c 2 = true ∧ (getTile (meRt s n).tiles (stepInfo c v).1).k = 0) := by
  rcases h with h | h <;> simp [h]

section
variable {s : State} {w e op m : Nat} {c : Cmd} {v : List Nat} (job : jobOf s w e op = some (m, c)) (drained : (meRt s (4 * w + e)).out = [])
  (going : c.stopping = false)
include job drained going

/-- The spill need of a command not met when it is first checked (03, R77). -/
theorem meEvent_unspilled {mul : Bool} (step : (mmaSteps c)[c.iter]? = some (v, mul)) (unchecked : (meRt s (4 * w + e)).checked = false)
    (due : mul = false ∨ ¬GoesOn c (meRt s (4 * w + e)) v ∨ EndsChunk s c (meRt s (4 * w + e)) v) (needed : 0 < spillNeed s c)
    (small : spillFits (spillWord s (4 * w + e) c) (spillNeed s c) = false) : meEvent s w e op = execFault s m c 0x10 (4 * w + e) := by
  have fault : (!false && (!mul || decide ((getTile (meRt s (4 * w + e)).tiles (stepInfo c v).1).k + 128 ≥ (stepInfo c v).2) ||
      ((getTile (meRt s (4 * w + e)).tiles (stepInfo c v).1).k + 128) % chunkLen s == 0) && decide (spillNeed s c > 0) && !false) = true := by
    rcases due with h | h | h
    · simp [h, needed]
    · simp [Nat.not_lt.mp h, needed]
    · simp [h, needed]
  simp only [meEvent, job, step, begunState_fold, begunRt_fold, begunRt_checked, begunRt_tiles, begunRt_spill]
  simp only [drained, going, unchecked, small, fault, ne_eq, not_true, Bool.false_eq_true, if_false, if_true]

/-- A step that multiplies nothing finishes its tile without a sum (06, R153). -/
theorem meEvent_noProduct (step : (mmaSteps c)[c.iter]? = some (v, false)) (spill : SpillMet s (4 * w + e) c)
    (noPartial : NoPartial s (4 * w + e) c v) (free : (meRt s (4 * w + e)).latch = none) :
    ∃ checked, meEvent s w e op = meFinish (begunState s w (4 * w + e) c).1 m w (4 * w + e) c
      { begunRt s w (4 * w + e) c with checked := checked } v (stepInfo c v).1 [] {} := by
  simp only [meEvent, job, step, begunState_fold, begunRt_fold, begunRt_checked, begunRt_tiles, begunRt_spill, begunRt_latch,
    spill.noFault]
  simp only [drained, going, noPartial.not_read, free, ne_eq, not_true, Bool.false_eq_true, if_false, Bool.not_false, if_true, Option.isSome_none,
    Option.getD_none]
  exact ⟨_, rfl⟩

/-- A step with both operand tiles there is a tile-product slot, its clocks counted, unless the slot waits for the latch. -/
theorem meEvent_slot (step : (mmaSteps c)[c.iter]? = some (v, true)) (spill : SpillMet s (4 * w + e) c)
    (noPartial : NoPartial s (4 * w + e) c v) {ha hb : Hdr} {ba bb : List Byte} (readA : readIn s w c 0 (inOffset c.desc 0 v) = .ok (ha, ba))
    (readB : readIn s w c 1 (inOffset c.desc 1 v) = .ok (hb, bb)) :
    ∃ reserved checked picked ev,
      let u := bump (countReserved (begunState s w (4 * w + e) c).1 w c.step reserved) ME_BUSY_CLOCKS (4 * w + e)
        (if paired c then 0 else slotClocks c.fmtA c.fmtB)
      let r := meSlotStep u m w (4 * w + e) c { begunRt s w (4 * w + e) c with checked := checked, picked := picked } v
        (operandTile c.fmtA ha ba) (operandTile c.fmtB hb bb) (operandLines (operandTile c.fmtA ha ba)) (operandLines (operandTile c.fmtB hb bb))
        none ev
      meEvent s w e op = if r = u then s else r := by
  obtain ⟨evA, resA, opA⟩ := operand_eq c 0 c.fmtA v ha ba
  obtain ⟨evB, resB, opB⟩ := operand_eq c 1 c.fmtB v hb bb
  simp only [meEvent, job, step, begunState_fold, begunRt_fold, begunRt_checked, begunRt_tiles, begunRt_spill,
    spill.noFault]
  simp only [drained, going, noPartial.not_read, readA, readB, opA, opB, ne_eq, not_true, Bool.false_eq_true, if_false, Bool.not_true]
  exact ⟨_, _, _, _, rfl⟩

end

/-! ### One event, whatever its reads met -/

theorem MetKept.spillMet {s s1 : State} (met : MetKept s s1) {n : Nat} {c : Cmd} (h : SpillMet s n c) : SpillMet s1 n c := by
  simpa only [SpillMet, spillWord, met.meRt, met.spillNeed c (by decide), met.rd ME_SPILL _ (by decide)] using h

theorem MetKept.noPartial {s s1 : State} (met : MetKept s s1) {n : Nat} {c : Cmd} {v : List Nat} (h : NoPartial s n c v) : NoPartial s1 n c v := by
  simpa only [NoPartial, met.meRt] using h

theorem MetKept.begun {s s1 : State} (met : MetKept s s1) (w n : Nat) (c : Cmd) : WorkKept meRegs s (begunState s1 w n c).1 :=
  (met.toWorkKept.mono (List.subset_append_left _ _)).trans (workKept_begunState s1 w n c)

/-- A state u and an ME's own state rt as a slot finds them, its clocks counted. -/
structure SlotBegun (s u : State) (n : Nat) (rt : MeRt) : Prop where
  kept : WorkKept (ME_BUSY :: meRegs) s u
  tiles : rt.tiles = (meRt s n).tiles
  latch : rt.latch = (meRt s n).latch
  out : rt.out = (meRt s n).out

section
variable {s s1 : State} {w e op m : Nat} {c : Cmd} {v : List Nat} (met : MetKept s s1) (job : jobOf s w e op = some (m, c))
  (drained : (meRt s (4 * w + e)).out = []) (going : c.stopping = false)
include met job drained going

/-- A step that multiplies nothing puts a tile of zeros into the final drain. -/
theorem meEvent_drains_zero (step : (mmaSteps c)[c.iter]? = some (v, false)) (spill : SpillMet s (4 * w + e) c)
    (noPartial : NoPartial s (4 * w + e) c v) (free : (meRt s (4 * w + e)).latch = none) :
    let t := meEvent s1 w e op
    (meRt t (4 * w + e)).out = tilesOut s w c v (outRows c.fmtOut (colsOf (dRowLen c.desc) (elemBaseOf c.desc v)) []).1 ∧
    UnitDone t m c ∧ t.mem = s.mem := by
  obtain ⟨stands, issued⟩ := standing_of_jobOf job
  have same := met.meRt (4 * w + e)
  have kept := met.begun w (4 * w + e) c
  obtain ⟨checked, event⟩ := meEvent_noProduct ((jobOf_of_metKept met w e op).trans job) (same ▸ drained) going step (met.spillMet spill)
    (met.noPartial noPartial) (same ▸ free)
  obtain ⟨rt', out, me, done, mem, -⟩ := slotDone_meFinish (stands.of_streams kept.streams) issued w (4 * w + e)
    { begunRt s1 w (4 * w + e) c with checked := checked } v (stepInfo c v).1 [] {}
  dsimp only
  rw [event]
  refine ⟨?_, done, mem.trans kept.mem⟩
  rw [me, out, begunRt_out, same, drained, kept.tilesOut w c v _ (by decide), List.nil_append]

/-- A slot does what its sums do from any state that differs from s in counts alone, and counts its clocks. -/
theorem meEvent_slotDone {P : MeRt → Prop} (step : (mmaSteps c)[c.iter]? = some (v, true)) (spill : SpillMet s (4 * w + e) c)
    (noPartial : NoPartial s (4 * w + e) c v) {ha hb : Hdr} {ba bb : List Byte} (readA : readIn s1 w c 0 (inOffset c.desc 0 v) = .ok (ha, ba))
    (readB : readIn s1 w c 1 (inOffset c.desc 1 v) = .ok (hb, bb))
    (slot : ∀ (u : State) (rt : MeRt) (ev : Ev), SlotBegun s u (4 * w + e) rt → ∃ rt', P rt' ∧
      SlotDone u (meSlotStep u m w (4 * w + e) c rt v (operandTile c.fmtA ha ba) (operandTile c.fmtB hb bb)
        (operandLines (operandTile c.fmtA ha ba)) (operandLines (operandTile c.fmtB hb bb)) none ev) m (4 * w + e) c rt') :
    let t := meEvent s1 w e op
    P (meRt t (4 * w + e)) ∧ UnitDone t m c ∧ t.mem = s.mem ∧
    fg t ME_BUSY_CLOCKS (4 * w + e) = min (2 ^ 32 - 1) (fg s ME_BUSY_CLOCKS (4 * w + e) + (if paired c then 0 else slotClocks c.fmtA c.fmtB)) := by
  obtain ⟨stands, -⟩ := standing_of_jobOf job
  have same := met.meRt (4 * w + e)
  obtain ⟨reserved, checked, picked, ev, event⟩ := meEvent_slot ((jobOf_of_metKept met w e op).trans job) (same ▸ drained) going step
    (met.spillMet spill) (met.noPartial noPartial) readA readB
  have counted := (met.begun w (4 * w + e) c).countReserved (by decide) w c.step reserved
  have kept := (counted.mono (List.subset_cons_self ME_BUSY meRegs)).bump (f := ME_BUSY_CLOCKS) (by decide) (4 * w + e)
    (if paired c then 0 else slotClocks c.fmtA c.fmtB)
  obtain ⟨rt', holds, me, done, mem, busy⟩ := slot _ { begunRt s1 w (4 * w + e) c with checked := checked, picked := picked } ev
    ⟨kept, (begunRt_tiles _ _ _ _).trans (by rw [same]), (begunRt_latch _ _ _ _).trans (by rw [same]),
      (begunRt_out _ _ _ _).trans (by rw [same])⟩
  dsimp only at event ⊢
  rw [if_neg (done.ne (stands.of_streams kept.streams))] at event
  rw [event]
  refine ⟨me ▸ holds, done, mem.trans kept.mem, ?_⟩
  rw [busy, fg_bump_clocks _ _ _ _ (by decide), counted.fg _ _ (by decide)]

end

/-! ### A tile leaves the final drain (03, R78) -/

theorem meDrainOut_of_free {s : State} {m w n : Nat} {c : Cmd} {rt : MeRt} {h : Hdr} {bs : List Byte} {rest : List (Hdr × List Byte)}
    (drain : rt.out = (h, bs) :: rest) (room : canPush s w c 0 1 = true) (lit : isDark s (outWard w (c.out 0)) = false) :
    ∃ d rt' shown on, rt'.out = rest ∧
      meDrainOut s m w n c rt = meStatus (setMe (setCmd (pushOut s m w c 0 h bs).1 m d) n rt') n d shown on := by
  simp only [meDrainOut, drain, room, lit, Bool.false_eq_true, if_false, if_true]
  refine ⟨_, _, _, _, ?_, rfl⟩
  split
  · simp_all
  · rfl

/-- The first tile in the final drain, its slot free, is pushed. -/
theorem meEvent_pushes {s s1 : State} {w e op m : Nat} {c : Cmd} (met : MetKept s s1) (job : jobOf s w e op = some (m, c)) {h : Hdr} {bs : List Byte}
    {rest : List (Hdr × List Byte)} (drain : (meRt s (4 * w + e)).out = (h, bs) :: rest) (room : canPush s w c 0 1 = true)
    (lit : isDark s (outWard w (c.out 0)) = false) :
    let t := observe (meEvent s1 w e op)
    PushedTile s t (outQ w c 0) (nextOut c 0) h.fmt c.tag ∧ (meRt t (4 * w + e)).out = rest := by
  obtain ⟨job, room, lit⟩ := free_of_metKept met job room lit
  rw [← met.meRt] at drain
  have event : meEvent s1 w e op = meDrainOut s1 m w (4 * w + e) c (meRt s1 (4 * w + e)) := by simp [meEvent, job, drain]
  obtain ⟨d, rt', shown, on, left, drained⟩ := meDrainOut_of_free (m := m) (n := 4 * w + e) drain room lit
  dsimp only
  rw [event, drained]
  generalize pushed : setMe (setCmd (pushOut s1 m w c 0 h bs).1 m d) (4 * w + e) rt' = u
  have shows := (WorkKept.refl meRegs u).meStatus (by decide) (4 * w + e) d shown on
  refine ⟨.of_workKept met.toWorkKept ⟨?_, fun k out => ?_⟩ (by decide) (by decide), ?_⟩
  · refine (pushedOn_pushOut s1 m w c 0 h bs).congr ?_
    rw [queueRt_observe, shows.queueRt, ← pushed]
    rfl
  · rw [← memKept_pushOut s1 m w c 0 h bs k out]
    unfold readByte
    rw [observe_mem, observe_boot, shows.mem, shows.boot, ← pushed]
    rfl
  · rw [meRt_of_me (observe_me _), shows.meRt, ← pushed, meRt_setMe_same, left]

end Sys2Proof.Machine
end

section
/-!
CLAIM. MMA, MMA_WG and SPILL_HANDOVER (03, R66, R69, R73, R77 to R79; 08, R206): the sums of a slot, their handover, the drain and the faults. O40.
-/

namespace Sys2Proof.Machine

/-! ### The slots of a reduction -/

section
variable {s u : State} {w n m : Nat} {c : Cmd} {rt : MeRt} {v : List Nat} (begun : SlotBegun s u n rt) (stands : Standing s m c)
  (issued : c.phase = .issued) (a b : Tile) (la lb : List Line) (ev : Ev)
include begun stands issued

theorem slotDone_within (more : GoesOn c (meRt s n) v) (inside : ¬EndsChunk s c (meRt s n) v) :
    let x := getTile (meRt s n).tiles (stepInfo c v).1
    ∃ rt', getTile rt'.tiles (stepInfo c v).1 = (if bit c.mode 0 then { intSlot c.fmtA c.fmtB x a b false with k := x.k + 128 }
      else { x with k := x.k + 128, part := (meSlot x.part la lb).1 }) ∧
      SlotDone u (meSlotStep u m w n c rt v a b la lb none ev) m n c rt' := by
  have tiles := begun.tiles
  obtain ⟨e, slot⟩ := meSlotStep_within (s := u) (c := c) (rt := rt) (v := v) m w n a b la lb ev (by rw [GoesOn, tiles]; exact more)
    (by rw [EndsChunk, tiles, begun.kept.chunkLen (by decide)]; exact inside)
  rw [slot, tiles]
  exact ⟨_, getTile_putTile_same _ _ _, slotDone_meAdvance (stands.of_streams begun.kept.streams) issued w n _ e⟩

theorem slotDone_handover (more : GoesOn c (meRt s n) v) (ends : EndsChunk s c (meRt s n) v) (fp : bit c.mode 0 = false)
    (spilled : bit c.mode 1 = false) (free : (meRt s n).latch = none) :
    let x := getTile (meRt s n).tiles (stepInfo c v).1
    ∃ rt', (getTile rt'.tiles (stepInfo c v).1 = { x with k := x.k + 128, part := [] } ∧
        rt'.latch = some ((stepInfo c v).1, (meSlot x.part la lb).1)) ∧
      SlotDone u (meSlotStep u m w n c rt v a b la lb none ev) m n c rt' := by
  have tiles := begun.tiles
  obtain ⟨e, slot⟩ := meSlotStep_handover (s := u) (c := c) (rt := rt) (v := v) m w n a b la lb ev (by rw [GoesOn, tiles]; exact more)
    (by rw [EndsChunk, tiles, begun.kept.chunkLen (by decide)]; exact ends) fp spilled (begun.latch.trans free)
  rw [slot, tiles]
  exact ⟨_, ⟨getTile_putTile_same _ _ _, rfl⟩, slotDone_meAdvance (stands.of_streams begun.kept.streams) issued w n _ e⟩

theorem slotDone_resident (more : GoesOn c (meRt s n) v) (ends : EndsChunk s c (meRt s n) v)
    (resident : bit c.mode 0 = true ∨ bit c.mode 1 = true) :
    let x := getTile (meRt s n).tiles (stepInfo c v).1
    ∃ rt', getTile rt'.tiles (stepInfo c v).1 = (if bit c.mode 0 then { intSlot c.fmtA c.fmtB x a b true with k := x.k + 128 }
      else { x with k := x.k + 128, part := [], sum := sumInto x.sum (meSlot x.part la lb).1 }) ∧
      SlotDone u (meSlotStep u m w n c rt v a b la lb none ev) m n c rt' := by
  have tiles := begun.tiles
  obtain ⟨e, slot⟩ := meSlotStep_resident (s := u) (c := c) (rt := rt) (v := v) m w n a b la lb ev (by rw [GoesOn, tiles]; exact more)
    (by rw [EndsChunk, tiles, begun.kept.chunkLen (by decide)]; exact ends) resident
  rw [slot, tiles]
  exact ⟨_, getTile_putTile_same _ _ _, slotDone_meAdvance (stands.of_streams begun.kept.streams) issued w n _ e⟩

theorem slotDone_last (drained : (meRt s n).out = []) (last : ¬GoesOn c (meRt s n) v) (free : bit c.mode 0 = true ∨ (meRt s n).latch = none) :
    let x := getTile (meRt s n).tiles (stepInfo c v).1
    ∃ rt', rt'.out = tilesOut s w c v (outRows c.fmtOut (colsOf (dRowLen c.desc) (elemBaseOf c.desc v))
        (if bit c.mode 0 then (intSlot c.fmtA c.fmtB x a b true).sum else sumInto x.sum (meSlot x.part la lb).1)).1 ∧
      SlotDone u (meSlotStep u m w n c rt v a b la lb none ev) m n c rt' := by
  have tiles := begun.tiles
  obtain ⟨e, slot⟩ := meSlotStep_last (s := u) (c := c) (rt := rt) (v := v) m w n a b la lb ev (by rw [GoesOn, tiles]; exact last)
    (by rw [begun.latch]; exact free)
  obtain ⟨rt', out, done⟩ := slotDone_meFinish (stands.of_streams begun.kept.streams) issued w n rt v (stepInfo c v).1
    (if bit c.mode 0 then (intSlot c.fmtA c.fmtB (getTile rt.tiles (stepInfo c v).1) a b true).sum
     else sumInto (getTile rt.tiles (stepInfo c v).1).sum (meSlot (getTile rt.tiles (stepInfo c v).1).part la lb).1) e
  rw [slot]
  refine ⟨rt', ?_, done⟩
  rw [out, begun.out, drained, begun.kept.tilesOut w c v _ (by decide), tiles, List.nil_append]

end

/-! ### The rows -/

theorem exec_product {i : Instr} {op w e : Nat} {err : MemErr} (row : (i, op) ∈ [(Instr.mma w e err, 0x08), (.mmaWg w e err, 0x09)]) (me : e < 4)
    (s : State) : exec i s = .next (observe (meRead s w e op err)) := by
  have same : e % 4 = e := Nat.mod_eq_of_lt me
  simp only [List.mem_cons, List.not_mem_nil, or_false, Prod.mk.injEq] at row
  rcases row with ⟨rfl, rfl⟩ | ⟨rfl, rfl⟩
  · rw [exec, execMma, same]
  · rw [exec, execMmaWg, same]

theorem meRead_accum {s : State} {w e op m off : Nat} {c : Cmd} (job : jobOf s w e op = some (m, c)) (opened : (meRt s (4 * w + e)).tiles ≠ []) :
    meRead s w e op (.accum off) =
      execFault (markLost s (accumKey (4 * w + e) off)) m c 0x12 (ueAt s 1 (accumKey (4 * w + e) off)) := by
  simp [meRead, job, opened]

theorem meRead_of_not_accum {s : State} {w e op : Nat} {err : MemErr} (other : ∀ off, err ≠ .accum off) :
    meRead s w e op err = withErr s w e op err (spillRuns s w (4 * w + e)) (fun t => meEvent t w e op) := by
  unfold meRead
  split
  · exact absurd rfl (other _)
  · rfl

/-- The accumulators are no memory with an address. -/
theorem engineMeets_accum (s : State) (w e off : Nat) (runs : List (Nat × Nat)) : engineMeets s w e (.accum off) runs = (s, none) := by
  unfold engineMeets
  split <;> rfl

section
variable {i : Instr} {s : State} {w e op m : Nat} {c : Cmd} {err : MemErr}
  (row : (i, op) ∈ [(Instr.mma w e err, 0x08), (.mmaWg w e err, 0x09)]) (me : e < 4) (job : jobOf s w e op = some (m, c))
include row me job

theorem product_accumLost {off : Nat} (acc : err = .accum off) (opened : (meRt s (4 * w + e)).tiles ≠ []) (enabled : (stream s m).st = .enabled) :
    Gives i s fun t => Faulted t m 0x12 (ueAt s 1 (accumKey (4 * w + e) off)) := by
  have next := exec_product row me s
  rw [acc, meRead_accum job opened] at next
  refine gives_next next (faulted_execFault c _ ?_ (by decide)).observe
  rw [(metKept_markLost s _).stream]
  exact enabled

theorem product_lost {d : Nat} (lost : (engineMeets s w e err (endRuns s w c ++ spillRuns s w (4 * w + e) c)).2 = some d)
    (enabled : (stream s m).st = .enabled) : Gives i s fun t => Faulted t m 0x12 d := by
  have other : ∀ off, err ≠ .accum off := by
    rintro off rfl
    rw [engineMeets_accum] at lost
    cases lost
  have next := exec_product row me s
  rw [meRead_of_not_accum other] at next
  exact gives_faulted_of_lost _ job rfl next lost enabled

variable (closed : ∀ off, err = .accum off → (meRt s (4 * w + e)).tiles = [])
  (met : (engineMeets s w e err (endRuns s w c ++ spillRuns s w (4 * w + e) c)).2 = none)
include closed met

/-- A row whose reads meet nothing beyond correction is an event of what they leave. -/
theorem exec_product_of_met :
    exec i s = .next (observe (meEvent (engineMeets s w e err (endRuns s w c ++ spillRuns s w (4 * w + e) c)).1 w e op)) := by
  rw [exec_product row me s]
  by_cases acc : ∃ off, err = .accum off
  · obtain ⟨off, rfl⟩ := acc
    rw [engineMeets_accum]
    simp [meRead, job, closed off rfl]
  · rw [meRead_of_not_accum (fun off h => acc ⟨off, h⟩), withErr_of_met _ job rfl met]

theorem product_pushes {h : Hdr} {bs : List Byte} {rest : List (Hdr × List Byte)} (drain : (meRt s (4 * w + e)).out = (h, bs) :: rest)
    (room : canPush s w c 0 1 = true) (lit : isDark s (outWard w (c.out 0)) = false) :
    Gives i s fun t => PushedTile s t (outQ w c 0) (nextOut c 0) h.fmt c.tag ∧ (meRt t (4 * w + e)).out = rest :=
  gives_next (exec_product_of_met row me job closed met) (meEvent_pushes (metKept_engineMeets _ _ _ _ _) job drain room lit)

variable {v : List Nat} (drained : (meRt s (4 * w + e)).out = []) (going : c.stopping = false)
include drained going

theorem product_unspilled {mul : Bool} (step : (mmaSteps c)[c.iter]? = some (v, mul)) (unchecked : (meRt s (4 * w + e)).checked = false)
    (due : mul = false ∨ ¬GoesOn c (meRt s (4 * w + e)) v ∨ EndsChunk s c (meRt s (4 * w + e)) v) (needed : 0 < spillNeed s c)
    (small : spillFits (spillWord s (4 * w + e) c) (spillNeed s c) = false) (enabled : (stream s m).st = .enabled) :
    Gives i s fun t => Faulted t m 0x10 (4 * w + e) := by
  have kept := metKept_engineMeets s w e err (endRuns s w c ++ spillRuns s w (4 * w + e) c)
  have next := exec_product_of_met row me job closed met
  rw [meEvent_unspilled ((jobOf_of_metKept kept w e op).trans job) (by rw [kept.meRt]; exact drained) going step (by rw [kept.meRt]; exact unchecked)
    (by rw [EndsChunk, kept.meRt, kept.chunkLen (by decide)]; exact due) (by rw [kept.spillNeed c (by decide)]; exact needed)
    (by rw [spillWord, kept.meRt, kept.rd ME_SPILL _ (by decide), kept.spillNeed c (by decide)]; exact small)] at next
  refine gives_next next (faulted_execFault c _ ?_ (by decide)).observe
  rw [kept.stream]
  exact enabled

theorem product_drains_zero (step : (mmaSteps c)[c.iter]? = some (v, false)) (spill : SpillMet s (4 * w + e) c)
    (noPartial : NoPartial s (4 * w + e) c v) (free : (meRt s (4 * w + e)).latch = none) :
    Gives i s fun t => (meRt t (4 * w + e)).out =
      tilesOut s w c v (outRows c.fmtOut (colsOf (dRowLen c.desc) (elemBaseOf c.desc v)) []).1 ∧ UnitDone t m c ∧ t.mem = s.mem := by
  obtain ⟨out, done, mem⟩ := meEvent_drains_zero (metKept_engineMeets s w e err (endRuns s w c ++ spillRuns s w (4 * w + e) c)) job drained going
    step spill noPartial free
  exact gives_next (exec_product_of_met row me job closed met)
    ⟨by rw [meRt_of_me (observe_me _)]; exact out, done.congr (stream_observe_cmds _ _), (observe_mem _).trans mem⟩

theorem product_slotDone {P : MeRt → Prop} (step : (mmaSteps c)[c.iter]? = some (v, true)) (spill : SpillMet s (4 * w + e) c)
    (noPartial : NoPartial s (4 * w + e) c v) {ha hb : Hdr} {ba bb : List Byte}
    (readA : readIn (engineMeets s w e err (endRuns s w c ++ spillRuns s w (4 * w + e) c)).1 w c 0 (inOffset c.desc 0 v) = .ok (ha, ba))
    (readB : readIn (engineMeets s w e err (endRuns s w c ++ spillRuns s w (4 * w + e) c)).1 w c 1 (inOffset c.desc 1 v) = .ok (hb, bb))
    (slot : ∀ (u : State) (rt : MeRt) (ev : Ev), SlotBegun s u (4 * w + e) rt → ∃ rt', P rt' ∧
      SlotDone u (meSlotStep u m w (4 * w + e) c rt v (operandTile c.fmtA ha ba) (operandTile c.fmtB hb bb)
        (operandLines (operandTile c.fmtA ha ba)) (operandLines (operandTile c.fmtB hb bb)) none ev) m (4 * w + e) c rt') :
    Gives i s fun t => P (meRt t (4 * w + e)) ∧ UnitDone t m c ∧ t.mem = s.mem ∧ fg t ME_BUSY_CLOCKS (4 * w + e) =
      min (2 ^ 32 - 1) (fg s ME_BUSY_CLOCKS (4 * w + e) + (if paired c then 0 else slotClocks c.fmtA c.fmtB)) := by
  obtain ⟨holds, done, mem, busy⟩ := meEvent_slotDone (metKept_engineMeets s w e err (endRuns s w c ++ spillRuns s w (4 * w + e) c)) job drained
    going step spill noPartial readA readB slot
  exact gives_next (exec_product_of_met row me job closed met)
    ⟨by rw [meRt_of_me (observe_me _)]; exact holds, done.congr (stream_observe_cmds _ _), (observe_mem _).trans mem,
      (fg_observe _ _ _).trans busy⟩

end

/-! ### The handover (03, R78) -/

theorem spillHandover_adds {s : State} {w e id : Nat} (me : e < 4) {part : List Nat} (waited : Nat)
    (latch : (meRt s (4 * w + e)).latch = some (id, part)) :
    Gives (.spillHandover w e waited) s fun t =>
      getTile (meRt t (4 * w + e)).tiles id = { getTile (meRt s (4 * w + e)).tiles id with
        sum := sumInto (getTile (meRt s (4 * w + e)).tiles id).sum part } ∧ (meRt t (4 * w + e)).latch = none ∧
      fg t ME_STATUS_SPILLING (4 * w + e) = 0 ∧
      fg t ME_SPILL_WAIT_CLOCKS (4 * w + e) = min (2 ^ 32 - 1) (fg s ME_SPILL_WAIT_CLOCKS (4 * w + e) + waited) ∧
      RegsKept s t [(ME_STATUS, 4 * w + e), (ME_SPILL_WAIT, 4 * w + e)] ∧ t.mem = s.mem := by
  have same : e % 4 = e := Nat.mod_eq_of_lt me
  have next : exec (.spillHandover w e waited) s = execSpillHandover w e waited s := rfl
  simp only [execSpillHandover, same, latch] at next
  refine gives_next next ?_
  generalize taken : (setMe s (4 * w + e) _ : State) = u
  have rt : meRt (observe (bump (fs u ME_STATUS_SPILLING (4 * w + e) 0) ME_SPILL_WAIT_CLOCKS (4 * w + e) waited)) (4 * w + e) = meRt u (4 * w + e) :=
    meRt_of_me (observe_me _) _
  have regs : u.regs = s.regs := by rw [← taken]; rfl
  refine ⟨?_, ?_, ?_, ?_, ?_, ?_⟩
  · rw [rt, ← taken, meRt_setMe_same, getTile_putTile_same]
  · rw [rt, ← taken, meRt_setMe_same]
  · rw [fg_observe, bump, fg_fs_of_no _ _ _ _ _ _ (by decide), fg_fs_same _ _ _ _ (by decide) (by decide)]
    rfl
  · rw [fg_observe, fg_bump_clocks _ _ _ _ (by decide), fg_fs_of_no _ _ _ _ _ _ (by decide), fg_of_regs regs]
  · exact (((RegsKept.of_regs _ regs).fs 0 (by simp [ME_STATUS_SPILLING])).fs _ (by simp [ME_SPILL_WAIT_CLOCKS])).observe
  · rw [observe_mem, ← taken]
    rfl

/-- Settles O40: an event of a matrix engine is one slot, one tile leaving the final drain or a fault; the errors that its reads met and the shadow
check that it starts leave the operands of its sums alone. -/
theorem matrixProductsSumInOrder : Obligations.MatrixProductsSumInOrder := by
  unfold Obligations.MatrixProductsSumInOrder
  intro err i op w e m c s row me job n rt met s1
  refine ⟨fun off acc opened enabled => product_accumLost row me job acc opened enabled, fun d lost enabled => product_lost row me job lost enabled,
    fun closed clean => ⟨fun h bs rest drain room lit => product_pushes row me job closed clean drain room lit, ?_⟩,
    fun id part waited latch => spillHandover_adds me waited latch⟩
  intro v mul drained going step need fits id len x k rowsOf
  obtain ⟨stands, issued⟩ := standing_of_jobOf job
  refine ⟨fun unchecked due needed small enabled => ?_, fun spill noPartial zero free => ?_,
    fun spill noPartial multiplies ha ba hb bb readA readB => ?_⟩
  · exact product_unspilled row me job closed clean drained going step unchecked (by rwa [GoesOn, not_lt]) needed small enabled
  · rw [zero] at step
    exact product_drains_zero row me job closed clean drained going step spill noPartial free
  rw [multiplies] at step
  refine ⟨fun more inside => ?_, fun more ends fp spilled free => ?_, fun more ends resident => ?_, fun last free => ?_⟩
  · exact product_slotDone row me job closed clean drained going step spill noPartial readA readB
      fun u rt ev begun => slotDone_within begun stands issued _ _ _ _ ev more inside
  · exact (product_slotDone row me job closed clean drained going step spill noPartial readA readB
      fun u rt ev begun => slotDone_handover begun stands issued _ _ _ _ ev more ends fp spilled free).imp
      fun t ⟨⟨tile, latch⟩, done, mem, _⟩ => ⟨tile, latch, done, mem⟩
  · exact (product_slotDone row me job closed clean drained going step spill noPartial readA readB
      fun u rt ev begun => slotDone_resident begun stands issued _ _ _ _ ev more ends resident).imp
      fun t ⟨tile, done, mem, _⟩ => ⟨tile, done, mem⟩
  · exact (product_slotDone row me job closed clean drained going step spill noPartial readA readB
      fun u rt ev begun => slotDone_last begun stands issued _ _ _ _ ev drained (Nat.not_lt.mpr last) free).imp
      fun t ⟨out, done, mem, _⟩ => ⟨out, done, mem⟩

end Sys2Proof.Machine
end

section
/-!
SUPPORT. The shadow check (04, R108 to R111): a saturating counter read back, what an event leaves alone (18, R453), a use of a frame budget (16,
R414), and the stages in which a checked sample is counted.
-/

namespace Sys2Proof.Machine

/-! ### Counters -/

theorem satAdd_eq_min (top a b : Nat) : satAdd top a b = min top (a + b) := by
  unfold satAdd
  split <;> omega

theorem fg_bump_same (s : State) (f : Fld) (i n : Nat) (inWord : f.lo ≤ f.hi ∧ f.hi ≤ 31) :
    fg (bump s f i n) f i = min (2 ^ (f.hi + 1 - f.lo) - 1) (fg s f i + n) := by
  obtain ⟨ord, top⟩ := inWord
  have fits : min (2 ^ (f.hi + 1 - f.lo) - 1) (fg s f i + n) < 2 ^ (f.hi + 1 - f.lo) :=
    lt_of_le_of_lt (min_le_left _ _) (Nat.sub_lt (by positivity) Nat.one_pos)
  rw [bump, satAdd_eq_min, fg_fs_same _ _ _ _ ord top, Nat.mod_eq_of_lt fits]

/-! ### Events (18, R453) -/

/-- An event takes the next sequence number; besides the controller's own state only the count of lost events changes. -/
theorem raiseEvent_eq (s : State) (code tag unit d0 d1 : Nat) : ∃ mc lost, raiseEvent s code tag unit d0 d1 =
    { bump s MC_EVENT_LOST 0 lost with mc := mc } ∧ mc.evseq = s.mc.evseq + 1 := by
  by_cases silent : baseItem s.store.base 0x0303 = 0 ∨ baseItem s.store.base 0x0300 = 0
  · exact ⟨_, _, if_pos silent, rfl⟩
  · exact ⟨_, _, if_neg silent, rfl⟩

theorem evseq_raiseEvent (s : State) (code tag unit d0 d1 : Nat) : (raiseEvent s code tag unit d0 d1).mc.evseq = s.mc.evseq + 1 := by
  obtain ⟨mc, lost, event, evseq⟩ := raiseEvent_eq s code tag unit d0 d1
  rw [event]
  exact evseq

theorem fg_raiseEvent (s : State) (code tag unit d0 d1 : Nat) (f : Fld) (i : Nat) (out : f.reg.no ≠ MC_EVENT.no) :
    fg (raiseEvent s code tag unit d0 d1) f i = fg s f i := by
  obtain ⟨mc, lost, event, -⟩ := raiseEvent_eq s code tag unit d0 d1
  rw [event]
  exact fg_fs_of_no s MC_EVENT_LOST f 0 i _ out

/-! ### A use of a frame budget (16, R414) -/

section
variable {s : State} {a bytes slots energy : Nat} (go : State → State)

theorem withBudget_of_covered (covered : budgetCovers s a bytes slots energy = true) :
    withBudget s a bytes slots energy go = go (spend s a bytes slots energy) := if_pos covered

theorem withBudget_of_out (out : ¬budgetCovers s a bytes slots energy = true) :
    withBudget s a bytes slots energy go =
      { s with pwr := { s.pwr with used := sset {} s.pwr.used a { sget {} s.pwr.used a with out := true } } } := if_neg out

theorem used_spend : sget {} (spend s a bytes slots energy).pwr.used a =
    { sget {} s.pwr.used a with
      bytes := (sget {} s.pwr.used a).bytes + bytes
      slots := (sget {} s.pwr.used a).slots + slots
      energy := (sget {} s.pwr.used a).energy + energy } := sget_sset_same _ _ _ _

end

/-! ### A sample skipped (04, R111) -/

theorem fg_skipSample (s : State) (tag : Nat) : fg (skipSample s tag) MOD_SHADOW_GRP_CNT_SKIPPED (bits tag 15 8) =
    min (2 ^ 15 - 1) (fg s MOD_SHADOW_GRP_CNT_SKIPPED (bits tag 15 8) + 1) :=
  fg_bump_same s MOD_SHADOW_GRP_CNT_SKIPPED _ 1 (by decide)

theorem skipSample_regsKept (s : State) (tag : Nat) : RegsKept s (skipSample s tag) [(MOD_SHADOW_GRP_CNT, bits tag 15 8)] :=
  bump_regsKept s MOD_SHADOW_GRP_CNT_SKIPPED _ 1

/-! ### A sample counted, in three stages (04, R110) -/

/-- The histogram field of bucket b. -/
def bucketField (b : Nat) : Fld := if b % 2 = 1 then MOD_SHADOW_HIST_BUCKET_ODD else MOD_SHADOW_HIST_BUCKET_EVEN

/-- A sample of bucket b counted in the histogram and in CHECKED of group g. -/
def tallied (s : State) (g b : Nat) : State := bump (bump s (bucketField b) (8 * g + b / 2) 1) MOD_SHADOW_GRP_CNT_CHECKED g 1

/-- WARN of group g set where the bucket reaches the group's. -/
def warned (s : State) (g b : Nat) : State :=
  if fg s MOD_SHADOW_GRP_CFG_WARN_BUCKET g ≤ b then fs s MOD_SHADOW_GRP_CNT_WARN g 1 else s

/-- ALERT of group g set, and its event raised for sample x, where the bucket reaches the group's. -/
def alerted (s : State) (x : Sample) (g b : Nat) : State :=
  if fg s MOD_SHADOW_GRP_CFG_ALERT_BUCKET g ≤ b then raiseEvent (fs s MOD_SHADOW_GRP_CNT_ALERT g 1) 0x0002 x.tag x.ward x.step g else s

theorem countSample_eq (s : State) (x : Sample) : countSample s x =
    alerted (warned (tallied s (bits x.tag 15 8) (shadowBucket (shadowDeviation x.y x.r))) (bits x.tag 15 8)
      (shadowBucket (shadowDeviation x.y x.r))) x (bits x.tag 15 8) (shadowBucket (shadowDeviation x.y x.r)) := rfl

/-- The fields of a group's count register: they share no bit. -/
def countFields : List Fld :=
  [ MOD_SHADOW_GRP_CNT_ALERT, MOD_SHADOW_GRP_CNT_WARN, MOD_SHADOW_GRP_CNT_SKIPPED, MOD_SHADOW_GRP_CNT_CHECKED]

theorem fg_fs_countField (s : State) {f h : Fld} (hf : f ∈ countFields) (hh : h ∈ countFields) (ne : h ≠ f) (g v : Nat) :
    fg (fs s f g v) h g = fg s h g :=
  fg_fs_apart s f h g v ((by decide : ∀ f ∈ countFields, ∀ h ∈ countFields, h ≠ f →
    h.reg = f.reg ∧ f.lo ≤ f.hi ∧ f.hi ≤ 31 ∧ h.lo ≤ h.hi ∧ (h.hi < f.lo ∨ f.hi < h.lo)) f hf h hh ne)

section
variable (s : State) (x : Sample) (g b : Nat)

theorem bucketField_eq (b : Nat) : bucketField b = MOD_SHADOW_HIST_BUCKET_ODD ∨ bucketField b = MOD_SHADOW_HIST_BUCKET_EVEN := by
  unfold bucketField
  split
  · exact .inl rfl
  · exact .inr rfl

theorem bucketField_reg (b : Nat) : (bucketField b).reg = MOD_SHADOW_HIST := by
  rcases bucketField_eq b with h | h <;> rw [h] <;> rfl

theorem fg_tallied_of_no (f : Fld) (i : Nat) (out : f.reg.no ≠ MOD_SHADOW_HIST.no ∧ f.reg.no ≠ MOD_SHADOW_GRP_CNT.no) :
    fg (tallied s g b) f i = fg s f i := by
  obtain ⟨hist, cnt⟩ := out
  rw [tallied, bump, fg_fs_of_no _ _ _ _ _ _ cnt, bump, fg_fs_of_no _ _ _ _ _ _ (by rwa [bucketField_reg])]

theorem fg_tallied_countField {f : Fld} (hf : f ∈ countFields) (ne : f ≠ MOD_SHADOW_GRP_CNT_CHECKED) : fg (tallied s g b) f g = fg s f g := by
  have out : f.reg.no ≠ MOD_SHADOW_HIST.no := (by decide : ∀ f ∈ countFields, f.reg.no ≠ MOD_SHADOW_HIST.no) f hf
  rw [tallied, bump, fg_fs_countField _ (by decide) hf ne, bump, fg_fs_of_no _ _ _ _ _ _ (by rwa [bucketField_reg])]

theorem fg_tallied_checked : fg (tallied s g b) MOD_SHADOW_GRP_CNT_CHECKED g = min (2 ^ 15 - 1) (fg s MOD_SHADOW_GRP_CNT_CHECKED g + 1) := by
  have hist : fg (bump s (bucketField b) (8 * g + b / 2) 1) MOD_SHADOW_GRP_CNT_CHECKED g = fg s MOD_SHADOW_GRP_CNT_CHECKED g :=
    fg_fs_of_no _ _ _ _ _ _ (by rw [bucketField_reg]; decide)
  rw [tallied, fg_bump_same _ _ _ _ (by decide), hist]
  rfl

theorem fg_tallied_bucket : fg (tallied s g b) (bucketField b) (8 * g + b / 2) =
    min (2 ^ 16 - 1) (fg s (bucketField b) (8 * g + b / 2) + 1) := by
  rw [tallied, bump, fg_fs_of_no _ _ _ _ _ _ (by rw [bucketField_reg]; decide)]
  rcases bucketField_eq b with h | h <;> rw [h] <;> exact fg_bump_same _ _ _ _ (by decide)

theorem fg_warned_of_no (f : Fld) (i : Nat) (out : f.reg.no ≠ MOD_SHADOW_GRP_CNT.no) : fg (warned s g b) f i = fg s f i := by
  unfold warned
  split
  · exact fg_fs_of_no _ _ _ _ _ _ out
  · rfl

theorem fg_warned_countField {f : Fld} (hf : f ∈ countFields) (ne : f ≠ MOD_SHADOW_GRP_CNT_WARN) : fg (warned s g b) f g = fg s f g := by
  unfold warned
  split
  · exact fg_fs_countField s (by decide) hf ne g 1
  · rfl

theorem fg_warned_warn : fg (warned s g b) MOD_SHADOW_GRP_CNT_WARN g =
    if fg s MOD_SHADOW_GRP_CFG_WARN_BUCKET g ≤ b then 1 else fg s MOD_SHADOW_GRP_CNT_WARN g := by
  unfold warned
  split
  · exact fg_fs_same _ _ _ _ (by decide) (by decide)
  · rfl

theorem fg_alerted_of_no (f : Fld) (i : Nat) (out : f.reg.no ≠ MC_EVENT.no ∧ f.reg.no ≠ MOD_SHADOW_GRP_CNT.no) :
    fg (alerted s x g b) f i = fg s f i := by
  obtain ⟨event, cnt⟩ := out
  unfold alerted
  split
  · rw [fg_raiseEvent _ _ _ _ _ _ _ _ event, fg_fs_of_no _ _ _ _ _ _ cnt]
  · rfl

theorem fg_alerted_countField {f : Fld} (hf : f ∈ countFields) (ne : f ≠ MOD_SHADOW_GRP_CNT_ALERT) : fg (alerted s x g b) f g = fg s f g := by
  have out : f.reg.no ≠ MC_EVENT.no := (by decide : ∀ f ∈ countFields, f.reg.no ≠ MC_EVENT.no) f hf
  unfold alerted
  split
  · rw [fg_raiseEvent _ _ _ _ _ _ _ _ out, fg_fs_countField s (by decide) hf ne]
  · rfl

theorem fg_alerted_alert : fg (alerted s x g b) MOD_SHADOW_GRP_CNT_ALERT g =
    if fg s MOD_SHADOW_GRP_CFG_ALERT_BUCKET g ≤ b then 1 else fg s MOD_SHADOW_GRP_CNT_ALERT g := by
  unfold alerted
  split
  · rw [fg_raiseEvent _ _ _ _ _ _ _ _ (by decide), fg_fs_same _ _ _ _ (by decide) (by decide)]
    rfl
  · rfl

theorem evseq_alerted : (alerted s x g b).mc.evseq = s.mc.evseq + (if fg s MOD_SHADOW_GRP_CFG_ALERT_BUCKET g ≤ b then 1 else 0) := by
  unfold alerted
  split
  · exact evseq_raiseEvent _ _ _ _ _ _
  · rfl

end

/-! ### A sample counted -/

section
variable (s : State) (x : Sample)

/-- Before the last stage only registers change. -/
theorem warned_tallied_frame (g b : Nat) : ∃ regs, warned (tallied s g b) g b = { s with regs := regs } := by
  unfold warned
  split <;> exact ⟨_, rfl⟩

/-- Only registers and the controller's own state change. -/
theorem countSample_frame : ∃ regs mc, countSample s x = { s with regs := regs, mc := mc } := by
  rw [countSample_eq]
  generalize bits x.tag 15 8 = g
  generalize shadowBucket _ = b
  obtain ⟨regs, warn⟩ := warned_tallied_frame s g b
  rw [warn, alerted]
  split
  · obtain ⟨mc, lost, event, -⟩ := raiseEvent_eq (fs { s with regs := regs } MOD_SHADOW_GRP_CNT_ALERT g 1) 0x0002 x.tag x.ward x.step g
    exact ⟨_, mc, event⟩
  · exact ⟨regs, s.mc, rfl⟩

theorem fg_countSample_checked : fg (countSample s x) MOD_SHADOW_GRP_CNT_CHECKED (bits x.tag 15 8) =
    min (2 ^ 15 - 1) (fg s MOD_SHADOW_GRP_CNT_CHECKED (bits x.tag 15 8) + 1) := by
  rw [countSample_eq, fg_alerted_countField _ _ _ _ (by decide) (by decide), fg_warned_countField _ _ _ (by decide) (by decide),
    fg_tallied_checked]

theorem fg_countSample_skipped : fg (countSample s x) MOD_SHADOW_GRP_CNT_SKIPPED (bits x.tag 15 8) =
    fg s MOD_SHADOW_GRP_CNT_SKIPPED (bits x.tag 15 8) := by
  rw [countSample_eq, fg_alerted_countField _ _ _ _ (by decide) (by decide), fg_warned_countField _ _ _ (by decide) (by decide),
    fg_tallied_countField _ _ _ (by decide) (by decide)]

theorem fg_countSample_bucket (b : Nat) (bucket : shadowBucket (shadowDeviation x.y x.r) = b) :
    fg (countSample s x) (bucketField b) (8 * bits x.tag 15 8 + b / 2) =
      min (2 ^ 16 - 1) (fg s (bucketField b) (8 * bits x.tag 15 8 + b / 2) + 1) := by
  rw [countSample_eq, bucket, fg_alerted_of_no _ _ _ _ _ _ (by rw [bucketField_reg]; decide),
    fg_warned_of_no _ _ _ _ _ (by rw [bucketField_reg]; decide), fg_tallied_bucket]

theorem fg_countSample_warn : fg (countSample s x) MOD_SHADOW_GRP_CNT_WARN (bits x.tag 15 8) =
    if fg s MOD_SHADOW_GRP_CFG_WARN_BUCKET (bits x.tag 15 8) ≤ shadowBucket (shadowDeviation x.y x.r) then 1
    else fg s MOD_SHADOW_GRP_CNT_WARN (bits x.tag 15 8) := by
  rw [countSample_eq, fg_alerted_countField _ _ _ _ (by decide) (by decide), fg_warned_warn, fg_tallied_of_no _ _ _ _ _ (by decide),
    fg_tallied_countField _ _ _ (by decide) (by decide)]

/-- The group's ALERT_BUCKET as the last stage reads it. -/
theorem fg_warned_tallied_alertBucket (g b : Nat) :
    fg (warned (tallied s g b) g b) MOD_SHADOW_GRP_CFG_ALERT_BUCKET g = fg s MOD_SHADOW_GRP_CFG_ALERT_BUCKET g := by
  rw [fg_warned_of_no _ _ _ _ _ (by decide), fg_tallied_of_no _ _ _ _ _ (by decide)]

theorem fg_countSample_alert : fg (countSample s x) MOD_SHADOW_GRP_CNT_ALERT (bits x.tag 15 8) =
    if fg s MOD_SHADOW_GRP_CFG_ALERT_BUCKET (bits x.tag 15 8) ≤ shadowBucket (shadowDeviation x.y x.r) then 1
    else fg s MOD_SHADOW_GRP_CNT_ALERT (bits x.tag 15 8) := by
  rw [countSample_eq, fg_alerted_alert, fg_warned_tallied_alertBucket, fg_warned_countField _ _ _ (by decide) (by decide),
    fg_tallied_countField _ _ _ (by decide) (by decide)]

theorem evseq_countSample : (countSample s x).mc.evseq = s.mc.evseq +
    (if fg s MOD_SHADOW_GRP_CFG_ALERT_BUCKET (bits x.tag 15 8) ≤ shadowBucket (shadowDeviation x.y x.r) then 1 else 0) := by
  obtain ⟨regs, warn⟩ := warned_tallied_frame s (bits x.tag 15 8) (shadowBucket (shadowDeviation x.y x.r))
  rw [countSample_eq, evseq_alerted, fg_warned_tallied_alertBucket, warn]

end

end Sys2Proof.Machine
end

section
/-!
CLAIM. SHADOW_SAMPLE (04, R108 to R111; 16, R414; 17, R423): the oldest sample checked and counted, skipped or waiting. O48.
-/

namespace Sys2Proof.Machine

/-! ### The row -/

section
variable {slots energy err : Nat} {x : Sample} {xs : List Sample} {s : State}

theorem exec_shadowSample_of_none (slots energy err : Nat) (s : State) (none : s.samples = []) :
    exec (.shadowSample slots energy err) s = .next s := by
  change execShadowSample slots energy err s = .next s
  rw [execShadowSample, none]

theorem exec_shadowSample_of_noFree (slots energy err : Nat) (oldest : s.samples = x :: xs) (free : freeWards s (districtOf s x.ward) = []) :
    exec (.shadowSample slots energy err) s = .next (skipSample { s with samples := xs } x.tag) := by
  change execShadowSample slots energy err s = _
  simp only [execShadowSample, oldest, free, List.isEmpty_nil, if_true]

/-- The lowest free ward of the sample's district stands in ACTIVE (17, R423). -/
def ShadowWardActive (s : State) (x : Sample) : Prop :=
  freeWards s (districtOf s x.ward) ≠ [] ∧ (pward s ((freeWards s (districtOf s x.ward)).headD 0)).st = 0 ∧
    (pward s ((freeWards s (districtOf s x.ward)).headD 0)).stage = 0

theorem exec_shadowSample_of_waking (slots energy err : Nat) (oldest : s.samples = x :: xs) (free : freeWards s (districtOf s x.ward) ≠ [])
    (waking : ¬ShadowWardActive s x) : exec (.shadowSample slots energy err) s = .next s := by
  change execShadowSample slots energy err s = _
  simp only [ShadowWardActive, free, ne_eq, not_false_eq_true, true_and, not_and_or] at waking
  simp only [execShadowSample, oldest, List.isEmpty_iff, free, if_false, ne_eq, waking, if_true]

theorem exec_shadowSample_of_active (slots energy err : Nat) (oldest : s.samples = x :: xs) (active : ShadowWardActive s x) :
    exec (.shadowSample slots energy err) s = .next (withBudget s actShadow 0 slots energy (fun t =>
      if err = 1 then skipSample { t with samples := xs } x.tag else countSample { t with samples := xs } x)) := by
  obtain ⟨free, st, stage⟩ := active
  change execShadowSample slots energy err s = _
  simp only [execShadowSample, oldest, List.isEmpty_iff, free, if_false, st, stage, ne_eq, not_true_eq_false, or_self]

/-! ### Each case -/

theorem shadowSample_skips_noFree (oldest : s.samples = x :: xs) (free : freeWards s (districtOf s x.ward) = []) :
    Gives (.shadowSample slots energy err) s fun t =>
      fg t MOD_SHADOW_GRP_CNT_SKIPPED (bits x.tag 15 8) = min (2 ^ 15 - 1) (fg s MOD_SHADOW_GRP_CNT_SKIPPED (bits x.tag 15 8) + 1) ∧
      RegsKept s t [(MOD_SHADOW_GRP_CNT, bits x.tag 15 8)] ∧ t = { s with samples := xs, regs := t.regs } :=
  gives_next (exec_shadowSample_of_noFree slots energy err oldest free)
    ⟨fg_skipSample { s with samples := xs } x.tag, skipSample_regsKept { s with samples := xs } x.tag, rfl⟩

theorem shadowSample_waits (oldest : s.samples = x :: xs) (active : ShadowWardActive s x) (out : ¬budgetCovers s actShadow 0 slots energy = true) :
    Gives (.shadowSample slots energy err) s fun t => t = { s with pwr := t.pwr } ∧ (sget {} t.pwr.used 6).out = true := by
  refine gives_next (exec_shadowSample_of_active slots energy err oldest active) ?_
  rw [withBudget_of_out _ out]
  exact ⟨rfl, congrArg Spent.out (sget_sset_same _ _ _ _)⟩

/-- The state in which a sample is counted or skipped: taken, its use of the budget added. -/
def sampleTaken (s : State) (slots energy : Nat) (xs : List Sample) : State := { spend s actShadow 0 slots energy with samples := xs }

theorem exec_shadowSample_of_covered (err : Nat) (oldest : s.samples = x :: xs) (active : ShadowWardActive s x)
    (covered : budgetCovers s actShadow 0 slots energy = true) : exec (.shadowSample slots energy err) s =
      .next (if err = 1 then skipSample (sampleTaken s slots energy xs) x.tag else countSample (sampleTaken s slots energy xs) x) := by
  rw [exec_shadowSample_of_active slots energy err oldest active, withBudget_of_covered _ covered]
  rfl

theorem shadowSample_skips_lost (oldest : s.samples = x :: xs) (active : ShadowWardActive s x)
    (covered : budgetCovers s actShadow 0 slots energy = true) : Gives (.shadowSample slots energy 1) s fun t =>
      fg t MOD_SHADOW_GRP_CNT_SKIPPED (bits x.tag 15 8) = min (2 ^ 15 - 1) (fg s MOD_SHADOW_GRP_CNT_SKIPPED (bits x.tag 15 8) + 1) ∧
      RegsKept s t [(MOD_SHADOW_GRP_CNT, bits x.tag 15 8)] ∧ t.samples = xs :=
  gives_next (exec_shadowSample_of_covered 1 oldest active covered)
    ⟨fg_skipSample (sampleTaken s slots energy xs) x.tag, skipSample_regsKept (sampleTaken s slots energy xs) x.tag, rfl⟩

theorem shadowSample_counts (oldest : s.samples = x :: xs) (active : ShadowWardActive s x)
    (covered : budgetCovers s actShadow 0 slots energy = true) (read : err ≠ 1) :
    let g := bits x.tag 15 8
    let b := shadowBucket (shadowDeviation x.y x.r)
    Gives (.shadowSample slots energy err) s fun t =>
      t.samples = xs ∧ fg t MOD_SHADOW_GRP_CNT_CHECKED g = min (2 ^ 15 - 1) (fg s MOD_SHADOW_GRP_CNT_CHECKED g + 1) ∧
      (b % 2 = 0 → fg t MOD_SHADOW_HIST_BUCKET_EVEN (8 * g + b / 2) = min (2 ^ 16 - 1) (fg s MOD_SHADOW_HIST_BUCKET_EVEN (8 * g + b / 2) + 1)) ∧
      (b % 2 = 1 → fg t MOD_SHADOW_HIST_BUCKET_ODD (8 * g + b / 2) = min (2 ^ 16 - 1) (fg s MOD_SHADOW_HIST_BUCKET_ODD (8 * g + b / 2) + 1)) ∧
      fg t MOD_SHADOW_GRP_CNT_WARN g = (if fg s MOD_SHADOW_GRP_CFG_WARN_BUCKET g ≤ b then 1 else fg s MOD_SHADOW_GRP_CNT_WARN g) ∧
      fg t MOD_SHADOW_GRP_CNT_ALERT g = (if fg s MOD_SHADOW_GRP_CFG_ALERT_BUCKET g ≤ b then 1 else fg s MOD_SHADOW_GRP_CNT_ALERT g) ∧
      t.mc.evseq = s.mc.evseq + (if fg s MOD_SHADOW_GRP_CFG_ALERT_BUCKET g ≤ b then 1 else 0) ∧
      fg t MOD_SHADOW_GRP_CNT_SKIPPED g = fg s MOD_SHADOW_GRP_CNT_SKIPPED g ∧
      (sget {} t.pwr.used 6).slots = (sget {} s.pwr.used 6).slots + slots ∧
      (sget {} t.pwr.used 6).energy = (sget {} s.pwr.used 6).energy + energy ∧
      t.mem = s.mem ∧ t.queues = s.queues ∧ t.streams = s.streams := by
  intro g b
  refine gives_next ((exec_shadowSample_of_covered err oldest active covered).trans (by rw [if_neg read])) ?_
  generalize taken : sampleTaken s slots energy xs = u
  have regs : u.regs = s.regs := by rw [← taken]; rfl
  have word : ∀ f i, fg u f i = fg s f i := fg_of_regs regs
  have bucket : fg (countSample u x) (bucketField b) (8 * g + b / 2) = min (2 ^ 16 - 1) (fg s (bucketField b) (8 * g + b / 2) + 1) := by
    rw [fg_countSample_bucket u x b rfl, word]
  obtain ⟨regs', mc', frame⟩ := countSample_frame u x
  have samples : (countSample u x).samples = xs := by rw [frame, ← taken]; rfl
  have used : sget {} (countSample u x).pwr.used 6 = sget {} (spend s actShadow 0 slots energy).pwr.used actShadow := by
    rw [frame, ← taken]; rfl
  rw [used_spend] at used
  have rest : (countSample u x).mem = s.mem ∧ (countSample u x).queues = s.queues ∧ (countSample u x).streams = s.streams := by
    rw [frame, ← taken]; exact ⟨rfl, rfl, rfl⟩
  have evseq : u.mc.evseq = s.mc.evseq := by rw [← taken]; rfl
  refine ⟨samples, ?_, fun even => ?_, fun odd => ?_, ?_, ?_, ?_, ?_, congrArg Spent.slots used, congrArg Spent.energy used, rest⟩
  · rw [fg_countSample_checked, word]
  · rwa [bucketField, if_neg (by omega)] at bucket
  · rwa [bucketField, if_pos odd] at bucket
  · rw [fg_countSample_warn, word, word]
  · rw [fg_countSample_alert, word, word]
  · rw [evseq_countSample, word, evseq]
  · rw [fg_countSample_skipped, word]

end

/-- Settles O48: by the sample pending, the free ward that it needs and the budget, each case is a theorem above. -/
theorem shadowSamplesAreCheckedOrSkipped : Obligations.ShadowSamplesAreCheckedOrSkipped := by
  unfold Obligations.ShadowSamplesAreCheckedOrSkipped
  refine ⟨?_, exec_shadowSample_of_none⟩
  intro slots energy err x xs s oldest g free active covered b
  refine ⟨fun noFree => ?_, fun someFree waking => ?_, fun active out => ?_, fun active covered read => ?_, fun active covered => ?_⟩
  · exact shadowSample_skips_noFree oldest noFree
  · exact exec_shadowSample_of_waking slots energy err oldest someFree waking
  · exact shadowSample_waits oldest active out
  · exact shadowSample_counts oldest active covered read
  · exact shadowSample_skips_lost oldest active covered

end Sys2Proof.Machine
end

section
/-!
SUPPORT. Registers whose top bit is EN: a word written with that bit set or cleared (00, R12, R534), and what is left alone where streams and
quiescence are looked at after a command.
-/

namespace Sys2Proof.Machine

/-! ### What looking at streams leaves alone -/

@[simp] theorem observe_engines (s : State) : (observe s).engines = s.engines := by obtain ⟨_, _, _, h⟩ := observe_eq s; rw [h]
@[simp] theorem observe_watch (s : State) : (observe s).watch = s.watch := by obtain ⟨_, _, _, h⟩ := observe_eq s; rw [h]
@[simp] theorem observe_pwr (s : State) : (observe s).pwr = s.pwr := by obtain ⟨_, _, _, h⟩ := observe_eq s; rw [h]
@[simp] theorem observe_trace (s : State) : (observe s).trace = s.trace := by obtain ⟨_, _, _, h⟩ := observe_eq s; rw [h]
@[simp] theorem observe_txns (s : State) : (observe s).txns = s.txns := by obtain ⟨_, _, _, h⟩ := observe_eq s; rw [h]
@[simp] theorem observe_ports (s : State) : (observe s).ports = s.ports := by obtain ⟨_, _, _, h⟩ := observe_eq s; rw [h]
@[simp] theorem observe_arrivals (s : State) : (observe s).arrivals = s.arrivals := by obtain ⟨_, _, _, h⟩ := observe_eq s; rw [h]
@[simp] theorem observe_flash (s : State) : (observe s).flash = s.flash := by obtain ⟨_, _, _, h⟩ := observe_eq s; rw [h]

@[simp] theorem readByte_observe (s : State) (a : Nat) : readByte (observe s) a = readByte s a := by
  unfold readByte; rw [observe_mem, observe_boot]

@[simp] theorem flagCount_observe (s : State) (n : Nat) : flagCount (observe s) n = flagCount s n := fg_observe s _ n

@[simp] theorem stream_observe_avail (s : State) (m : Nat) : (stream (observe s) m).avail = (stream s m).avail := by
  obtain ⟨_, _, h⟩ := stream_observe s m; rw [h]

@[simp] theorem stream_observe_req (s : State) (m : Nat) : (stream (observe s) m).req = (stream s m).req := by
  obtain ⟨_, _, h⟩ := stream_observe s m; rw [h]

theorem stream_setStream_other (s : State) {m k : Nat} (x : Stream) (ne : k ≠ m) : stream (setStream s m x) k = stream s k :=
  sget_sset_other _ _ _ _ ne

theorem stream_of_streams {s t : State} (h : t.streams = s.streams) (m : Nat) : stream t m = stream s m := by unfold stream; rw [h]

/-! ### A word with its top bit set or cleared -/

theorem fieldIn_top (v : Word) (x : Nat) (f : Fld) (hi : f.hi = 31) (lo : f.lo = 31) : fieldIn (withField v 31 31 x) f = x % 2 := by
  rw [fieldIn, hi, lo, fieldOf_withField_same _ _ _ _ le_rfl le_rfl]; rfl

theorem withField_top_top (v : Word) (x y : Nat) : withField (withField v 31 31 x) 31 31 y = withField v 31 31 y := by
  refine BitVec.eq_of_toNat_eq ?_
  rw [withField_toNat _ 31 31 y le_rfl le_rfl, withField_toNat v 31 31 y le_rfl le_rfl, withField_toNat v 31 31 x le_rfl le_rfl]
  have := v.isLt
  omega

/-- The guarded fields of a word stand below its top bit. -/
theorem changes_withTop (s : State) (i : Nat) (v : Word) (x : Nat) (guarded : List Fld) (low : ∀ f ∈ guarded, f.lo ≤ f.hi ∧ f.hi < 31) :
    changes s i (withField v 31 31 x) guarded = changes s i v guarded := by
  unfold changes
  rw [Bool.eq_iff_iff, List.any_eq_true, List.any_eq_true]
  exact exists_congr fun f => and_congr_right fun mem => by rw [fieldIn_withTop v x f (low f mem).1 (low f mem).2]

/-- A flag of one bit that does not read 1 reads 0. -/
theorem fg_bit_eq_zero {s : State} {f : Fld} {i : Nat} (one : f.hi = f.lo) (h : fg s f i ≠ 1) : fg s f i = 0 := by
  have := fg_lt s f i
  rw [one, Nat.add_sub_cancel_left] at this
  omega

theorem fg_fs_flag (s : State) (f : Fld) (i : Nat) (one : f.hi = f.lo ∧ f.hi ≤ 31) : fg (fs s f i 1) f i = 1 := by
  rw [fg_fs_same _ _ _ _ one.1.ge one.2, one.1, Nat.add_sub_cancel_left]; rfl

end Sys2Proof.Machine
end

section
/-!
PROOFS. The statement about queues (05, R118 to R120; 13, R327): what emptying a queue does, the write of WARD_QCFG by its cases, and the
obligation from them.
-/

namespace Sys2Proof.Machine

/-! ### A queue emptied (05, R119, R120) -/

theorem hdrKey_within (s : State) {n k : Nat} (inside : k < qDepth s n) :
    hdrKey s n 0 ≤ hdrKey s n k ∧ hdrKey s n k + 16 ≤ hdrKey s n 0 + 16 * qDepth s n := by
  unfold hdrKey
  rw [Nat.zero_mod, Nat.mod_eq_of_lt inside]
  omega

/-- The VALID mark of slot k's header cleared. -/
def clearMark (s : State) (n : Nat) (t : State) (k : Nat) : State :=
  memWrite t (hdrKey s n k + 1) [BitVec.ofNat 8 ((readByte t (hdrKey s n k + 1)).toNat % 0x80)]

theorem qClear_eq (s : State) (n : Nat) : qClear s n = setQueue ((below (qDepth s n)).foldl (clearMark s n) s) n {} := rfl

@[simp] theorem qClear_regs (s : State) (n : Nat) : (qClear s n).regs = s.regs := by
  rw [qClear_eq, setQueue_regs, foldl_keeps State.regs (clearMark s n) (fun _ _ => rfl)]

theorem queueRt_qClear_other (s : State) {n k : Nat} (ne : k ≠ n) : queueRt (qClear s n) k = queueRt s k := by
  rw [qClear_eq, queueRt_setQueue_other _ _ ne]
  exact foldl_keeps (fun t => queueRt t k) (clearMark s n) (fun _ _ => rfl) _ s

/-- Emptying a queue writes to the headers of its slots alone. -/
theorem qClear_memKept (s : State) (n : Nat) : MemKept s (qClear s n) (hdrKey s n 0) (16 * qDepth s n) := by
  intro a out
  refine List.foldlRecOn (motive := fun t : State => readByte t a = readByte s a) _ (clearMark s n) rfl (fun t same k mem => ?_)
  have within := hdrKey_within s ((mem_below _ k).mp mem)
  rw [clearMark, readByte_memWrite_out _ _ _ _ (by simp only [List.length_singleton]; omega), same]

/-- A queue emptied with its arrival region, EN as given. -/
def queueReset (s : State) (n on : Nat) : State := clearArrival (fs (qClear s n) WARD_QCFG_EN n on) n

theorem queueReset_regsKept (s : State) (n on : Nat) : RegsKept s (queueReset s n on) [(WARD_QCFG, n), (WARD_QARR_STAT, n)] :=
  ((RegsKept.of_regs _ (qClear_regs s n)).fs (f := WARD_QCFG_EN) on (by simp [WARD_QCFG_EN])).wr 0 (by simp)

theorem fg_queueReset_en (s : State) (n on : Nat) : fg (queueReset s n on) WARD_QCFG_EN n = on % 2 :=
  (fg_wr_of_no _ _ _ _ _ _ (by decide)).trans (fg_fs_same (qClear s n) WARD_QCFG_EN n on (by decide) (by decide))

theorem fg_queueReset_low (s : State) (n on : Nat) (f : Fld) (low : f.reg = WARD_QCFG ∧ f.lo ≤ f.hi ∧ f.hi < 31) :
    fg (queueReset s n on) f n = fg s f n := by
  obtain ⟨reg, ord, below⟩ := low
  refine (fg_wr_of_no _ _ _ _ _ _ (by rw [reg]; decide)).trans
    ((fg_fs_apart _ WARD_QCFG_EN f n on ⟨reg, by decide, by decide, ord, .inl below⟩).trans (fg_of_regs (qClear_regs s n) f n))

/-- The queue and its arrival region are empty, its drain point stands at round 0, rank 0, and no byte but the marks and no other queue changes. -/
theorem queueReset_empties (s : State) (n on : Nat) :
    queueRt (queueReset s n on) n = {} ∧ sget {} (queueReset s n on).arrivals n = {} ∧ rd (queueReset s n on) WARD_QARR_STAT n = 0 ∧
      MemKept s (queueReset s n on) (hdrKey s n 0) (16 * qDepth s n) ∧ QueuesKept s (queueReset s n on) n :=
  ⟨queueRt_setQueue_same _ _ _, sget_serase_same _ _ _, rd_wr_same _ _ _ _, fun a out => qClear_memKept s n a out,
    fun _ ne => queueRt_qClear_other s ne⟩

/-! ### A write of WARD_QCFG (05, R119, R120) -/

/-- HOME, BASE, DEPTH and SLOT, which a queue keeps while EN is 1. -/
def queueGeometry : List Fld := [WARD_QCFG_HOME, WARD_QCFG_BASE, WARD_QCFG_DEPTH, WARD_QCFG_SLOT]

theorem queueGeometry_low : ∀ f ∈ queueGeometry, f.reg = WARD_QCFG ∧ f.lo ≤ f.hi ∧ f.hi < 31 := by decide

/-- The word that a write leaves in WARD_QCFG of a disabled queue before its checks. -/
def queueSet (s : State) (n : Nat) (value : Word) : State := wr s WARD_QCFG n (withField value 31 31 0)

/-- A refused change of a queue's geometry noted. -/
def geometryNoted (s : State) (n : Nat) (value : Word) : State := if changes s n value queueGeometry then fs s WARD_QSTAT_CFG_REFUSED n 1 else s

/-- A failed placement check noted, and a failed pin check. -/
def placementNoted (s : State) (n : Nat) : State := if placeBad s n then fs s WARD_QSTAT_PLACE_REFUSED n 1 else s

def queueRefused (s : State) (n : Nat) : State :=
  if pinBad s n then fs (placementNoted s n) WARD_QSTAT_PIN_REFUSED n 1 else placementNoted s n

theorem queueRefused_frame (s : State) (n : Nat) : ∃ regs, queueRefused s n = { s with regs := regs } := by
  unfold queueRefused placementNoted
  split <;> split <;> exact ⟨_, rfl⟩

theorem queueRefused_regsKept (s : State) (n : Nat) : RegsKept s (queueRefused s n) [(WARD_QSTAT, n)] := by
  unfold queueRefused placementNoted
  split <;> split
  · exact (fs_regsKept s WARD_QSTAT_PLACE_REFUSED n 1).fs 1 (List.mem_singleton.mpr rfl)
  · exact fs_regsKept s WARD_QSTAT_PIN_REFUSED n 1
  · exact fs_regsKept s WARD_QSTAT_PLACE_REFUSED n 1
  · exact .of_regs _ rfl

theorem fg_queueRefused_of_no (s : State) (n : Nat) (f : Fld) (i : Nat) (out : f.reg.no ≠ WARD_QSTAT.no) : fg (queueRefused s n) f i = fg s f i := by
  unfold queueRefused placementNoted
  split <;> split
  · rw [fg_fs_of_no _ _ _ _ _ _ out, fg_fs_of_no _ _ _ _ _ _ out]
  · rw [fg_fs_of_no _ _ _ _ _ _ out]
  · rw [fg_fs_of_no _ _ _ _ _ _ out]
  · rfl

theorem fg_queueRefused_pin (s : State) (n : Nat) (bad : pinBad s n = true) : fg (queueRefused s n) WARD_QSTAT_PIN_REFUSED n = 1 := by
  rw [queueRefused, if_pos bad]
  exact fg_fs_flag _ _ _ (by decide)

theorem fg_queueRefused_place (s : State) (n : Nat) (bad : placeBad s n = true) : fg (queueRefused s n) WARD_QSTAT_PLACE_REFUSED n = 1 := by
  have noted : fg (placementNoted s n) WARD_QSTAT_PLACE_REFUSED n = 1 := by
    rw [placementNoted, if_pos bad]
    exact fg_fs_flag _ _ _ (by decide)
  unfold queueRefused
  split
  · rw [fg_fs_apart _ _ _ _ _ (by decide), noted]
  · exact noted

section
variable {s : State} {n : Nat} (value : Word)

theorem writeQcfg_of_disabled (off : fg s WARD_QCFG_EN n = 0) : writeQcfg s n (withField value 31 31 1) =
    if placeBad (queueSet s n value) n || pinBad (queueSet s n value) n then queueRefused (queueSet s n value) n
    else queueReset (queueSet s n value) n 1 := by
  have en : (fieldIn (withField value 31 31 1) WARD_QCFG_EN == 1) = true := by rw [fieldIn_top value 1 _ rfl rfl]; rfl
  have disabled : ¬qEnabled s n = true := by rw [qEnabled, off]; decide
  unfold writeQcfg
  rw [if_neg disabled, en, withField_top_top]
  rfl

theorem writeQcfg_of_enabled (on : fg s WARD_QCFG_EN n = 1) (x : Nat) : writeQcfg s n (withField value 31 31 x) =
    if x % 2 == 1 then geometryNoted s n value
    else if qHeld (geometryNoted s n value) n then fs (geometryNoted s n value) WARD_QSTAT_CFG_REFUSED n 1
    else queueReset (geometryNoted s n value) n 0 := by
  have same := changes_withTop s n value x queueGeometry (fun f mem => (queueGeometry_low f mem).2)
  have enabled : qEnabled s n = true := by rw [qEnabled, on]; decide
  unfold queueGeometry at same
  unfold writeQcfg
  rw [if_pos enabled, same, fieldIn_top value x WARD_QCFG_EN rfl rfl]
  rfl

theorem exec_queueEnable (here : n / 64 < wardCount s) :
    exec (.queueEnable n value) s = .next (observe (writeQcfg s n (withField value 31 31 1))) := by
  show execQueueEnable n value s = _
  rw [execQueueEnable, if_pos here]

theorem exec_queueDisable (here : n / 64 < wardCount s) :
    exec (.queueDisable n value) s = .next (observe (writeQcfg s n (withField value 31 31 0))) := by
  show execQueueDisable n value s = _
  rw [execQueueDisable, if_pos here]

theorem geometryNoted_frame (s : State) (n : Nat) (value : Word) : ∃ regs, geometryNoted s n value = { s with regs := regs } := by
  unfold geometryNoted
  split <;> exact ⟨_, rfl⟩

theorem geometryNoted_regsKept : RegsKept s (geometryNoted s n value) [(WARD_QSTAT, n)] := by
  unfold geometryNoted
  split
  · exact fs_regsKept s WARD_QSTAT_CFG_REFUSED n 1
  · exact .of_regs _ rfl

theorem fg_geometryNoted_of_no (f : Fld) (i : Nat) (out : f.reg.no ≠ WARD_QSTAT.no) : fg (geometryNoted s n value) f i = fg s f i := by
  unfold geometryNoted
  split
  · exact fg_fs_of_no _ _ _ _ _ _ out
  · rfl

theorem qHeld_geometryNoted : qHeld (geometryNoted s n value) n = qHeld s n := by unfold geometryNoted; split <;> rfl

theorem queueSet_regsKept : RegsKept s (queueSet s n value) [(WARD_QCFG, n)] := wr_regsKept s WARD_QCFG n _

theorem fg_queueSet_en : fg (queueSet s n value) WARD_QCFG_EN n = 0 := by
  unfold fg queueSet
  exact (congrArg (fieldOf · 31 31) (rd_wr_same s WARD_QCFG n _)).trans (fieldIn_top value 0 WARD_QCFG_EN rfl rfl)

theorem fg_queueSet_low (f : Fld) (low : f.reg = WARD_QCFG ∧ f.lo ≤ f.hi ∧ f.hi < 31) : fg (queueSet s n value) f n = fieldIn value f := by
  obtain ⟨reg, ord, below⟩ := low
  unfold fg queueSet
  rw [reg, rd_wr_same]
  exact fieldIn_withTop value 0 f ord below

end

/-! ### The clauses -/

section
variable {s : State} {n : Nat} (value : Word) (here : n / 64 < wardCount s)
include here

theorem queueEnable_enables (off : fg s WARD_QCFG_EN n = 0) (place : placeBad (queueSet s n value) n = false)
    (pin : pinBad (queueSet s n value) n = false) : Gives (.queueEnable n value) s fun t =>
      fg t WARD_QCFG_EN n = 1 ∧ (∀ f ∈ queueGeometry, fg t f n = fieldIn value f) ∧
      (queueRt t n = {} ∧ sget {} t.arrivals n = {} ∧ rd t WARD_QARR_STAT n = 0 ∧
        MemKept s t (hdrKey (queueSet s n value) n 0) (16 * qDepth (queueSet s n value) n) ∧ QueuesKept s t n) ∧
      RegsKept s t [(WARD_QCFG, n), (WARD_QARR_STAT, n)] := by
  have row := exec_queueEnable value here
  rw [writeQcfg_of_disabled value off, if_neg (by simp [place, pin])] at row
  refine gives_next row ?_
  obtain ⟨queue, arrivals, stat, marks, others⟩ := queueReset_empties (queueSet s n value) n 1
  refine ⟨?_, fun f mem => ?_, ⟨?_, ?_, ?_, fun a out => ?_, fun k ne => ?_⟩, RegsKept.observe fun k out => ?_⟩
  · rw [fg_observe, fg_queueReset_en]
  · rw [fg_observe, fg_queueReset_low _ _ _ _ (queueGeometry_low f mem), fg_queueSet_low value f (queueGeometry_low f mem)]
  · rw [queueRt_observe, queue]
  · rw [observe_arrivals, arrivals]
  · rw [rd_observe, stat]
  · rw [readByte_observe, marks a out]; rfl
  · rw [queueRt_observe, others k ne]; rfl
  · exact (queueReset_regsKept _ n 1 k out).trans (queueSet_regsKept value k (fun x mem => out x (by simp_all)))

theorem queueEnable_refuses (off : fg s WARD_QCFG_EN n = 0) (bad : placeBad (queueSet s n value) n = true ∨ pinBad (queueSet s n value) n = true) :
    Gives (.queueEnable n value) s fun t =>
      fg t WARD_QCFG_EN n = 0 ∧ (placeBad (queueSet s n value) n = true → fg t WARD_QSTAT_PLACE_REFUSED n = 1) ∧
      (pinBad (queueSet s n value) n = true → fg t WARD_QSTAT_PIN_REFUSED n = 1) ∧
      t.queues = s.queues ∧ t.mem = s.mem ∧ RegsKept s t [(WARD_QCFG, n), (WARD_QSTAT, n)] := by
  have row := exec_queueEnable value here
  rw [writeQcfg_of_disabled value off, if_pos (by simpa using bad)] at row
  obtain ⟨regs, frame⟩ := queueRefused_frame (queueSet s n value) n
  refine gives_next row ⟨?_, fun place => ?_, fun pin => ?_, ?_, ?_, RegsKept.observe fun k out => ?_⟩
  · rw [fg_observe, fg_queueRefused_of_no _ _ _ _ (by decide), fg_queueSet_en]
  · rw [fg_observe, fg_queueRefused_place _ _ place]
  · rw [fg_observe, fg_queueRefused_pin _ _ pin]
  · rw [observe_queues, frame]; rfl
  · rw [observe_mem, frame]; rfl
  · exact (queueRefused_regsKept _ n k (fun x mem => out x (by simp_all))).trans (queueSet_regsKept value k (fun x mem => out x (by simp_all)))

theorem queueDisable_waits (on : fg s WARD_QCFG_EN n = 1) (held : qHeld s n = true) : Gives (.queueDisable n value) s fun t =>
    fg t WARD_QCFG_EN n = 1 ∧ fg t WARD_QSTAT_CFG_REFUSED n = 1 ∧ t.queues = s.queues ∧ t.mem = s.mem ∧ RegsKept s t [(WARD_QSTAT, n)] := by
  have row := exec_queueDisable value here
  rw [writeQcfg_of_enabled value on, if_neg (by decide), if_pos (by rw [qHeld_geometryNoted, held])] at row
  obtain ⟨regs, frame⟩ := geometryNoted_frame s n value
  refine gives_next row ⟨?_, ?_, ?_, ?_, RegsKept.observe ?_⟩
  · rw [fg_observe, fg_fs_of_no _ _ _ _ _ _ (by decide), fg_geometryNoted_of_no value _ _ (by decide), on]
  · rw [fg_observe, fg_fs_flag _ _ _ (by decide)]
  · rw [observe_queues, frame]; rfl
  · rw [observe_mem, frame]; rfl
  · exact (geometryNoted_regsKept value).fs 1 (by simp [WARD_QSTAT_CFG_REFUSED])

theorem queueDisable_empties (on : fg s WARD_QCFG_EN n = 1) (free : qHeld s n = false) (same : changes s n value queueGeometry = false) :
    Gives (.queueDisable n value) s fun t => fg t WARD_QCFG_EN n = 0 ∧
      (queueRt t n = {} ∧ sget {} t.arrivals n = {} ∧ rd t WARD_QARR_STAT n = 0 ∧ MemKept s t (hdrKey s n 0) (16 * qDepth s n) ∧
        QueuesKept s t n) ∧ RegsKept s t [(WARD_QCFG, n), (WARD_QARR_STAT, n)] := by
  have row := exec_queueDisable value here
  rw [writeQcfg_of_enabled value on, if_neg (by decide), if_neg (by rw [qHeld_geometryNoted, free]; decide), geometryNoted,
    if_neg (by rw [same]; decide)] at row
  obtain ⟨queue, arrivals, stat, marks, others⟩ := queueReset_empties s n 0
  refine gives_next row ⟨?_, ⟨?_, ?_, ?_, fun a out => ?_, fun k ne => ?_⟩, (queueReset_regsKept s n 0).observe⟩
  · rw [fg_observe, fg_queueReset_en]
  · rw [queueRt_observe, queue]
  · rw [observe_arrivals, arrivals]
  · rw [rd_observe, stat]
  · rw [readByte_observe, marks a out]
  · rw [queueRt_observe, others k ne]

theorem queueEnable_keepsGeometry (on : fg s WARD_QCFG_EN n = 1) (change : changes s n value queueGeometry = true) :
    Gives (.queueEnable n value) s fun t =>
      fg t WARD_QSTAT_CFG_REFUSED n = 1 ∧ (∀ f ∈ queueGeometry, fg t f n = fg s f n) ∧ t.queues = s.queues ∧ t.mem = s.mem := by
  have row := exec_queueEnable value here
  rw [writeQcfg_of_enabled value on, if_pos (by decide), geometryNoted, if_pos change] at row
  refine gives_next row ⟨?_, fun f mem => ?_, ?_, ?_⟩
  · rw [fg_observe, fg_fs_flag _ _ _ (by decide)]
  · rw [fg_observe, fg_fs_of_no _ _ _ _ _ _ (by rw [(queueGeometry_low f mem).1]; decide)]
  · rw [observe_queues]; rfl
  · rw [observe_mem]; rfl

end

/-- Settles O51: EN tells which clause of the write applies; the checks, the reservations and the geometry tell the case. -/
theorem queuesAreEnabledWherePlacementAllows : Obligations.QueuesAreEnabledWherePlacementAllows := by
  unfold Obligations.QueuesAreEnabledWherePlacementAllows
  intro n value s here
  exact ⟨fun off => ⟨queueEnable_enables value here off, queueEnable_refuses value here off⟩,
    fun on => ⟨queueDisable_waits value here on, queueDisable_empties value here on, queueEnable_keepsGeometry value here on⟩⟩

end Sys2Proof.Machine
end

section
/-!
SUPPORT. The fetch of a command (05, R130, R132, R149): the words that stand in a ring slot, what an error or poison met makes of them, and what a
fetch leaves alone.
-/

namespace Sys2Proof.Machine

/-! ### Words of a ring slot -/

theorem length_readAux (d : Nat → Byte) (n : Nat) (m : SMap Byte) (a : Nat) : (readAux d n m a).length = n := by
  induction n generalizing m a with
  | zero => rfl
  | succ n ih =>
    cases m with
    | nil => simp [readAux, ih]
    | cons p m => unfold readAux; split <;> simp [ih]

@[simp] theorem length_memRead (s : State) (a n : Nat) : (memRead s a n).length = n := length_readAux _ _ _ _

/-- j groups of k bytes make j chunks. -/
theorem length_chunksAux {α : Type} {k j f : Nat} (pos : 0 < k) (xs : List α) (len : xs.length = k * j) (enough : j ≤ f) :
    (chunksAux k f xs).length = j := by
  induction j generalizing f xs with
  | zero => cases f <;> simp_all [chunksAux]
  | succ j ih =>
    obtain ⟨f, rfl⟩ : ∃ g, f = g + 1 := ⟨f - 1, by omega⟩
    rw [Nat.mul_succ] at len
    have some : xs ≠ [] := fun none => by rw [none, List.length_nil] at len; omega
    simp [chunksAux, some, ih (xs.drop k) (by rw [List.length_drop]; omega) (by omega : j ≤ f)]

theorem length_wordsAt (s : State) (a n : Nat) : (wordsAt s a n).length = n := by
  rw [wordsAt, List.length_map, chunks, length_memRead]
  exact length_chunksAux (by decide) _ (length_memRead s a (8 * n)) (by omega)

theorem list_of_length_four {α : Type} (xs : List α) (d : α) (len : xs.length = 4) : [nth xs 0 d, nth xs 1 d, nth xs 2 d, nth xs 3 d] = xs := by
  obtain ⟨x, y, z, w, rfl⟩ := List.length_eq_four.mp len
  rfl

theorem ringCmd_words (s : State) (m k : Nat) :
    [(ringCmd s m k).w0, (ringCmd s m k).w1, (ringCmd s m k).w2, (ringCmd s m k).w3] = wordsAt s (ringKey s m k) 4 :=
  list_of_length_four _ _ (length_wordsAt s _ 4)

theorem translateV2_words (c : Cmd) : ∃ w0 w1 w2 w3, (translateV2 c).1 = { c with w0 := w0, w1 := w1, w2 := w2, w3 := w3 } := by
  unfold translateV2
  dsimp only
  split
  · exact ⟨_, _, _, _, rfl⟩
  · exact ⟨_, c.w1, c.w2, c.w3, rfl⟩

/-! ### Poison and errors met -/

/-- No poisoned unit overlaps a run: a read of it does not fail. -/
theorem poisonDetail_of_not_poisoned {s : State} {a n : Nat} (clean : poisoned s a n = false) : poisonDetail s a n = none := by
  unfold poisonDetail firstPoison
  rw [List.find?_eq_none.mpr]
  · rfl
  intro p mem listed
  have within := (mem_rangeFrom _ _ _).mp mem
  unfold ceilDiv at within
  rw [poisoned, List.any_eq_false] at clean
  refine clean p (List.contains_iff_mem.mp listed) ?_
  simp only [Bool.and_eq_true, decide_eq_true_eq]
  omega

theorem meetErr_nil (s : State) (err : MemErr) : meetErr s err [] = (s, none) := by
  unfold meetErr
  rw [if_pos]
  cases h : errAddr err <;> rfl

theorem meetErr_none (s : State) (runs : List (Nat × Nat)) : meetErr s .none runs = (s, none) := if_pos rfl

/-! ### A command fetched -/

/-- The command that the words of a ring slot give, translated where they are of version 2 (05, R149). -/
def slotCmd (s : State) (m k : Nat) : Cmd := if fg s WARD_SCFG_VERSION m = 2 then (translateV2 (ringCmd s m k)).1 else ringCmd s m k

theorem slotCmd_words (s : State) (m k : Nat) : ∃ w0 w1 w2 w3, slotCmd s m k = { ringCmd s m k with w0 := w0, w1 := w1, w2 := w2, w3 := w3 } := by
  unfold slotCmd
  split
  · exact translateV2_words _
  · exact ⟨_, _, _, _, rfl⟩

section
variable {s : State} {m k : Nat} {err : MemErr}

theorem fetchCmd_of_poisoned {d : Nat} (bad : poisonDetail s (ringKey s m k) 32 = some d) :
    fetchCmd s m k err = (s, { num := k, fault := some (0x12, d) }) := by
  unfold fetchCmd
  simp only [bad]

theorem fetchCmd_of_lost {d : Nat} (clean : poisonDetail s (ringKey s m k) 32 = none) (lost : (meetErr s err [(ringKey s m k, 32)]).2 = some d) :
    fetchCmd s m k err = ((meetErr s err [(ringKey s m k, 32)]).1, { num := k, fault := some (0x12, d) }) := by
  have met : meetErr s err [(ringKey s m k, 32)] = ((meetErr s err [(ringKey s m k, 32)]).1, some d) := Prod.ext rfl lost
  unfold fetchCmd
  dsimp only
  rw [clean, met]

/-- Words that could be read are held with their descriptor, their kernel header and the fault of their checks. -/
theorem fetchCmd_of_read (clean : poisonDetail s (ringKey s m k) 32 = none) (met : (meetErr s err [(ringKey s m k, 32)]).2 = none) :
    ∃ t desc ext fault, fetchCmd s m k err = (t, { slotCmd s m k with desc := desc, ext := ext, fault := fault }) ∧ MetKept s t ∧
      (err = .none → t = s) ∧
      (fg s WARD_SCFG_VERSION m ≠ 2 → opcodes.contains (slotCmd s m k).opcode = false → fault = some (0x01, (slotCmd s m k).opcode)) := by
  have ring : meetErr s err [(ringKey s m k, 32)] = ((meetErr s err [(ringKey s m k, 32)]).1, none) := Prod.ext rfl met
  have kept := metKept_meetErr s err [(ringKey s m k, 32)]
  have quiet : err = .none → (meetErr s err [(ringKey s m k, 32)]).1 = s := by rintro rfl; rw [meetErr_none]
  generalize (meetErr s err [(ringKey s m k, 32)]).1 = s1 at ring kept quiet
  obtain ⟨c1, bad, slot⟩ : ∃ c1 bad, (if fg s WARD_SCFG_VERSION m = 2 then translateV2 (ringCmd s m k) else (ringCmd s m k, none)) = (c1, bad) :=
    ⟨_, _, rfl⟩
  have own : slotCmd s m k = c1 := by
    have first := congrArg Prod.fst slot
    rw [apply_ite Prod.fst] at first
    exact first
  have v3 : fg s WARD_SCFG_VERSION m ≠ 2 → bad = none := fun other => by
    rw [if_neg other] at slot
    exact (congrArg Prod.snd slot).symm
  have noRuns : opcodes.contains c1.opcode = false → loadRuns (m / 8) c1 (isSeqOp c1.opcode || !opcodes.contains c1.opcode) = [] := fun unknown => by
    have other : c1.opcode ≠ 0x10 := fun vop => by rw [vop] at unknown; exact absurd unknown (by decide)
    rw [unknown, loadRuns, if_neg other]
    simp
  unfold fetchCmd
  dsimp only
  rw [clean, ring]
  dsimp only
  rw [slot, own]
  generalize loadRuns (m / 8) c1 (isSeqOp c1.opcode || !opcodes.contains c1.opcode) = runs at noRuns
  have later := metKept_meetErr s1 err runs
  dsimp only
  split
  case h_1 => exact ⟨_, _, _, _, rfl, kept, quiet, fun other _ => absurd (v3 other) (by simp)⟩
  case h_2 bad' found met' x poisoned =>
    exact ⟨_, _, _, _, rfl, kept, quiet, fun _ unknown => by rw [noRuns unknown] at poisoned; cases poisoned⟩
  case h_3 bad' found met' s2 x poisoned lost =>
    rw [lost] at later
    refine ⟨_, _, _, _, rfl, kept.trans later, ?_, fun _ unknown => ?_⟩
    · rintro rfl
      rw [meetErr_none] at lost
      cases lost
    · rw [noRuns unknown, meetErr_nil] at lost
      cases lost
  case h_4 bad' found met' s2 poisoned read =>
    rw [read] at later
    refine ⟨_, _, _, _, rfl, kept.trans later, ?_, fun _ unknown => if_pos ?_⟩
    · rintro rfl
      rw [meetErr_none] at read
      cases read
      exact quiet rfl
    · exact (congrArg (!·) unknown).trans rfl

end

end Sys2Proof.Machine
end

section
/-!
PROOFS. The statement about loading (05, R130, R132, R135): what COMMAND_LOAD leaves in its stream and in its counts, and the obligation from it.
-/

namespace Sys2Proof.Machine

theorem fieldOf_whole (w : Word) : fieldOf w 31 0 = w.toNat := by
  have := w.isLt
  unfold fieldOf bits
  omega

theorem toNat_rd_step (s : State) (m : Nat) : (rd s WARD_SSTEP m).toNat = fg s WARD_SSTEP_STEP m := (fieldOf_whole _).symm

/-! ### The fetched command appended and counted -/

/-- Stream m of s with one command more, in a state that its fetch has left. -/
def cmdAppended (s t : State) (m : Nat) (c : Cmd) : State := setStream t m { stream s m with cmds := (stream s m).cmds ++ [c] }

/-- A command that passed its checks counted in LOADED, and in STEP where it advances the step. -/
def cmdCounted (s : State) (m : Nat) (c : Cmd) : State :=
  if c.stepAdv then fs (fs s WARD_SFETCH_LOADED m (c.num + 1)) WARD_SSTEP_STEP m (c.step + 1) else fs s WARD_SFETCH_LOADED m (c.num + 1)

theorem cmdCounted_frame (s : State) (m : Nat) (c : Cmd) : ∃ regs, cmdCounted s m c = { s with regs := regs } := by
  unfold cmdCounted
  split <;> exact ⟨_, rfl⟩

theorem cmdCounted_regsKept (s : State) (m : Nat) (c : Cmd) : RegsKept s (cmdCounted s m c) [(WARD_SFETCH, m), (WARD_SSTEP, m)] := by
  have loaded := (RegsKept.of_regs (s := s) [(WARD_SFETCH, m), (WARD_SSTEP, m)] rfl).fs (f := WARD_SFETCH_LOADED)
    (i := m) (c.num + 1) (by simp [WARD_SFETCH_LOADED])
  unfold cmdCounted
  split
  · exact loaded.fs (f := WARD_SSTEP_STEP) (i := m) _ (by simp [WARD_SSTEP_STEP])
  · exact loaded

theorem fg_cmdCounted_loaded (s : State) (m : Nat) (c : Cmd) : fg (cmdCounted s m c) WARD_SFETCH_LOADED m = (c.num + 1) % 2 ^ 32 := by
  have counted : fg (fs s WARD_SFETCH_LOADED m (c.num + 1)) WARD_SFETCH_LOADED m = (c.num + 1) % 2 ^ 32 := fg_fs_same _ _ _ _ (by decide) (by decide)
  unfold cmdCounted
  split
  · rw [fg_fs_of_no _ _ _ _ _ _ (by decide), counted]
  · exact counted

theorem rd_cmdCounted_step (s : State) (m : Nat) (c : Cmd) :
    (rd (cmdCounted s m c) WARD_SSTEP m).toNat = if c.stepAdv then (c.step + 1) % 2 ^ 32 else (rd s WARD_SSTEP m).toNat := by
  unfold cmdCounted
  split
  · rw [toNat_rd_step]
    exact fg_fs_same _ _ _ _ (by decide) (by decide)
  · rw [rd_fs_of_no _ _ _ _ _ _ (by decide)]

section
variable {s : State} {m : Nat} {err : MemErr}

theorem loadNext_of_ready (enabled : (stream s m).st = .enabled) (active : wardActive s (m / 8) = true)
    (more : (stream s m).avail ≠ fg s WARD_SFETCH_LOADED m) (sound : ∀ c ∈ (stream s m).cmds, c.fault = none) {t : State} {c : Cmd}
    (fetched : fetchCmd s m (fg s WARD_SFETCH_LOADED m) err = (t, c)) (num : c.num = fg s WARD_SFETCH_LOADED m) :
    loadNext s m err = if c.fault.isSome then cmdAppended s t m c else cmdCounted (cmdAppended s t m c) m c := by
  have ready : ¬((stream s m).st ≠ .enabled ∨ (!wardActive s (m / 8)) = true ∨ (stream s m).avail = fg s WARD_SFETCH_LOADED m ∨
      (stream s m).cmds.any (fun c => c.fault.isSome) = true) := by
    simp only [enabled, active, more, List.any_eq_true, not_or]
    refine ⟨by simp, by simp, by simp, ?_⟩
    rintro ⟨d, mem, bad⟩
    simp [sound d mem] at bad
  unfold loadNext
  dsimp only
  rw [if_neg ready, fetched, ← num]
  rfl

theorem tag_unread (k : Nat) (fault : Option (Nat × Nat)) : ({ num := k, fault := fault } : Cmd).tag = 0 := by
  simp [Cmd.tag, bits]

/-- What a fetch and the command that it gives hold of the state before it. -/
structure Fetched (s : State) (m : Nat) (err : MemErr) (t : State) (c : Cmd) : Prop where
  num : c.num = fg s WARD_SFETCH_LOADED m
  phase : c.phase = .loaded
  step : c.fault = none → c.step = (rd s WARD_SSTEP m).toNat
  kept : MetKept s t
  quiet : err = .none → t = s

theorem fetched_fault (k : Nat) (fault : Nat × Nat) {t : State} (num : k = fg s WARD_SFETCH_LOADED m) (kept : MetKept s t)
    (quiet : err = .none → t = s) : Fetched s m err t { num := k, fault := some fault } :=
  ⟨num, rfl, fun none => (by cases none), kept, quiet⟩

/-- What COMMAND_LOAD leaves in its stream and elsewhere, for the command that its fetch gave. -/
theorem commandLoad_appends (enabled : (stream s m).st = .enabled) (active : wardActive s (m / 8) = true)
    (more : (stream s m).avail ≠ fg s WARD_SFETCH_LOADED m) (sound : ∀ c ∈ (stream s m).cmds, c.fault = none) {u : State} {c : Cmd}
    (fetch : fetchCmd s m (fg s WARD_SFETCH_LOADED m) err = (u, c)) (fetched : Fetched s m err u c) :
    Gives (.commandLoad m err) s fun t => (stream t m).cmds = (stream s m).cmds ++ [c] ∧
      (c.fault = none → fg t WARD_SFETCH_LOADED m = (c.num + 1) % 2 ^ 32 ∧
        (rd t WARD_SSTEP m).toNat = (if c.stepAdv then (c.step + 1) % 2 ^ 32 else (rd s WARD_SSTEP m).toNat)) ∧
      (c.fault ≠ none → rd t WARD_SFETCH m = rd s WARD_SFETCH m ∧ rd t WARD_SSTEP m = rd s WARD_SSTEP m) ∧
      (stream t m).st = .enabled ∧ (stream t m).avail = (stream s m).avail ∧
      (err = .none → RegsKept s t (if c.fault = none then [(WARD_SFETCH, m), (WARD_SSTEP, m)] else [])) ∧ t.mem = s.mem ∧ t.queues = s.queues ∧
      (∀ k, k ≠ m → (stream t k).cmds = (stream s k).cmds ∧ (stream t k).st = (stream s k).st) := by
  obtain ⟨num, -, step, kept, quiet⟩ := fetched
  have row : exec (.commandLoad m err) s = .next (observe (loadNext s m err)) := rfl
  rw [loadNext_of_ready enabled active more sound fetch num] at row
  have own : stream (cmdAppended s u m c) m = { stream s m with cmds := (stream s m).cmds ++ [c] } := stream_setStream_same _ _ _
  have other : ∀ k, k ≠ m → stream (cmdAppended s u m c) k = stream s k := fun k ne => (stream_setStream_other u _ ne).trans (kept.stream k)
  have word : ∀ r i, r.no ∉ errRegs.map Reg.no → rd (cmdAppended s u m c) r i = rd s r i := kept.rd
  by_cases good : c.fault = none
  · obtain ⟨regs, frame⟩ := cmdCounted_frame (cmdAppended s u m c) m c
    have streams : ∀ k, stream (cmdCounted (cmdAppended s u m c) m c) k = stream (cmdAppended s u m c) k := fun k => by rw [frame]; rfl
    rw [if_neg (by rw [good]; decide)] at row
    refine gives_next row ⟨?_, fun _ => ⟨?_, ?_⟩, fun bad => absurd good bad, ?_, ?_, fun none => ?_, ?_, ?_, fun k ne => ?_⟩
    · rw [stream_observe_cmds, streams, own]
    · rw [fg_observe, fg_cmdCounted_loaded]
    · rw [rd_observe, rd_cmdCounted_step, word _ _ (by decide)]
    · rw [stream_observe_st, streams, own]; exact enabled
    · rw [stream_observe_avail, streams, own]
    · rw [if_pos good]
      obtain rfl := quiet none
      exact (cmdCounted_regsKept (cmdAppended u u m c) m c).observe
    · rw [observe_mem, frame]; exact kept.mem
    · rw [observe_queues, frame]; exact kept.queues
    · rw [stream_observe_cmds, stream_observe_st, streams, other k ne]; exact ⟨rfl, rfl⟩
  · rw [if_pos (Option.isSome_iff_ne_none.mpr good)] at row
    refine gives_next row ⟨?_, fun none => absurd none good, fun _ => ⟨?_, ?_⟩, ?_, ?_, fun none => ?_, ?_, ?_, fun k ne => ?_⟩
    · rw [stream_observe_cmds, own]
    · rw [rd_observe, word _ _ (by decide)]
    · rw [rd_observe, word _ _ (by decide)]
    · rw [stream_observe_st, own]; exact enabled
    · rw [stream_observe_avail, own]
    · rw [if_neg good]
      obtain rfl := quiet none
      exact RegsKept.observe (.of_regs _ rfl)
    · rw [observe_mem]; exact kept.mem
    · rw [observe_queues]; exact kept.queues
    · rw [stream_observe_cmds, stream_observe_st, other k ne]; exact ⟨rfl, rfl⟩

end

/-- Settles O33: poison, an error met and words that could be read are the three ends of a fetch, and each gives one command to append. -/
theorem commandsLoadInOrder : Obligations.CommandsLoadInOrder := by
  unfold Obligations.CommandsLoadInOrder
  intro m err s enabled active more sound a met
  have kept : MetKept s met.1 := metKept_meetErr s err _
  have quiet : err = .none → met.1 = s := by rintro rfl; exact congrArg Prod.fst (meetErr_none s _)
  cases poison : poisonDetail s a 32 with
  | some d =>
    refine (commandLoad_appends enabled active more sound (fetchCmd_of_poisoned poison) (fetched_fault _ _ rfl (.refl s) fun _ => rfl)).imp
      fun t ⟨cmds, rest⟩ => ⟨_, cmds, rfl, rfl, ?_, fun clean => ?_, fun clean => ?_, rest⟩
    · rintro _ ⟨⟩
      exact ⟨rfl, tag_unread _ _⟩
    all_goals rw [poisonDetail_of_not_poisoned clean] at poison; cases poison
  | none =>
    cases lost : met.2 with
    | some d =>
      refine (commandLoad_appends enabled active more sound (fetchCmd_of_lost poison lost) (fetched_fault _ _ rfl kept quiet)).imp
        fun t ⟨cmds, rest⟩ => ⟨_, cmds, rfl, rfl, fun _ none => (by cases none), ?_, fun _ none => (by cases none), rest⟩
      rintro - _ ⟨⟩
      exact ⟨rfl, tag_unread _ _⟩
    | none =>
      obtain ⟨u, desc, ext, fault, fetch, kept, quiet, illegal⟩ := fetchCmd_of_read poison lost
      obtain ⟨w0, w1, w2, w3, words⟩ := slotCmd_words s m (fg s WARD_SFETCH_LOADED m)
      refine (commandLoad_appends enabled active more sound fetch ⟨?_, ?_, fun _ => ?_, kept, quiet⟩).imp
        fun t ⟨cmds, rest⟩ => ⟨_, cmds, ?_, ?_, fun _ none => (by cases none), fun _ _ none => (by cases none), fun _ _ v3 => ⟨?_, ?_, illegal v3⟩, rest⟩
      any_goals rw [words]; rfl
      · rw [slotCmd, if_neg v3]
        exact ringCmd_words s m _

end Sys2Proof.Machine
end

section
/-!
SUPPORT. What waking a ward leaves alone (17, R420 to R423): the two states that it writes, and the registers of a stream and of a flag.
-/

namespace Sys2Proof.Machine

theorem countAborted_frame (s : State) (p client k : Nat) : ∃ regs, countAborted s p client k = { s with regs := regs } := by
  unfold countAborted
  split <;> exact ⟨_, rfl⟩

theorem wakeWard_frame (s : State) (p client : Nat) : ∃ regs pwards, wakeWard s p client = { s with regs := regs, pwards := pwards } := by
  have put : ∀ x, ∃ regs pwards, setPward s p x = { s with regs := regs, pwards := pwards } := fun x => ⟨_, _, rfl⟩
  have counted : ∀ x k, ∃ regs pwards, countAborted (setPward s p x) p client k = { s with regs := regs, pwards := pwards } := fun x k => by
    obtain ⟨regs, frame⟩ := countAborted_frame (setPward s p x) p client k
    exact ⟨regs, _, frame⟩
  have same : ∃ regs pwards, s = { s with regs := regs, pwards := pwards } := ⟨_, _, rfl⟩
  unfold wakeWard
  dsimp only
  split
  · split
    · split
      · exact same
      · exact counted _ _
    · exact counted _ _
  · split
    · exact same
    · split
      · exact same
      · exact put _
      · exact put _
      · split
        · exact same
        · exact put _

theorem wakeLogical_frame (s : State) (w client : Nat) : ∃ regs pwards, wakeLogical s w client = { s with regs := regs, pwards := pwards } := by
  unfold wakeLogical
  split
  · exact wakeWard_frame s _ client
  · exact ⟨_, _, rfl⟩

theorem workKept_wakeLogical (s : State) (w client : Nat) : WorkKept meRegs s (wakeLogical s w client) := by
  unfold wakeLogical
  split
  · exact workKept_wakeWard s _ client
  · exact .refl _ s

@[simp] theorem wakeLogical_flash (s : State) (w client : Nat) : (wakeLogical s w client).flash = s.flash := by
  obtain ⟨_, _, h⟩ := wakeLogical_frame s w client; rw [h]

/-! ### A flag's count (06, R161) -/

theorem fg_signalFlag_same (s : State) (n inc : Nat) : flagCount (signalFlag s n inc) n = (flagCount s n + inc) % 2 ^ 16 :=
  fg_fs_same _ _ _ _ (by decide) (by decide)

theorem flagCount_signalFlag_other (s : State) {n k : Nat} (inc : Nat) (apart : WARD_FLAG.key k ≠ WARD_FLAG.key n) :
    flagCount (signalFlag s n inc) k = flagCount s k := by
  unfold signalFlag flagCount fg fs
  exact congrArg (fieldOf · 15 0) (rd_wr_other s WARD_FLAG WARD_FLAG n k _ apart)

end Sys2Proof.Machine
end

section
/-!
PROOFS. The statement about streams (05, R129 to R131; 06, R162, R169): a write of WARD_SCFG by its cases, a doorbell by its checks, a flag signal,
and the obligation from them.
-/

namespace Sys2Proof.Machine

/-- Memory, queues and flash stand. -/
abbrev StoresKept (s t : State) : Prop := t.mem = s.mem ∧ t.queues = s.queues ∧ t.flash = s.flash

/-- Every stream but m has its state, its commands and its AVAIL. -/
abbrev OthersKept (s t : State) (m : Nat) : Prop :=
  ∀ k, k ≠ m → (stream t k).st = (stream s k).st ∧ (stream t k).cmds = (stream s k).cmds ∧ (stream t k).avail = (stream s k).avail

theorem StoresKept.observe {s t : State} (h : StoresKept s t) : StoresKept s (observe t) := by simpa [StoresKept] using h

theorem OthersKept.observe {s t : State} {m : Nat} (h : OthersKept s t m) : OthersKept s (observe t) m := fun k ne => by simpa using h k ne

theorem OthersKept.of_streams {s t : State} (m : Nat) (h : t.streams = s.streams) : OthersKept s t m := fun k _ => by simp [stream_of_streams h k]

theorem OthersKept.of_setStream {s t : State} {m : Nat} {x : Stream} (h : t.streams = (setStream s m x).streams) : OthersKept s t m := fun k ne => by
  rw [stream_of_streams h k, stream_setStream_other s x ne]
  exact ⟨rfl, rfl, rfl⟩

/-! ### A stream enabled (05, R129) -/

/-- The word that a write leaves in WARD_SCFG of a disabled stream before its checks. -/
def streamSet (s : State) (m : Nat) (value : Word) : State := writeFields s WARD_SCFG m (withField value 31 31 0)

/-- What enabling a stream asks of it: a job assigned, a version that the sequencer reads and a ring that passes its checks. -/
abbrev MayEnable (s u : State) (m : Nat) : Prop :=
  hasJob s = true ∧ (fg u WARD_SCFG_VERSION m = 2 ∨ fg u WARD_SCFG_VERSION m = 3) ∧ ringOk u m = true

theorem fg_writeScfg_en (s : State) (m : Nat) (v : Word) : fg (writeFields s WARD_SCFG m v) WARD_SCFG_EN m = fieldIn v WARD_SCFG_EN :=
  fg_writeFields s WARD_SCFG_EN m v .rw 0 (by decide) (by decide)

theorem fg_streamSet_en (s : State) (m : Nat) (value : Word) : fg (streamSet s m value) WARD_SCFG_EN m = 0 := by
  rw [streamSet, fg_writeScfg_en, fieldIn_top value 0 WARD_SCFG_EN rfl rfl]

theorem streamSet_regsKept (s : State) (m : Nat) (value : Word) : RegsKept s (streamSet s m value) [(WARD_SCFG, m)] := wr_regsKept s WARD_SCFG m _

theorem writeScfg_of_disabled {s : State} {m : Nat} (value : Word) (off : fg s WARD_SCFG_EN m = 0) :
    writeScfg s m (withField value 31 31 1) false = if MayEnable s (streamSet s m value) m then enableStream (streamSet s m value) m
      else fs (streamSet s m value) WARD_SSTAT_CFG_REFUSED m 1 := by
  have en : (fieldIn (withField value 31 31 1) WARD_SCFG_EN == 1) = true := by rw [fieldIn_top value 1 _ rfl rfl]; rfl
  have folded : writeFields s WARD_SCFG m (withField value 31 31 0) = streamSet s m value := rfl
  unfold writeScfg
  rw [if_neg (by rw [off]; decide), en, withField_top_top, folded]
  dsimp only
  rw [if_neg (by decide), ← ite_not]
  refine if_congr ?_ rfl rfl
  unfold MayEnable
  generalize hasJob s = job, ringOk (streamSet s m value) m = ring, fg (streamSet s m value) WARD_SCFG_VERSION m = version
  cases job <;> cases ring <;> simp [or_iff_not_imp_left]

/-- The registers that enabling a stream clears. -/
def enableCleared : List Reg :=
  [WARD_SFETCH, WARD_SDONE, WARD_SFAULT, WARD_SFAULT_DETAIL, WARD_SFAULT_INDEX, WARD_SFAULT_FRAME, WARD_SBLOCK, WARD_SBLOCK_TAG]

def clearRegs (s : State) (m : Nat) (rs : List Reg) : State := rs.foldl (fun t r => wr t r m 0) s

theorem clearRegs_frame (s : State) (m : Nat) (rs : List Reg) : ∃ regs, clearRegs s m rs = { s with regs := regs } :=
  List.foldlRecOn (motive := fun t : State => ∃ regs, t = { s with regs := regs }) rs _ ⟨_, rfl⟩ (fun _ ⟨_, frame⟩ _ _ => frame ▸ ⟨_, rfl⟩)

theorem rd_clearRegs_of_no (s : State) (m : Nat) (rs : List Reg) (r : Reg) (i : Nat) (out : r.no ∉ rs.map Reg.no) :
    rd (clearRegs s m rs) r i = rd s r i :=
  List.foldlRecOn (motive := fun t : State => rd t r i = rd s r i) rs _ rfl fun t same q mem => by
    rw [rd_wr_of_no t q r m i 0 (fun eq => out (eq ▸ List.mem_map_of_mem mem)), same]

theorem rd_clearRegs (s : State) (m : Nat) (rs : List Reg) (r : Reg) (mem : r ∈ rs) : rd (clearRegs s m rs) r m = 0 := by
  obtain ⟨before, after, rfl⟩ := List.append_of_mem mem
  rw [clearRegs, List.foldl_append, List.foldl_cons]
  exact List.foldlRecOn (motive := fun t : State => rd t r m = 0) after _ (rd_wr_same _ _ _ _) fun t zero q _ => rd_wr_zero t r q m m zero

theorem clearRegs_regsKept (s : State) (m : Nat) (rs : List Reg) : RegsKept s (clearRegs s m rs) (rs.map fun r => (r, m)) :=
  List.foldlRecOn (motive := fun t : State => RegsKept s t (rs.map fun r => (r, m))) rs _ (.of_regs _ rfl) fun _ kept _ mem =>
    kept.wr 0 (List.mem_map_of_mem mem)

/-- A stream afresh, EN set, before its registers are cleared. -/
def streamFresh (s : State) (m : Nat) : State := fs (setStream s m { st := .enabled, lateAck := (stream s m).lateAck }) WARD_SCFG_EN m 1

theorem enableStream_eq (s : State) (m : Nat) : enableStream s m = clearRegs (streamFresh s m) m enableCleared := rfl

theorem stream_enableStream (s : State) (m : Nat) : stream (enableStream s m) m = { st := .enabled, lateAck := (stream s m).lateAck } := by
  obtain ⟨regs, frame⟩ := clearRegs_frame (streamFresh s m) m enableCleared
  rw [enableStream_eq, frame]
  exact stream_setStream_same _ _ _

theorem fg_enableStream_en (s : State) (m : Nat) : fg (enableStream s m) WARD_SCFG_EN m = 1 := by
  have set : fg (streamFresh s m) WARD_SCFG_EN m = 1 := fg_fs_flag _ _ _ (by decide)
  rw [enableStream_eq, ← set]
  exact congrArg (fieldOf · 31 31) (rd_clearRegs_of_no _ _ _ WARD_SCFG m (by decide))

theorem enableStream_regsKept (s : State) (m : Nat) :
    RegsKept s (enableStream s m) ((WARD_SCFG, m) :: enableCleared.map fun r => (r, m)) := fun k out => by
  rw [enableStream_eq, clearRegs_regsKept _ m enableCleared k (fun x mem => out x (List.mem_cons_of_mem _ mem))]
  exact ((RegsKept.of_regs (s := s) _ rfl).fs (f := WARD_SCFG_EN) (i := m) 1 (List.mem_cons_self ..)) k out

/-! ### The write of EN 1 -/

section
variable {s : State} {m : Nat} (value : Word)

theorem exec_streamEnable (here : m / 8 < wardCount s) :
    exec (.streamEnable m value) s = .next (observe (writeScfg s m (withField value 31 31 1) false)) := by
  show execStreamEnable m value s = _
  rw [execStreamEnable, if_pos here]

theorem exec_streamDisable (here : m / 8 < wardCount s) :
    exec (.streamDisable m value) s = .next (observe (writeScfg s m (withField value 31 31 0) false)) := by
  show execStreamDisable m value s = _
  rw [execStreamDisable, if_pos here]

variable (here : m / 8 < wardCount s)
include here

theorem streamEnable_enables (off : fg s WARD_SCFG_EN m = 0) (good : MayEnable s (streamSet s m value) m) : Gives (.streamEnable m value) s fun t =>
    fg t WARD_SCFG_EN m = 1 ∧ (stream t m).st = .enabled ∧ (stream t m).avail = 0 ∧ (stream t m).cmds = [] ∧ fg t WARD_SFETCH_LOADED m = 0 ∧
    fg t WARD_SDONE_RETIRED m = 0 ∧ fg t WARD_SFAULT_CODE m = 0 ∧ (rd t WARD_SFAULT_DETAIL m).toNat = 0 ∧ StoresKept s t ∧ OthersKept s t m ∧
    RegsKept s t ((WARD_SCFG, m) :: enableCleared.map fun r => (r, m)) := by
  have row := exec_streamEnable value here
  rw [writeScfg_of_disabled value off, if_pos good] at row
  obtain ⟨regs, frame⟩ := clearRegs_frame (streamFresh (streamSet s m value) m) m enableCleared
  have zero : ∀ r ∈ enableCleared, rd (observe (enableStream (streamSet s m value) m)) r m = 0 := fun r mem => by
    rw [rd_observe, enableStream_eq, rd_clearRegs _ _ _ _ mem]
  refine gives_next row ⟨?_, ?_, ?_, ?_, fg_of_rd_zero _ _ _ (zero _ (by decide)), fg_of_rd_zero _ _ _ (zero _ (by decide)),
    fg_of_rd_zero _ _ _ (zero _ (by decide)), ?_, StoresKept.observe ?_, OthersKept.observe ?_, RegsKept.observe fun k out => ?_⟩
  · rw [fg_observe, fg_enableStream_en]
  · rw [stream_observe_st, stream_enableStream]
  · rw [stream_observe_avail, stream_enableStream]
  · rw [stream_observe_cmds, stream_enableStream]
  · rw [zero _ (by decide)]; rfl
  · rw [enableStream_eq, frame]; exact ⟨rfl, rfl, rfl⟩
  · rw [enableStream_eq, frame]; exact .of_setStream rfl
  · exact (enableStream_regsKept _ m k out).trans (streamSet_regsKept s m value k (fun x mem => out x (by simp_all)))

theorem streamEnable_refuses (off : fg s WARD_SCFG_EN m = 0) (bad : ¬MayEnable s (streamSet s m value) m) : Gives (.streamEnable m value) s fun t =>
    fg t WARD_SCFG_EN m = 0 ∧ fg t WARD_SSTAT_CFG_REFUSED m = 1 ∧ (stream t m).st = (stream s m).st ∧ StoresKept s t ∧ OthersKept s t m ∧
    RegsKept s t [(WARD_SCFG, m), (WARD_SSTAT, m)] := by
  have row := exec_streamEnable value here
  rw [writeScfg_of_disabled value off, if_neg bad] at row
  refine gives_next row ⟨?_, ?_, stream_observe_st _ m, StoresKept.observe ⟨rfl, rfl, rfl⟩, OthersKept.observe (.of_streams m rfl), RegsKept.observe ?_⟩
  · rw [fg_observe, fg_fs_of_no _ _ _ _ _ _ (by decide), fg_streamSet_en]
  · rw [fg_observe, fg_fs_flag _ _ _ (by decide)]
  · exact RegsKept.fs (f := WARD_SSTAT_CFG_REFUSED) (i := m)
      (fun k out => streamSet_regsKept s m value k (fun x mem => out x (by simp_all))) 1 (by simp [WARD_SSTAT_CFG_REFUSED])

end

/-! ### The write of EN 0 (05, R129) -/

/-- A refused change of an enabled stream noted. -/
def streamNoted (s : State) (m : Nat) (value : Word) : State := if changes s m value scfgGuarded then fs s WARD_SSTAT_CFG_REFUSED m 1 else s

theorem streamNoted_frame (s : State) (m : Nat) (value : Word) : ∃ regs, streamNoted s m value = { s with regs := regs } := by
  unfold streamNoted
  split <;> exact ⟨_, rfl⟩

theorem fg_streamNoted_of_no (s : State) (m : Nat) (value : Word) (f : Fld) (i : Nat) (out : f.reg.no ≠ WARD_SSTAT.no) :
    fg (streamNoted s m value) f i = fg s f i := by
  unfold streamNoted
  split
  · exact fg_fs_of_no _ _ _ _ _ _ out
  · rfl

theorem writeScfg_of_enabled {s : State} {m : Nat} (value : Word) (on : fg s WARD_SCFG_EN m = 1) :
    writeScfg s m (withField value 31 31 0) false = stopStream (streamNoted s m value) m := by
  have en : (fieldIn (withField value 31 31 0) WARD_SCFG_EN == 1) = false := by rw [fieldIn_top value 0 _ rfl rfl]; rfl
  unfold writeScfg
  rw [if_pos on, en, changes_withTop _ _ _ _ _ (by decide)]
  rfl

/-- A stream that a write of EN 0 disables: one that has stopped, or one with nothing to do and no abort asked for. -/
abbrev MayDisable (s : State) (m : Nat) : Prop :=
  (stream s m).st = .faulted ∨ (stream s m).st = .aborted ∨ ((stream s m).st = .enabled ∧ isIdle s m = true ∧ (stream s m).req = [])

theorem stopStream_of_stopped {s : State} {m : Nat} (stopped : MayDisable s m) : stopStream s m = disableStream s m := by
  unfold stopStream
  rcases stopped with st | st | ⟨st, idle, req⟩
  · rw [st]
  · rw [st]
  · simp [st, idle, req]

theorem stopStream_of_working {s : State} {m : Nat}
    (working : ((stream s m).st = .enabled ∧ isIdle s m = false) ∨ (stream s m).st = .aborting ∨ (stream s m).st = .faulting) :
    stopStream s m = requestAbort s m .enClear := by
  unfold stopStream
  rcases working with ⟨st, busy⟩ | st | st
  · simp [st, busy]
  · rw [st]
  · rw [st]

theorem requestAbort_frame (s : State) (m : Nat) (by' : AbortBy) : ∃ abort, requestAbort s m by' =
    setStream s m { stream s m with req := (stream s m).req ++ [by'], abort := abort } := by
  unfold requestAbort
  dsimp only
  split <;> exact ⟨_, rfl⟩

section
variable {s : State} {m : Nat} (value : Word) (here : m / 8 < wardCount s) (on : fg s WARD_SCFG_EN m = 1)
include here on

theorem streamDisable_disables (stopped : MayDisable s m) (same : changes s m value scfgGuarded = false) : Gives (.streamDisable m value) s fun t =>
    (stream t m).st = .disabled ∧ fg t WARD_SCFG_EN m = 0 ∧ StoresKept s t ∧ OthersKept s t m ∧ RegsKept s t [(WARD_SCFG, m)] := by
  have row := exec_streamDisable value here
  rw [writeScfg_of_enabled value on, streamNoted, if_neg (by rw [same]; decide), stopStream_of_stopped stopped] at row
  refine gives_next row ⟨?_, ?_, StoresKept.observe ⟨rfl, rfl, rfl⟩, OthersKept.observe (.of_setStream rfl), RegsKept.observe ?_⟩
  · rw [stream_observe_st]
    exact congrArg Stream.st (stream_setStream_same _ _ _)
  · rw [fg_observe]
    exact fg_fs_same _ _ _ _ (by decide) (by decide)
  · exact (RegsKept.of_regs _ rfl).fs (f := WARD_SCFG_EN) (i := m) 0 (List.mem_cons_self ..)

theorem streamDisable_requestsAbort
    (working : ((stream s m).st = .enabled ∧ isIdle s m = false) ∨ (stream s m).st = .aborting ∨ (stream s m).st = .faulting) :
    Gives (.streamDisable m value) s fun t => (stream t m).req = (stream s m).req ++ [.enClear] ∧ (stream t m).st = (stream s m).st ∧
      fg t WARD_SCFG_EN m = 1 ∧ (stream t m).cmds = (stream s m).cmds ∧ StoresKept s t ∧ OthersKept s t m := by
  obtain ⟨regs, noted⟩ := streamNoted_frame s m value
  have streams : stream (streamNoted s m value) m = stream s m := by rw [noted]; rfl
  have idle : isIdle (streamNoted s m value) m = isIdle s m := by
    unfold isIdle; rw [streams, fg_streamNoted_of_no _ _ _ _ _ (by decide)]
  obtain ⟨abort, frame⟩ := requestAbort_frame (streamNoted s m value) m .enClear
  have row := exec_streamDisable value here
  rw [writeScfg_of_enabled value on, stopStream_of_working (by rw [streams, idle]; exact working), frame, streams] at row
  refine gives_next row ⟨?_, ?_, ?_, ?_, StoresKept.observe ?_, OthersKept.observe ?_⟩
  · rw [stream_observe_req, stream_setStream_same]
  · rw [stream_observe_st, stream_setStream_same]
  · rw [fg_observe, fg_of_regs (setStream_regs _ _ _), fg_streamNoted_of_no _ _ _ _ _ (by decide), on]
  · rw [stream_observe_cmds, stream_setStream_same]
  · rw [noted]; exact ⟨rfl, rfl, rfl⟩
  · rw [noted]; exact .of_setStream rfl

end

/-! ### A doorbell (05, R131) and a flag signal (06, R162) -/

/-- A doorbell that is taken: EN 1, within the ring and not behind AVAIL. -/
abbrev DoorbellTaken (s : State) (m v : Nat) : Prop :=
  fg s WARD_SCFG_EN m = 1 ∧ (v + 2 ^ 32 - fg s WARD_SFETCH_LOADED m) % 2 ^ 32 ≤ ringCommands s m ∧
    (v + 2 ^ 32 - (stream s m).avail) % 2 ^ 32 < 2 ^ 31

/-- A doorbell that makes a command available on a dark ward. -/
abbrev DoorbellLost (s : State) (m v : Nat) : Prop := isDark s (m / 8) = true ∧ v ≠ fg s WARD_SFETCH_LOADED m

/-- The state with AVAIL written. -/
def availSet (s : State) (m v : Nat) : State := setStream s m { stream s m with avail := v }

theorem doorbell_eq (s : State) (m n client : Nat) : doorbell s m (n % 2 ^ 32) client =
    if ¬DoorbellTaken s m (n % 2 ^ 32) then fs s WARD_SSTAT_DB_REFUSED m 1
    else if DoorbellLost s m (n % 2 ^ 32) then loseStream (availSet s m (n % 2 ^ 32)) m (m / 8)
    else wakeIfWork (availSet s m (n % 2 ^ 32)) (m / 8) client := by
  have en : fg s WARD_SCFG_EN m = 0 ↔ ¬fg s WARD_SCFG_EN m = 1 := ⟨fun zero => by rw [zero]; decide, fg_bit_eq_zero rfl⟩
  unfold doorbell
  dsimp only
  rw [Nat.mod_mod]
  refine if_congr ?_ rfl rfl
  rw [en]
  simp only [DoorbellTaken, not_and_or, not_le, not_lt, ge_iff_le, gt_iff_lt]

theorem wakeIfWork_frame (s : State) (w client : Nat) : ∃ regs pwards, wakeIfWork s w client = { s with regs := regs, pwards := pwards } := by
  unfold wakeIfWork
  split
  · exact wakeLogical_frame s w client
  · exact ⟨_, _, rfl⟩

theorem faulted_loseStream {s : State} {m : Nat} (detail : Nat) (enabled : (stream s m).st = .enabled) : Faulted (loseStream s m detail) m 0x14 detail := by
  unfold loseStream
  dsimp only
  rw [enabled]
  refine ⟨?_, ?_, ?_⟩
  · rw [stream_setStream_same]
  · rw [fg_of_regs (setStream_regs _ _ _), fg_writeFault_code _ _ _ _ _ _ (by decide)]
  · have kept : ∀ (u : State) (x : Stream), rd (setStream u m x) WARD_SFAULT_DETAIL m = rd u WARD_SFAULT_DETAIL m := fun _ _ => rfl
    rw [kept, rd_writeFault_detail]
    rfl

section
variable {s s0 : State} {m : Nat} (n : Nat) (before : List HostOp) (left : s = hostOps s0 before)
include left

theorem exec_doorbellWrite (here : m / 8 < wardCount s) :
    exec (.doorbellWrite m n before) s0 = .next (observe (doorbell s m (n % 2 ^ 32) hostClient)) := by
  show execDoorbellWrite m n before s0 = _
  rw [execDoorbellWrite, ← left, if_pos here]

theorem doorbellWrite_takes (here : m / 8 < wardCount s) (taken : DoorbellTaken s m (n % 2 ^ 32)) (known : ¬DoorbellLost s m (n % 2 ^ 32)) :
    Gives (.doorbellWrite m n before) s0 fun t => (stream t m).avail = n % 2 ^ 32 ∧ (stream t m).st = (stream s m).st ∧
      (stream t m).cmds = (stream s m).cmds ∧ StoresKept s t ∧ OthersKept s t m := by
  have row := exec_doorbellWrite n before left here
  rw [doorbell_eq, if_neg (not_not.mpr taken), if_neg known] at row
  obtain ⟨regs, pwards, frame⟩ := wakeIfWork_frame (availSet s m (n % 2 ^ 32)) (m / 8) hostClient
  have own : stream (wakeIfWork (availSet s m (n % 2 ^ 32)) (m / 8) hostClient) m = { stream s m with avail := n % 2 ^ 32 } := by
    rw [frame]; exact stream_setStream_same _ _ _
  refine gives_next row ⟨?_, ?_, ?_, StoresKept.observe ?_, OthersKept.observe ?_⟩
  · rw [stream_observe_avail, own]
  · rw [stream_observe_st, own]
  · rw [stream_observe_cmds, own]
  · rw [frame]; exact ⟨rfl, rfl, rfl⟩
  · rw [frame]; exact .of_setStream rfl

theorem doorbellWrite_faults (here : m / 8 < wardCount s) (taken : DoorbellTaken s m (n % 2 ^ 32)) (lost : DoorbellLost s m (n % 2 ^ 32))
    (enabled : (stream s m).st = .enabled) : Gives (.doorbellWrite m n before) s0 fun t => Faulted t m 0x14 (m / 8) := by
  have row := exec_doorbellWrite n before left here
  rw [doorbell_eq, if_neg (not_not.mpr taken), if_pos lost] at row
  refine gives_next row (Faulted.observe (faulted_loseStream _ ?_))
  rw [availSet, stream_setStream_same]
  exact enabled

theorem doorbellWrite_refuses (here : m / 8 < wardCount s) (refused : ¬DoorbellTaken s m (n % 2 ^ 32)) :
    Gives (.doorbellWrite m n before) s0 fun t =>
      fg t WARD_SSTAT_DB_REFUSED m = 1 ∧ RegsKept s t [(WARD_SSTAT, m)] ∧ (stream t m).avail = (stream s m).avail ∧ StoresKept s t := by
  have row := exec_doorbellWrite n before left here
  rw [doorbell_eq, if_pos refused] at row
  refine gives_next row ⟨?_, (fs_regsKept s WARD_SSTAT_DB_REFUSED m 1).observe, stream_observe_avail _ m, StoresKept.observe ⟨rfl, rfl, rfl⟩⟩
  rw [fg_observe, fg_fs_flag _ _ _ (by decide)]

theorem flagSignalWrite_adds (f : Nat) (here : f / 256 < wardCount s) : Gives (.flagSignalWrite f n before) s0 fun t =>
    flagCount t f = (flagCount s f + n) % 2 ^ 16 ∧ (∀ k, WARD_FLAG.key k ≠ WARD_FLAG.key f → flagCount t k = flagCount s k) ∧ StoresKept s t := by
  have row : exec (.flagSignalWrite f n before) s0 = .next (observe (flagSignal s f n hostClient)) := by
    show execFlagSignalWrite f n before s0 = _
    rw [execFlagSignalWrite, ← left, if_pos here]
  have count : flagCount s f < 2 ^ 16 := fg_lt s WARD_FLAG_COUNT f
  unfold flagSignal at row
  by_cases none : n % 2 ^ 16 = 0
  · rw [if_pos none] at row
    refine gives_next row ⟨?_, fun k _ => flagCount_observe s k, StoresKept.observe ⟨rfl, rfl, rfl⟩⟩
    rw [flagCount_observe]
    omega
  · rw [if_neg none] at row
    have kept := workKept_wakeLogical (signalFlag s f (n % 2 ^ 16)) (f / 256) hostClient
    have counts : ∀ k, flagCount (wakeLogical (signalFlag s f (n % 2 ^ 16)) (f / 256) hostClient) k = flagCount (signalFlag s f (n % 2 ^ 16)) k :=
      fun k => kept.fg WARD_FLAG_COUNT k (by decide)
    refine gives_next row ⟨?_, fun k apart => ?_, StoresKept.observe ⟨kept.mem, kept.queues, wakeLogical_flash _ _ _⟩⟩
    · rw [flagCount_observe, counts, fg_signalFlag_same, Nat.add_mod_mod]
    · rw [flagCount_observe, counts, flagCount_signalFlag_other _ _ apart]

end

/-- Settles O50: EN tells which clause of a write of WARD_SCFG applies; a doorbell goes by its checks; a signal adds to its flag. -/
theorem streamsAreEnabledRungAndStopped : Obligations.StreamsAreEnabledRungAndStopped := by
  unfold Obligations.StreamsAreEnabledRungAndStopped
  intro m n value s here
  refine ⟨fun off => ⟨streamEnable_enables value here off, streamEnable_refuses value here off⟩,
    fun on => ⟨streamDisable_disables value here on, streamDisable_requestsAbort value here on⟩, fun before s0 left => ?_⟩
  exact ⟨doorbellWrite_takes n before left here, doorbellWrite_faults n before left here, doorbellWrite_refuses n before left here,
    flagSignalWrite_adds n before left⟩

end Sys2Proof.Machine
end

section
/-!
SUPPORT. A command that has done its work (05, R134; 06, R161, R176; 10, R252): the slot that it leaves, the commands that retire with it, and
its local signal.
-/

namespace Sys2Proof.Machine

/-! ### The slot left (10, R252) and the completed commands retired (05, R134) -/

/-- The registers of a Tier 2 slot that its users change. -/
def slotRegs : List Reg := [ MOD_T2SLOT_USE, MOD_T2SLOT_CTL]

/-- The registers that a command's completion may change: its slot's, RETIRED and LAST_TAG. -/
def finishRegs : List Reg := slotRegs ++ [WARD_SDONE, WARD_SSTAT]

theorem releaseSlot_frame (s : State) (c : Cmd) (early : Bool) : ∃ regs, releaseSlot s c early = { s with regs := regs } := by
  unfold releaseSlot
  split
  · exact ⟨_, rfl⟩
  · split
    · dsimp only
      split <;> exact ⟨_, rfl⟩
    · exact ⟨_, rfl⟩

theorem rd_releaseSlot (s : State) (c : Cmd) (early : Bool) (r : Reg) (i : Nat) (out : r.no ∉ slotRegs.map Reg.no) :
    rd (releaseSlot s c early) r i = rd s r i := by
  have apart : r.no ≠ MOD_T2SLOT_USE.no ∧ r.no ≠ MOD_T2SLOT_CTL.no := by simpa [slotRegs] using out
  unfold releaseSlot
  split
  · rfl
  · split
    · dsimp only
      split
      · rw [rd_fs_of_no _ _ _ _ _ _ apart.2, rd_fs_of_no _ _ _ _ _ _ apart.1]
      · exact rd_fs_of_no _ _ _ _ _ _ apart.1
    · exact rd_fs_of_no _ _ _ _ _ _ apart.1

/-- The head of stream m retired. -/
def retireOne (s : State) (m : Nat) (c : Cmd) (cs : List Cmd) : State :=
  setStream (fs (fs s WARD_SDONE_RETIRED m (fg s WARD_SDONE_RETIRED m + 1)) WARD_SSTAT_LAST_TAG m c.tag) m { stream s m with cmds := cs }

theorem retire_succ (f : Nat) (s : State) (m : Nat) {c : Cmd} {cs : List Cmd} (cmds : (stream s m).cmds = c :: cs) : retire (f + 1) s m =
    if c.phase = .complete ∧ c.num = fg s WARD_SDONE_RETIRED m then retire f (retireOne s m c cs) m else s := by
  rw [retire]
  simp only [cmds]
  rfl

/-- What retiring leaves alone, and the commands that are left: the last ones, in their order. -/
structure Retired (s t : State) (m : Nat) : Prop where
  frame : ∃ regs streams, t = { s with regs := regs, streams := streams }
  word : ∀ r i, r.no ∉ finishRegs.map Reg.no → rd t r i = rd s r i
  st : (stream t m).st = (stream s m).st
  cmds : (stream t m).cmds <:+ (stream s m).cmds

theorem Retired.refl (s : State) (m : Nat) : Retired s s m := ⟨⟨_, _, rfl⟩, fun _ _ _ => rfl, rfl, List.suffix_rfl⟩

theorem Retired.trans {s t u : State} {m : Nat} (h : Retired s t m) (k : Retired t u m) : Retired s u m := by
  obtain ⟨⟨_, _, rfl⟩, word, st, cmds⟩ := h
  obtain ⟨⟨_, _, rfl⟩, word', st', cmds'⟩ := k
  exact ⟨⟨_, _, rfl⟩, fun r i out => (word' r i out).trans (word r i out), st'.trans st, cmds'.trans cmds⟩

theorem retired_retireOne {s : State} {m : Nat} {c : Cmd} {cs : List Cmd} (cmds : (stream s m).cmds = c :: cs) : Retired s (retireOne s m c cs) m := by
  have own : stream (retireOne s m c cs) m = { stream s m with cmds := cs } := stream_setStream_same _ _ _
  refine ⟨⟨_, _, rfl⟩, fun r i out => ?_, by rw [own], ?_⟩
  · have apart : r.no ≠ WARD_SSTAT.no ∧ r.no ≠ WARD_SDONE.no :=
      ⟨fun eq => out (by rw [eq]; decide), fun eq => out (by rw [eq]; decide)⟩
    exact (rd_fs_of_no _ _ _ _ _ _ apart.1).trans (rd_fs_of_no _ _ _ _ _ _ apart.2)
  · rw [own, cmds]
    exact List.suffix_cons c cs

theorem retired_retire (f : Nat) (s : State) (m : Nat) : Retired s (retire f s m) m := by
  induction f generalizing s with
  | zero => exact .refl s m
  | succ f ih =>
    cases cmds : (stream s m).cmds with
    | nil =>
      rw [retire]
      simp only [cmds]
      exact .refl s m
    | cons c cs =>
      rw [retire_succ f s m cmds]
      split
      · exact (retired_retireOne cmds).trans (ih _)
      · exact .refl s m

/-- A stream whose only command is complete retires it, where none before it stopped. -/
theorem retire_only {s : State} {m : Nat} {c : Cmd} (only : (stream s m).cmds = [c]) (complete : c.phase = .complete)
    (next : c.num = fg s WARD_SDONE_RETIRED m) : (stream (retire 1 s m) m).cmds = [] ∧
      fg (retire 1 s m) WARD_SDONE_RETIRED m = (c.num + 1) % 2 ^ 32 ∧ fg (retire 1 s m) WARD_SSTAT_LAST_TAG m = c.tag := by
  have one : retire 1 s m = retireOne s m c [] := by rw [retire_succ 0 s m only, if_pos ⟨complete, next⟩]; rfl
  have tag : c.tag < 2 ^ 16 := Nat.mod_lt _ (by decide)
  rw [one]
  refine ⟨congrArg Stream.cmds (stream_setStream_same _ _ _), ?_, ?_⟩
  · unfold retireOne
    rw [fg_of_regs (setStream_regs _ _ _), fg_fs_of_no _ _ _ _ _ _ (by decide), fg_fs_same _ _ _ _ (by decide) (by decide), ← next]
    rfl
  · unfold retireOne
    rw [fg_of_regs (setStream_regs _ _ _), fg_fs_same _ _ _ _ (by decide) (by decide)]
    exact Nat.mod_eq_of_lt tag

/-! ### A command marked complete -/

theorem mem_of_findCmd {cs : List Cmd} {k : Nat} {c : Cmd} (found : findCmd cs k = some c) : c ∈ cs := by
  induction cs with
  | nil => cases found
  | cons d cs ih =>
    rw [findCmd] at found
    split at found
    · cases found; exact List.mem_cons_self ..
    · exact List.mem_cons_of_mem _ (ih found)

/-- A command replaced is the only one of its number. -/
theorem eq_of_mem_replaceCmd {cs : List Cmd} {c d : Cmd} (mem : d ∈ replaceCmd cs c) (num : d.num = c.num) : d = c := by
  obtain ⟨x, -, rfl⟩ := List.mem_map.mp mem
  by_cases same : x.num = c.num
  · rw [if_pos same]
  · rw [if_neg same] at num
    exact absurd num same

/-- Command c of stream m has completed between two states: it and the completed commands before it retire. -/
structure Finished (s t : State) (m : Nat) (c : Cmd) : Prop where
  st : (stream t m).st = (stream s m).st
  completed : Completed t m c
  retires : (stream s m).cmds = [c] → c.num = fg s WARD_SDONE_RETIRED m →
    (stream t m).cmds = [] ∧ fg t WARD_SDONE_RETIRED m = (c.num + 1) % 2 ^ 32 ∧ fg t WARD_SSTAT_LAST_TAG m = c.tag

/-- The completed form of a command. -/
def Cmd.done (c : Cmd) : Cmd := { c with phase := .complete, slot := none }

/-- The state with command c marked complete, before the head of its stream retires. -/
def markedState (s : State) (m : Nat) (c : Cmd) : State :=
  ebufRemove (setCmd (releaseSlot s c false) m c.done) (m / 8) (engineOf (releaseSlot s c false) (m / 8) c) m c.num

theorem markComplete_eq (s : State) (m : Nat) (c : Cmd) :
    markComplete s m c = retire (stream (markedState s m c) m).cmds.length (markedState s m c) m := rfl

section
variable (s : State) (m : Nat) (c : Cmd)

theorem stream_markedState : stream (markedState s m c) m = { stream s m with cmds := replaceCmd (stream s m).cmds c.done } := by
  obtain ⟨regs, frame⟩ := releaseSlot_frame s c false
  have left : stream (markedState s m c) m = stream (setCmd (releaseSlot s c false) m c.done) m := rfl
  rw [left, setCmd, stream_setStream_same, frame]
  rfl

theorem markComplete_frame : ∃ regs streams engines, markComplete s m c = { s with regs := regs, streams := streams, engines := engines } := by
  obtain ⟨regs, streams, retired⟩ := (retired_retire (stream (markedState s m c) m).cmds.length (markedState s m c) m).frame
  obtain ⟨_, slot⟩ := releaseSlot_frame s c false
  refine ⟨regs, streams, (markedState s m c).engines, ?_⟩
  rw [markComplete_eq, retired]
  unfold markedState
  rw [slot]
  rfl

theorem rd_markedState (r : Reg) (i : Nat) (out : r.no ∉ slotRegs.map Reg.no) : rd (markedState s m c) r i = rd s r i :=
  rd_releaseSlot s c false r i out

theorem rd_markComplete (r : Reg) (i : Nat) (out : r.no ∉ finishRegs.map Reg.no) : rd (markComplete s m c) r i = rd s r i := by
  rw [markComplete_eq, (retired_retire _ _ m).word r i out]
  exact rd_markedState s m c r i (fun mem => out (by rw [finishRegs, List.map_append]; exact List.mem_append_left _ mem))

theorem finished_markComplete : Finished s (markComplete s m c) m c := by
  have own := stream_markedState s m c
  have retired := retired_retire (stream (markedState s m c) m).cmds.length (markedState s m c) m
  rw [markComplete_eq]
  refine ⟨retired.st.trans (by rw [own]), fun d found => ?_, fun only next => ?_⟩
  · have listed : d ∈ replaceCmd (stream s m).cmds c.done := by
      have kept := retired.cmds.subset (mem_of_findCmd found)
      rwa [own] at kept
    rw [eq_of_mem_replaceCmd listed (num_of_findCmd found)]
    rfl
  · have cmds : (stream (markedState s m c) m).cmds = [c.done] := by
      rw [own, only]
      exact congrArg (fun d => [d]) (if_pos rfl)
    have same : fg s WARD_SDONE_RETIRED m = fg (markedState s m c) WARD_SDONE_RETIRED m := by
      unfold fg
      rw [rd_markedState s m c _ _ (by decide)]
    rw [cmds]
    exact retire_only (c := c.done) cmds rfl (next.trans same)

end

/-! ### The local signal (06, R161, R176) -/

/-- The ward of a command's local signal. -/
def signalWard (m : Nat) (c : Cmd) : Nat := if c.sigWard = 0x7F then m / 8 else c.sigWard

/-- The flag of a command's local signal. -/
def signalled (m : Nat) (c : Cmd) : Nat := flagIdx (signalWard m c) c.sigFlag

/-- A command's local signal, and nothing else of the flags. -/
def Signals (s t : State) (m : Nat) (c : Cmd) : Prop :=
  (c.sigEn = true → flagCount t (signalled m c) = (flagCount s (signalled m c) + c.sigInc) % 2 ^ 16) ∧
  (∀ k, (c.sigEn = true → WARD_FLAG.key k ≠ WARD_FLAG.key (signalled m c)) → flagCount t k = flagCount s k)

theorem flagCount_markComplete (s : State) (m : Nat) (c : Cmd) (k : Nat) : flagCount (markComplete s m c) k = flagCount s k := by
  unfold flagCount fg
  rw [rd_markComplete s m c _ _ (by decide)]

theorem finishCmd_remote (s : State) {m : Nat} {c : Cmd} (remote : remoteSignal c = true) : finishCmd s m c = markComplete s m c := if_pos remote

theorem finishCmd_silent (s : State) {m : Nat} {c : Cmd} (silent : c.sigEn = false) : finishCmd s m c = markComplete s m c := by
  have atHome : remoteSignal c = false := by simp [remoteSignal, silent]
  unfold finishCmd applySignal
  simp [atHome, silent]

theorem finishCmd_lit {s : State} {m : Nat} {c : Cmd} (atHome : remoteSignal c = false) (signal : c.sigEn = true)
    (lit : isDark s (signalWard m c) = false) : ∃ client, finishCmd s m c =
      wakeLogical (markComplete (signalFlag s (signalled m c) c.sigInc) m c) (signalWard m c) client := by
  unfold signalWard at lit
  unfold finishCmd applySignal
  simp only [atHome, signal, lit]
  exact ⟨_, rfl⟩

theorem finishCmd_dark {s : State} {m : Nat} {c : Cmd} (atHome : remoteSignal c = false) (signal : c.sigEn = true)
    (dark : isDark s (signalWard m c) = true) : finishCmd s m c = execFault s m c 0x14 (signalWard m c) := by
  unfold signalWard at dark
  unfold finishCmd applySignal
  simp only [atHome, signal, dark]
  rfl

/-- What a command's completion with its local signal leaves alone. -/
theorem finishCmd_frame {s : State} {m : Nat} {c : Cmd} (atHome : remoteSignal c = false)
    (lit : c.sigEn = true → isDark s (signalWard m c) = false) : ∃ regs streams engines pwards,
      finishCmd s m c = { s with regs := regs, streams := streams, engines := engines, pwards := pwards } := by
  cases signal : c.sigEn with
  | false =>
    obtain ⟨_, _, _, frame⟩ := markComplete_frame s m c
    exact ⟨_, _, _, _, (finishCmd_silent s signal).trans frame⟩
  | true =>
    obtain ⟨client, eq⟩ := finishCmd_lit atHome signal (lit signal)
    obtain ⟨_, _, _, frame⟩ := markComplete_frame (signalFlag s (signalled m c) c.sigInc) m c
    obtain ⟨_, _, woken⟩ := wakeLogical_frame (markComplete (signalFlag s (signalled m c) c.sigInc) m c) (signalWard m c) client
    rw [frame] at woken
    exact ⟨_, _, _, _, eq.trans ((congrArg (wakeLogical · _ client) frame).trans woken)⟩

/-- A command completes with its local signal. -/
theorem finished_finishCmd {s : State} {m : Nat} {c : Cmd} (atHome : remoteSignal c = false)
    (lit : c.sigEn = true → isDark s (signalWard m c) = false) : Finished s (finishCmd s m c) m c ∧ Signals s (finishCmd s m c) m c := by
  cases signal : c.sigEn with
  | false =>
    rw [finishCmd_silent s signal]
    exact ⟨finished_markComplete s m c, fun on => absurd (signal.symm.trans on) (by decide), fun k _ => flagCount_markComplete s m c k⟩
  | true =>
    obtain ⟨client, eq⟩ := finishCmd_lit atHome signal (lit signal)
    have kept := workKept_wakeLogical (markComplete (signalFlag s (signalled m c) c.sigInc) m c) (signalWard m c) client
    obtain ⟨st, completed, retires⟩ := finished_markComplete (signalFlag s (signalled m c) c.sigInc) m c
    have flags : ∀ k, flagCount (finishCmd s m c) k = flagCount (signalFlag s (signalled m c) c.sigInc) k := fun k => by
      rw [eq, ← flagCount_markComplete (signalFlag s (signalled m c) c.sigInc) m c]
      exact kept.fg WARD_FLAG_COUNT k (by decide)
    have own := kept.stream m
    refine ⟨⟨?_, ?_, fun only next => ?_⟩, fun _ => ?_, fun k apart => ?_⟩
    · rw [eq, own]; exact st
    · unfold Completed; rw [eq, own]; exact completed
    · obtain ⟨cmds, done, tag⟩ := retires only (next.trans (fg_fs_of_no _ _ _ _ _ _ (by decide)).symm)
      rw [eq, own, kept.fg WARD_SDONE_RETIRED m (by decide), kept.fg WARD_SSTAT_LAST_TAG m (by decide)]
      exact ⟨cmds, done, tag⟩
    · rw [flags, fg_signalFlag_same]
    · rw [flags, flagCount_signalFlag_other _ _ (apart signal)]

end Sys2Proof.Machine
end

section
/-!
PROOFS. The statement about completion (05, R134; 06, R161, R163, R176): a block sent on a port, the SIGNAL of a remote signal, COMMAND_COMPLETE by
its cases, and the obligation from them.
-/

namespace Sys2Proof.Machine

/-! ### A block sent on a port (12, R301, R302) -/

theorem foldl_putBlock (bs : List LinkBlock) (x : Port) :
    (bs.foldl putBlock x).retry.map Held.block = x.retry.map Held.block ++ bs ∧ (bs.foldl putBlock x).waiting = x.waiting := by
  induction bs generalizing x with
  | nil => simp
  | cons b bs ih =>
    obtain ⟨retry, waiting⟩ := ih (putBlock x b)
    rw [List.foldl_cons, retry, waiting]
    simp [putBlock]

/-- What leaves the waiting blocks enters the retry buffer, so the blocks of a port stay as they are. -/
theorem outgoing_drainPort (x : Port) : Outgoing (drainPort x) = Outgoing x := by
  have pre : ∀ go, go <+: x.waiting → Outgoing (go.foldl putBlock { x with waiting := x.waiting.drop go.length }) = Outgoing x := fun go h => by
    obtain ⟨retry, waiting⟩ := foldl_putBlock go { x with waiting := x.waiting.drop go.length }
    rw [Outgoing, retry, waiting, List.append_assoc]
    dsimp only
    rw [List.prefix_iff_eq_append.mp h]
    rfl
  refine pre _ ((List.take_prefix _ _).trans ?_)
  split
  · exact List.takeWhile_prefix _
  · exact List.prefix_rfl

theorem drainPort_of_room (x : Port) (b : LinkBlock) (steady : x.swapping = false) (empty : x.waiting = []) (room : x.retry.length < retryLimit) :
    drainPort { x with waiting := x.waiting ++ [b] } = putBlock x b := by
  obtain ⟨k, more⟩ : ∃ k, retryLimit - x.retry.length = k + 1 := ⟨retryLimit - x.retry.length - 1, by omega⟩
  unfold drainPort
  simp [steady, empty, more, putBlock]

theorem port_portSend (s : State) (p : Nat) (b : LinkBlock) :
    port (portSend s p b) p = drainPort { port s p with waiting := (port s p).waiting ++ [b] } := sget_sset_same _ _ _ _

theorem sentLast_of_port {s t : State} {p : Nat} {b : LinkBlock} (sent : port t p = port (portSend s p b) p) : SentLast s t p b := by
  unfold SentLast
  rw [sent, port_portSend]
  refine ⟨?_, fun steady empty room => ?_⟩
  · rw [outgoing_drainPort, Outgoing, Outgoing, List.append_assoc]
  · rw [drainPort_of_room _ _ steady empty room]
    exact ⟨rfl, rfl⟩

/-! ### A transaction of one block (12, R304) -/

section
variable (s : State) (m num ty chip off : Nat)

/-- The block of a transaction without payload. -/
def soleBlock (p : Nat) : LinkBlock :=
  { ty := ty, dst := chip, src := ownChip s, slice := ownSlice s, tid := s.nextTid % 2 ^ 16, offset := off, side := sideWord s p }

/-- The transaction, outstanding. -/
def soleTxn : Txn := ⟨s.nextTid % 2 ^ 16, ty, m, num, chip, off, 0, 0, none, false⟩

/-- The state with the block sent and the transaction outstanding. -/
def txnSent (p : Nat) : State :=
  { portSend s p (soleBlock s ty chip off p) with nextTid := s.nextTid + 1, txns := s.txns ++ [soleTxn s m num ty chip off] }

variable {s m ty chip}

theorem issueTxn_of_room {p : Nat} (route : egressPort s chip (s.nextTid % 2 ^ 16) (ty == 6) = some p) (free : portHeld s p 1 = false)
    (room : wardTxns s (m / 8) < wardTxnLimit) : issueTxn s m num ty chip off 0 [(off, [])] = .ok (txnSent s m num ty chip off p) := by
  have one : max 1 (ceilDiv 0 256) = 1 := by decide
  have fits : ¬(portHeld s p [(off, ([] : List Byte))].length = true ∨ wardTxns s (m / 8) + max 1 (ceilDiv 0 256) > wardTxnLimit) := by
    rw [one, List.length_singleton, free]
    simp only [Bool.false_eq_true, false_or]
    omega
  unfold issueTxn
  dsimp only
  rw [route]
  exact if_neg fits

theorem cmdTxns_txnSent (p : Nat) : cmdTxns (txnSent s m num ty chip off p) m num ≠ [] :=
  List.ne_nil_of_mem (a := soleTxn s m num ty chip off) (List.mem_filter.mpr ⟨List.mem_append_right _ (List.mem_singleton.mpr rfl), by simp [soleTxn]⟩)

end

/-! ### COMMAND_COMPLETE by its cases -/

theorem publishFence_frame (s : State) (c : Cmd) : ∃ host, publishFence s c = { s with host := host } := by
  unfold publishFence
  split
  · exact ⟨_, rfl⟩
  · exact List.foldlRecOn (motive := fun t : State => ∃ host, t = { s with host := host }) _ _ ⟨_, rfl⟩ (fun _ ⟨_, frame⟩ _ _ => frame ▸ ⟨_, rfl⟩)

section
variable {s : State} {m num : Nat} {c : Cmd} (found : findCmd (stream s m).cmds num = some c)
include found

theorem exec_commandComplete : exec (.commandComplete m num) s = .next (observe (completeCmd s m c)) := by
  show execCommandComplete m num s = _
  rw [execCommandComplete, found]

theorem commandComplete_waits (left : workDone s m c = false) : Gives (.commandComplete m num) s fun t =>
    (stream t m).cmds = (stream s m).cmds ∧ t.regs = s.regs ∧ t.mem = s.mem := by
  have row := exec_commandComplete found
  rw [completeCmd, if_pos (by rw [left]; rfl)] at row
  exact gives_next row ⟨stream_observe_cmds s m, observe_regs s, observe_mem s⟩

variable (done : workDone s m c = true)
include done

theorem exec_commandComplete_finish (last : remoteSignal c = false ∨ c.aux = 2) :
    exec (.commandComplete m num) s = .next (observe (finishCmd (publishFence s c) m c)) := by
  have none : ¬(remoteSignal c && c.aux != 2) = true := by rcases last with h | h <;> simp [h]
  rw [exec_commandComplete found, completeCmd, if_neg (by rw [done]; decide)]
  dsimp only
  rw [if_neg none]

/-- A command without a remote signal completes with its local one. -/
theorem commandComplete_signals (atHome : remoteSignal c = false) (lit : c.sigEn = true → isDark s (signalWard m c) = false) :
    Gives (.commandComplete m num) s fun t => Completed t m c ∧ (stream t m).st = (stream s m).st ∧
      (c.sigEn = true → flagCount t (signalled m c) = (flagCount s (signalled m c) + c.sigInc) % 2 ^ 16) ∧
      (∀ k, (c.sigEn = true → WARD_FLAG.key k ≠ WARD_FLAG.key (signalled m c)) → flagCount t k = flagCount s k) ∧ t.mem = s.mem ∧ t.queues = s.queues ∧
      ((stream s m).cmds = [c] → c.num = fg s WARD_SDONE_RETIRED m →
        (stream t m).cmds = [] ∧ fg t WARD_SDONE_RETIRED m = (c.num + 1) % 2 ^ 32 ∧ fg t WARD_SSTAT_LAST_TAG m = c.tag) := by
  have row := exec_commandComplete_finish found done (.inl atHome)
  obtain ⟨host, fence⟩ := publishFence_frame s c
  rw [fence] at row
  have lit' : c.sigEn = true → isDark { s with host := host } (signalWard m c) = false := lit
  obtain ⟨⟨st, completed, retires⟩, own, others⟩ := finished_finishCmd atHome lit'
  obtain ⟨_, _, _, _, frame⟩ := finishCmd_frame atHome lit'
  refine gives_next row ⟨?_, ?_, fun signal => ?_, fun k apart => ?_, ?_, ?_, fun only next => ?_⟩
  · unfold Completed; rw [stream_observe_cmds]; exact completed
  · rw [stream_observe_st, st]; rfl
  · rw [flagCount_observe, own signal]; rfl
  · rw [flagCount_observe, others k apart]; rfl
  · rw [observe_mem, frame]
  · rw [observe_queues, frame]
  · rw [stream_observe_cmds, fg_observe, fg_observe]
    exact retires only next

theorem commandComplete_dark (atHome : remoteSignal c = false) (signal : c.sigEn = true) (dark : isDark s (signalWard m c) = true)
    (enabled : (stream s m).st = .enabled) : Gives (.commandComplete m num) s fun t => Faulted t m 0x14 (signalWard m c) := by
  have row := exec_commandComplete_finish found done (.inl atHome)
  obtain ⟨host, fence⟩ := publishFence_frame s c
  rw [fence, finishCmd_dark (s := { s with host := host }) atHome signal dark] at row
  exact gives_next row (Faulted.observe (faulted_execFault c _ enabled (by decide)))

/-- A remote signal acknowledged completes its command, with no local signal. -/
theorem commandComplete_acknowledged (remote : remoteSignal c = true) (acknowledged : c.aux = 2) : Gives (.commandComplete m num) s fun t =>
    Completed t m c ∧ (∀ k, flagCount t k = flagCount s k) := by
  have row := exec_commandComplete_finish found done (.inr acknowledged)
  obtain ⟨host, fence⟩ := publishFence_frame s c
  rw [fence, finishCmd_remote _ remote] at row
  refine gives_next row ⟨?_, fun k => ?_⟩
  · unfold Completed; rw [stream_observe_cmds]; exact (finished_markComplete _ m c).completed
  · rw [flagCount_observe, flagCount_markComplete]; rfl

/-- The offset field of a remote signal: increment, ward and flag. -/
def signalOffset (m : Nat) (c : Cmd) : Nat := c.sigInc * 2 ^ 16 + signalWard m c * 2 ^ 8 + c.sigFlag

theorem exec_commandComplete_sends {p : Nat} (remote : remoteSignal c = true) (first : c.aux ≠ 2)
    (route : egressPort s (chipOf (moveDest c)) (s.nextTid % 2 ^ 16) false = some p) (free : portHeld s p 1 = false)
    (room : wardTxns s (m / 8) < wardTxnLimit) : ∃ host, exec (.commandComplete m num) s = .next (observe
      (setCmd (txnSent { s with host := host } m c.num 5 (chipOf (moveDest c)) (signalOffset m c) p) m { c with aux := 2 })) := by
  obtain ⟨host, fence⟩ := publishFence_frame s c
  have sent := issueTxn_of_room (s := { s with host := host }) (m := m) (ty := 5) c.num (signalOffset m c) route free room
  unfold signalOffset signalWard at sent
  refine ⟨host, ?_⟩
  rw [exec_commandComplete found, completeCmd, if_neg (by rw [done]; decide)]
  dsimp only
  rw [fence, if_pos (by simp [remote, first]), sent]
  rfl

theorem commandComplete_sends {p : Nat} (remote : remoteSignal c = true) (first : c.aux ≠ 2)
    (route : egressPort s (chipOf (moveDest c)) (s.nextTid % 2 ^ 16) false = some p) (free : portHeld s p 1 = false)
    (room : wardTxns s (m / 8) < wardTxnLimit) : Gives (.commandComplete m num) s fun t =>
      SentLast s t p { ty := 5, dst := chipOf (moveDest c), src := ownChip s, slice := ownSlice s, tid := s.nextTid % 2 ^ 16,
                       offset := signalOffset m c, side := sideWord s p } ∧
      (∃ c', findCmd (stream t m).cmds c.num = some c' ∧ c'.aux = 2 ∧ c'.phase = .issued) ∧ (cmdTxns t m c.num) ≠ [] ∧ t.regs = s.regs := by
  obtain ⟨host, row⟩ := exec_commandComplete_sends found done remote first route free room
  have issued : c.phase = .issued := by
    simp only [workDone, Bool.and_eq_true, beq_iff_eq] at done
    obtain ⟨⟨⟨⟨phase, -⟩, -⟩, -⟩, -⟩ := done
    exact phase
  have stands : Standing s m c := by
    unfold Standing
    rw [num_of_findCmd found]
    exact found
  refine gives_next row ⟨?_, ⟨{ c with aux := 2 }, ?_, rfl, issued⟩, ?_, ?_⟩
  · refine sentLast_of_port ?_
    unfold port
    rw [observe_ports]
    rfl
  · rw [stream_observe_cmds]
    exact Standing.setCmd (Standing.of_streams (t := txnSent { s with host := host } m c.num 5 (chipOf (moveDest c)) (signalOffset m c) p) stands rfl) rfl
  · unfold cmdTxns
    rw [observe_txns]
    exact cmdTxns_txnSent (s := { s with host := host }) c.num _ p
  · rw [observe_regs]; rfl

end

/-- Settles O36: whether work is left, and whether the signal is remote and has gone out, tell the case. -/
theorem commandsCompleteAndSignal : Obligations.CommandsCompleteAndSignal := by
  unfold Obligations.CommandsCompleteAndSignal
  intro m num c s found
  exact ⟨commandComplete_signals found, commandComplete_dark found, fun _ done => commandComplete_sends found done, commandComplete_acknowledged found,
    commandComplete_waits found⟩

end Sys2Proof.Machine
end

section
/-!
SUPPORT. A step boundary (01, R30, R31; 04, R111): what the takeovers, the rotations and the register writes that waited for it leave alone.
-/

namespace Sys2Proof.Machine

/-- The registers that takeovers and rotations change, and those whose writes wait for a step boundary. -/
def boundaryRegs : List Reg := [PWR_WREG, MOD_SHADOW_GRP_CNT, THM_DIE_SQ, MOD_SHADOW_CFG, MOD_SHADOW_GRP_CFG]

/-- Streams, trace, supply state and every register but those of a boundary stand. -/
structure BoundaryKept (s t : State) : Prop where
  streams : t.streams = s.streams
  trace : t.trace = s.trace
  pwr : t.pwr = s.pwr
  mc : t.mc = s.mc
  word : ∀ r i, r.no ∉ boundaryRegs.map Reg.no → rd t r i = rd s r i

namespace BoundaryKept
variable {s t u : State}

theorem of_frame (streams : t.streams = s.streams) (trace : t.trace = s.trace) (pwr : t.pwr = s.pwr) (mc : t.mc = s.mc) (regs : t.regs = s.regs) :
    BoundaryKept s t :=
  ⟨streams, trace, pwr, mc, fun r i _ => by unfold rd; rw [regs]⟩

theorem refl (s : State) : BoundaryKept s s := of_frame rfl rfl rfl rfl rfl

theorem trans (h : BoundaryKept s t) (k : BoundaryKept t u) : BoundaryKept s u :=
  ⟨k.streams.trans h.streams, k.trace.trans h.trace, k.pwr.trans h.pwr, k.mc.trans h.mc, fun r i out => (k.word r i out).trans (h.word r i out)⟩

theorem fs (h : BoundaryKept s t) {f : Fld} (named : f.reg ∈ boundaryRegs) (i v : Nat) : BoundaryKept s (fs t f i v) :=
  ⟨h.streams, h.trace, h.pwr, h.mc, fun r j out =>
    (rd_fs_of_no t f r i j v (fun eq => out (eq ▸ List.mem_map_of_mem named))).trans (h.word r j out)⟩

theorem bump (h : BoundaryKept s t) {f : Fld} (named : f.reg ∈ boundaryRegs) (i n : Nat) : BoundaryKept s (bump t f i n) := h.fs named i _

/-- What every step of a fold keeps, the fold keeps. -/
theorem foldl {α : Type} {f : State → α → State} (keep : ∀ t a, BoundaryKept t (f t a)) (xs : List α) (s : State) : BoundaryKept s (xs.foldl f s) :=
  List.foldlRecOn (motive := fun t : State => BoundaryKept s t) xs f (refl s) fun t kept a _ => kept.trans (keep t a)

end BoundaryKept

theorem boundaryKept_skipSample (s : State) (tag : Nat) : BoundaryKept s (skipSample s tag) :=
  (BoundaryKept.refl s).bump (f := MOD_SHADOW_GRP_CNT_SKIPPED) (by decide) _ _

theorem boundaryKept_setDist (s : State) (d : Nat) (x : Dist) : BoundaryKept s (setDist s d x) := .of_frame rfl rfl rfl rfl rfl

theorem boundaryKept_resetEngines (s : State) (w : Nat) : BoundaryKept s (resetEngines s w) := .of_frame rfl rfl rfl rfl rfl

theorem boundaryKept_samples (s : State) (xs : List Sample) : BoundaryKept s { s with samples := xs } := .of_frame rfl rfl rfl rfl rfl

theorem boundaryKept_skipSamples (xs : List Sample) (s : State) : BoundaryKept s (xs.foldl (fun t x => skipSample t x.tag) s) :=
  BoundaryKept.foldl (f := fun t (x : Sample) => skipSample t x.tag) (fun t x => boundaryKept_skipSample t x.tag) xs s

/-- The samples that an ME of district d has begun, discarded. -/
def dropBegun (s : State) (d : Nat) (t : State) (p : Nat × MeRt) : State :=
  if districtOf s (p.1 / 4) = d ∧ p.2.picked ≠ [] then
    let u := p.2.picked.foldl (fun u _ => skipSample u (((job s (p.1 / 4) (p.1 % 4)).map (fun c => c.2.tag)).getD 0)) t
    { u with me := sset {} u.me p.1 { p.2 with picked := [] } }
  else t

theorem boundaryKept_dropBegun (s : State) (d : Nat) (t : State) (p : Nat × MeRt) : BoundaryKept t (dropBegun s d t p) := by
  unfold dropBegun
  split
  · exact (BoundaryKept.foldl (fun u _ => boundaryKept_skipSample u _) p.2.picked t).trans (.of_frame rfl rfl rfl rfl rfl)
  · exact .refl t

theorem boundaryKept_dropSamples (s : State) (d : Nat) : BoundaryKept s (dropSamples s d) := by
  obtain ⟨gone, kept, parts⟩ : ∃ gone kept, s.samples.partition (fun x => districtOf s x.ward == d) = (gone, kept) := ⟨_, _, rfl⟩
  have pending := (boundaryKept_samples s kept).trans (boundaryKept_skipSamples gone _)
  have split : dropSamples s d = ((gone.foldl (fun t x => skipSample t x.tag) { s with samples := kept }).me.foldl (dropBegun s d)
      (gone.foldl (fun t x => skipSample t x.tag) { s with samples := kept })) := by
    unfold dropSamples
    rw [parts]
    rfl
  rw [split]
  exact pending.trans (.foldl (boundaryKept_dropBegun s d) _ _)

theorem boundaryKept_zeroBanks (s : State) (w keep : Nat) : BoundaryKept s (zeroBanks s w keep) := by
  refine .foldl (fun t b => ?_) _ _
  split
  · exact .refl t
  · exact .of_frame rfl rfl rfl rfl rfl

theorem boundaryKept_takeOver (s : State) (d : Nat) (t : Nat × Nat) : BoundaryKept s (takeOver s d t) := by
  unfold takeOver
  split
  · exact (((boundaryKept_setDist s d _).fs (f := PWR_WREG_DARK) (by decide) _ _).trans (boundaryKept_resetEngines _ _)).trans
      (boundaryKept_zeroBanks _ _ _)
  · exact .of_frame rfl rfl rfl rfl rfl

theorem boundaryKept_rotateNow (s : State) (d : Nat) : BoundaryKept s (rotateNow s d) := by
  unfold rotateNow
  dsimp only
  split
  · exact .refl s
  · split
    · exact .refl s
    · split
      · exact .of_frame rfl rfl rfl rfl rfl
      · exact ((boundaryKept_dropSamples s d).trans (boundaryKept_setDist _ d _)).bump (f := THM_DIE_SQ_ROTATIONS) (by decide) _ _

/-- Takeovers and rotations of a boundary, before the writes that wait for it. -/
def boundaryShims (s : State) : State := (below 20).foldl (fun t d => rotateNow ((distOf t d).take.foldl (fun u k => takeOver u d k) t) d) s

theorem boundaryKept_boundaryShims (s : State) : BoundaryKept s (boundaryShims s) :=
  .foldl (fun t d => (BoundaryKept.foldl (fun u k => boundaryKept_takeOver u d k) _ t).trans (boundaryKept_rotateNow _ d)) _ _

/-- The state once the writes that wait for a boundary have taken effect. -/
def boundaryWritten (s : State) : State := applyRegs s s.mc.stepRegs

/-- The state with no write waiting. -/
def nothingWaits (s : State) : State := { s with mc := { s.mc with stepRegs := [] } }

theorem openBoundary_eq (s : State) : openBoundary s = nothingWaits (boundaryWritten (boundaryShims s)) := by
  unfold openBoundary boundaryShims
  generalize List.foldl _ s (below 20) = u
  rfl

theorem key_div (r : Reg) (i : Nat) : r.key i / 2 ^ 20 = r.no := by unfold Reg.key; omega

theorem applyRegs_frame (s : State) (xs : List (Nat × Word)) : ∃ regs, applyRegs s xs = { s with regs := regs } :=
  List.foldlRecOn (motive := fun t : State => ∃ regs, t = { s with regs := regs }) xs _ ⟨_, rfl⟩ (fun _ ⟨_, frame⟩ _ _ => frame ▸ ⟨_, rfl⟩)

theorem rd_applyRegs (s : State) (xs : List (Nat × Word)) (r : Reg) (i : Nat) (out : ∀ x ∈ xs, x.1 / 2 ^ 20 ≠ r.no) :
    rd (applyRegs s xs) r i = rd s r i :=
  List.foldlRecOn (motive := fun t : State => rd t r i = rd s r i) xs _ rfl fun t same x mem => by
    have apart : r.key i ≠ x.1 := fun eq => out x mem (by rw [← eq, key_div])
    exact (sget_sset_other _ _ t.regs _ apart).trans same

/-- The register writes that wait for a step boundary are of the shadow registers. -/
abbrev StepWaits (s : State) : Prop := ∀ x ∈ s.mc.stepRegs, x.1 / 2 ^ 20 ∈ [ MOD_SHADOW_CFG.no, MOD_SHADOW_GRP_CFG.no]

theorem boundaryKept_boundaryWritten {s : State} (waiting : StepWaits s) : BoundaryKept s (boundaryWritten s) := by
  obtain ⟨regs, frame⟩ := applyRegs_frame s s.mc.stepRegs
  have same : boundaryWritten s = { s with regs := regs } := frame
  refine ⟨by rw [same], by rw [same], by rw [same], by rw [same], fun r i out => rd_applyRegs _ _ _ _ fun x mem eq => ?_⟩
  have named := waiting x mem
  rw [eq] at named
  exact out (List.mem_of_mem_drop (i := 3) named)

/-- A boundary empties the list of waiting writes, and keeps the rest of what the management controller notes. -/
theorem openBoundary_passes {s : State} (waiting : StepWaits s) :
    ∃ t, BoundaryKept s t ∧ openBoundary s = nothingWaits t := by
  have shims := boundaryKept_boundaryShims s
  refine ⟨_, shims.trans (boundaryKept_boundaryWritten ?_), openBoundary_eq s⟩
  unfold StepWaits
  rw [shims.mc]
  exact waiting

end Sys2Proof.Machine
end

section
/-!
PROOFS. The statement about the sequencer's own commands (05, R140, R145; 01, R32; 16, R396): the highest hint of a frame, a command that completes as
it issues, the boundary that a MARK opens, and the obligation from them.
-/

namespace Sys2Proof.Machine

/-! ### The highest hint level of a frame (16, R396) -/

theorem getElem?_setNth {α : Type} (xs : List α) (n k : Nat) (y : α) : (setNth xs n y)[k]? = if k = n then xs[k]?.map (fun _ => y) else xs[k]? := by
  induction xs generalizing n k with
  | nil => simp [setNth]
  | cons x xs ih => cases n <;> cases k <;> simp [setNth, ih]

/-- A list lengthened with zeros reads as before. -/
theorem nth_append_zeros (hs : List Nat) (j k : Nat) : nth (hs ++ List.replicate j 0) k 0 = nth hs k 0 := by
  unfold nth
  rw [List.getElem?_append]
  split
  · rfl
  · next beyond =>
    rw [List.getElem?_eq_none (Nat.le_of_not_lt beyond), List.getElem?_replicate]
    split <;> rfl

theorem nth_raiseHint_same (hs : List Nat) (n level : Nat) : nth (raiseHint hs n level) n 0 = max (nth hs n 0) level := by
  have within : n < (hs ++ List.replicate (n + 1 - hs.length) 0).length := by rw [List.length_append, List.length_replicate]; omega
  unfold raiseHint
  dsimp only
  rw [nth_append_zeros, nth, getElem?_setNth, if_pos rfl, List.getElem?_eq_getElem within]
  rfl

theorem nth_raiseHint_other (hs : List Nat) {n k : Nat} (level : Nat) (ne : k ≠ n) : nth (raiseHint hs n level) k 0 = nth hs k 0 := by
  unfold raiseHint
  dsimp only
  rw [nth, getElem?_setNth, if_neg ne]
  exact nth_append_zeros hs _ k

/-! ### A command that completes as it issues (05, R140) -/

/-- A command issued. -/
def Cmd.begun (c : Cmd) : Cmd := { c with phase := .issued }

/-- The state with command c of stream m issued by the sequencer itself. -/
def seqIssued (s : State) (m : Nat) (c : Cmd) : State :=
  setStream s m { stream s m with cmds := replaceCmd (stream s m).cmds c.begun, waitPulse := 0 }

/-- The state in which command c completes. -/
def seqDone (s : State) (m : Nat) (c : Cmd) : State := seqEffect (seqIssued s m c) c.begun

theorem seqEffect_frame (s : State) (c : Cmd) : ∃ pwr trace, seqEffect s c = { s with pwr := pwr, trace := trace } := by
  unfold seqEffect
  split <;> exact ⟨_, _, rfl⟩

theorem trace_seqEffect (s : State) (c : Cmd) : (seqEffect s c).trace = if c.opcode = 0x58 then s.trace ++ [(c.tag, c.imm)] else s.trace := by
  unfold seqEffect
  split
  · next hint => rw [if_neg (by rw [hint]; decide)]
  · next mark => rw [if_pos mark]
  · next other => rw [if_neg other]

theorem hints_seqEffect (s : State) (c : Cmd) (hint : c.opcode = 0x50) :
    (seqEffect s c).pwr.hints = raiseHint s.pwr.hints (bits c.imm 7 0) (bits c.imm 11 8) := by
  unfold seqEffect
  rw [hint]
  rfl

theorem hints_seqEffect_other (s : State) (c : Cmd) (other : c.opcode ≠ 0x50) : (seqEffect s c).pwr.hints = s.pwr.hints := by
  unfold seqEffect
  split
  · next hint => exact absurd hint other
  · rfl
  · rfl

theorem issueNext_of_seq {s : State} {m : Nat} {c : Cmd} (may : MayIssue s m c) (seq : isSeqOp c.opcode = true) :
    issueNext s m (some c.opcode) = markBoundary (finishCmd (seqDone s m c) m c.begun) m c.begun := by
  obtain ⟨enabled, active, next, clean, ready⟩ := may
  unfold issueNext
  dsimp only
  rw [if_neg (by simp [enabled, active]), next]
  dsimp only
  rw [if_neg (by simp)]
  split
  · next fault => rw [clean] at fault; cases fault
  · rw [if_neg (by simp [ready]), if_pos seq]
    rfl

section
variable (s : State) (m : Nat) (c : Cmd)

theorem seqDone_frame : ∃ streams pwr trace, seqDone s m c = { s with streams := streams, pwr := pwr, trace := trace } := by
  obtain ⟨pwr, trace, frame⟩ := seqEffect_frame (seqIssued s m c) c.begun
  exact ⟨_, pwr, trace, frame⟩

theorem stream_seqDone : stream (seqDone s m c) m = { stream s m with cmds := replaceCmd (stream s m).cmds c.begun, waitPulse := 0 } := by
  obtain ⟨pwr, trace, frame⟩ := seqEffect_frame (seqIssued s m c) c.begun
  unfold seqDone
  rw [frame]
  exact stream_setStream_same _ _ _

theorem regs_seqDone : (seqDone s m c).regs = s.regs := by
  obtain ⟨_, _, _, frame⟩ := seqDone_frame s m c
  rw [frame]

theorem isDark_seqDone (w : Nat) : isDark (seqDone s m c) w = isDark s w := by
  unfold isDark
  rw [fg_of_regs (regs_seqDone s m c)]

end

/-! ### The boundary that a MARK opens (01, R32) -/

/-- The state in which the management controller notes that a MARK has opened a boundary. -/
def markNoted (s : State) : State := { s with mc := { s.mc with marked := true } }

/-- A MARK that opens a boundary: its step-boundary bit set, in a job that has issued no JOURNAL. -/
abbrev MarkOpens (s : State) (c : Cmd) : Prop := c.opcode = 0x58 ∧ bit c.mode 0 = true ∧ s.watch.journaled = []

theorem markBoundary_opens {s : State} {m : Nat} {c : Cmd} (opens : MarkOpens s c)
    (enabled : (stream s m).st = .enabled) : markBoundary s m c = openBoundary (markNoted s) := by
  obtain ⟨mark, step, first⟩ := opens
  exact if_pos ⟨mark, step, List.isEmpty_iff.mpr first, enabled⟩

theorem markBoundary_stays {s : State} {m : Nat} {c : Cmd} (shut : ¬MarkOpens s c ∨ (stream s m).st ≠ .enabled) : markBoundary s m c = s := by
  refine if_neg fun ⟨mark, step, first, enabled⟩ => ?_
  rcases shut with closed | stopped
  · exact closed ⟨mark, step, List.isEmpty_iff.mp first⟩
  · exact stopped enabled

/-- Streams, trace, hints and every register but those of a boundary stand once a MARK has opened its boundary, or none. -/
theorem markBoundary_keeps {s : State} {m : Nat} {c : Cmd} (enabled : (stream s m).st = .enabled)
    (waits : MarkOpens s c → StepWaits s) :
    (markBoundary s m c).streams = s.streams ∧ (markBoundary s m c).trace = s.trace ∧ (markBoundary s m c).pwr = s.pwr ∧
      ∀ r i, r.no ∉ boundaryRegs.map Reg.no → rd (markBoundary s m c) r i = rd s r i := by
  by_cases opens : MarkOpens s c
  · obtain ⟨t, kept, eq⟩ := openBoundary_passes (s := markNoted s) (waits opens)
    rw [markBoundary_opens opens enabled, eq]
    exact ⟨kept.streams, kept.trace, kept.pwr, fun r i out => kept.word r i out⟩
  · rw [markBoundary_stays (.inl opens)]
    exact ⟨rfl, rfl, rfl, fun _ _ _ => rfl⟩

theorem marked_markBoundary {s : State} {m : Nat} {c : Cmd} (opens : MarkOpens s c) (enabled : (stream s m).st = .enabled) (waits : StepWaits s) :
    (markBoundary s m c).mc.marked = true := by
  obtain ⟨t, kept, eq⟩ := openBoundary_passes (s := markNoted s) waits
  rw [markBoundary_opens opens enabled, eq]
  exact congrArg Mc.marked kept.mc

/-! ### The four commands -/

section
variable {i : Instr} {m : Nat} {c : Cmd} {s : State}
  (row : (i, c.opcode) ∈ [(Instr.wait m, 0x48), (.signal m, 0x49), (.hint m, 0x50), (.mark m, 0x58)])
include row

theorem seq_row : exec i s = .next (observe (issueNext s m (some c.opcode))) ∧ isSeqOp c.opcode = true ∧ remoteSignal c = false := by
  simp only [List.mem_cons, Prod.mk.injEq, List.not_mem_nil, or_false] at row
  unfold remoteSignal
  rcases row with ⟨rfl, code⟩ | ⟨rfl, code⟩ | ⟨rfl, code⟩ | ⟨rfl, code⟩ <;> rw [code] <;> exact ⟨rfl, rfl, rfl⟩

theorem exec_seq (may : MayIssue s m c) : exec i s = .next (observe (markBoundary (finishCmd (seqDone s m c) m c.begun) m c.begun)) := by
  obtain ⟨exec, seq, -⟩ := seq_row (s := s) row
  rw [exec, issueNext_of_seq may seq]

theorem seq_completes (may : MayIssue s m c) (lit : c.sigEn = true → isDark s (signalWard m c) = false)
    (waits : MarkOpens s c → WaitingWrites s) : Gives i s fun t =>
      Completed t m c ∧ (stream t m).st = .enabled ∧
      (c.sigEn = true → flagCount t (signalled m c) = (flagCount s (signalled m c) + c.sigInc) % 2 ^ 16) ∧
      (∀ k, (c.sigEn = true → WARD_FLAG.key k ≠ WARD_FLAG.key (signalled m c)) → flagCount t k = flagCount s k) ∧
      (c.opcode = 0x50 → nth t.pwr.hints (bits c.imm 7 0) 0 = max (nth s.pwr.hints (bits c.imm 7 0) 0) (bits c.imm 11 8) ∧
        ∀ k, k ≠ bits c.imm 7 0 → nth t.pwr.hints k 0 = nth s.pwr.hints k 0) ∧
      t.trace = (if c.opcode = 0x58 then s.trace ++ [(c.tag, c.imm)] else s.trace) ∧ (c.opcode ≠ 0x50 → t.pwr.hints = s.pwr.hints) ∧
      (¬MarkOpens s c → t.mem = s.mem) ∧
      (MarkOpens s c → t.mc.marked = true) ∧
      ((stream s m).cmds = [c] → c.num = fg s WARD_SDONE_RETIRED m →
        (stream t m).cmds = [] ∧ fg t WARD_SDONE_RETIRED m = (c.num + 1) % 2 ^ 32 ∧ fg t WARD_SSTAT_LAST_TAG m = c.tag) := by
  obtain ⟨-, -, atHome⟩ := seq_row (s := s) row
  have exec := exec_seq row may
  obtain ⟨enabled, -⟩ := may
  have own := stream_seqDone s m c
  have word : ∀ f k, fg (seqDone s m c) f k = fg s f k := fg_of_regs (regs_seqDone s m c)
  have lit' : c.begun.sigEn = true → isDark (seqDone s m c) (signalWard m c.begun) = false := fun signal => (isDark_seqDone s m c _).trans (lit signal)
  obtain ⟨⟨st, completed, retires⟩, signal, others⟩ := finished_finishCmd (c := c.begun) atHome lit'
  obtain ⟨_, _, _, _, finished⟩ := finishCmd_frame (c := c.begun) atHome lit'
  obtain ⟨_, _, _, done⟩ := seqDone_frame s m c
  generalize finishCmd (seqDone s m c) m c.begun = u at *
  have on : (stream u m).st = .enabled := by rw [st, own]; exact enabled
  have same : u.watch = s.watch ∧ u.mc = s.mc ∧ u.mem = s.mem := by rw [finished, done]; exact ⟨rfl, rfl, rfl⟩
  obtain ⟨watch, mc, mem⟩ := same
  have opens : MarkOpens u c.begun ↔ MarkOpens s c := by unfold MarkOpens; rw [watch]; exact Iff.rfl
  have steps : MarkOpens s c → StepWaits u := fun h => by unfold StepWaits; rw [mc]; exact (waits h).2
  obtain ⟨streams, trace, pwr, regs⟩ := markBoundary_keeps (c := c.begun) on fun h => steps (opens.mp h)
  have left : stream (markBoundary u m c.begun) m = stream u m := stream_of_streams streams m
  have count : ∀ k, flagCount (observe (markBoundary u m c.begun)) k = flagCount u k := fun k => by
    rw [flagCount_observe]; exact congrArg (fieldOf · 15 0) (regs WARD_FLAG k (by decide))
  have supply : (observe (markBoundary u m c.begun)).pwr = (seqDone s m c).pwr := by rw [observe_pwr, pwr, finished]
  refine gives_next exec ⟨?_, ?_, fun h => ?_, fun k apart => ?_, fun hint => ?_, ?_, fun other => ?_, fun shut => ?_, fun h => ?_,
    fun only next => ?_⟩
  · unfold Completed; rw [stream_observe_cmds, left]; exact completed
  · rw [stream_observe_st, left, on]
  · exact (count _).trans ((signal h).trans (congrArg (fun x => (x + c.sigInc) % 2 ^ 16) (word WARD_FLAG_COUNT _)))
  · exact (count k).trans ((others k apart).trans (word WARD_FLAG_COUNT k))
  · have raised := hints_seqEffect (seqIssued s m c) c.begun hint
    rw [supply, seqDone, raised]
    exact ⟨nth_raiseHint_same _ _ _, fun k ne => nth_raiseHint_other _ _ ne⟩
  · rw [observe_trace, trace, finished]
    exact trace_seqEffect (seqIssued s m c) c.begun
  · rw [supply]
    exact hints_seqEffect_other (seqIssued s m c) c.begun other
  · rw [observe_mem, markBoundary_stays (.inl fun h => shut (opens.mp h)), mem]
  · rw [observe_mc]
    exact marked_markBoundary (opens.mpr h) on (steps h)
  · have cmds : (stream (seqDone s m c) m).cmds = [c.begun] := by
      rw [own, only]
      exact congrArg (fun d => [d]) (if_pos rfl)
    have kept : ∀ f, f.reg.no ∉ boundaryRegs.map Reg.no → fg (observe (markBoundary u m c.begun)) f m = fg u f m := fun f out => by
      rw [fg_observe]; unfold fg; rw [regs _ _ out]
    rw [stream_observe_cmds, left, kept _ (by decide), kept _ (by decide)]
    exact retires cmds (next.trans (word _ m).symm)

theorem seq_dark (may : MayIssue s m c) (signal : c.sigEn = true) (dark : isDark s (signalWard m c) = true) :
    Gives i s fun t => Faulted t m 0x14 (signalWard m c) := by
  obtain ⟨-, -, atHome⟩ := seq_row (s := s) row
  have exec := exec_seq row may
  obtain ⟨enabled, -⟩ := may
  have faulted : Faulted (execFault (seqDone s m c) m c.begun 0x14 (signalWard m c)) m 0x14 (signalWard m c) :=
    faulted_execFault _ _ (by rw [stream_seqDone]; exact enabled) (by decide)
  have fault : finishCmd (seqDone s m c) m c.begun = execFault (seqDone s m c) m c.begun 0x14 (signalWard m c) :=
    finishCmd_dark (c := c.begun) atHome signal ((isDark_seqDone s m c _).trans dark)
  rw [fault, markBoundary_stays (.inr (by rw [faulted.1]; decide))] at exec
  exact gives_next exec faulted.observe

theorem seq_waits (next : nextLoaded (stream s m) = some c) (clean : c.fault = none) (wait : issueReady s m c = false) : Gives i s fun t =>
    (stream t m).cmds = (stream s m).cmds ∧ t.regs = s.regs ∧ t.trace = s.trace ∧ t.pwr = s.pwr ∧ t.mem = s.mem := by
  obtain ⟨exec, -, -⟩ := seq_row (s := s) row
  have same : issueNext s m (some c.opcode) = s := by
    unfold issueNext
    simp [next, clean, wait]
  rw [same] at exec
  exact gives_next exec ⟨stream_observe_cmds s m, observe_regs s, observe_trace s, observe_pwr s, observe_mem s⟩

end

/-- Settles O34: a command that may issue completes at once, with its effect and its signal, or faults where its signal's ward is dark. -/
theorem sequencerCommandsActAtIssue : Obligations.SequencerCommandsActAtIssue := by
  unfold Obligations.SequencerCommandsActAtIssue
  rintro i _ m c s row rfl
  exact ⟨seq_completes row, seq_dark row, fun _ next clean wait => seq_waits row next clean wait⟩

end Sys2Proof.Machine
end

section
/-!
SUPPORT. An engine's command at issue (05, R124, R132; 06, R154; 10, R252): what its reservations, its slot and its first pops change, and what a load or
issue fault leaves alone.
-/

namespace Sys2Proof.Machine

/-! ### A command with its reservations -/

/-- Command d is c but for its phase, its slot and its numbers on its queues: its walk is the same. -/
def Cmd.SameWork (c d : Cmd) : Prop := ∃ phase slot inBase inRes inPop outBase outRes outFill,
  d = { c with phase := phase, slot := slot, inBase := inBase, inRes := inRes, inPop := inPop, outBase := outBase, outRes := outRes, outFill := outFill }

namespace Cmd.SameWork
variable {c d f : Cmd}

theorem refl (c : Cmd) : c.SameWork c := ⟨_, _, _, _, _, _, _, _, rfl⟩

theorem trans (h : c.SameWork d) (k : d.SameWork f) : c.SameWork f := by
  obtain ⟨_, _, _, _, _, _, _, _, rfl⟩ := h
  obtain ⟨_, _, _, _, _, _, _, _, rfl⟩ := k
  exact ⟨_, _, _, _, _, _, _, _, rfl⟩

theorem num (h : c.SameWork d) : d.num = c.num := by obtain ⟨_, _, _, _, _, _, _, _, rfl⟩ := h; rfl
theorem opcode (h : c.SameWork d) : d.opcode = c.opcode := by obtain ⟨_, _, _, _, _, _, _, _, rfl⟩ := h; rfl
theorem stepNo (h : c.SameWork d) : d.step = c.step := by obtain ⟨_, _, _, _, _, _, _, _, rfl⟩ := h; rfl
theorem bounds (h : c.SameWork d) : d.bounds = c.bounds := by obtain ⟨_, _, _, _, _, _, _, _, rfl⟩ := h; rfl
theorem iter (h : c.SameWork d) : d.iter = c.iter := by obtain ⟨_, _, _, _, _, _, _, _, rfl⟩ := h; rfl
theorem w0 (h : c.SameWork d) : d.w0 = c.w0 := by obtain ⟨_, _, _, _, _, _, _, _, rfl⟩ := h; rfl
theorem out (h : c.SameWork d) : d.out = c.out := by obtain ⟨_, _, _, _, _, _, _, _, rfl⟩ := h; rfl
theorem outQ (h : c.SameWork d) (w e : Nat) : outQ w d e = outQ w c e := by obtain ⟨_, _, _, _, _, _, _, _, rfl⟩ := h; rfl
theorem inUsed (h : c.SameWork d) (e : Nat) : inUsed d e = inUsed c e := by obtain ⟨_, _, _, _, _, _, _, _, rfl⟩ := h; rfl
theorem inp (h : c.SameWork d) (e : Nat) : d.inp e = c.inp e := by obtain ⟨_, _, _, _, _, _, _, _, rfl⟩ := h; rfl
theorem unitCount (h : c.SameWork d) : unitCount d = unitCount c := by obtain ⟨_, _, _, _, _, _, _, _, rfl⟩ := h; rfl
theorem vectorsLeft (h : c.SameWork d) : vectorsLeft d = vectorsLeft c := by obtain ⟨_, _, _, _, _, _, _, _, rfl⟩ := h; rfl
theorem endOffset (h : c.SameWork d) (e : Nat) (v : List Nat) : endOffset d e v = endOffset c e v := by
  obtain ⟨_, _, _, _, _, _, _, _, rfl⟩ := h; rfl
theorem pushCount (h : c.SameWork d) (s : State) (e : Nat) : pushCount s d e = pushCount s c e := by
  obtain ⟨_, _, _, _, _, _, _, _, rfl⟩ := h; rfl

end Cmd.SameWork

/-- A queue with reservations added: its visible tiles have not moved. -/
structure QueueRt.Advanced (q r : QueueRt) : Prop where
  head : r.head = q.head
  tail : r.tail = q.tail
  resvPush : q.resvPush ≤ r.resvPush
  resvPop : q.resvPop ≤ r.resvPop

theorem QueueRt.Advanced.refl (q : QueueRt) : q.Advanced q := ⟨rfl, rfl, le_rfl, le_rfl⟩

theorem QueueRt.Advanced.trans {q r x : QueueRt} (h : q.Advanced r) (k : r.Advanced x) : q.Advanced x :=
  ⟨k.head.trans h.head, k.tail.trans h.tail, h.resvPush.trans k.resvPush, h.resvPop.trans k.resvPop⟩

/-- Command c of ward w with reservations made between two states: numbers reserved on queues alone. -/
structure Reserved (s t : State) (c d : Cmd) : Prop where
  frame : ∃ queues, t = { s with queues := queues }
  work : c.SameWork d
  queues : ∀ n, (queueRt s n).Advanced (queueRt t n)

theorem Reserved.of_work {c d : Cmd} (s : State) (work : c.SameWork d) : Reserved s s c d := ⟨⟨_, rfl⟩, work, fun _ => .refl _⟩

theorem Reserved.trans {s t u : State} {c d f : Cmd} (h : Reserved s t c d) (k : Reserved t u d f) : Reserved s u c f := by
  obtain ⟨⟨_, rfl⟩, work, queues⟩ := h
  obtain ⟨⟨_, rfl⟩, work', queues'⟩ := k
  exact ⟨⟨_, rfl⟩, work.trans work', fun n => (queues n).trans (queues' n)⟩

theorem reserved_setQueue {c d : Cmd} (s : State) (n : Nat) {q : QueueRt} (advanced : (queueRt s n).Advanced q) (work : c.SameWork d) :
    Reserved s (setQueue s n q) c d := by
  refine ⟨⟨_, rfl⟩, work, fun k => ?_⟩
  by_cases same : k = n
  · rw [same, queueRt_setQueue_same]; exact advanced
  · rw [queueRt_setQueue_other _ _ same]; exact .refl _

theorem reserved_reserveIn (s : State) (w : Nat) (c : Cmd) (e : Nat) : Reserved s (reserveIn s w c e).1 c (reserveIn s w c e).2 := by
  unfold reserveIn
  split
  · exact .of_work s ⟨_, _, _, _, _, _, _, _, rfl⟩
  · dsimp only
    split
    · exact .of_work s ⟨_, _, _, _, _, _, _, _, rfl⟩
    · exact reserved_setQueue s _ ⟨rfl, rfl, le_rfl, Nat.le_add_right _ _⟩ ⟨_, _, _, _, _, _, _, _, rfl⟩

theorem reserved_reserveOut (s : State) (w : Nat) (c : Cmd) (e : Nat) : Reserved s (reserveOut s w c e).1 c (reserveOut s w c e).2 := by
  unfold reserveOut
  split
  · exact .of_work s ⟨_, _, _, _, _, _, _, _, rfl⟩
  · exact reserved_setQueue s _ ⟨rfl, rfl, Nat.le_add_right _ _, le_rfl⟩ ⟨_, _, _, _, _, _, _, _, rfl⟩

/-- The reservations of a command's input ends. -/
def reserveIns (s : State) (w : Nat) (c : Cmd) : State × Cmd := (below 4).foldl (fun (t : State × Cmd) e => reserveIn t.1 w t.2 e) (s, c)

theorem reserveAll_eq (s : State) (w : Nat) (c : Cmd) : reserveAll s w c =
    reserveOut (reserveOut (reserveIns s w c).1 w (reserveIns s w c).2 0).1 w (reserveOut (reserveIns s w c).1 w (reserveIns s w c).2 0).2 1 := rfl

theorem reserved_reserveIns (s : State) (w : Nat) (c : Cmd) : Reserved s (reserveIns s w c).1 c (reserveIns s w c).2 :=
  List.foldlRecOn (motive := fun t : State × Cmd => Reserved s t.1 c t.2) (below 4) _ (.of_work s (.refl c))
    fun t kept e _ => kept.trans (reserved_reserveIn t.1 w t.2 e)

theorem reserved_reserveAll (s : State) (w : Nat) (c : Cmd) : Reserved s (reserveAll s w c).1 c (reserveAll s w c).2 := by
  rw [reserveAll_eq]
  exact ((reserved_reserveIns s w c).trans (reserved_reserveOut _ w _ 0)).trans (reserved_reserveOut _ w _ 1)

theorem resvPush_reserveIn (s : State) (w : Nat) (c : Cmd) (e n : Nat) : (queueRt (reserveIn s w c e).1 n).resvPush = (queueRt s n).resvPush := by
  unfold reserveIn
  split
  · rfl
  · dsimp only
    split
    · rfl
    · by_cases same : n = inQ w c e
      · rw [same, queueRt_setQueue_same]
      · rw [queueRt_setQueue_other _ _ same]

theorem resvPush_reserveIns (s : State) (w : Nat) (c : Cmd) (n : Nat) : (queueRt (reserveIns s w c).1 n).resvPush = (queueRt s n).resvPush :=
  List.foldlRecOn (motive := fun t : State × Cmd => (queueRt t.1 n).resvPush = (queueRt s n).resvPush) (below 4) _ rfl
    fun t kept e _ => (resvPush_reserveIn t.1 w t.2 e n).trans kept

/-- A command with one output end reserves on its queue the tiles that it pushes. -/
theorem resvPush_reserveAll {s : State} {w : Nat} {c : Cmd} (one : outPresent (c.out 0) = true) (sole : outPresent (c.out 1) = false) :
    (queueRt (reserveAll s w c).1 (outQ w c 0)).resvPush = (queueRt s (outQ w c 0)).resvPush + pushCount s c 0 := by
  have ins := reserved_reserveIns s w c
  have before := resvPush_reserveIns s w c (outQ w c 0)
  rw [reserveAll_eq]
  generalize reserveIns s w c = r at ins before
  obtain ⟨⟨queues, frame⟩, work, -⟩ := ins
  have first := (reserved_reserveOut r.1 w r.2 0).work
  have count : pushCount r.1 r.2 0 = pushCount s c 0 := by rw [frame, work.pushCount]; rfl
  have none : ¬(!outPresent (r.2.out 0)) = true := by rw [work.out, one]; decide
  have skipped : (!outPresent ((reserveOut r.1 w r.2 0).2.out 1)) = true := by rw [first.out, work.out, sole]; rfl
  rw [reserveOut, if_pos skipped, reserveOut, if_neg none]
  dsimp only
  rw [work.outQ, queueRt_setQueue_same, count, before]

/-! ### The slot taken (10, R252) -/

theorem takeSlot_takes (s : State) (c : Cmd) : (∃ regs, (takeSlot s c).1 = { s with regs := regs }) ∧ c.SameWork (takeSlot s c).2 ∧
    (takeSlot s c).2.phase = c.phase ∧ RegsKept s (takeSlot s c).1 ((below 16).map fun k => (MOD_T2SLOT_USE, k)) := by
  unfold takeSlot
  split
  · exact ⟨⟨_, rfl⟩, .refl c, rfl, .of_regs _ rfl⟩
  · dsimp only
    split
    · exact ⟨⟨_, rfl⟩, .refl c, rfl, .of_regs _ rfl⟩
    · next k held =>
      have named : (MOD_T2SLOT_USE, k) ∈ (below 16).map fun k => (MOD_T2SLOT_USE, k) := List.mem_map_of_mem (List.mem_of_find?_eq_some held)
      refine ⟨?_, ⟨_, _, _, _, _, _, _, _, rfl⟩, rfl, ?_⟩
      · split <;> exact ⟨_, rfl⟩
      · split
        · exact (RegsKept.of_regs _ rfl).fs (f := MOD_T2SLOT_USE_WRITERS) (i := k) _ named
        · exact (RegsKept.of_regs _ rfl).fs (f := MOD_T2SLOT_USE_READERS) (i := k) _ named

/-! ### Pops at issue (06, R154) -/

theorem advanceHead_keeps (f : Nat) (q : QueueRt) : q.head ≤ (advanceHead f q).head ∧ (advanceHead f q).tail = q.tail ∧
    (advanceHead f q).resvPush = q.resvPush ∧ (advanceHead f q).resvPop = q.resvPop := by
  induction f generalizing q with
  | zero => exact ⟨le_rfl, rfl, rfl, rfl⟩
  | succ f ih =>
    unfold advanceHead
    split
    · obtain ⟨head, rest⟩ := ih { q with head := q.head + 1, freed := q.freed.filter (· != q.head) }
      exact ⟨(Nat.le_succ _).trans head, rest⟩
    · exact ⟨le_rfl, rfl, rfl, rfl⟩

/-- A queue with position p among those freed. -/
def QueueRt.free (q : QueueRt) (p : Nat) : QueueRt := { q with freed := if q.freed.contains p then q.freed else p :: q.freed }

theorem qPop_eq (s : State) (n p : Nat) :
    qPop s n p = setQueue s n (advanceHead (((queueRt s n).free p).freed.length + 1) ((queueRt s n).free p)) := rfl

theorem qPop_keeps (s : State) (n p k : Nat) : (queueRt s k).head ≤ (queueRt (qPop s n p) k).head ∧
    (queueRt (qPop s n p) k).tail = (queueRt s k).tail ∧ (queueRt (qPop s n p) k).resvPush = (queueRt s k).resvPush ∧
    (queueRt (qPop s n p) k).resvPop = (queueRt s k).resvPop := by
  rw [qPop_eq]
  by_cases same : k = n
  · subst same
    rw [queueRt_setQueue_same]
    exact advanceHead_keeps _ ((queueRt s k).free p)
  · rw [queueRt_setQueue_other _ _ same]
    exact ⟨le_rfl, rfl, rfl, rfl⟩

section
variable (s : State) (m w : Nat) (c : Cmd) (rem : List (List Nat))

theorem tail_popEnds (n : Nat) : (queueRt (popEnds s m w c rem).1 n).tail = (queueRt s n).tail :=
  popEnds_keeps (fun t => (queueRt t n).tail) (fun t k p => (qPop_keeps t k p n).2.1) (fun _ _ _ => rfl) s m w c rem

theorem resvPush_popEnds (n : Nat) : (queueRt (popEnds s m w c rem).1 n).resvPush = (queueRt s n).resvPush :=
  popEnds_keeps (fun t => (queueRt t n).resvPush) (fun t k p => (qPop_keeps t k p n).2.2.1) (fun _ _ _ => rfl) s m w c rem

theorem resvPop_popEnds (n : Nat) : (queueRt (popEnds s m w c rem).1 n).resvPop = (queueRt s n).resvPop :=
  popEnds_keeps (fun t => (queueRt t n).resvPop) (fun t k p => (qPop_keeps t k p n).2.2.2) (fun _ _ _ => rfl) s m w c rem

theorem head_popEnds_ge (n : Nat) : (queueRt s n).head ≤ (queueRt (popEnds s m w c rem).1 n).head := by
  unfold popEnds
  refine List.foldlRecOn (motive := fun t : State × Cmd => (queueRt s n).head ≤ (queueRt t.1 n).head) _ _ le_rfl (fun t kept e _ => ?_)
  dsimp only
  split
  · exact List.foldlRecOn (motive := fun u : State => (queueRt s n).head ≤ (queueRt u n).head) _ _ kept
      fun u kept p _ => kept.trans (qPop_keeps u _ _ n).1
  · exact kept

/-- The pops of a command's ends change in it the number of tiles popped alone. -/
theorem inPop_popEnds : ∃ inPop, (popEnds s m w c rem).2 = { c with inPop := inPop } := by
  unfold popEnds
  refine List.foldlRecOn (motive := fun t : State × Cmd => ∃ inPop, t.2 = { c with inPop := inPop }) _ _ ⟨_, rfl⟩ (fun t ⟨inPop, same⟩ e _ => ?_)
  dsimp only
  split
  · exact ⟨_, by rw [same]⟩
  · exact ⟨inPop, same⟩

theorem sameWork_popEnds : c.SameWork (popEnds s m w c rem).2 := by
  obtain ⟨_, same⟩ := inPop_popEnds s m w c rem
  exact ⟨_, _, _, _, _, _, _, _, same⟩

variable {s m c}

theorem standing_popEnds (stands : Standing s m c) : Standing (popEnds s m w c rem).1 m (popEnds s m w c rem).2 := by
  unfold popEnds
  refine List.foldlRecOn (motive := fun t : State × Cmd => Standing t.1 m t.2) _ _ stands (fun t stands e _ => ?_)
  dsimp only
  split
  · refine Standing.setCmd (c := t.2) (stands.of_streams ?_) rfl
    exact foldl_keeps State.streams (fun u p => qPop u (inQ w t.2 e) (nth t.2.inBase e 0 + p)) (fun _ _ => rfl) _ _
  · exact stands

end

theorem foldl_min_le {α : Type} (f : α → Nat) (xs : List α) (a : Nat) :
    xs.foldl (fun a u => min a (f u)) a ≤ a ∧ ∀ x ∈ xs, xs.foldl (fun a u => min a (f u)) a ≤ f x := by
  induction xs generalizing a with
  | nil => simp
  | cons y ys ih =>
    obtain ⟨start, each⟩ := ih (min a (f y))
    rw [List.foldl_cons]
    refine ⟨start.trans (min_le_left _ _), fun x mem => ?_⟩
    rcases List.mem_cons.mp mem with rfl | later
    · exact start.trans (min_le_right _ _)
    · exact each x later

/-- An end of which a tile of offset 0 is yet to be read has no tile to pop. -/
theorem popTarget_eq_zero {c : Cmd} {e : Nat} {rem : List (List Nat)} {v : List Nat} (mem : v ∈ rem) (first : endOffset c e v ≤ 0) :
    popTarget c e rem = 0 := by
  have zero : (endOffset c e v).toNat = 0 := Int.toNat_of_nonpos first
  cases rem with
  | nil => cases mem
  | cons u us =>
    obtain ⟨start, each⟩ := foldl_min_le (fun u => (endOffset c e u).toNat) us (endOffset c e u).toNat
    refine Nat.eq_zero_of_le_zero ((min_le_right _ _).trans ?_)
    rcases List.mem_cons.mp mem with rfl | later
    · exact start.trans zero.le
    · exact (each v later).trans zero.le

/-- With a tile of offset 0 yet to be read at each of its ends, a command pops none. -/
theorem head_popEnds_eq {s : State} {m w : Nat} {c : Cmd} {rem : List (List Nat)}
    (first : ∀ e, e < 4 → inUsed c e = true → inKeep (c.inp e) = false → ∃ v ∈ rem, endOffset c e v ≤ 0) (n : Nat) :
    (queueRt (popEnds s m w c rem).1 n).head = (queueRt s n).head := by
  suffices h : (queueRt (popEnds s m w c rem).1 n).head = (queueRt s n).head ∧ c.SameWork (popEnds s m w c rem).2 from h.1
  unfold popEnds
  refine List.foldlRecOn (motive := fun t : State × Cmd => (queueRt t.1 n).head = (queueRt s n).head ∧ c.SameWork t.2) _ _ ⟨rfl, .refl c⟩
    (fun t ⟨kept, work⟩ e mem => ?_)
  dsimp only
  split
  · next pops =>
    simp only [Bool.and_eq_true, Bool.not_eq_true', work.inUsed, work.inp] at pops
    obtain ⟨v, listed, least⟩ := first e ((mem_below 4 e).mp mem) pops.1 pops.2
    have none : popTarget t.2 e rem = 0 := popTarget_eq_zero listed (by rw [work.endOffset]; exact least)
    rw [none, Nat.zero_mul, Nat.zero_min, Nat.zero_sub]
    exact ⟨kept, work.trans ⟨_, _, _, _, _, _, _, _, rfl⟩⟩
  · exact ⟨kept, work⟩

/-! ### A load or issue fault (05, R132; 06, R174) -/

theorem failStream_keeps (s : State) (m tag code detail step : Nat) :
    (failStream s m tag code detail step).mem = s.mem ∧ (failStream s m tag code detail step).queues = s.queues := by
  have entry := metKept_failEntry (if code = 0x12 then noteUe s detail tag else s) 1 tag m code (detail % 2 ^ 32) step
  refine ⟨entry.mem.trans ?_, entry.queues.trans ?_⟩ <;> split <;> rfl

theorem writeFault_keeps (s : State) (m code tag detail num : Nat) :
    (writeFault s m code tag detail num).mem = s.mem ∧ (writeFault s m code tag detail num).queues = s.queues := by
  have word : ∀ (t : State) (r : Reg) (i : Nat) (v : Word), (wr t r i v).mem = t.mem ∧ (wr t r i v).queues = t.queues := fun _ _ _ _ => ⟨rfl, rfl⟩
  obtain ⟨mem, queues⟩ := failStream_keeps s m tag code detail (rd s WARD_SSTEP m).toNat
  unfold writeFault fs
  simp only [word]
  exact ⟨mem, queues⟩

/-- The stream that a load or issue fault leaves: what has issued alone. -/
def issuedOnly (x : Stream) : Stream := { x with st := .faulting, cmds := x.cmds.filter (fun k => k.phase != .loaded) }

theorem issueFault_eq (s : State) (m : Nat) (c : Cmd) (code detail : Nat) :
    issueFault s m c code detail = setStream (writeFault s m code c.tag detail c.num) m (issuedOnly (stream s m)) := rfl

/-- A load or issue fault stops its stream, with what has issued alone left in it. -/
theorem issueFault_faults (s : State) (m : Nat) (c : Cmd) {code : Nat} (detail : Nat) (small : code < 256) :
    Faulted (issueFault s m c code detail) m code detail ∧ (∀ k ∈ (stream (issueFault s m c code detail) m).cmds, k.phase ≠ .loaded) ∧
      (issueFault s m c code detail).mem = s.mem ∧ (issueFault s m c code detail).queues = s.queues := by
  have kept : ∀ (u : State) (x : Stream), rd (setStream u m x) WARD_SFAULT_DETAIL m = rd u WARD_SFAULT_DETAIL m := fun _ _ => rfl
  rw [issueFault_eq]
  obtain ⟨mem, queues⟩ := writeFault_keeps s m code c.tag detail c.num
  refine ⟨⟨?_, ?_, ?_⟩, fun k listed => ?_, by rw [setStream_mem, mem], by rw [setStream_queues, queues]⟩
  · rw [stream_setStream_same]; rfl
  · rw [fg_of_regs (setStream_regs _ _ _), fg_writeFault_code _ _ _ _ _ _ small]
  · rw [kept, rd_writeFault_detail]
    rfl
  · rw [stream_setStream_same] at listed
    simpa using (List.mem_filter.mp listed).2

end Sys2Proof.Machine
end

section
/-!
PROOFS. The statement about issue (05, R124, R132, R146; 06, R154, R159): the state in which an engine has its command, COMMAND_ISSUE by its cases, and
the obligation from them.
-/

namespace Sys2Proof.Machine

/-! ### An engine given its command -/

/-- A command with its bounds read from its ward's bound table. -/
def bounded (s : State) (m : Nat) (c : Cmd) : Cmd := { c with bounds := readBounds s (m / 8) c }

/-- The state and the command with reservations made and a slot taken. -/
def slotted (s : State) (m : Nat) (c : Cmd) : State × Cmd :=
  takeSlot (reserveAll s (m / 8) (bounded s m c)).1 { (reserveAll s (m / 8) (bounded s m c)).2 with phase := .issued }

/-- The stream with the command issued. -/
def withIssued (x y : Stream) (c : Cmd) : Stream := { x with cmds := replaceCmd y.cmds c, waitPulse := 0 }

/-- The state with command d, which holds its reservations, last in its engine's buffer. -/
def buffered (s u : State) (m : Nat) (d : Cmd) : State :=
  setEbuf (setStream u m (withIssued (stream u m) (stream s m) d)) (m / 8) (engineOf u (m / 8) d) (ebuf u (m / 8) (engineOf u (m / 8) d) ++ [(m, d.num)])

/-- A JOURNAL's step noted. -/
def journalNoted (s : State) (d : Cmd) : State :=
  if d.opcode = 0x40 then { s with watch := { s.watch with journaled := s.watch.journaled ++ [d.step] } } else s

/-- The state in which an engine holds the command, before its first pops. -/
def engineHolds (s : State) (m : Nat) (c : Cmd) : State :=
  journalNoted (buffered s (slotted s m c).1 m (slotted s m c).2) (slotted s m c).2

/-- The state and the command once its first pops are made. -/
def engineGiven (s : State) (m : Nat) (c : Cmd) : State × Cmd :=
  popEnds (engineHolds s m c) m (m / 8) (slotted s m c).2 (vectorsLeft (slotted s m c).2)

section
variable {s : State} {m : Nat} {c : Cmd}

theorem issueNext_of_fault {code d : Nat} (enabled : (stream s m).st = .enabled) (active : wardActive s (m / 8) = true)
    (next : nextLoaded (stream s m) = some c) (bad : c.fault = some (code, d)) : issueNext s m none = issueFault s m c code d := by
  unfold issueNext
  dsimp only
  rw [if_neg (by simp [enabled, active]), next]
  dsimp only
  rw [if_neg (by simp), bad]

theorem issueNext_of_engine (may : MayIssue s m c) (engine : isSeqOp c.opcode = false) : issueNext s m none =
    match issueCheck s m (bounded s m c) with
    | some (code, d) => issueFault s m c code d
    | none => if unitCount (engineGiven s m c).2 = 0 then completeCmd (engineGiven s m c).1 m (engineGiven s m c).2 else (engineGiven s m c).1 := by
  obtain ⟨enabled, active, next, clean, ready⟩ := may
  unfold issueNext
  dsimp only
  rw [if_neg (by simp [enabled, active]), next]
  dsimp only
  rw [if_neg (by simp)]
  split
  · next fault => rw [clean] at fault; cases fault
  · rw [if_neg (by simp [ready]), if_neg (by simp [engine])]
    rfl

/-- What stands of a command with its reservations and its slot. -/
theorem slotted_holds (s : State) (m : Nat) (c : Cmd) : (∃ regs queues, (slotted s m c).1 = { s with regs := regs, queues := queues }) ∧
    (bounded s m c).SameWork (slotted s m c).2 ∧ (slotted s m c).2.phase = .issued ∧
    RegsKept s (slotted s m c).1 ((below 16).map fun k => (MOD_T2SLOT_USE, k)) ∧
    (slotted s m c).1.queues = (reserveAll s (m / 8) (bounded s m c)).1.queues := by
  obtain ⟨⟨queues, frame⟩, work, -⟩ := reserved_reserveAll s (m / 8) (bounded s m c)
  obtain ⟨⟨regs, slot⟩, same, phase, kept⟩ :=
    takeSlot_takes (reserveAll s (m / 8) (bounded s m c)).1 { (reserveAll s (m / 8) (bounded s m c)).2 with phase := .issued }
  unfold slotted
  refine ⟨⟨regs, queues, slot.trans ?_⟩, (work.trans ⟨_, _, _, _, _, _, _, _, rfl⟩).trans same, phase, ?_, by rw [slot]⟩
  · rw [frame]
  · rw [frame] at kept ⊢
    exact kept

theorem journalNoted_frame (s : State) (d : Cmd) : ∃ watch, journalNoted s d = { s with watch := watch } := by
  unfold journalNoted
  split <;> exact ⟨_, rfl⟩

theorem findCmd_ne_none {cs : List Cmd} {c : Cmd} (mem : c ∈ cs) : findCmd cs c.num ≠ none := by
  induction cs with
  | nil => cases mem
  | cons d cs ih =>
    rw [findCmd]
    split
    · simp
    · next other =>
      rcases List.mem_cons.mp mem with rfl | later
      · exact absurd rfl other
      · exact ih later

theorem engineHolds_frame (s : State) (m : Nat) (c : Cmd) : ∃ streams engines watch,
    engineHolds s m c = { (slotted s m c).1 with streams := streams, engines := engines, watch := watch } := by
  obtain ⟨watch, frame⟩ := journalNoted_frame (buffered s (slotted s m c).1 m (slotted s m c).2) (slotted s m c).2
  exact ⟨_, _, watch, frame⟩

theorem queueRt_engineHolds (s : State) (m : Nat) (c : Cmd) (n : Nat) :
    queueRt (engineHolds s m c) n = queueRt (reserveAll s (m / 8) (bounded s m c)).1 n := by
  obtain ⟨_, _, _, frame⟩ := engineHolds_frame s m c
  obtain ⟨-, -, -, -, same⟩ := slotted_holds s m c
  unfold queueRt
  rw [frame, ← same]

theorem standing_engineHolds (listed : c ∈ (stream s m).cmds) : Standing (engineHolds s m c) m (slotted s m c).2 := by
  obtain ⟨-, work, -⟩ := slotted_holds s m c
  obtain ⟨watch, frame⟩ := journalNoted_frame (buffered s (slotted s m c).1 m (slotted s m c).2) (slotted s m c).2
  have own : stream (engineHolds s m c) m = withIssued (stream (slotted s m c).1 m) (stream s m) (slotted s m c).2 := by
    rw [engineHolds, frame]
    exact stream_setStream_same _ _ _
  unfold Standing
  rw [own]
  have num : (slotted s m c).2.num = c.num := work.num
  refine findCmd_replaceCmd _ _ ?_
  rw [num]
  exact findCmd_ne_none listed

theorem ebuf_engineHolds (s : State) (m : Nat) (c : Cmd) : ∃ e, ebuf (engineHolds s m c) (m / 8) e = ebuf s (m / 8) e ++ [(m, c.num)] := by
  obtain ⟨⟨_, _, slot⟩, work, -⟩ := slotted_holds s m c
  obtain ⟨watch, frame⟩ := journalNoted_frame (buffered s (slotted s m c).1 m (slotted s m c).2) (slotted s m c).2
  have before : ∀ e, ebuf (slotted s m c).1 (m / 8) e = ebuf s (m / 8) e := fun e => by unfold ebuf; rw [slot]
  have num : (slotted s m c).2.num = c.num := work.num
  refine ⟨engineOf (slotted s m c).1 (m / 8) (slotted s m c).2, ?_⟩
  rw [engineHolds, frame, ← before, ← num]
  exact sget_sset_same _ _ _ _

theorem journaled_engineHolds (journal : c.opcode = 0x40) : (engineHolds s m c).watch.journaled = s.watch.journaled ++ [c.step] := by
  obtain ⟨⟨_, _, slot⟩, work, -⟩ := slotted_holds s m c
  rw [engineHolds, journalNoted, if_pos (work.opcode.trans journal), work.stepNo, buffered, slot]
  rfl

theorem engineHolds_keeps (s : State) (m : Nat) (c : Cmd) :
    (engineHolds s m c).mem = s.mem ∧ RegsKept s (engineHolds s m c) ((below 16).map fun k => (MOD_T2SLOT_USE, k)) := by
  obtain ⟨_, _, _, frame⟩ := engineHolds_frame s m c
  obtain ⟨⟨_, _, slot⟩, -, -, kept, -⟩ := slotted_holds s m c
  have mem : (slotted s m c).1.mem = s.mem := by rw [slot]
  rw [frame]
  exact ⟨mem, kept⟩

variable (may : MayIssue s m c) (engine : isSeqOp c.opcode = false)
include may engine

theorem commandIssue_faults {code d : Nat} (bad : issueCheck s m (bounded s m c) = some (code, d)) (small : code < 256) :
    Gives (.commandIssue m) s fun t => Faulted t m code d ∧ (∀ k ∈ (stream t m).cmds, k.phase ≠ .loaded) ∧ t.mem = s.mem ∧ t.queues = s.queues := by
  have row : exec (.commandIssue m) s = .next (observe (issueNext s m none)) := rfl
  rw [issueNext_of_engine may engine, bad] at row
  obtain ⟨faulted, stopped, mem, queues⟩ := issueFault_faults s m c d small
  exact gives_next row ⟨faulted.observe, by rwa [stream_observe_cmds], by rwa [observe_mem], by rwa [observe_queues]⟩

theorem exec_commandIssue (good : issueCheck s m (bounded s m c) = none) (units : unitCount (bounded s m c) ≠ 0) :
    exec (.commandIssue m) s = .next (observe (engineGiven s m c).1) := by
  have row : exec (.commandIssue m) s = .next (observe (issueNext s m none)) := rfl
  have work : (bounded s m c).SameWork (engineGiven s m c).2 := by
    obtain ⟨-, work, -⟩ := slotted_holds s m c
    exact work.trans (sameWork_popEnds _ _ _ _ _)
  rw [row, issueNext_of_engine may engine, good]
  dsimp only
  rw [if_neg (by rw [work.unitCount]; exact units)]

theorem commandIssue_issues (good : issueCheck s m (bounded s m c) = none) (units : unitCount (bounded s m c) ≠ 0) :
    Gives (.commandIssue m) s fun t =>
      (∃ c', findCmd (stream t m).cmds c.num = some c' ∧ c'.phase = .issued ∧ c'.bounds = (bounded s m c).bounds ∧ c'.iter = c.iter ∧ c'.w0 = c.w0) ∧
      (∃ e, ebuf t (m / 8) e = ebuf s (m / 8) e ++ [(m, c.num)]) ∧
      ((∀ e, e < 4 → inUsed c e = true → inKeep (c.inp e) = false →
          ∃ v ∈ vectorsLeft (bounded s m c), endOffset (bounded s m c) e v ≤ 0) → ∀ n, (queueRt t n).head = (queueRt s n).head) ∧
      (∀ n, (queueRt s n).head ≤ (queueRt t n).head ∧ (queueRt t n).tail = (queueRt s n).tail ∧
        (queueRt s n).resvPush ≤ (queueRt t n).resvPush ∧ (queueRt s n).resvPop ≤ (queueRt t n).resvPop) ∧
      (outPresent (c.out 0) = true → outPresent (c.out 1) = false →
        (queueRt t (outQ (m / 8) c 0)).resvPush = (queueRt s (outQ (m / 8) c 0)).resvPush + pushCount s (bounded s m c) 0) ∧
      (c.opcode = 0x40 → t.watch.journaled = s.watch.journaled ++ [c.step]) ∧ t.mem = s.mem ∧
      RegsKept s t ((below 16).map (fun k => (MOD_T2SLOT_USE, k))) := by
  have row := exec_commandIssue may engine good units
  obtain ⟨-, -, next, -⟩ := may
  have reserved := (reserved_reserveAll s (m / 8) (bounded s m c)).queues
  have queue := queueRt_engineHolds s m c
  obtain ⟨buffer, last⟩ := ebuf_engineHolds s m c
  obtain ⟨mem, kept⟩ := engineHolds_keeps s m c
  obtain ⟨-, work, issued, -⟩ := slotted_holds s m c
  have stands := standing_popEnds (m / 8) (vectorsLeft (slotted s m c).2) (standing_engineHolds (List.mem_of_find?_eq_some next))
  obtain ⟨inPop, popped⟩ := inPop_popEnds (engineHolds s m c) m (m / 8) (slotted s m c).2 (vectorsLeft (slotted s m c).2)
  unfold engineGiven at row
  refine gives_next row ⟨⟨{ (slotted s m c).2 with inPop := inPop }, ?_, issued, work.bounds, work.iter, work.w0⟩, ⟨buffer, ?_⟩, fun first n => ?_,
    fun n => ⟨?_, ?_, ?_, ?_⟩, fun one other => ?_, fun journal => ?_, ?_, RegsKept.observe fun k out => ?_⟩
  · have num : (slotted s m c).2.num = c.num := work.num
    rw [popped] at stands
    rw [stream_observe_cmds, ← num]
    exact stands
  · rw [← last]
    unfold ebuf
    rw [observe_engines, popEnds_keeps State.engines (fun _ _ _ => rfl) (fun _ _ _ => rfl)]
  · rw [queueRt_observe, head_popEnds_eq (fun e low used keep => ?_), queue, (reserved n).head]
    obtain ⟨x, listed, least⟩ := first e low ((work.inUsed e).symm.trans used) ((congrArg inKeep (work.inp e)).symm.trans keep)
    exact ⟨x, by rwa [work.vectorsLeft], by rwa [work.endOffset]⟩
  · rw [queueRt_observe, ← (reserved n).head, ← queue]
    exact head_popEnds_ge _ _ _ _ _ n
  · rw [queueRt_observe, tail_popEnds, queue, (reserved n).tail]
  · rw [queueRt_observe, resvPush_popEnds, queue]; exact (reserved n).resvPush
  · rw [queueRt_observe, resvPop_popEnds, queue]; exact (reserved n).resvPop
  · rw [queueRt_observe, resvPush_popEnds, queue]
    exact resvPush_reserveAll (c := bounded s m c) one other
  · rw [observe_watch, popEnds_keeps State.watch (fun _ _ _ => rfl) (fun _ _ _ => rfl), journaled_engineHolds journal]
  · rw [observe_mem, popEnds_keeps State.mem (fun _ _ _ => rfl) (fun _ _ _ => rfl), mem]
  · rw [popEnds_keeps State.regs (fun _ _ _ => rfl) (fun _ _ _ => rfl)]; exact kept k out

end

/-- A command that holds a load fault stops its stream with it. -/
theorem commandIssue_loadFault {s : State} {m : Nat} {c : Cmd} {code d : Nat} (enabled : (stream s m).st = .enabled)
    (active : wardActive s (m / 8) = true) (next : nextLoaded (stream s m) = some c) (bad : c.fault = some (code, d)) (small : code < 256) :
    Gives (.commandIssue m) s fun t => Faulted t m code d ∧ (∀ k ∈ (stream t m).cmds, k.phase ≠ .loaded) ∧ t.mem = s.mem ∧ t.queues = s.queues := by
  have row : exec (.commandIssue m) s = .next (observe (issueNext s m none)) := rfl
  rw [issueNext_of_fault enabled active next bad] at row
  obtain ⟨faulted, stopped, mem, queues⟩ := issueFault_faults s m c d small
  exact gives_next row ⟨faulted.observe, by rwa [stream_observe_cmds], by rwa [observe_mem], by rwa [observe_queues]⟩

/-- Settles O35: a load fault, a failed check and an engine given its command are the ends of an issue. -/
theorem commandsIssueWithTheirReservations : Obligations.CommandsIssueWithTheirReservations := by
  unfold Obligations.CommandsIssueWithTheirReservations
  intro m c s
  exact ⟨fun may engine => ⟨fun good _ units => commandIssue_issues may engine good units, fun _ _ bad small => commandIssue_faults may engine bad small⟩,
    fun _ _ => commandIssue_loadFault⟩

end Sys2Proof.Machine
end

section
/-!
SUPPORT. The quiescence detector (06, R166, R167): what a blocked stream's capture can hold, the captures of many streams read back, and what an
entry of the failure record and an event leave alone (18, R453; 20, R502).
-/

namespace Sys2Proof.Machine

/-! ### The failure record (20, R502) -/

/-- An entry put into the failure record, or counted as dropped, changes the record and its counter alone. -/
theorem failEntry_frame (s : State) (kind tag unit code detail step : Nat) :
    ∃ regs store, failEntry s kind tag unit code detail step = { s with regs := regs, store := store } := by
  unfold failEntry
  dsimp only
  split
  · exact ⟨_, s.store, rfl⟩
  · exact ⟨s.regs, _, rfl⟩

/-- While the record is open an entry of no stream fault is put at its front. -/
theorem failEntry_enters (s : State) (kind tag unit code detail step : Nat) (unsealed : s.store.fail.closed = false) (other : kind ≠ 1) :
    (failEntry s kind tag unit code detail step).store.fail.eseq = s.store.fail.eseq + 1 ∧
      (failEntry s kind tag unit code detail step).store.fail.entries.head?.map FailEntry.kind = some kind := by
  unfold failEntry
  dsimp only
  rw [if_neg (by simp [unsealed, other])]
  exact ⟨rfl, rfl⟩

theorem rd_raiseEvent (s : State) (code tag unit d0 d1 : Nat) (r : Reg) (i : Nat) (out : r.no ≠ MC_EVENT.no) :
    rd (raiseEvent s code tag unit d0 d1) r i = rd s r i := by
  obtain ⟨mc, lost, event, -⟩ := raiseEvent_eq s code tag unit d0 d1
  rw [event]
  exact rd_fs_of_no s MC_EVENT_LOST r 0 i _ out

/-! ### Bounds of what a capture holds -/

/-- LOGICAL has three bits: no more than 140 logical wards. -/
theorem wardCount_le (s : State) : wardCount s ≤ 140 := by
  have three : ∀ x ∈ (below 20).map (logicalOf s), x ≤ 7 := by
    intro x hx
    obtain ⟨d, -, rfl⟩ := List.mem_map.mp hx
    exact Nat.le_of_lt_succ (fg_lt s PWR_SREG_LOGICAL d)
  have sum := List.sum_le_card_nsmul _ 7 three
  rw [List.sum_eq_foldl] at sum
  unfold wardCount sumNat
  simpa using sum

theorem engineWait_cause_le {s : State} {w e : Nat} {x : Nat × Nat} (h : engineWait s w e = some x) : x.1 ≤ 3 := by
  unfold engineWait at h
  split at h
  · cases h
  · split at h <;> cases h <;> simp

/-- The causes of WARD_SBLOCK are 1 to 4. -/
theorem blockCause_cause_le {s : State} {m : Nat} {b : Nat × Nat × Nat × Nat × Nat} (h : blockCause s m = some b) : b.1 ≤ 4 := by
  unfold blockCause at h
  dsimp only at h
  split at h
  · cases h
  split at h
  · next issue =>
    cases h
    split at issue
    · cases issue
    · split at issue
      · split at issue <;> cases issue
        simp
      · split at issue <;> cases issue
        simp
  · split at h
    · cases h
    · split at h
      · cases h
      · split at h
        · cases h
        · split at h
          · cases h
          · next wait =>
            split at h <;> cases h
            · exact (engineWait_cause_le wait).trans (by decide)
            · simp

theorem blockWord_lt {b : Nat × Nat × Nat × Nat × Nat} (cause : b.1 ≤ 4) : blockWord b < 2 ^ 32 := by unfold blockWord; omega

theorem blockTag_lt (b : Nat × Nat × Nat × Nat × Nat) : blockTag b < 2 ^ 32 := by unfold blockTag; omega

/-! ### Captures (06, R167) -/

/-- What WARD_SBLOCK and WARD_SBLOCK_TAG of a stream show. -/
def captureOf (s : State) (m : Nat) : Word × Word := (rd s WARD_SBLOCK m, rd s WARD_SBLOCK_TAG m)

/-- A stream's capture written. -/
def capture (s : State) (m : Nat) (v : Word × Word) : State := wr (wr s WARD_SBLOCK m v.1) WARD_SBLOCK_TAG m v.2

theorem captureOf_capture_same (s : State) (m : Nat) (v : Word × Word) : captureOf (capture s m v) m = v := by
  unfold captureOf capture
  rw [rd_wr_of_no _ _ _ _ _ _ (by decide), rd_wr_same, rd_wr_same]

theorem captureOf_capture_other (s : State) {m k : Nat} (v : Word × Word) (small : m < 2 ^ 20 ∧ k < 2 ^ 20) (ne : k ≠ m) :
    captureOf (capture s m v) k = captureOf s k := by
  have apart : ∀ r : Reg, r.key k ≠ r.key m := fun r eq => by unfold Reg.key at eq; omega
  unfold captureOf capture
  rw [rd_wr_of_no _ _ _ _ _ _ (by decide), rd_wr_other _ _ _ _ _ _ (apart _), rd_wr_other _ _ _ _ _ _ (apart _),
    rd_wr_of_no _ _ _ _ _ _ (by decide)]

/-- After many captures a stream shows v where every capture of it gives v, and it shows v already or is captured at all. -/
theorem captureOf_foldl {α : Type} (at' : α → Nat) (word : α → Word × Word) (xs : List α) (s : State) {m : Nat} {v : Word × Word}
    (small : m < 2 ^ 20 ∧ ∀ x ∈ xs, at' x < 2 ^ 20) (same : ∀ x ∈ xs, at' x = m → word x = v) (shown : captureOf s m = v ∨ ∃ x ∈ xs, at' x = m) :
    captureOf (xs.foldl (fun t x => capture t (at' x) (word x)) s) m = v := by
  induction xs generalizing s with
  | nil => simpa using shown
  | cons x xs ih =>
    obtain ⟨low, hx, hxs⟩ := (And.imp_right List.forall_mem_cons.mp small : _ ∧ _ ∧ _)
    obtain ⟨here, later⟩ := List.forall_mem_cons.mp same
    refine ih _ ⟨low, hxs⟩ later ?_
    by_cases own : at' x = m
    · left
      dsimp only
      rw [own, captureOf_capture_same, here own]
    · dsimp only
      rw [captureOf_capture_other s _ ⟨hx, low⟩ (Ne.symm own)]
      simpa [own] using shown

theorem foldl_capture_frame {α : Type} (at' : α → Nat) (word : α → Word × Word) (xs : List α) (s : State) :
    ∃ regs, xs.foldl (fun t x => capture t (at' x) (word x)) s = { s with regs := regs } :=
  List.foldlRecOn (motive := fun t : State => ∃ regs, t = { s with regs := regs }) xs _ ⟨_, rfl⟩ (fun _ ⟨_, frame⟩ _ _ => frame ▸ ⟨_, rfl⟩)

/-! ### FLT_STALL raised (06, R167) -/

/-- The streams of the module. -/
def stallStreams (s : State) : List Nat := below (8 * wardCount s)

/-- The blocked streams with their causes. -/
def blockedStreams (s : State) : List (Nat × Nat × Nat × Nat × Nat × Nat) :=
  (stallStreams s).filterMap (fun m => (blockCause s m).map (fun b => (m, b)))

/-- The words of a blocked stream's capture. -/
def blockWords (b : Nat × Nat × Nat × Nat × Nat) : Word × Word := (BitVec.ofNat 32 (blockWord b), BitVec.ofNat 32 (blockTag b))

/-- Every stream's capture taken. -/
def stallCaptured (s : State) : State :=
  (blockedStreams s).foldl (fun t p => capture t p.1 (blockWords p.2)) ((stallStreams s).foldl (fun t m => capture t m (0, 0)) s)

/-- The state with its captures and its count, before the record and the event. -/
def stallShown (s : State) : State :=
  { wr (stallCaptured s) MOD_STALL_STATUS 0 (BitVec.ofNat 32 (2 ^ 31 + (blockedStreams s).length)) with stalled := true }

theorem stall_eq (s : State) : ∃ tag d0 d1, stall s =
    raiseEvent (failEntry (stallShown s) 2 tag 0 (blockedStreams s).length 0 noStep) 1 tag (blockedStreams s).length d0 d1 := ⟨_, _, _, rfl⟩

theorem stallShown_frame (s : State) : ∃ regs, stallShown s = { s with regs := regs, stalled := true } := by
  obtain ⟨_, zeroed⟩ := foldl_capture_frame id (fun _ => (0, 0)) (stallStreams s) s
  obtain ⟨regs, blocked⟩ := foldl_capture_frame Prod.fst (fun p => blockWords p.2) (blockedStreams s) ((stallStreams s).foldl (fun t m => capture t m (0, 0)) s)
  have captured : stallCaptured s = { s with regs := regs } := by
    unfold stallCaptured
    rw [blocked]
    simp only [id] at zeroed
    rw [zeroed]
  unfold stallShown
  rw [captured]
  exact ⟨_, rfl⟩

theorem length_blockedStreams (s : State) : (blockedStreams s).length = ((stallStreams s).filter (fun m => (blockCause s m).isSome)).length := by
  unfold blockedStreams
  rw [List.length_filterMap_eq_countP, List.countP_eq_length_filter]
  simp

theorem length_blockedStreams_le (s : State) : (blockedStreams s).length ≤ 1120 := by
  have wards := wardCount_le s
  have fewer := List.length_filterMap_le (fun m => (blockCause s m).map (fun b => (m, b))) (stallStreams s)
  unfold stallStreams at fewer
  rw [length_below] at fewer
  exact fewer.trans (by omega)

theorem mem_blockedStreams {s : State} {p : Nat × Nat × Nat × Nat × Nat × Nat} : p ∈ blockedStreams s ↔ p.1 ∈ stallStreams s ∧ blockCause s p.1 = some p.2 := by
  obtain ⟨m, b⟩ := p
  simp only [blockedStreams, List.mem_filterMap, Option.map_eq_some_iff, Prod.mk.injEq]
  constructor
  · rintro ⟨k, listed, b', cause, rfl, rfl⟩
    exact ⟨listed, cause⟩
  · rintro ⟨listed, cause⟩
    exact ⟨m, listed, b, cause, rfl, rfl⟩

/-- A stream's capture shows its cause, or zeros where it is not blocked. -/
theorem captureOf_stallCaptured (s : State) {m : Nat} (here : m < 8 * wardCount s) :
    captureOf (stallCaptured s) m = ((blockCause s m).map blockWords).getD (0, 0) := by
  have wards := wardCount_le s
  have listed : m ∈ stallStreams s := (mem_below _ _).mpr here
  have small : ∀ k ∈ stallStreams s, k < 2 ^ 20 := fun k hk => by have := (mem_below _ _).mp hk; omega
  have zeroed : captureOf ((stallStreams s).foldl (fun t k => capture t k (0, 0)) s) m = (0, 0) :=
    captureOf_foldl id (fun _ => (0, 0)) (stallStreams s) s ⟨small m listed, small⟩ (fun _ _ _ => rfl) (.inr ⟨m, listed, rfl⟩)
  refine captureOf_foldl Prod.fst (fun p => blockWords p.2) (blockedStreams s) _
    ⟨small m listed, fun p hp => small _ (mem_blockedStreams.mp hp).1⟩ (fun p hp own => ?_) ?_
  · rw [← own, (mem_blockedStreams.mp hp).2]
    rfl
  · cases cause : blockCause s m with
    | none => exact .inl zeroed
    | some b => exact .inr ⟨(m, b), mem_blockedStreams.mpr ⟨listed, cause⟩, rfl⟩

/-- The record and the event leave every register alone but their own counters. -/
theorem rd_stall (s : State) (r : Reg) (i : Nat) (out : r.no ∉ errRegs.map Reg.no ∧ r.no ≠ MC_EVENT.no) :
    rd (stall s) r i = rd (stallShown s) r i := by
  obtain ⟨tag, d0, d1, raised⟩ := stall_eq s
  rw [raised, rd_raiseEvent _ _ _ _ _ _ _ _ out.2]
  exact (metKept_failEntry _ _ _ _ _ _ _).rd r i out.1

theorem rd_stall_status (s : State) : (rd (stall s) MOD_STALL_STATUS 0).toNat = 2 ^ 31 + (blockedStreams s).length := by
  have few := length_blockedStreams_le s
  rw [rd_stall _ _ _ (by decide)]
  have shown : rd (stallShown s) MOD_STALL_STATUS 0 = BitVec.ofNat 32 (2 ^ 31 + (blockedStreams s).length) := rd_wr_same _ _ _ _
  rw [shown, BitVec.toNat_ofNat]
  exact Nat.mod_eq_of_lt (by omega)

theorem captureOf_stall (s : State) {m : Nat} (here : m < 8 * wardCount s) :
    captureOf (stall s) m = ((blockCause s m).map blockWords).getD (0, 0) := by
  rw [← captureOf_stallCaptured s here]
  unfold captureOf
  rw [rd_stall _ _ _ (by decide), rd_stall _ _ _ (by decide)]
  exact Prod.ext (rd_wr_of_no _ _ _ _ _ _ (by decide)) (rd_wr_of_no _ _ _ _ _ _ (by decide))

theorem rd_stall_capture (s : State) {m : Nat} (here : m < 8 * wardCount s) :
    (rd (stall s) WARD_SBLOCK m).toNat = ((blockCause s m).map blockWord).getD 0 ∧
      (rd (stall s) WARD_SBLOCK_TAG m).toNat = ((blockCause s m).map blockTag).getD 0 := by
  obtain ⟨word, tag⟩ := Prod.mk.inj (captureOf_stall s here)
  rw [word, tag]
  cases cause : blockCause s m with
  | none => simp
  | some b =>
    simp only [Option.map_some, Option.getD_some, blockWords, BitVec.toNat_ofNat]
    exact ⟨Nat.mod_eq_of_lt (blockWord_lt (blockCause_cause_le cause)), Nat.mod_eq_of_lt (blockTag_lt b)⟩

/-- The stall raises one event and leaves streams, queues and memory alone. -/
theorem stall_keeps (s : State) : (stall s).stalled = true ∧ (stall s).mc.evseq = s.mc.evseq + 1 ∧ (stall s).streams = s.streams ∧
    (stall s).queues = s.queues ∧ (stall s).mem = s.mem := by
  obtain ⟨tag, d0, d1, raised⟩ := stall_eq s
  obtain ⟨_, shown⟩ := stallShown_frame s
  obtain ⟨_, _, entered⟩ := failEntry_frame (stallShown s) 2 tag 0 (blockedStreams s).length 0 noStep
  obtain ⟨_, _, event, evseq⟩ := raiseEvent_eq (failEntry (stallShown s) 2 tag 0 (blockedStreams s).length 0 noStep) 1 tag (blockedStreams s).length d0 d1
  rw [raised, event]
  refine ⟨?_, evseq.trans ?_, ?_, ?_, ?_⟩ <;> rw [entered, shown] <;> rfl

theorem stall_enters (s : State) (unsealed : s.store.fail.closed = false) :
    (stall s).store.fail.eseq = s.store.fail.eseq + 1 ∧ (stall s).store.fail.entries.head?.map FailEntry.kind = some 2 := by
  obtain ⟨tag, d0, d1, raised⟩ := stall_eq s
  obtain ⟨_, shown⟩ := stallShown_frame s
  have store : (stallShown s).store = s.store := by rw [shown]
  have entered := failEntry_enters (stallShown s) 2 tag 0 (blockedStreams s).length 0 noStep (by rw [store]; exact unsealed) (by decide)
  obtain ⟨_, _, event, -⟩ := raiseEvent_eq (failEntry (stallShown s) 2 tag 0 (blockedStreams s).length 0 noStep) 1 tag (blockedStreams s).length d0 d1
  rw [store] at entered
  rw [raised, event]
  exact entered

end Sys2Proof.Machine
end

section
/-!
PROOFS. The statement about waits that outlast their TIMEOUT and quiescence that outlasts WINDOW (06, R164, R166, R167).
-/

namespace Sys2Proof.Machine

section
variable {s : State} {m : Nat} {c : Cmd}

theorem exec_waitTimeout (enabled : (stream s m).st = .enabled) (next : nextLoaded (stream s m) = some c) (ext : waitsExt s m = true)
    (clean : c.fault = none) : exec (.waitTimeout m) s = .next
      (if fg s WARD_FCFG_TIMEOUT (flagIdx (m / 8) c.waitFlag) ≤ (stream s m).waitPulse then
        observe (issueFault s m c 0x20 (c.waitFlag * 2 ^ 16 + c.waitCount)) else s) := by
  have row : exec (.waitTimeout m) s = execWaitTimeout m s := rfl
  rw [row, execWaitTimeout]
  simp only [enabled, next, ext, clean, Option.isNone_none, Bool.true_and, ge_iff_le, decide_eq_true_eq]

theorem waitTimeout_faults (enabled : (stream s m).st = .enabled) (next : nextLoaded (stream s m) = some c) (ext : waitsExt s m = true)
    (clean : c.fault = none) (late : fg s WARD_FCFG_TIMEOUT (flagIdx (m / 8) c.waitFlag) ≤ (stream s m).waitPulse) :
    Gives (.waitTimeout m) s fun t => Faulted t m 0x20 (c.waitFlag * 2 ^ 16 + c.waitCount) ∧ (∀ k ∈ (stream t m).cmds, k.phase ≠ .loaded) ∧
      t.mem = s.mem ∧ t.queues = s.queues := by
  have row := exec_waitTimeout enabled next ext clean
  rw [if_pos late] at row
  obtain ⟨faulted, stopped, mem, queues⟩ := issueFault_faults s m c (c.waitFlag * 2 ^ 16 + c.waitCount) (show 0x20 < 256 by decide)
  exact gives_next row ⟨faulted.observe, by rwa [stream_observe_cmds], by rwa [observe_mem], by rwa [observe_queues]⟩

theorem waitTimeout_waits (enabled : (stream s m).st = .enabled) (next : nextLoaded (stream s m) = some c) (ext : waitsExt s m = true)
    (clean : c.fault = none) (early : (stream s m).waitPulse < fg s WARD_FCFG_TIMEOUT (flagIdx (m / 8) c.waitFlag)) :
    Gives (.waitTimeout m) s fun t => t = s := by
  have row := exec_waitTimeout enabled next ext clean
  rw [if_neg (by omega)] at row
  exact gives_next row rfl

end

section
variable {s : State} {k : Nat} (quiet : s.quiet = some k)
include quiet

theorem exec_quiescenceStall (on : fg s MOD_QUIESCE_CFG_ENABLE 0 = 1) (still : quiescent s = true) (long : fg s MOD_QUIESCE_CFG_WINDOW 0 ≤ k)
    (first : s.stalled = false) : exec .quiescenceStall s = .next (stall s) := by
  have row : exec .quiescenceStall s = execQuiescenceStall s := rfl
  rw [row, execQuiescenceStall, quiet]
  simp [on, still, long, first]

theorem exec_quiescenceStall_again (raised : s.stalled = true) : exec .quiescenceStall s = .next s := by
  have row : exec .quiescenceStall s = execQuiescenceStall s := rfl
  rw [row, execQuiescenceStall, quiet]
  simp [raised]

end

/-- Settles O39: the fault of a wait is an issue fault; the captures of a stall are read back stream by stream, its record and its event leave them
alone. -/
theorem waitTimeoutsAndStalls : Obligations.WaitTimeoutsAndStalls := by
  unfold Obligations.WaitTimeoutsAndStalls
  refine ⟨fun m c s enabled next ext clean => ⟨waitTimeout_faults enabled next ext clean, waitTimeout_waits enabled next ext clean⟩,
    fun k s quiet on still long => ⟨fun first => ?_, fun raised => gives_next (exec_quiescenceStall_again quiet raised) rfl⟩⟩
  obtain ⟨stalled, evseq, streams, queues, mem⟩ := stall_keeps s
  refine gives_next (exec_quiescenceStall quiet on still long first)
    ⟨?_, fun m here => rd_stall_capture s here, stalled, evseq, streams, queues, mem, stall_enters s⟩
  rw [rd_stall_status, length_blockedStreams]
  rfl

end Sys2Proof.Machine
end

section
/-!
SUPPORT. Stopping commands (06, R170 to R174): what a stop leaves alone, and which commands of its stream are left.
-/

namespace Sys2Proof.Machine

/-! ### What a stop leaves alone -/

/-- From s to t, commands of stream m with the numbers ks alone are touched; the stream keeps all else, and the management controller, the stores
and the transactions in flight are as before. -/
structure StopKept (m : Nat) (ks : List Nat) (s t : State) : Prop where
  mc : t.mc = s.mc
  store : t.store = s.store
  txns : t.txns = s.txns
  own : ∃ cmds, stream t m = { stream s m with cmds := cmds } ∧ ∀ d ∈ cmds, d.num ∉ ks → d ∈ (stream s m).cmds

namespace StopKept
variable {m : Nat} {ks js : List Nat} {s t u : State}

theorem of_streams (mc : t.mc = s.mc) (store : t.store = s.store) (txns : t.txns = s.txns) (streams : t.streams = s.streams) : StopKept m ks s t :=
  ⟨mc, store, txns, (stream s m).cmds, stream_of_streams streams m, fun _ listed _ => listed⟩

theorem refl (m : Nat) (ks : List Nat) (s : State) : StopKept m ks s s := of_streams rfl rfl rfl rfl

theorem mono (h : StopKept m ks s t) (sub : ks ⊆ js) : StopKept m js s t := by
  obtain ⟨cmds, own, others⟩ := h.own
  exact { h with own := ⟨cmds, own, fun d listed out => others d listed (fun mem => out (sub mem))⟩ }

theorem trans (h : StopKept m ks s t) (k : StopKept m ks t u) : StopKept m ks s u := by
  obtain ⟨_, own, others⟩ := h.own
  obtain ⟨cmds, own', others'⟩ := k.own
  rw [own] at own' others'
  exact ⟨k.mc.trans h.mc, k.store.trans h.store, k.txns.trans h.txns, cmds, own', fun d listed out => others d (others' d listed out) out⟩

/-- What every step of a fold keeps, the fold keeps. -/
theorem foldl {α : Type} {f : State → α → State} (xs : List α) (keep : ∀ t, ∀ a ∈ xs, StopKept m ks t (f t a)) (s : State) :
    StopKept m ks s (xs.foldl f s) :=
  List.foldlRecOn (motive := fun t : State => StopKept m ks s t) xs f (refl m ks s) fun t kept a mem => kept.trans (keep t a mem)

end StopKept

theorem stopKept_setCmds (s : State) (m : Nat) (ks : List Nat) (cmds : List Cmd) (others : ∀ d ∈ cmds, d.num ∉ ks → d ∈ (stream s m).cmds) :
    StopKept m ks s (setStream s m { stream s m with cmds := cmds }) :=
  ⟨rfl, rfl, rfl, cmds, stream_setStream_same _ _ _, others⟩

theorem stopKept_setCmd (s : State) (m : Nat) {k : Nat} (c : Cmd) (num : c.num = k) : StopKept m [k] s (setCmd s m c) := by
  subst num
  refine stopKept_setCmds s m [c.num] _ fun d listed out => ?_
  obtain ⟨x, hx, rfl⟩ := List.mem_map.mp listed
  split at out
  · simp at out
  · next other => rwa [if_neg other]

theorem stopKept_pushOut (s : State) (m w : Nat) (c : Cmd) (e : Nat) (h : Hdr) (bs : List Byte) :
    (pushOut s m w c e h bs).2.num = c.num ∧ StopKept m [c.num] s (pushOut s m w c e h bs).1 := by
  refine ⟨rfl, StopKept.trans ?_ (stopKept_setCmd _ m _ rfl)⟩
  exact .of_streams rfl rfl rfl rfl

theorem stopKept_pushDrain (m w : Nat) (s : State) (c : Cmd) (os : List (Hdr × List Byte)) :
    (pushDrain m w s c os).2.1.num = c.num ∧ StopKept m [c.num] s (pushDrain m w s c os).1 := by
  induction os generalizing s c with
  | nil => exact ⟨rfl, .refl _ _ s⟩
  | cons o os ih =>
    rw [pushDrain]
    split
    · obtain ⟨num, pushed⟩ := stopKept_pushOut s m w c 0 o.1 o.2
      obtain ⟨num', rest⟩ := ih (pushOut s m w c 0 o.1 o.2).1 (pushOut s m w c 0 o.1 o.2).2
      rw [num] at num' rest
      exact ⟨num', pushed.trans rest⟩
    · exact ⟨rfl, .refl _ _ s⟩

theorem stopKept_flushDrain (s : State) (m w : Nat) (c : Cmd) :
    (flushDrain s m w c).2.num = c.num ∧ StopKept m [c.num] s (flushDrain s m w c).1 := by
  unfold flushDrain
  split
  · obtain ⟨num, pushed⟩ := stopKept_pushDrain m w s c (meRt s (4 * w + c.unit)).out
    refine ⟨num, pushed.trans (StopKept.trans ?_ (stopKept_setCmd _ m _ num))⟩
    exact .of_streams rfl rfl rfl rfl
  · exact ⟨rfl, .refl _ _ s⟩

theorem stopKept_clearEngine (s : State) (m w : Nat) (ks : List Nat) (c : Cmd) : StopKept m ks s (clearEngine s w c) := by
  unfold clearEngine
  split <;> exact .of_streams rfl rfl rfl rfl

/-- The visible tiles ps of a queue marked TRUNCATED. -/
def markTiles (s : State) (n : Nat) (ps : List Nat) : State :=
  ps.foldl (fun t p => memWrite t (hdrKey t n p + 1) [BitVec.ofNat 8 ((readByte t (hdrKey t n p + 1)).toNat ||| mkTruncated)]) s

theorem settleEnd_of_present (s : State) (w : Nat) (c : Cmd) (e : Nat) (present : outPresent (c.out e) = true) :
    ∃ ps q, (settleEnd s w c e).1 = setQueue (markTiles s (outQ w c e) ps) (outQ w c e) q := by
  unfold settleEnd
  rw [if_neg (by simp [present])]
  exact ⟨_, _, rfl⟩

theorem stopKept_settleEnd (s : State) (m w : Nat) (ks : List Nat) (c : Cmd) (e : Nat) : StopKept m ks s (settleEnd s w c e).1 := by
  by_cases present : outPresent (c.out e) = true
  · obtain ⟨ps, q, settled⟩ := settleEnd_of_present s w c e present
    have marked : StopKept m ks s (markTiles s (outQ w c e) ps) := by
      refine StopKept.foldl ps (fun t p _ => ?_) s
      exact .of_streams rfl rfl rfl rfl
    rw [settled]
    exact marked.trans (.of_streams rfl rfl rfl rfl)
  · unfold settleEnd
    rw [if_pos (by simpa using present)]
    exact .refl m ks s

theorem stopKept_withdrawPops (s : State) (m w : Nat) (ks : List Nat) (c : Cmd) : StopKept m ks s (withdrawPops s w c) := by
  refine StopKept.foldl (f := fun t e => if inUsed c e && !inKeep (c.inp e) then _ else t) _ (fun t e _ => ?_) s
  split
  · exact .of_streams rfl rfl rfl rfl
  · exact .refl m ks t

theorem stopKept_releaseSlot (s : State) (m : Nat) (ks : List Nat) (c : Cmd) (early : Bool) : StopKept m ks s (releaseSlot s c early) := by
  obtain ⟨regs, frame⟩ := releaseSlot_frame s c early
  rw [frame]
  exact .of_streams rfl rfl rfl rfl

/-- A stop touches its own command alone. -/
theorem stopKept_stopCmd (s : State) (m : Nat) (c : Cmd) : StopKept m [c.num] s (stopCmd s m c).1 := by
  have drop : StopKept m [c.num] s (dropCommit s m c) := .of_streams rfl rfl rfl rfl
  obtain ⟨-, flush⟩ := stopKept_flushDrain (dropCommit s m c) m (m / 8) c
  unfold stopCmd
  dsimp only
  refine (drop.trans flush).trans ?_
  generalize flushDrain (dropCommit s m c) m (m / 8) c = x
  have clear : StopKept m [c.num] x.1 (if executing x.1 (m / 8) m x.2 then clearEngine x.1 (m / 8) x.2 else x.1) := by
    split
    · exact stopKept_clearEngine _ _ _ _ _
    · exact .refl _ _ _
  exact ((((clear.trans (stopKept_settleEnd _ _ _ _ _ _)).trans (stopKept_settleEnd _ _ _ _ _ _)).trans
    (stopKept_withdrawPops _ _ _ _ _)).trans (stopKept_releaseSlot _ _ _ _ _)).trans (.of_streams rfl rfl rfl rfl)

/-! ### Several commands stopped (06, R170, R171) -/

/-- One command stopped and dropped from its stream, with the counts so far. -/
def stopNext (m : Nat) (t : State × Nat × Nat) (c : Cmd) : State × Nat × Nat :=
  let r := if c.phase = .issued then stopCmd t.1 m c else (t.1, 0)
  (setStream r.1 m { stream r.1 m with cmds := (stream r.1 m).cmds.filter (fun k => k.num != c.num) }, t.2.1 + 1, t.2.2 + r.2)

theorem stopCmds_eq (s : State) (m : Nat) (cs : List Cmd) : stopCmds s m cs = cs.reverse.foldl (stopNext m) (s, 0, 0) := rfl

theorem stopKept_stopNext (m : Nat) (t : State × Nat × Nat) (c : Cmd) :
    StopKept m [c.num] t.1 (stopNext m t c).1 ∧ ∀ d ∈ (stream (stopNext m t c).1 m).cmds, d.num ≠ c.num := by
  have stopped : StopKept m [c.num] t.1 (if c.phase = .issued then stopCmd t.1 m c else (t.1, 0)).1 := by
    split
    · exact stopKept_stopCmd t.1 m c
    · exact .refl _ _ _
  unfold stopNext
  generalize (if c.phase = .issued then stopCmd t.1 m c else (t.1, 0)) = r at stopped ⊢
  refine ⟨stopped.trans (stopKept_setCmds _ _ _ _ fun d listed _ => (List.mem_filter.mp listed).1), fun d listed => ?_⟩
  rw [stream_setStream_same] at listed
  simpa using (List.mem_filter.mp listed).2

theorem stopKept_stopCmds (s : State) (m : Nat) (cs : List Cmd) : StopKept m (cs.map Cmd.num) s (stopCmds s m cs).1 := by
  rw [stopCmds_eq]
  refine List.foldlRecOn (motive := fun t : State × Nat × Nat => StopKept m (cs.map Cmd.num) s t.1) _ _ (.refl _ _ s) fun t kept c mem => ?_
  obtain ⟨one, -⟩ := stopKept_stopNext m t c
  exact kept.trans (one.mono (by simpa using ⟨c, List.mem_reverse.mp mem, rfl⟩))

/-- One command sent to its stop point, with the counts so far: it stops, or is marked to stop at the end of its tile. -/
def haltNext (m : Nat) (t : State × Nat × Nat) (c0 : Cmd) : State × Nat × Nat :=
  let f := if c0.phase = .issued then flushDrain t.1 m (m / 8) c0 else (t.1, c0)
  if f.2.phase == .issued && midTile f.1 m f.2 then (setCmd f.1 m { f.2 with stopping := true }, t.2.1, t.2.2)
  else ((stopCmds f.1 m [f.2]).1, t.2.1 + (stopCmds f.1 m [f.2]).2.1, t.2.2 + (stopCmds f.1 m [f.2]).2.2)

theorem haltCmds_eq (s : State) (m : Nat) (cs : List Cmd) :
    haltCmds s m cs = (cs.filter (fun c => !pastWalk c)).reverse.foldl (haltNext m) (s, 0, 0) := rfl

/-- A command sent to its stop point is gone or marked, and no other command is touched. -/
theorem haltNext_leaves (m : Nat) (t : State × Nat × Nat) (c : Cmd) : StopKept m [c.num] t.1 (haltNext m t c).1 ∧
    ∀ d ∈ (stream (haltNext m t c).1 m).cmds, d.stopping = true ∨ (d ∈ (stream t.1 m).cmds ∧ d.num ≠ c.num) := by
  obtain ⟨num, flushed⟩ : (if c.phase = .issued then flushDrain t.1 m (m / 8) c else (t.1, c)).2.num = c.num ∧
      StopKept m [c.num] t.1 (if c.phase = .issued then flushDrain t.1 m (m / 8) c else (t.1, c)).1 := by
    split
    · exact stopKept_flushDrain t.1 m (m / 8) c
    · exact ⟨rfl, .refl _ _ _⟩
  unfold haltNext
  generalize (if c.phase = .issued then flushDrain t.1 m (m / 8) c else (t.1, c)) = f at num flushed ⊢
  obtain ⟨cmds, own, others⟩ := flushed.own
  dsimp only
  split
  · refine ⟨flushed.trans (stopKept_setCmd _ m _ num), fun d listed => ?_⟩
    rw [setCmd, stream_setStream_same, own] at listed
    obtain ⟨x, hx, rfl⟩ := List.mem_map.mp listed
    split
    · exact .inl rfl
    · next other =>
      have apart : x.num ≠ c.num := fun eq => other (eq.trans num.symm)
      exact .inr ⟨others x hx (by simpa using apart), apart⟩
  · obtain ⟨stopped, gone⟩ := stopKept_stopNext m (f.1, 0, 0) f.2
    rw [num] at stopped gone
    have all := flushed.trans stopped
    obtain ⟨cmds', own', others'⟩ := all.own
    refine ⟨all, fun d listed => .inr ?_⟩
    have apart := gone d listed
    have mem : d ∈ cmds' := by
      have same : (stream (stopNext m (f.1, 0, 0) f.2).1 m).cmds = cmds' := congrArg Stream.cmds own'
      exact same ▸ listed
    exact ⟨others' d mem (by simpa using apart), apart⟩

theorem foldl_haltNext_leaves (m : Nat) (cs : List Cmd) (t : State × Nat × Nat) : StopKept m (cs.map Cmd.num) t.1 (cs.foldl (haltNext m) t).1 ∧
    ∀ d ∈ (stream (cs.foldl (haltNext m) t).1 m).cmds, d.stopping = true ∨ (d ∈ (stream t.1 m).cmds ∧ ∀ c ∈ cs, d.num ≠ c.num) := by
  induction cs generalizing t with
  | nil => exact ⟨.refl _ _ _, fun d listed => .inr ⟨listed, by simp⟩⟩
  | cons c cs ih =>
    obtain ⟨one, here⟩ := haltNext_leaves m t c
    obtain ⟨rest, later⟩ := ih (haltNext m t c)
    refine ⟨(one.mono (by simp)).trans (rest.mono (by simp)), fun d listed => ?_⟩
    rcases later d listed with stopping | ⟨mem, apart⟩
    · exact .inl stopping
    · exact (here d mem).imp_right fun ⟨before, ne⟩ => ⟨before, List.forall_mem_cons.mpr ⟨ne, apart⟩⟩

/-- Commands sent to their stop points: what is left is marked to stop, or was not among those short of the end of their walk. -/
theorem haltCmds_leaves (s : State) (m : Nat) (cs : List Cmd) : (∃ ks, StopKept m ks s (haltCmds s m cs).1) ∧
    ∀ d ∈ (stream (haltCmds s m cs).1 m).cmds, d.stopping = true ∨ (d ∈ (stream s m).cmds ∧ (d ∈ cs → pastWalk d = true)) := by
  rw [haltCmds_eq]
  obtain ⟨kept, left⟩ := foldl_haltNext_leaves m (cs.filter (fun c => !pastWalk c)).reverse (s, 0, 0)
  refine ⟨⟨_, kept⟩, fun d listed => (left d listed).imp_right fun ⟨before, apart⟩ => ⟨before, fun mem => ?_⟩⟩
  by_contra short
  exact apart d (by simpa [mem] using short) rfl

end Sys2Proof.Machine
end

section
/-!
PROOFS. The statement about aborts and faults that settle (06, R170 to R174): a stream at its end, each settling row by its cases, and the obligation
from them.
-/

namespace Sys2Proof.Machine

/-! ### A stream at its end (06, R170, R174; 18, R448) -/

/-- Stream m with the status of its last request noted and no request left. -/
def statusNoted (s : State) (m status : Nat) : State := setStream s m { stream s m with lastAbort := status, req := [] }

theorem tellAbort_of_none {s : State} (m status : Nat) (none : s.mc.waiting = []) : tellAbort s m status = statusNoted s m status := by
  have same : ({ s.mc with waiting := [] } : Mc) = s.mc := by rw [← none]
  unfold tellAbort statusNoted
  dsimp only
  rw [setStream_mc, none, List.map_nil, same]
  rfl

/-- Stream m ended with a status: DISABLED, or in the given final state. -/
def streamEnded (s : State) (m status : Nat) (off : Bool) (st : StreamSt) : State := endStream (statusNoted s m status) m off st

@[simp] theorem stream_statusNoted (s : State) (m status : Nat) : stream (statusNoted s m status) m = { stream s m with lastAbort := status, req := [] } :=
  stream_setStream_same _ _ _

theorem stream_disableStream (s : State) (m : Nat) : stream (disableStream s m) m =
    { stream s m with st := .disabled, cmds := [], req := [], abort := none, windows := [], vote := 5 } := stream_setStream_same _ _ _

theorem fg_disableStream_en (s : State) (m : Nat) : fg (disableStream s m) WARD_SCFG_EN m = 0 := fg_fs_same _ _ _ _ (by decide) (by decide)

theorem endStream_keeps {β : Type} (g : State → β) (reg : ∀ t f i v, g (fs t f i v) = g t) (own : ∀ t k x, g (setStream t k x) = g t) (s : State)
    (m : Nat) (off : Bool) (st : StreamSt) : g (endStream s m off st) = g s := by
  unfold endStream disableStream
  split
  · rw [reg, own]
  · rw [own]

theorem streamEnded_keeps {β : Type} (g : State → β) (reg : ∀ t f i v, g (fs t f i v) = g t) (own : ∀ t k x, g (setStream t k x) = g t) (s : State)
    (m status : Nat) (off : Bool) (st : StreamSt) : g (streamEnded s m status off st) = g s := by
  rw [streamEnded, endStream_keeps g reg own, statusNoted, own]

theorem mcIdle_streamEnded {s : State} (idle : McIdle s) (m status : Nat) (off : Bool) (st : StreamSt) : McIdle (streamEnded s m status off st) :=
  idle.congr (streamEnded_keeps State.mc (fun _ _ _ _ => rfl) (fun _ _ _ => rfl) _ _ _ _ _)
    (streamEnded_keeps State.store (fun _ _ _ _ => rfl) (fun _ _ _ => rfl) _ _ _ _ _)

/-- What a stream at its end shows. -/
theorem streamEnded_shows (s : State) (m status : Nat) (off : Bool) (st : StreamSt) :
    (stream (streamEnded s m status off st) m).lastAbort = status ∧ (stream (streamEnded s m status off st) m).cmds = [] ∧
      (stream (streamEnded s m status off st) m).abort = none ∧
      (stream (streamEnded s m status off st) m).st = (if off then .disabled else st) ∧
      (off = true → fg (streamEnded s m status off st) WARD_SCFG_EN m = 0) ∧ (off = false → (streamEnded s m status off st).regs = s.regs) := by
  cases off with
  | true =>
    have own : stream (streamEnded s m status true st) m = _ := stream_disableStream (statusNoted s m status) m
    rw [own, stream_statusNoted]
    exact ⟨rfl, rfl, rfl, rfl, fun _ => fg_disableStream_en _ _, nofun⟩
  | false =>
    have own : stream (streamEnded s m status false st) m = { stream (statusNoted s m status) m with st := st, cmds := [], abort := none } :=
      stream_setStream_same _ _ _
    rw [own, stream_statusNoted]
    exact ⟨rfl, rfl, rfl, rfl, nofun, fun _ => rfl⟩

@[simp] theorem stream_observe_lastAbort (s : State) (m : Nat) : (stream (observe s) m).lastAbort = (stream s m).lastAbort := by
  obtain ⟨_, _, h⟩ := stream_observe s m; rw [h]

@[simp] theorem stream_observe_abort (s : State) (m : Nat) : (stream (observe s) m).abort = (stream s m).abort := by
  obtain ⟨_, _, h⟩ := stream_observe s m; rw [h]

/-- With no packet waiting, what stands after a stream has ended. -/
theorem gives_streamEnded {i : Instr} {s u : State} {m status : Nat} {off : Bool} {st : StreamSt} (idle : McIdle u) (mem : u.mem = s.mem)
    (regs : u.regs = s.regs) (row : exec i s = .next (serveAll (streamEnded u m status off st))) : Gives i s fun t =>
      (stream t m).lastAbort = status ∧ (stream t m).cmds = [] ∧ (stream t m).abort = none ∧ t.mem = s.mem ∧
      (off = true → (stream t m).st = .disabled ∧ fg t WARD_SCFG_EN m = 0) ∧ (off = false → (stream t m).st = st ∧ t.regs = s.regs) := by
  obtain ⟨lastAbort, cmds, abort, final, en, kept⟩ := streamEnded_shows u m status off st
  rw [serveAll_of_idle _ (mcIdle_streamEnded idle m status off st)] at row
  refine gives_next row ⟨?_, ?_, ?_, ?_, fun on => ⟨?_, ?_⟩, fun on => ⟨?_, ?_⟩⟩
  · rw [stream_observe_lastAbort, lastAbort]
  · rw [stream_observe_cmds, cmds]
  · rw [stream_observe_abort, abort]
  · rw [observe_mem, streamEnded_keeps State.mem (fun _ _ _ _ => rfl) (fun _ _ _ => rfl), mem]
  · rw [stream_observe_st, final, if_pos on]
  · rw [fg_observe, en on]
  · rw [stream_observe_st, final, if_neg (by simp [on])]
  · rw [observe_regs, kept on, regs]

/-! ### Settling with nothing in progress (06, R170, R174) -/

/-- The state with stream m written as it stands. -/
def streamAgain (s : State) (m : Nat) : State := setStream s m (stream s m)

@[simp] theorem stream_streamAgain (s : State) (m : Nat) : stream (streamAgain s m) m = stream s m := stream_setStream_same _ _ _

/-- With no command issued nothing is left to stop. -/
theorem stopEnded_of_quiet {s : State} {m : Nat} (quiet : ∀ c ∈ (stream s m).cmds, c.phase ≠ .issued) : stopEnded s m = streamAgain s m := by
  have none : (stream s m).cmds.filter (fun c => c.stopping && c.phase == .issued && !midTile s m c) = [] := by
    rw [List.filter_eq_nil_iff]
    intro c listed
    simp [quiet c listed]
  unfold stopEnded
  rw [none]
  rfl

theorem settled_of_quiet {s : State} {m : Nat} (quiet : ∀ c ∈ (stream s m).cmds, c.phase ≠ .issued) : settled (streamAgain s m) m = true := by
  unfold settled
  rw [stream_streamAgain, List.all_eq_true]
  intro c listed
  simpa using quiet c listed

theorem settleAbort_of_quiet {s : State} {m : Nat} (aborting : (stream s m).st = .aborting) (quiet : ∀ c ∈ (stream s m).cmds, c.phase ≠ .issued)
    (acknowledged : streamTxns s m = []) : settleAbort s m =
      endStream (tellAbort (streamAgain s m) m 3) m (((stream s m).abort.map AbortRun.toDisabled).getD false) .aborted := by
  have txns : streamTxns (streamAgain s m) m = [] := acknowledged
  unfold settleAbort
  rw [if_neg (by simp [aborting]), stopEnded_of_quiet quiet]
  dsimp only
  rw [if_pos (by simp [settled_of_quiet quiet, txns]), stream_streamAgain]

theorem settleFault_of_quiet {s : State} {m : Nat} (faulting : (stream s m).st = .faulting) (quiet : ∀ c ∈ (stream s m).cmds, c.phase ≠ .issued) :
    settleFault s m = endStream (tellAbort (streamAgain s m) m 4) m ((stream s m).req.any (fun r => r != .packet)) .faulted := by
  unfold settleFault
  rw [if_neg (by simp [faulting]), stopEnded_of_quiet quiet]
  dsimp only
  rw [if_pos (settled_of_quiet quiet), stream_streamAgain]

section
variable {s : State} {m : Nat} (idle : McIdle s)
include idle

theorem abortSettle_ends (aborting : (stream s m).st = .aborting) (quiet : ∀ c ∈ (stream s m).cmds, c.phase ≠ .issued)
    (acknowledged : streamTxns s m = []) : Gives (.abortSettle m) s fun t =>
      (stream t m).lastAbort = 3 ∧ (stream t m).cmds = [] ∧ (stream t m).abort = none ∧ t.mem = s.mem ∧
      (((stream s m).abort.map AbortRun.toDisabled) = some true → (stream t m).st = .disabled ∧ fg t WARD_SCFG_EN m = 0) ∧
      (((stream s m).abort.map AbortRun.toDisabled) ≠ some true → (stream t m).st = .aborted ∧ t.regs = s.regs) := by
  have row : exec (.abortSettle m) s = .next (serveAll (settleAbort s m)) := rfl
  rw [settleAbort_of_quiet aborting quiet acknowledged, tellAbort_of_none m 3 (s := streamAgain s m) idle.2.1] at row
  refine (gives_streamEnded (s := s) (u := streamAgain s m) idle rfl rfl row).imp fun t ⟨status, cmds, abort, mem, disabled, aborted⟩ =>
    ⟨status, cmds, abort, mem, fun off => disabled (by rw [off]; rfl), fun on => aborted ?_⟩
  generalize (stream s m).abort.map AbortRun.toDisabled = off at on ⊢
  cases off with
  | none => rfl
  | some b => simpa using on

theorem faultSettle_ends (faulting : (stream s m).st = .faulting) (quiet : ∀ c ∈ (stream s m).cmds, c.phase ≠ .issued) :
    Gives (.faultSettle m) s fun t => (stream t m).lastAbort = 4 ∧ (stream t m).cmds = [] ∧ t.mem = s.mem ∧
      ((stream s m).req.any (fun r => r != .packet) = true → (stream t m).st = .disabled ∧ fg t WARD_SCFG_EN m = 0) ∧
      ((stream s m).req.any (fun r => r != .packet) = false → (stream t m).st = .faulted ∧ t.regs = s.regs) := by
  have row : exec (.faultSettle m) s = .next (serveAll (settleFault s m)) := rfl
  rw [settleFault_of_quiet faulting quiet, tellAbort_of_none m 4 (s := streamAgain s m) idle.2.1] at row
  exact (gives_streamEnded (s := s) (u := streamAgain s m) idle rfl rfl row).imp fun t ⟨status, cmds, _, mem, disabled, faulted⟩ =>
    ⟨status, cmds, mem, disabled, faulted⟩

end

/-! ### An abort forced (06, R173) -/

/-- Acknowledgements for the stream that come later count in no command. -/
def txnsGivenUp (s : State) (m : Nat) : State := { s with txns := s.txns.map (fun u => if u.m = m then { u with dead := true } else u) }

/-- The stream with all that it has issued stopped, its transactions given up, its stops counted. -/
def allStopped (s : State) (m : Nat) : State :=
  let r := stopCmds s m ((stream s m).cmds.filter (fun c => c.phase == .issued))
  addHalt (txnsGivenUp r.1 m) m r.2.1 r.2.2

theorem allStopped_keeps (s : State) (m : Nat) : (allStopped s m).mc = s.mc ∧ (allStopped s m).store = s.store ∧
    (allStopped s m).txns = s.txns.map (fun u => if u.m = m then { u with dead := true } else u) := by
  have stopped := stopKept_stopCmds s m ((stream s m).cmds.filter (fun c => c.phase == .issued))
  refine ⟨stopped.mc, stopped.store, ?_⟩
  rw [← stopped.txns]
  rfl

theorem forceAbort_of_late {s : State} {m : Nat} {a : AbortRun} (aborting : (stream s m).st = .aborting) (run : (stream s m).abort = some a)
    (late : 4 ≤ a.pulses) : forceAbort s m = endStream (tellAbort (allStopped s m) m 3) m a.toDisabled .aborted := by
  unfold forceAbort
  simp only [aborting, run]
  rw [if_neg (by omega)]
  rfl

section
variable {s : State} {m : Nat} {a : AbortRun} (idle : McIdle s) (aborting : (stream s m).st = .aborting) (run : (stream s m).abort = some a)
include idle aborting run

theorem abortForce_ends (late : 4 ≤ a.pulses) : Gives (.abortForce m) s fun t =>
    (stream t m).lastAbort = 3 ∧ (stream t m).cmds = [] ∧ (stream t m).st = (if a.toDisabled then .disabled else .aborted) ∧
      t.txns = s.txns.map (fun u => if u.m = m then { u with dead := true } else u) := by
  obtain ⟨mc, store, txns⟩ := allStopped_keeps s m
  have idle' : McIdle (allStopped s m) := idle.congr mc store
  have row : exec (.abortForce m) s = .next (serveAll (forceAbort s m)) := rfl
  obtain ⟨status, cmds, -, final, -⟩ := streamEnded_shows (allStopped s m) m 3 a.toDisabled .aborted
  rw [forceAbort_of_late aborting run late, tellAbort_of_none m 3 idle'.2.1] at row
  rw [show endStream (statusNoted (allStopped s m) m 3) m a.toDisabled .aborted = streamEnded (allStopped s m) m 3 a.toDisabled .aborted from rfl,
    serveAll_of_idle _ (mcIdle_streamEnded idle' m 3 a.toDisabled .aborted)] at row
  refine gives_next row ⟨by rw [stream_observe_lastAbort, status], by rw [stream_observe_cmds, cmds], by rw [stream_observe_st, final], ?_⟩
  rw [observe_txns, streamEnded_keeps State.txns (fun _ _ _ _ => rfl) (fun _ _ _ => rfl), txns]

theorem abortForce_waits (early : a.pulses < 4) : Gives (.abortForce m) s fun t =>
    (stream t m).st = .aborting ∧ (stream t m).cmds = (stream s m).cmds ∧ t.txns = s.txns := by
  have row : exec (.abortForce m) s = .next (serveAll (forceAbort s m)) := rfl
  have waits : forceAbort s m = s := by
    unfold forceAbort
    simp only [aborting, run]
    exact if_pos early
  rw [waits, serveAll_of_idle s idle] at row
  exact gives_next row ⟨by rw [stream_observe_st, aborting], stream_observe_cmds s m, observe_txns s⟩

end

/-! ### An abort request accepted (06, R170) -/

/-- The stream's counts of what its abort stops, started afresh. -/
def abortCounts (s : State) (m : Nat) : State := setStream s m { stream s m with repCmds := 0, repTrunc := 0 }

/-- The stream reading ABORTING, without the commands that could not load. -/
def abortBegun (s : State) (m : Nat) : State :=
  setStream (abortCounts s m) m { stream (abortCounts s m) m with
    st := .aborting, abort := some ⟨(stream s m).req.any (fun r => r != .packet), 0, 0, 0⟩, cmds := (stream s m).cmds.filter (fun c => c.fault.isNone) }

/-- The stream's commands sent to their stop points. -/
def abortHalted (s : State) (m : Nat) : State × Nat × Nat :=
  haltCmds (abortBegun s m) m (((stream s m).cmds.filter (fun c => c.fault.isNone)).filter (fun c => c.phase != .complete))

section
variable {s : State} {m : Nat} (idle : McIdle s) (enabled : (stream s m).st = .enabled) (asked : (stream s m).req ≠ []) (free : committing s m = false)

include enabled asked free in
theorem acceptAbort_of_enabled : acceptAbort s m =
    if fg s WARD_SDONE_RETIRED m = (stream s m).avail then
      (if (stream s m).req.any (fun r => r != .packet) then disableStream (tellAbort (abortCounts s m) m 2) m else tellAbort (abortCounts s m) m 2)
    else addHalt (abortHalted s m).1 m (abortHalted s m).2.1 (abortHalted s m).2.2 := by
  unfold acceptAbort
  dsimp only
  rw [if_neg (by simp [enabled, asked, free])]
  rfl

include idle enabled asked free

theorem abortAccept_complete (retired : fg s WARD_SDONE_RETIRED m = (stream s m).avail) : Gives (.abortAccept m) s fun t =>
    (stream t m).lastAbort = 2 ∧ (stream t m).req = [] ∧ t.mem = s.mem ∧
    ((stream s m).req.any (fun r => r != .packet) = false → (stream t m).st = .enabled ∧ (stream t m).cmds = (stream s m).cmds ∧ t.regs = s.regs) ∧
    ((stream s m).req.any (fun r => r != .packet) = true →
      (stream t m).st = .disabled ∧ fg t WARD_SCFG_EN m = 0 ∧ RegsKept s t [(WARD_SCFG, m)]) := by
  have row : exec (.abortAccept m) s = .next (serveAll (acceptAbort s m)) := rfl
  rw [acceptAbort_of_enabled enabled asked free, if_pos retired, tellAbort_of_none m 2 (s := abortCounts s m) idle.2.1] at row
  have own : stream (statusNoted (abortCounts s m) m 2) m = { stream s m with repCmds := 0, repTrunc := 0, lastAbort := 2, req := [] } := by
    rw [stream_statusNoted, abortCounts, stream_setStream_same]
  cases off : (stream s m).req.any (fun r => r != .packet) with
  | false =>
    have calm : McIdle (statusNoted (abortCounts s m) m 2) := idle
    rw [off, if_neg (by decide), serveAll_of_idle _ calm] at row
    refine gives_next row ⟨?_, ?_, observe_mem _, fun _ => ⟨?_, ?_, observe_regs _⟩, nofun⟩
    · rw [stream_observe_lastAbort, own]
    · rw [stream_observe_req, own]
    · rw [stream_observe_st, own]; exact enabled
    · rw [stream_observe_cmds, own]
  | true =>
    have calm : McIdle (disableStream (statusNoted (abortCounts s m) m 2) m) := idle
    rw [off, if_pos rfl, serveAll_of_idle _ calm] at row
    refine gives_next row ⟨?_, ?_, observe_mem _, nofun, fun _ => ⟨?_, ?_, RegsKept.observe (fs_regsKept _ WARD_SCFG_EN m 0)⟩⟩
    · rw [stream_observe_lastAbort, stream_disableStream, own]
    · rw [stream_observe_req, stream_disableStream]
    · rw [stream_observe_st, stream_disableStream]
    · rw [fg_observe, fg_disableStream_en]

theorem abortAccept_halts (left : fg s WARD_SDONE_RETIRED m ≠ (stream s m).avail) : Gives (.abortAccept m) s fun t =>
    (stream t m).st = .aborting ∧ ((stream t m).abort.map AbortRun.toDisabled) = some ((stream s m).req.any (fun r => r != .packet)) ∧
    ∀ c ∈ (stream t m).cmds, c.phase = .complete ∨ c.stopping = true ∨ (c.phase = .issued ∧ unitCount c ≤ c.iter) := by
  have row : exec (.abortAccept m) s = .next (serveAll (acceptAbort s m)) := rfl
  obtain ⟨⟨ks, kept⟩, halted⟩ := haltCmds_leaves (abortBegun s m) m
    (((stream s m).cmds.filter (fun c => c.fault.isNone)).filter (fun c => c.phase != .complete))
  obtain ⟨cmds, own, -⟩ := kept.own
  have begun : stream (abortBegun s m) m = { stream (abortCounts s m) m with
      st := .aborting, abort := some ⟨(stream s m).req.any (fun r => r != .packet), 0, 0, 0⟩, cmds := (stream s m).cmds.filter (fun c => c.fault.isNone) } :=
    stream_setStream_same _ _ _
  have calm : McIdle (addHalt (abortHalted s m).1 m (abortHalted s m).2.1 (abortHalted s m).2.2) := idle.congr kept.mc kept.store
  have counted : stream (addHalt (abortHalted s m).1 m (abortHalted s m).2.1 (abortHalted s m).2.2) m = { stream (abortHalted s m).1 m with
      repCmds := (stream (abortHalted s m).1 m).repCmds + (abortHalted s m).2.1, repTrunc := (stream (abortHalted s m).1 m).repTrunc + (abortHalted s m).2.2 } :=
    stream_setStream_same _ _ _
  rw [acceptAbort_of_enabled enabled asked free, if_neg left, serveAll_of_idle _ calm] at row
  refine gives_next row ⟨?_, ?_, fun c listed => ?_⟩
  · rw [stream_observe_st, counted, abortHalted, own, begun]
  · rw [stream_observe_abort, counted, abortHalted, own, begun]
    rfl
  · rw [stream_observe_cmds, counted] at listed
    rcases halted c listed with stopping | ⟨before, past⟩
    · exact .inr (.inl stopping)
    · rw [begun] at before
      by_cases complete : c.phase = .complete
      · exact .inl complete
      · have walked := past (List.mem_filter.mpr ⟨before, by simpa using complete⟩)
        unfold pastWalk at walked
        simp only [Bool.and_eq_true, beq_iff_eq, decide_eq_true_eq] at walked
        exact .inr (.inr walked.1)

end

/-- Settles O38: what has retired tells how an abort is accepted; with nothing in progress a stream settles, and a late abort is forced whatever is. -/
theorem faultsAndAbortsSettle : Obligations.FaultsAndAbortsSettle := by
  unfold Obligations.FaultsAndAbortsSettle
  intro m s idle
  exact ⟨fun enabled asked free => ⟨abortAccept_complete idle enabled asked free, abortAccept_halts idle enabled asked free⟩,
    abortSettle_ends idle, fun a aborting run => ⟨abortForce_ends idle aborting run, abortForce_waits idle aborting run⟩, faultSettle_ends idle⟩

end Sys2Proof.Machine
end

section
/-!
SUPPORT. A request and its reply (18, R444 to R449; 19, R482): what a reply leaves alone, a request that is answered at once, and one whose reply
waits for streams (18, R447, R451).
-/

namespace Sys2Proof.Machine

@[simp] theorem observe_fuses (s : State) : (observe s).fuses = s.fuses := by obtain ⟨_, _, _, h⟩ := observe_eq s; rw [h]
@[simp] theorem observe_pwards (s : State) : (observe s).pwards = s.pwards := by obtain ⟨_, _, _, h⟩ := observe_eq s; rw [h]
@[simp] theorem observe_pool (s : State) : (observe s).pool = s.pool := by obtain ⟨_, _, _, h⟩ := observe_eq s; rw [h]
@[simp] theorem observe_strag (s : State) : (observe s).strag = s.strag := by obtain ⟨_, _, _, h⟩ := observe_eq s; rw [h]
@[simp] theorem observe_life (s : State) : (observe s).life = s.life := by obtain ⟨_, _, _, h⟩ := observe_eq s; rw [h]

theorem observe_streams_nil {s : State} (none : s.streams = []) : (observe s).streams = [] := by
  have synced : (syncVotes s).streams = [] := by
    unfold syncVotes
    rw [none]
    rfl
  unfold observe breakQuiet
  split
  · exact synced
  · split <;> exact synced

/-! ### A reply (18, R444, R446; 19, R482) -/

/-- The state with a reply kept and counted, before it is sent. -/
def replyNoted (s : State) (r : Req) (status detail : Nat) (data : List Byte) (keep : Bool) : State :=
  let s1 := if status ≥ 0x10 then bump s MC_PKT_CNT_REFUSED 0 1 else s
  if keep then keepReply s1 ⟨r.src, r.seq, r.crc, replyTo r status detail data⟩ else s1

theorem reply_eq (s : State) (r : Req) (status detail : Nat) (data : List Byte) (keep : Bool) :
    reply s r status detail data keep = sendReply (replyNoted s r status detail data keep) r.src (replyTo r status detail data) := rfl

/-- The state with a reply sent to the mailbox. -/
theorem sendReply_mailbox (s : State) {src : Nat × Nat} (bs : List Byte) (mailbox : src.1 = 3) : sendReply s src bs =
    fs (fs (memWrite s (ctrlBase + mboxReply) bs) MC_MBOX_BUSY 0 0) MC_MBOX_DONE 0 1 := if_pos mailbox

theorem sendReply_packet (s : State) {src : Nat × Nat} (bs : List Byte) (other : src.1 ≠ 3) : sendReply s src bs = sendPacket s src bs := if_neg other

section
variable (s : State) (r : Req) (status detail : Nat) (data : List Byte) (keep : Bool)

theorem replyNoted_frame : ∃ regs kept, replyNoted s r status detail data keep = { s with regs := regs, mc := { s.mc with kept := kept } } := by
  unfold replyNoted
  split <;> split <;> exact ⟨_, _, rfl⟩

theorem rd_replyNoted (x : Reg) (i : Nat) (out : x.no ≠ MC_PKT_CNT.no) : rd (replyNoted s r status detail data keep) x i = rd s x i := by
  unfold replyNoted
  split <;> split
  · exact rd_fs_of_no s MC_PKT_CNT_REFUSED x 0 i _ out
  · exact rd_fs_of_no s MC_PKT_CNT_REFUSED x 0 i _ out
  · rfl
  · rfl

/-- Besides the reply and those kept, a reply changes registers and the mailbox's buffer alone. -/
theorem reply_frame : ∃ regs mem poison kept replies, reply s r status detail data keep =
    { s with regs := regs, mem := mem, poison := poison, mc := { s.mc with kept := kept, replies := replies } } := by
  obtain ⟨regs, kept, noted⟩ := replyNoted_frame s r status detail data keep
  rw [reply_eq, noted]
  by_cases mailbox : r.src.1 = 3
  · rw [sendReply_mailbox _ _ mailbox]
    exact ⟨_, _, _, _, _, rfl⟩
  · rw [sendReply_packet _ _ mailbox]
    exact ⟨_, _, _, _, _, rfl⟩

/-- A reply counts in MC_PKT_CNT and shows in MC_MBOX; every other register reads as before. -/
theorem rd_reply (x : Reg) (i : Nat) (out : x.no ≠ MC_PKT_CNT.no ∧ x.no ≠ MC_MBOX.no) : rd (reply s r status detail data keep) x i = rd s x i := by
  rw [reply_eq, ← rd_replyNoted s r status detail data keep x i out.1]
  by_cases mailbox : r.src.1 = 3
  · rw [sendReply_mailbox _ _ mailbox, rd_fs_of_no _ _ _ _ _ _ out.2, rd_fs_of_no _ _ _ _ _ _ out.2]
    rfl
  · rw [sendReply_packet _ _ mailbox]
    rfl

theorem fg_reply (f : Fld) (i : Nat) (out : f.reg.no ≠ MC_PKT_CNT.no ∧ f.reg.no ≠ MC_MBOX.no) : fg (reply s r status detail data keep) f i = fg s f i := by
  unfold fg
  rw [rd_reply s r status detail data keep f.reg i out]

theorem replied_reply : Replied s (reply s r status detail data keep) r status detail data := by
  obtain ⟨regs, kept, noted⟩ := replyNoted_frame s r status detail data keep
  rw [reply_eq, noted]
  refine ⟨fun other => ?_, fun mailbox => ?_⟩
  · rw [sendReply_packet _ _ other]
    rfl
  · rw [sendReply_mailbox _ _ mailbox]
    refine ⟨rfl, fg_fs_same _ MC_MBOX_DONE 0 1 (by decide) (by decide), ?_, ?_⟩
    · rw [fg_fs_apart _ MC_MBOX_DONE MC_MBOX_BUSY _ _ (by decide)]
      exact fg_fs_same _ MC_MBOX_BUSY 0 0 (by decide) (by decide)
    · rw [← length_replyTo r status detail data]
      exact memRead_memWrite_same { s with regs := regs, mc := { s.mc with kept := kept } } _ _

/-- Every byte but those of the mailbox's reply buffer reads as before. -/
theorem readByte_reply (k : Nat) (out : r.src.1 = 3 → k < ctrlBase + mboxReply ∨ ctrlBase + mboxReply + (data.length + 16) ≤ k) :
    readByte (reply s r status detail data keep) k = readByte s k := by
  obtain ⟨regs, kept, noted⟩ := replyNoted_frame s r status detail data keep
  rw [reply_eq, noted]
  by_cases mailbox : r.src.1 = 3
  · rw [sendReply_mailbox _ _ mailbox]
    exact readByte_memWrite_out { s with regs := regs, mc := { s.mc with kept := kept } } _ _ k (by rw [length_replyTo]; exact out mailbox)
  · rw [sendReply_packet _ _ mailbox]
    rfl

theorem onlyReplied_reply : OnlyReplied s (observe (reply s r status detail data keep)) r status detail data := by
  obtain ⟨sent, shown⟩ := replied_reply s r status detail data keep
  obtain ⟨regs, mem, poison, kept, replies, frame⟩ := reply_frame s r status detail data keep
  refine ⟨⟨by simpa using sent, by simpa using shown⟩, ?_, ?_, ?_, ?_, fun k out => ?_⟩
  · rw [observe_queues, frame]
  · rw [observe_flash, frame]
  · rw [observe_fuses, frame]
  · rw [observe_pwards, frame]
  · rw [readByte_observe, readByte_reply s r status detail data keep k out]

end

theorem Replied.observe {s t : State} {r : Req} {status detail : Nat} {data : List Byte} (h : Replied s t r status detail data) :
    Replied s (observe t) r status detail data := by simpa [Replied] using h

theorem Replied.answered {s t : State} {r : Req} {status detail : Nat} {data : List Byte} (h : Replied s t r status detail data) :
    Answered t r status detail data := by
  obtain ⟨sent, shown⟩ := h
  refine ⟨fun other => ?_, fun mailbox => ?_⟩
  · rw [sent other, List.getLast?_append]
    rfl
  · obtain ⟨-, done, -, bytes⟩ := shown mailbox
    exact ⟨done, bytes⟩

/-! ### A request that passes its checks (18, R445, R447) -/

section
variable {s : State} {r : Req} {op : Nat} (accepted : Accepted s r op)
include accepted

/-- An accepted request is executed at once, with nothing before it in the queue. -/
theorem receive_of_accepted : receive op r.src.1 r.src.2 r.raw s = observe (serve 63 (execute s r)) := by
  obtain ⟨reached, good, code, ⟨inbox, waiting, held, storing, queue⟩, -, -⟩ := accepted
  have back : withInbox (withInbox s [(r.src, r.raw)]) [] = s := by rw [← inbox]; rfl
  have taken : takePacket s (r.src.1, r.src.2) r.raw = withInbox s [(r.src, r.raw)] := by simp [takePacket, good, inbox, withInbox]
  have same : byteAt r.raw 1 = op := code
  have served : serve 64 (withInbox s [(r.src, r.raw)]) = serve 63 (execute s r) := by
    rw [serve_cons 63 (withInbox s [(r.src, r.raw)]) r.src r.raw [] rfl waiting held storing, back]
  unfold receive
  rw [if_neg (by simp [reached, same, good]), taken, serveAll, failStoring_of_none (withInbox s [(r.src, r.raw)]) storing queue, served]

theorem execute_answers (plain : r.op ∉ storedOps) {s1 : State} {status detail : Nat} {data : List Byte}
    (does : perform s r = (s1, some (status, detail, data))) : execute s r = reply s1 r status detail data true := by
  obtain ⟨-, -, -, ⟨-, waiting, -⟩, kept, passes⟩ := accepted
  simp [execute, kept, alreadyWaits, waiting, passes, does, plain]

theorem execute_goesOn {s1 : State} (does : perform s r = (s1, none)) : execute s r = s1 := by
  obtain ⟨-, -, -, ⟨-, waiting, -⟩, kept, passes⟩ := accepted
  simp [execute, kept, alreadyWaits, waiting, passes, does]

/-- A request answered at once. -/
theorem receive_answers (plain : op ∉ storedOps) {s1 : State} {status detail : Nat} {data : List Byte}
    (does : perform s r = (s1, some (status, detail, data))) (inbox : s1.mc.inbox = []) (waiting : s1.mc.waiting = []) :
    receive op r.src.1 r.src.2 r.raw s = observe (reply s1 r status detail data true) := by
  obtain ⟨_, _, _, _, _, frame⟩ := reply_frame s1 r status detail data true
  have code : r.op = op := accepted.2.2.1
  rw [receive_of_accepted accepted, execute_answers accepted (code ▸ plain) does, serve_of_empty 63 _ (by rw [frame, inbox]) (by rw [frame, waiting])]

/-- A refused request is answered, and nothing else happens. -/
theorem receive_refuses (plain : op ∉ storedOps) {status detail : Nat} (does : perform s r = refuse s status detail) :
    receive op r.src.1 r.src.2 r.raw s = observe (reply s r status detail [] true) :=
  receive_answers accepted plain does accepted.2.2.2.1.1 accepted.2.2.2.1.2.1

end

/-! ### A request whose reply waits for streams (18, R447, R451) -/

/-- A request as it waits. -/
def waitingFor (r : Req) (ms : List Nat) (done : List (Nat × Nat)) : Waiting := { source := r.src, request := r.raw, streams := ms, done := done }

section
variable {s : State} (r : Req) (done : List (Nat × Nat)) (inbox : s.mc.inbox = []) (waiting : s.mc.waiting = [])
include inbox waiting

omit inbox in
theorem waiting_waitFor (ms : List Nat) : (waitFor s r ms done).mc.waiting = [waitingFor r ms done] := by
  have last : (waitFor s r ms done).mc.waiting = s.mc.waiting ++ [waitingFor r ms done] := rfl
  rw [last, waiting, List.nil_append]

/-- With streams to wait for, a request stays unanswered. -/
theorem serve_waitFor {ms : List Nat} (some : ms ≠ []) (n : Nat) : serve (n + 1) (waitFor s r ms done) = waitFor s r ms done := by
  have listed := waiting_waitFor r done waiting ms
  have due : (waitingFor r ms done).streams.isEmpty = false := by simpa [waitingFor] using some
  have answered : answerWaiting (waitFor s r ms done) = waitFor s r ms done := by
    have same : ({ waitFor s r ms done with mc := { (waitFor s r ms done).mc with waiting := [waitingFor r ms done] } } : State) = waitFor s r ms done := by
      rw [← listed]
    simp [answerWaiting, listed, due, same]
  have empty : (waitFor s r ms done).mc.inbox = [] := inbox
  simp only [serve, answered, empty]
  split <;> rfl

omit inbox in
/-- With none to wait for, it is answered. -/
theorem serve_waitFor_nil (n : Nat) (rest : (answerOne s (waitingFor r [] done)).mc.inbox = []) :
    serve (n + 1) (waitFor s r [] done) = answerOne s (waitingFor r [] done) := by
  have listed := waiting_waitFor r done waiting []
  have back : ({ waitFor s r [] done with mc := { (waitFor s r [] done).mc with waiting := [] } } : State) = s := by
    have same : ({ s with mc := { s.mc with waiting := [] } } : State) = s := by rw [← waiting]
    exact same
  have due : (waitingFor r [] done).streams.isEmpty = true := rfl
  have answered : answerWaiting (waitFor s r [] done) = answerOne s (waitingFor r [] done) := by
    simp [answerWaiting, listed, due, back]
  simp only [serve, answered, rest]
  split <;> rfl

end

end Sys2Proof.Machine
end

section
/-!
SUPPORT. Stops asked by packet (18, R447, R451; 06, R169): which streams a request waits for, and the reply of one that waits for none.
-/

namespace Sys2Proof.Machine

/-! ### A stop asked of one stream (06, R169) -/

theorem askStop_enabled {s : State} {m : Nat} (enabled : (stream s m).st = .enabled) (by' : AbortBy) :
    askStop s m by' = (requestAbort s m by', none) := by
  unfold askStop
  rw [enabled]

/-- A stream that is final already keeps its state, and the packet learns its status. -/
theorem askStop_final {s : State} {m status : Nat}
    (final : ((stream s m).st, status) ∈ [(StreamSt.disabled, 5), (.faulted, 4), (.aborted, 3)]) : askStop s m .packet = (s, some status) := by
  simp only [List.mem_cons, Prod.mk.injEq, List.not_mem_nil, or_false] at final
  unfold askStop
  rcases final with ⟨st, rfl⟩ | ⟨st, rfl⟩ | ⟨st, rfl⟩ <;> rw [st] <;> rfl

/-- A stop asked changes its own stream, which it asks or disables. -/
theorem askStop_frame (s : State) (m : Nat) (by' : AbortBy) :
    (askStop s m by').1 = s ∨ (askStop s m by').1 = disableStream s m ∨ (askStop s m by').1 = requestAbort s m by' := by
  unfold askStop
  dsimp only
  split
  · exact .inl rfl
  · cases by' != AbortBy.packet
    · exact .inl rfl
    · exact .inr (.inl rfl)
  · cases by' != AbortBy.packet
    · exact .inl rfl
    · exact .inr (.inl rfl)
  · exact .inr (.inr rfl)

theorem stream_requestAbort_other (s : State) {m k : Nat} (by' : AbortBy) (ne : k ≠ m) : stream (requestAbort s m by') k = stream s k := by
  obtain ⟨abort, frame⟩ := requestAbort_frame s m by'
  rw [frame, stream_setStream_other _ _ ne]

theorem stream_requestAbort_same (s : State) (m : Nat) (by' : AbortBy) : ∃ abort, stream (requestAbort s m by') m =
    { stream s m with req := (stream s m).req ++ [by'], abort := abort } := by
  obtain ⟨abort, frame⟩ := requestAbort_frame s m by'
  exact ⟨abort, by rw [frame, stream_setStream_same]⟩

section
variable (s : State) (m : Nat) (by' : AbortBy)

theorem askStop_mc : (askStop s m by').1.mc = s.mc := by
  obtain ⟨abort, asked⟩ := requestAbort_frame s m by'
  rcases askStop_frame s m by' with frame | frame | frame <;> rw [frame]
  · rfl
  · rw [asked]; rfl

theorem fg_askStop (f : Fld) (i : Nat) (out : f.reg.no ≠ WARD_SCFG.no) : fg (askStop s m by').1 f i = fg s f i := by
  obtain ⟨abort, asked⟩ := requestAbort_frame s m by'
  rcases askStop_frame s m by' with frame | frame | frame <;> rw [frame]
  · exact fg_fs_of_no _ WARD_SCFG_EN f m i 0 out
  · rw [asked]; rfl

theorem stream_askStop_other {k : Nat} (ne : k ≠ m) : stream (askStop s m by').1 k = stream s k := by
  rcases askStop_frame s m by' with frame | frame | frame <;> rw [frame]
  · exact stream_setStream_other _ _ ne
  · exact stream_requestAbort_other _ _ ne

end

/-! ### A stop asked of several streams -/

/-- One stop asked, with the streams to wait for and the statuses so far. -/
def askNext (by' : AbortBy) (t : State × List Nat × List (Nat × Nat)) (m : Nat) : State × List Nat × List (Nat × Nat) :=
  match askStop t.1 m by' with
  | (u, some k) => (u, t.2.1, t.2.2 ++ [(m, k)])
  | (u, none) => (u, t.2.1 ++ [m], t.2.2)

theorem askStops_eq (s : State) (by' : AbortBy) (ms : List Nat) : askStops s by' ms = ms.foldl (askNext by') (s, [], []) := by
  unfold askStops
  congr 1
  funext t m
  unfold askNext
  generalize askStop t.1 m by' = x
  obtain ⟨u, _ | k⟩ := x <;> rfl

section
variable (by' : AbortBy)

theorem askNext_state (t : State × List Nat × List (Nat × Nat)) (m : Nat) : (askNext by' t m).1 = (askStop t.1 m by').1 := by
  unfold askNext
  split <;> simp [*]

/-- Stream k has been asked to stop and is waited for. -/
abbrev AskedOf (k : Nat) (t : State × List Nat × List (Nat × Nat)) : Prop := by' ∈ (stream t.1 k).req ∧ k ∈ t.2.1

/-- An enabled stream stays enabled; once asked, it stays asked. -/
theorem askNext_enabled {t : State × List Nat × List (Nat × Nat)} {k : Nat} (m : Nat) (enabled : (stream t.1 k).st = .enabled) :
    (stream (askNext by' t m).1 k).st = .enabled ∧ (k = m ∨ AskedOf by' k t → AskedOf by' k (askNext by' t m)) := by
  by_cases own : k = m
  · subst own
    obtain ⟨abort, asked⟩ := stream_requestAbort_same t.1 k by'
    have next : askNext by' t k = (requestAbort t.1 k by', t.2.1 ++ [k], t.2.2) := by rw [askNext, askStop_enabled enabled]
    rw [show requestAbort t.1 k by' = (askNext by' t k).1 by rw [next]] at asked
    have listed : k ∈ (askNext by' t k).2.1 := by rw [next]; exact List.mem_concat_self
    exact ⟨by rw [asked]; exact enabled, fun _ => ⟨by rw [asked]; exact List.mem_concat_self, listed⟩⟩
  · have same := stream_askStop_other t.1 m by' own
    rw [← askNext_state] at same
    refine ⟨by rw [same]; exact enabled, fun h => ?_⟩
    obtain ⟨asked, listed⟩ := h.resolve_left own
    refine ⟨by rw [same]; exact asked, ?_⟩
    unfold askNext
    split <;> simp [listed]

theorem foldl_askNext_enabled {k : Nat} (ms : List Nat) (t : State × List Nat × List (Nat × Nat)) (enabled : (stream t.1 k).st = .enabled) :
    (stream (ms.foldl (askNext by') t).1 k).st = .enabled ∧ (k ∈ ms ∨ AskedOf by' k t → AskedOf by' k (ms.foldl (askNext by') t)) := by
  induction ms generalizing t with
  | nil => simp [enabled]
  | cons m ms ih =>
    obtain ⟨stays, asks⟩ := askNext_enabled by' m enabled
    obtain ⟨ends, waits⟩ := ih _ stays
    refine ⟨ends, fun h => waits ?_⟩
    rcases h with listed | before
    · rcases List.mem_cons.mp listed with own | later
      · exact .inr (asks (.inl own))
      · exact .inl later
    · exact .inr (asks (.inr before))

end

section
variable (s : State) (by' : AbortBy) (ms : List Nat)

theorem askStops_mc : (askStops s by' ms).1.mc = s.mc := by
  rw [askStops_eq]
  exact List.foldlRecOn (motive := fun t : State × List Nat × List (Nat × Nat) => t.1.mc = s.mc) ms _ rfl fun t same m _ => by
    rw [askNext_state, askStop_mc, same]

theorem fg_askStops (f : Fld) (i : Nat) (out : f.reg.no ≠ WARD_SCFG.no) : fg (askStops s by' ms).1 f i = fg s f i := by
  rw [askStops_eq]
  exact List.foldlRecOn (motive := fun t : State × List Nat × List (Nat × Nat) => fg t.1 f i = fg s f i) ms _ rfl fun t same m _ => by
    rw [askNext_state, fg_askStop _ _ _ f i out, same]

/-- Every enabled stream among those named is asked to stop, stays enabled, and is waited for. -/
theorem askStops_asks {k : Nat} (listed : k ∈ ms) (enabled : (stream s k).st = .enabled) :
    (stream (askStops s by' ms).1 k).st = .enabled ∧ by' ∈ (stream (askStops s by' ms).1 k).req ∧ k ∈ (askStops s by' ms).2.1 := by
  rw [askStops_eq]
  obtain ⟨stays, asked⟩ := foldl_askNext_enabled by' ms (s, [], []) enabled
  exact ⟨stays, asked (.inl listed)⟩

end

/-! ### The streams of the module -/

/-- What a map does not hold by default it lists. -/
theorem mem_of_sget {α : Type} {d : α} {xs : SMap α} {k : Nat} (ne : sget d xs k ≠ d) : (k, sget d xs k) ∈ xs := by
  induction xs with
  | nil => exact absurd rfl ne
  | cons x xs ih =>
    obtain ⟨j, v⟩ := x
    by_cases own : k = j
    · simp [sget, own]
    · simp only [sget, if_neg own] at ne ⊢
      exact List.mem_cons_of_mem _ (ih ne)

theorem mem_enabledStreams {s : State} {k : Nat} (enabled : (stream s k).st = .enabled) : k ∈ enabledStreams s := by
  have listed : (k, stream s k) ∈ s.streams := mem_of_sget fun eq => by
    have off : (stream s k).st = .disabled := congrArg Stream.st eq
    rw [enabled] at off
    cases off
  exact List.mem_map.mpr ⟨_, List.mem_filter.mpr ⟨listed, by simp [enabled]⟩, rfl⟩

theorem enabledStreams_of_nobody {s : State} (nobody : ∀ x ∈ s.streams, x.2.st = .disabled) : enabledStreams s = [] := by
  rw [enabledStreams, List.map_eq_nil_iff, List.filter_eq_nil_iff]
  exact fun x listed => by simp [nobody x listed]

/-! ### A request that asks (18, R447) -/

/-- The state once a request that asks streams to stop waits for them. -/
def stopsAsked (s : State) (r : Req) (by' : AbortBy) (ms : List Nat) : State :=
  waitFor (askStops s by' ms).1 r (askStops s by' ms).2.1 (askStops s by' ms).2.2

theorem streamAbort_eq (s : State) (r : Req) : streamAbort s r = (stopsAsked s r .packet [streamOf r.par], none) := rfl

theorem abortAll_eq (s : State) (r : Req) : abortAll s r = (stopsAsked s r .packet (enabledStreams s), none) := rfl

theorem unassign_eq (s : State) (r : Req) : unassign s r = (stopsAsked s r .unassign (enabledStreams s), none) := rfl

/-- A request waits unanswered for stream k, which it has asked to stop. -/
structure AsksStop (s t : State) (r : Req) (by' : AbortBy) (k : Nat) : Prop where
  waits : ∃ w, t.mc.waiting = [w] ∧ w.source = r.src ∧ w.request = r.raw ∧ ∀ j ∈ [k], j ∈ w.streams
  asked : by' ∈ (stream t k).req
  enabled : (stream t k).st = .enabled
  unanswered : t.mc.replies = s.mc.replies
  field : ∀ f i, f.reg.no ≠ WARD_SCFG.no → fg t f i = fg s f i

section
variable {s : State} {r : Req} {op : Nat} (accepted : Accepted s r op)
include accepted

theorem receive_asks {by' : AbortBy} {ms : List Nat} (does : perform s r = (stopsAsked s r by' ms, none)) {k : Nat} (listed : k ∈ ms)
    (enabled : (stream s k).st = .enabled) : AsksStop s (receive op r.src.1 r.src.2 r.raw s) r by' k := by
  obtain ⟨inbox, waiting, -⟩ := accepted.2.2.2.1
  obtain ⟨stays, asked, waited⟩ := askStops_asks s by' ms listed enabled
  have mc := askStops_mc s by' ms
  have stands := serve_waitFor r (askStops s by' ms).2.2 (by rw [mc, inbox]) (by rw [mc, waiting]) (List.ne_nil_of_mem waited) 62
  rw [receive_of_accepted accepted, execute_goesOn accepted does, stopsAsked, stands]
  refine ⟨⟨waitingFor r _ (askStops s by' ms).2.2, ?_, rfl, rfl, by simpa [waitingFor] using waited⟩, ?_, ?_, ?_, fun f i out => ?_⟩
  · rw [observe_mc]
    exact waiting_waitFor r _ (by rw [mc, waiting]) _
  · rw [stream_observe_req]; exact asked
  · rw [stream_observe_st]; exact stays
  · have replies := congrArg Mc.replies mc
    rw [observe_mc]; exact replies
  · rw [fg_observe]; exact fg_askStops s by' ms f i out

/-- A request that finds nothing to wait for is answered at once. -/
theorem receive_finds_final {done : List (Nat × Nat)} (does : perform s r = (waitFor s r [] done, none))
    (rest : (answerOne s (waitingFor r [] done)).mc.inbox = []) :
    receive op r.src.1 r.src.2 r.raw s = observe (answerOne s (waitingFor r [] done)) := by
  obtain ⟨-, waiting, -⟩ := accepted.2.2.2.1
  rw [receive_of_accepted accepted, execute_goesOn accepted does, serve_waitFor_nil r done waiting 62 rest]

end

theorem stopsAsked_nil (s : State) (r : Req) (by' : AbortBy) : stopsAsked s r by' [] = waitFor s r [] [] := rfl

end Sys2Proof.Machine
end

section
/-!
PROOFS. Streams stopped by packet (18, R447, R451): STREAM_ABORT and ABORT_ALL, the waiting of JOB_UNASSIGN and of MODULE_RESET, and the reply that
ABORT_SETTLE sends.
-/

namespace Sys2Proof.Machine

/-! ### The reply of a request whose streams are final (18, R447, R449) -/

section
variable (s : State) {r : Req}

theorem answerOne_streamAbort (code : r.op = 0x60) (status : Nat) : answerOne s (waitingFor r [] [(streamOf r.par, status)]) =
    reply s r status (if status = stFaulted then fg s WARD_SFAULT_CODE (streamOf r.par) else 0) (abortData s (streamOf r.par) status) true := by
  unfold answerOne
  simp [code, waitingFor]

theorem answerOne_abortAll (code : r.op = 0x62) : answerOne s (waitingFor r [] []) =
    reply s r 0 0 ((toBytesLE 2 0 ++ toBytesLE 2 0) ++ (toBytesLE 2 0 ++ toBytesLE 2 0)) true := by
  unfold answerOne
  simp only [code, waitingFor]
  rfl

theorem answerOne_jobUnassign (code : r.op = 0x31) : answerOne s (waitingFor r [] []) =
    reply (finishUnassign s) r 0 0 (toBytesLE 8 (s.pwr.jobUj / 1000) ++ (toBytesLE 2 0 ++ toBytesLE 2 0) ++ toBytesLE 4 s.mc.job) true := by
  unfold answerOne
  simp only [code, waitingFor, statusCount, List.filter_nil, List.length_nil, List.append_assoc]
  rfl

end

/-! ### STREAM_ABORT (18, R447, R449) -/

section
variable {s : State} {r : Req} (accepted : Accepted s r 0x60)
include accepted

theorem perform_streamAbort : perform s r = streamAbort s r := by simp [perform, show r.op = 0x60 from accepted.2.2.1]

/-- Of a stream that is final already it is answered at once. -/
theorem streamAbort_answers {status : Nat}
    (final : ((stream s (streamOf r.par)).st, status) ∈ [(StreamSt.disabled, 5), (.faulted, 4), (.aborted, 3)]) :
    Gives (.streamAbort r.src.1 r.src.2 r.raw) s fun t => OnlyReplied s t r status
      (if status = stFaulted then fg s WARD_SFAULT_CODE (streamOf r.par) else 0) (abortData s (streamOf r.par) status) := by
  have row : exec (.streamAbort r.src.1 r.src.2 r.raw) s = .next (receive 0x60 r.src.1 r.src.2 r.raw s) := rfl
  have does : perform s r = (waitFor s r [] [(streamOf r.par, status)], none) := by
    rw [perform_streamAbort accepted, streamAbort_eq, stopsAsked, askStops_eq]
    simp [askNext, askStop_final final]
  have answered := answerOne_streamAbort s (r := r) accepted.2.2.1 status
  obtain ⟨_, _, _, _, _, frame⟩ := reply_frame s r status (if status = stFaulted then fg s WARD_SFAULT_CODE (streamOf r.par) else 0)
    (abortData s (streamOf r.par) status) true
  rw [receive_finds_final accepted does (by rw [answered, frame]; exact accepted.2.2.2.1.1), answered] at row
  exact gives_next row (onlyReplied_reply s r _ _ _ true)

/-- An enabled stream is asked, and the packet waits. -/
theorem streamAbort_waits (enabled : (stream s (streamOf r.par)).st = .enabled) : Gives (.streamAbort r.src.1 r.src.2 r.raw) s fun t =>
    AsksStop s t r .packet (streamOf r.par) ∧ (stream t (streamOf r.par)).req = (stream s (streamOf r.par)).req ++ [.packet] ∧
      (stream t (streamOf r.par)).cmds = (stream s (streamOf r.par)).cmds ∧ t.mem = s.mem ∧ t.regs = s.regs := by
  have row : exec (.streamAbort r.src.1 r.src.2 r.raw) s = .next (receive 0x60 r.src.1 r.src.2 r.raw s) := rfl
  have does : perform s r = (stopsAsked s r .packet [streamOf r.par], none) := by rw [perform_streamAbort accepted, streamAbort_eq]
  have asks := receive_asks accepted does (List.mem_singleton_self _) enabled
  obtain ⟨abort, frame⟩ := requestAbort_frame s (streamOf r.par) .packet
  obtain ⟨inbox, waiting, -⟩ := accepted.2.2.2.1
  have asked : stopsAsked s r .packet [streamOf r.par] = waitFor (requestAbort s (streamOf r.par) .packet) r [streamOf r.par] [] := by
    rw [stopsAsked, askStops_eq]
    simp [askNext, askStop_enabled enabled]
  have same : receive 0x60 r.src.1 r.src.2 r.raw s = observe (stopsAsked s r .packet [streamOf r.par]) := by
    rw [receive_of_accepted accepted, execute_goesOn accepted does, asked,
      serve_waitFor r [] (by rw [frame]; exact inbox) (by rw [frame]; exact waiting) (List.cons_ne_nil _ _) 62]
  have own : stream (stopsAsked s r .packet [streamOf r.par]) (streamOf r.par) =
      { stream s (streamOf r.par) with req := (stream s (streamOf r.par)).req ++ [.packet], abort := abort } := by
    rw [asked, frame]
    exact stream_setStream_same _ _ _
  refine gives_next row ⟨asks, ?_⟩
  rw [same, stream_observe_req, stream_observe_cmds, observe_mem, observe_regs, own, asked, frame]
  exact ⟨rfl, rfl, rfl, rfl⟩

end

/-! ### ABORT_ALL (18, R447) -/

section
variable {s : State} {r : Req} (accepted : Accepted s r 0x62)
include accepted

theorem perform_abortAll : perform s r = (stopsAsked s r .packet (enabledStreams s), none) := by
  rw [← abortAll_eq]
  simp [perform, show r.op = 0x62 from accepted.2.2.1]

theorem abortAll_answers (nobody : ∀ x ∈ s.streams, x.2.st = .disabled) : Gives (.abortAll r.src.1 r.src.2 r.raw) s fun t =>
    OnlyReplied s t r 0 0 ((toBytesLE 2 0 ++ toBytesLE 2 0) ++ (toBytesLE 2 0 ++ toBytesLE 2 0)) := by
  have row : exec (.abortAll r.src.1 r.src.2 r.raw) s = .next (receive 0x62 r.src.1 r.src.2 r.raw s) := rfl
  have does := perform_abortAll accepted
  rw [enabledStreams_of_nobody nobody, stopsAsked_nil] at does
  have answered := answerOne_abortAll s (r := r) accepted.2.2.1
  obtain ⟨_, _, _, _, _, frame⟩ := reply_frame s r 0 0 ((toBytesLE 2 0 ++ toBytesLE 2 0) ++ (toBytesLE 2 0 ++ toBytesLE 2 0)) true
  rw [receive_finds_final accepted does (by rw [answered, frame]; exact accepted.2.2.2.1.1), answered] at row
  exact gives_next row (onlyReplied_reply s r _ _ _ true)

theorem abortAll_waits {k : Nat} (enabled : (stream s k).st = .enabled) :
    Gives (.abortAll r.src.1 r.src.2 r.raw) s fun t => AsksStop s t r .packet k :=
  gives_next (t := receive 0x62 r.src.1 r.src.2 r.raw s) rfl (receive_asks accepted (perform_abortAll accepted) (mem_enabledStreams enabled) enabled)

end

/-! ### The reply to a STREAM_ABORT that ABORT_SETTLE sends (06, R171; 18, R449) -/

theorem abortData_congr {s t : State} {m status : Nat} (tag : fg t WARD_SSTAT_LAST_TAG m = fg s WARD_SSTAT_LAST_TAG m)
    (retired : fg t WARD_SDONE_RETIRED m = fg s WARD_SDONE_RETIRED m) (cmds : (stream t m).repCmds = (stream s m).repCmds)
    (trunc : (stream t m).repTrunc = (stream s m).repTrunc) : abortData t m status = abortData s m status := by
  simp only [abortData, tag, retired, cmds, trunc]

theorem abortData_observe (s : State) (m status : Nat) : abortData (observe s) m status = abortData s m status := by
  obtain ⟨_, _, own⟩ := stream_observe s m
  exact abortData_congr (fg_observe s _ _) (fg_observe s _ _) (by rw [own]) (by rw [own])

theorem abortData_reply (s : State) (r : Req) (status detail : Nat) (data : List Byte) (keep : Bool) (m k : Nat) :
    abortData (reply s r status detail data keep) m k = abortData s m k := by
  obtain ⟨_, _, _, _, _, frame⟩ := reply_frame s r status detail data keep
  have own : stream (reply s r status detail data keep) m = stream s m := by rw [frame]; rfl
  exact abortData_congr (fg_reply _ _ _ _ _ _ _ _ (by decide)) (fg_reply _ _ _ _ _ _ _ _ (by decide)) (by rw [own]) (by rw [own])

/-- With no packet's record waited for, a write protect drops records of the queue alone. -/
theorem failStoring_frame {s : State} (storing : s.mc.storing = none) : ∃ store, failStoring s = { s with store := store } := by
  unfold failStoring
  split
  · unfold endStoring
    simp only [storing]
    exact ⟨_, rfl⟩
  · exact ⟨_, rfl⟩

/-- The reply to a request whose last stream has become final goes out. -/
theorem serveAll_waitFor {s : State} {r : Req} (code : r.op = 0x60) (inbox : s.mc.inbox = []) (waiting : s.mc.waiting = [])
    (storing : s.mc.storing = none) (status : Nat) : ∃ store, serveAll (waitFor s r [] [(streamOf r.par, status)]) =
      observe (answerOne { s with store := store } (waitingFor r [] [(streamOf r.par, status)])) := by
  obtain ⟨store, frame⟩ := failStoring_frame (s := waitFor s r [] [(streamOf r.par, status)]) storing
  have moved : ({ waitFor s r [] [(streamOf r.par, status)] with store := store } : State) =
    waitFor { s with store := store } r [] [(streamOf r.par, status)] := rfl
  have rest : (answerOne { s with store := store } (waitingFor r [] [(streamOf r.par, status)])).mc.inbox = [] := by
    rw [answerOne_streamAbort _ code]
    obtain ⟨_, _, _, _, _, after⟩ := reply_frame { s with store := store } r status _ _ true
    rw [after]
    exact inbox
  exact ⟨store, by rw [serveAll, frame, moved, serve_waitFor_nil (s := { s with store := store }) r _ waiting 63 rest]⟩

/-- The last stream that a request waits for becomes final. -/
theorem tellAbort_waitingFor {s : State} {r : Req} {m : Nat} (waiting : s.mc.waiting = [waitingFor r [m] []]) (status : Nat) :
    tellAbort s m status = waitFor (statusNoted { s with mc := { s.mc with waiting := [] } } m status) r [] [(m, status)] := by
  have told : (tellAbort s m status).mc.waiting = [waitingFor r [] [(m, status)]] := by
    unfold tellAbort
    simp [waiting, waitingFor]
  unfold tellAbort at told ⊢
  dsimp only at told ⊢
  rw [told]
  rfl

theorem endStream_waitFor (s : State) (r : Req) (done : List (Nat × Nat)) (m : Nat) (off : Bool) (st : StreamSt) :
    endStream (waitFor s r [] done) m off st = waitFor (endStream s m off st) r [] done := by
  unfold endStream
  split <;> rfl

theorem abortSettle_answers {s : State} {r : Req} (code : r.op = 0x60) (waiting : s.mc.waiting = [waitingFor r [streamOf r.par] []])
    (inbox : s.mc.inbox = []) (storing : s.mc.storing = none) (aborting : (stream s (streamOf r.par)).st = .aborting)
    (quiet : ∀ c ∈ (stream s (streamOf r.par)).cmds, c.phase ≠ .issued) (acknowledged : streamTxns s (streamOf r.par) = []) :
    Gives (.abortSettle (streamOf r.par)) s fun t =>
      Replied s t r 3 0 (abortData t (streamOf r.par) 3) ∧ t.mc.waiting = [] := by
  have row : exec (.abortSettle (streamOf r.par)) s = .next (serveAll (settleAbort s (streamOf r.par))) := rfl
  rw [settleAbort_of_quiet aborting quiet acknowledged, tellAbort_waitingFor (s := streamAgain s (streamOf r.par)) waiting 3,
    endStream_waitFor] at row
  generalize ended : endStream _ _ _ _ = u at row
  have mc : u.mc = { s.mc with waiting := [] } := by
    rw [← ended, endStream_keeps State.mc (fun _ _ _ _ => rfl) (fun _ _ _ => rfl)]
    rfl
  obtain ⟨store, answered⟩ := serveAll_waitFor (s := u) code (by rw [mc, inbox]) (by rw [mc]) (by rw [mc, storing]) 3
  obtain ⟨_, _, _, _, _, frame⟩ := reply_frame { u with store := store } r 3 0 (abortData { u with store := store } (streamOf r.par) 3) true
  rw [answered, answerOne_streamAbort _ code 3, if_neg (by decide)] at row
  refine gives_next row ⟨?_, ?_⟩
  · have sent := replied_reply { u with store := store } r 3 0 (abortData { u with store := store } (streamOf r.par) 3) true
    rw [abortData_observe, abortData_reply]
    refine Replied.observe ?_
    unfold Replied at sent ⊢
    simpa [mc] using sent
  · rw [observe_mc, frame]
    exact congrArg Mc.waiting mc

/-! ### JOB_UNASSIGN and MODULE_RESET while streams run (18, R451, R469) -/

section
variable {s : State} {r : Req}

theorem perform_jobUnassign (accepted : Accepted s r 0x31) :
    perform s r = if hasJob s then (stopsAsked s r .unassign (enabledStreams s), none) else refuse s 0x16 0 := by
  rw [← unassign_eq]
  simp [perform, show r.op = 0x31 from accepted.2.2.1, jobUnassign, stNoJob]

theorem jobUnassign_refuses (accepted : Accepted s r 0x31) (jobless : hasJob s = false) :
    Gives (.jobUnassign r.src.1 r.src.2 r.raw) s fun t => OnlyReplied s t r 0x16 0 [] := by
  have row : exec (.jobUnassign r.src.1 r.src.2 r.raw) s = .next (receive 0x31 r.src.1 r.src.2 r.raw s) := rfl
  rw [receive_refuses accepted (by decide) ((perform_jobUnassign accepted).trans (if_neg (by simp [jobless])))] at row
  exact gives_next row (onlyReplied_reply s r _ _ _ true)

theorem jobUnassign_waits (accepted : Accepted s r 0x31) (job : hasJob s = true) {k : Nat} (enabled : (stream s k).st = .enabled) :
    Gives (.jobUnassign r.src.1 r.src.2 r.raw) s fun t => AsksStop s t r .unassign k :=
  gives_next (t := receive 0x31 r.src.1 r.src.2 r.raw s) rfl
    (receive_asks accepted ((perform_jobUnassign accepted).trans (if_pos job)) (mem_enabledStreams enabled) enabled)

theorem perform_moduleReset (accepted : Accepted s r 0xA0) : perform s r = moduleResetReq s r := by
  simp [perform, show r.op = 0xA0 from accepted.2.2.1]

theorem moduleReset_refuses (accepted : Accepted s r 0xA0) (job : hasJob s = true) (keep : byteAt r.par 0 = 0) :
    Gives (.moduleReset r.src.1 r.src.2 r.raw) s fun t => OnlyReplied s t r 0x15 0 [] := by
  have row : exec (.moduleReset r.src.1 r.src.2 r.raw) s = .next (receive 0xA0 r.src.1 r.src.2 r.raw s) := rfl
  have does : perform s r = refuse s 0x15 0 := by
    rw [perform_moduleReset accepted, moduleResetReq]
    simp [job, keep, stJobAssigned]
  rw [receive_refuses accepted (by decide) does] at row
  exact gives_next row (onlyReplied_reply s r _ _ _ true)

theorem moduleReset_waits (accepted : Accepted s r 0xA0) (job : hasJob s = true) (off : byteAt r.par 0 = 1)
    (cool : fg s THM_STATUS_COOLANT_STOP 0 = 0) {k : Nat} (enabled : (stream s k).st = .enabled) :
    Gives (.moduleReset r.src.1 r.src.2 r.raw) s fun t => AsksStop s t r .unassign k := by
  have does : perform s r = (stopsAsked s r .unassign (enabledStreams s), none) := by
    rw [perform_moduleReset accepted, moduleResetReq, ← unassign_eq]
    simp [job, off, cool]
  exact gives_next (t := receive 0xA0 r.src.1 r.src.2 r.raw s) rfl (receive_asks accepted does (mem_enabledStreams enabled) enabled)

end

end Sys2Proof.Machine
end

section
/-!
PROOFS. The end of a job and a module reset (18, R451, R469; 20, R495): what unassignment clears, what a reset leaves, and the replies that go out.
-/

namespace Sys2Proof.Machine

/-! ### A boundary leaves the watch alone (04, R112) -/

section
variable (s : State)

theorem zeroBanks_watch (w keep : Nat) : (zeroBanks s w keep).watch = s.watch :=
  foldl_keeps State.watch _ (fun t b => by split <;> rfl) (below 12) s

theorem takeOver_watch (d : Nat) (t : Nat × Nat) : (takeOver s d t).watch = s.watch := by
  unfold takeOver
  split
  · exact zeroBanks_watch _ _ _
  · rfl

theorem skipSample_watch (tag : Nat) : (skipSample s tag).watch = s.watch := rfl

theorem dropBegun_watch (d : Nat) (t : State) (p : Nat × MeRt) : (dropBegun s d t p).watch = t.watch := by
  unfold dropBegun
  split
  · dsimp only
    generalize ((job s (p.1 / 4) (p.1 % 4)).map (fun c => c.2.tag)).getD 0 = tag
    exact foldl_keeps State.watch _ (fun u _ => skipSample_watch u tag) p.2.picked t
  · rfl

theorem dropSamples_watch (d : Nat) : (dropSamples s d).watch = s.watch :=
  (foldl_keeps State.watch (dropBegun s d) (dropBegun_watch s d) _ _).trans (foldl_keeps State.watch (fun t (x : Sample) => skipSample t x.tag)
    (fun t x => skipSample_watch t x.tag) _ _)

theorem rotateNow_watch (d : Nat) : (rotateNow s d).watch = s.watch := by
  unfold rotateNow
  dsimp only
  split
  · rfl
  · split
    · rfl
    · split
      · rfl
      · exact dropSamples_watch s d

theorem boundaryShims_watch : (boundaryShims s).watch = s.watch :=
  foldl_keeps State.watch _ (fun t d => (rotateNow_watch _ d).trans (foldl_keeps State.watch _ (fun u k => takeOver_watch u d k) _ t)) (below 20) s

theorem openBoundary_watch : (openBoundary s).watch = s.watch := by
  have shims := boundaryShims_watch s
  rw [openBoundary_eq]
  generalize boundaryShims s = u at shims ⊢
  obtain ⟨regs, frame⟩ := applyRegs_frame u u.mc.stepRegs
  rw [boundaryWritten, frame]
  exact shims

end

/-! ### The end of a job (18, R451) -/

/-- A fold of register writes changes registers alone. -/
theorem foldl_regs_frame {α : Type} {f : State → α → State} (one : ∀ t a, ∃ regs, f t a = { t with regs := regs }) (xs : List α) (s : State) :
    ∃ regs, xs.foldl f s = { s with regs := regs } := by
  refine List.foldlRecOn (motive := fun t : State => ∃ regs, t = { s with regs := regs }) xs f ⟨_, rfl⟩ ?_
  rintro _ ⟨_, rfl⟩ a _
  obtain ⟨_, frame⟩ := one _ a
  exact ⟨_, frame⟩

theorem clearWatches_frame (s : State) : ∃ regs, clearWatches s = { s with regs := regs } := foldl_regs_frame (fun _ _ => ⟨_, rfl⟩) (below 256) s

theorem rd_clearWatches (s : State) (r : Reg) (i : Nat) (out : r.no ≠ MOD_IRQ_WATCH.no) : rd (clearWatches s) r i = rd s r i :=
  foldl_keeps (fun t => rd t r i) _ (fun t k => rd_fs_of_no t MOD_IRQ_WATCH_EN r k i 0 out) (below 256) s

theorem fg_clearWatches (s : State) (f : Fld) (i : Nat) (out : f.reg.no ≠ MOD_IRQ_WATCH.no) : fg (clearWatches s) f i = fg s f i := by
  unfold fg
  rw [rd_clearWatches s f.reg i out]

/-- The job gone, with its step totals and watch items. -/
def jobGone (s : State) : State :=
  let s1 := fs (fs s MC_STATUS_JOB 0 0) MOD_NUMERICS_BOUND_ONLY 0 0
  { s1 with mc := { s1.mc with job := 0, marked := false }, watch := { s1.watch with totals := [], items := [] } }

/-- A job with no step boundary of its own applies what waited for one. -/
def jobClosed (s : State) : State := if s.watch.journaled.isEmpty && !s.mc.marked then openBoundary (jobGone s) else jobGone s

theorem finishUnassign_eq (s : State) : finishUnassign s = clearWatches (resetPool (jobClosed s)) := rfl

theorem fg_jobGone (s : State) : fg (jobGone s) MC_STATUS_JOB 0 = 0 := by
  have apart : MC_STATUS_JOB.reg.no ≠ MOD_NUMERICS_BOUND_ONLY.reg.no := by decide
  have same := fg_of_regs (s := fs (fs s MC_STATUS_JOB 0 0) MOD_NUMERICS_BOUND_ONLY 0 0) (t := jobGone s) rfl MC_STATUS_JOB 0
  rw [same, fg_fs_of_no _ _ _ _ _ _ apart, fg_fs_same _ _ _ _ (by decide) (by decide)]
  rfl

/-- What stands when a job has ended. -/
structure JobEnded (s t : State) : Prop where
  job : fg t MC_STATUS_JOB 0 = 0
  noJob : t.mc.job = 0
  replies : t.mc.replies = s.mc.replies
  waiting : t.mc.waiting = s.mc.waiting
  inbox : t.mc.inbox = s.mc.inbox
  totals : t.watch.totals = []
  items : t.watch.items = []
  steps : s.watch.journaled = [] → s.mc.marked = false → t.mc.stepRegs = []

theorem jobEnded_jobClosed {s : State} (waits : StepWaits s) : JobEnded s (jobClosed s) := by
  unfold jobClosed
  split
  · obtain ⟨t, kept, opened⟩ := openBoundary_passes (s := jobGone s) waits
    have watch := openBoundary_watch (jobGone s)
    have mc : (openBoundary (jobGone s)).mc = { (jobGone s).mc with stepRegs := [] } := by
      rw [opened, nothingWaits, kept.mc]
    have job : fg (openBoundary (jobGone s)) MC_STATUS_JOB 0 = fg (jobGone s) MC_STATUS_JOB 0 := by
      rw [opened]
      exact congrArg (fieldOf · _ _) (kept.word MC_STATUS 0 (by decide))
    exact ⟨job.trans (fg_jobGone s), by rw [mc]; rfl, by rw [mc]; rfl, by rw [mc]; rfl, by rw [mc]; rfl, by rw [watch]; rfl, by rw [watch]; rfl,
      fun _ _ => by rw [mc]⟩
  · next own => exact ⟨fg_jobGone s, rfl, rfl, rfl, rfl, rfl, rfl, fun journaled marked => absurd (by simp [journaled, marked]) own⟩

theorem finishUnassign_ends {s : State} (waits : StepWaits s) :
    JobEnded s (finishUnassign s) ∧ (finishUnassign s).pool.seqs = [] ∧ (finishUnassign s).pool.use = 0 := by
  obtain ⟨regs, frame⟩ := clearWatches_frame (resetPool (jobClosed s))
  have ended := jobEnded_jobClosed waits
  have job : fg (finishUnassign s) MC_STATUS_JOB 0 = fg (jobClosed s) MC_STATUS_JOB 0 := by
    rw [finishUnassign_eq, fg_clearWatches _ _ _ (by decide)]
    rfl
  have same : finishUnassign s = { resetPool (jobClosed s) with regs := regs } := frame
  have mc : (finishUnassign s).mc = (jobClosed s).mc := by rw [same]; rfl
  have watch : (finishUnassign s).watch = (jobClosed s).watch := by rw [same]; rfl
  have pool : (finishUnassign s).pool = { op := (jobClosed s).pool.op } := by rw [same]; rfl
  obtain ⟨closed, noJob, replies, waiting, inbox, totals, items, steps⟩ := ended
  rw [← mc] at noJob replies waiting inbox steps
  rw [← watch] at totals items
  exact ⟨⟨job.trans closed, noJob, replies, waiting, inbox, totals, items, steps⟩, by rw [pool], by rw [pool]⟩

theorem jobUnassign_ends {s : State} {r : Req} (accepted : Accepted s r 0x31) (job : hasJob s = true) (nobody : ∀ x ∈ s.streams, x.2.st = .disabled)
    (waits : WaitingWrites s) : Gives (.jobUnassign r.src.1 r.src.2 r.raw) s fun t =>
      Answered t r 0 0 (toBytesLE 8 (s.pwr.jobUj / 1000) ++ (toBytesLE 2 0 ++ toBytesLE 2 0) ++ toBytesLE 4 s.mc.job) ∧
      fg t MC_STATUS_JOB 0 = 0 ∧ t.mc.job = 0 ∧ t.pool.seqs = [] ∧ t.pool.use = 0 ∧ t.mc.waiting = [] ∧ t.watch.totals = [] ∧ t.watch.items = [] ∧
      (s.watch.journaled = [] → s.mc.marked = false → t.mc.stepRegs = []) := by
  have row : exec (.jobUnassign r.src.1 r.src.2 r.raw) s = .next (receive 0x31 r.src.1 r.src.2 r.raw s) := rfl
  have does := (perform_jobUnassign accepted).trans (if_pos job)
  rw [enabledStreams_of_nobody nobody, stopsAsked_nil] at does
  obtain ⟨ended, seqs, use⟩ := finishUnassign_ends waits.2
  have answered := answerOne_jobUnassign s (r := r) accepted.2.2.1
  generalize toBytesLE 8 (s.pwr.jobUj / 1000) ++ (toBytesLE 2 0 ++ toBytesLE 2 0) ++ toBytesLE 4 s.mc.job = data at answered ⊢
  obtain ⟨inbox, waiting, -⟩ := accepted.2.2.2.1
  obtain ⟨_, _, _, _, _, frame⟩ := reply_frame (finishUnassign s) r 0 0 data true
  rw [receive_finds_final accepted does (by rw [answered, frame]; exact ended.inbox.trans inbox), answered] at row
  have shown := fg_reply (finishUnassign s) r 0 0 data true MC_STATUS_JOB 0 (by decide)
  refine gives_next row ⟨(replied_reply _ _ _ _ _ _).observe.answered, ?_, ?_, ?_, ?_, ?_, ?_, ?_, fun journaled marked => ?_⟩
  · rw [fg_observe, shown, ended.job]
  · rw [observe_mc, frame]; exact ended.noJob
  · rw [observe_pool, frame]; exact seqs
  · rw [observe_pool, frame]; exact use
  · rw [observe_mc, frame]; exact ended.waiting.trans waiting
  · rw [observe_watch, frame]; exact ended.totals
  · rw [observe_watch, frame]; exact ended.items
  · rw [observe_mc, frame]; exact ended.steps journaled marked

/-! ### A module reset (18, R469; 20, R495, R496) -/

/-- A partly written image found FAILED. -/
def wipFailed (s : State) : State :=
  match s.flash.wip with
  | some i => setImg (orphan (forgetImages { s with flash := { s.flash with wip := none } } [i.step]) i.size) 4 5 0
  | none => s

theorem wipFailed_frame (s : State) : ∃ regs flash, wipFailed s = { s with regs := regs, flash := flash } := by
  unfold wipFailed
  split <;> exact ⟨_, _, rfl⟩

/-- The image area of a size of `gib`; with another size than before it loses its contents. -/
def imageAreaSized (gib : Nat) (s : State) : State :=
  if gib = s.flash.gib then s
  else wr (wr { s with flash := { s.flash with gib := gib, images := [], host := [], lost := [], orphans := 0 } } JNL_IMG_CUR 0 0xFFFFFFFF) JNL_IMG_PREV 0 0xFFFFFFFF

theorem imageAreaSized_frame (gib : Nat) (s : State) : ∃ regs flash, imageAreaSized gib s = { s with regs := regs, flash := flash } := by
  unfold imageAreaSized
  split <;> exact ⟨_, _, rfl⟩

theorem flashAfter_eq (s : State) : flashAfter s = imageAreaSized (baseItem s.store.base 0x0201) (wipFailed s) := rfl

theorem flashAfter_frame (s : State) : ∃ regs flash, flashAfter s = { s with regs := regs, flash := flash } := by
  obtain ⟨_, _, stopped⟩ := wipFailed_frame s
  obtain ⟨_, _, sized⟩ := imageAreaSized_frame (baseItem s.store.base 0x0201) (wipFailed s)
  rw [flashAfter_eq, sized, stopped]
  exact ⟨_, _, rfl⟩

theorem beginBringup_frame (s : State) (cold : Bool) (gib : Nat) : ∃ regs flash reasons ceil, beginBringup s cold gib =
    { s with regs := regs, flash := flash, mc := { s.mc with stages := allStages, reported := false, isCold := cold, reasons := reasons },
             pwr := { s.pwr with ceil := ceil } } := by
  obtain ⟨regs, flash, frame⟩ := flashAfter_frame s
  unfold beginBringup
  rw [frame]
  exact ⟨_, _, _, _, rfl⟩

/-- Of what a reset leaves: the parts that the statement names. -/
structure ResetLeaves (s t : State) : Prop where
  streams : t.streams = []
  queues : t.queues = []
  engines : t.engines = []
  store : t.store = storeAfter s.store
  fuses : t.fuses = s.fuses
  resets : t.life.resets = s.life.resets + 1
  replies : t.mc.replies = s.mc.replies
  kept : t.mc.kept = []
  inbox : t.mc.inbox = []
  waiting : t.mc.waiting = []
  held : t.mc.held = false

/-- What is not a register is the same before the ports' classes are shown. -/
theorem resetLeaves_resetState (s : State) (coolant : Bool) : ResetLeaves s (resetState s coolant) := by
  have ports := foldl_regs_frame (f := fun u p => fs u FAB_PORT_STATUS_CLASS p (portClass s.board p)) (fun _ _ => ⟨_, rfl⟩) (below 28)
  unfold resetState
  dsimp only
  generalize classes : List.foldl _ _ (below 28) = u
  obtain ⟨regs, frame⟩ := ports _
  rw [frame] at classes
  subst classes
  constructor <;> dsimp only [wr, fs, State.reset]

theorem moduleReset_leaves (s : State) : ResetLeaves s (moduleReset s) ∧ (moduleReset s).mc.stages = allStages := by
  obtain ⟨_, _, _, _, frame⟩ := beginBringup_frame (resetState s false) false (fg s MOD_T1_CFG_NEXT_LOCAL_GIB 0)
  have leaves := resetLeaves_resetState s false
  unfold moduleReset
  rw [frame]
  generalize resetState s false = t at leaves
  obtain ⟨streams, queues, engines, store, fuses, resets, replies, kept, inbox, waiting, held⟩ := leaves
  exact ⟨⟨streams, queues, engines, store, fuses, resets, replies, kept, inbox, waiting, held⟩, rfl⟩

theorem moduleReset_resets {s : State} {r : Req} (accepted : Accepted s r 0xA0) (jobless : hasJob s = false) (cool : fg s THM_STATUS_COOLANT_STOP 0 = 0) :
    Gives (.moduleReset r.src.1 r.src.2 r.raw) s fun t =>
      (r.src.1 ≠ 3 → t.mc.replies = s.mc.replies ++ [(r.src, replyTo r 0 0 [])]) ∧ t.mc.stages = allStages ∧ t.mc.kept = [] ∧ t.streams = [] ∧
      t.queues = [] ∧ t.engines = [] ∧ t.store = storeAfter s.store ∧ t.fuses = s.fuses ∧ t.life.resets = s.life.resets + 1 ∧ t.mc.held = false := by
  have row : exec (.moduleReset r.src.1 r.src.2 r.raw) s = .next (receive 0xA0 r.src.1 r.src.2 r.raw s) := rfl
  have does : perform s r = (moduleReset (reply s r 0 0 [] true), none) := by
    rw [perform_moduleReset accepted, moduleResetReq]
    simp [jobless, cool, stOk]
  obtain ⟨leaves, stages⟩ := moduleReset_leaves (reply s r 0 0 [] true)
  obtain ⟨sent, -⟩ := replied_reply s r 0 0 [] true
  obtain ⟨_, _, _, _, _, frame⟩ := reply_frame s r 0 0 [] true
  rw [receive_of_accepted accepted, execute_goesOn accepted does, serve_of_empty 63 _ leaves.inbox leaves.waiting] at row
  refine gives_next row ⟨fun other => ?_, ?_, ?_, ?_, ?_, ?_, ?_, ?_, ?_, ?_⟩
  · rw [observe_mc, leaves.replies, sent other]
  · rw [observe_mc, stages]
  · rw [observe_mc, leaves.kept]
  · exact observe_streams_nil leaves.streams
  · rw [observe_queues, leaves.queues]
  · rw [observe_engines, leaves.engines]
  · rw [observe_store, leaves.store, frame]
  · rw [observe_fuses, leaves.fuses, frame]
  · rw [observe_life, leaves.resets, frame]
  · rw [observe_mc, leaves.held]

end Sys2Proof.Machine
end

section
/-!
PROOFS. A job assigned (18, R450): the checks, what an assignment sets, the obligation about jobs and stops from these and the clauses before.
-/

namespace Sys2Proof.Machine

/-! ### The wake from STANDBY keeps the requests and the fuses (17, R430) -/

/-- What the management controller and the fuses hold. -/
def mcAndFuses (s : State) : Mc × Fuses := (s.mc, s.fuses)

section
variable (s : State)

theorem mcAndFuses_observe : mcAndFuses (observe s) = mcAndFuses s := by simp [mcAndFuses]

theorem mcAndFuses_fs (f : Fld) (i v : Nat) : mcAndFuses (fs s f i v) = mcAndFuses s := rfl

theorem mcAndFuses_startHart (h : Nat) : mcAndFuses (startHart s h) = mcAndFuses s := by
  have own : ∀ t rd v, mcAndFuses (hostReg t h rd v) = mcAndFuses t := fun t rd v => by
    unfold hostReg
    split <;> rfl
  unfold startHart
  dsimp only
  split
  · rfl
  · rw [own, own]
    rfl

theorem mcAndFuses_handoff : mcAndFuses (handoff s) = mcAndFuses s := mcAndFuses_startHart _ 0

/-- With no finding the library is loaded and no copy fails. -/
theorem mcAndFuses_loadLibrary : mcAndFuses (loadLibrary s []) = mcAndFuses s := rfl

theorem mcAndFuses_loseContexts : mcAndFuses (loseContexts s) = mcAndFuses s := rfl

theorem mcAndFuses_startTraining (p : Nat) : mcAndFuses (startTraining s p) = mcAndFuses s := rfl

theorem mcAndFuses_standbyWake : mcAndFuses (standbyWake s []) = mcAndFuses s := by
  unfold standbyWake
  dsimp only
  rw [mcAndFuses_observe, mcAndFuses_handoff]
  refine (foldl_keeps mcAndFuses _ (fun t p => ?_) (below 28) _).trans ?_
  · split
    · rfl
    · exact mcAndFuses_startTraining t p
  rw [mcAndFuses_fs, List.filter_nil, mcAndFuses_loadLibrary]
  refine (foldl_keeps mcAndFuses _ (fun t d => ?_) (below 20) _).trans (mcAndFuses_loseContexts { s with standby := false })
  refine foldl_keeps mcAndFuses _ (fun u p => ?_) _ t
  split <;> rfl

end

/-! ### Flags, pool and watch cleared (18, R450; 06, R162) -/

theorem clearStragglers_frame (s : State) : ∃ regs, clearStragglers s = { s with regs := regs, strag := [] } := by
  obtain ⟨_, frame⟩ := foldl_regs_frame (f := zeroStraggler) (fun _ _ => ⟨_, rfl⟩) (below 32) s
  rw [clearStragglers_eq, frame]
  exact ⟨_, rfl⟩

/-- The registers of stragglers and of waits at collectives. -/
def stragglerRegs : List Reg :=
  [ MOD_STRAG_INFO, MOD_STRAG_UNITS, MOD_STRAG_PACED, MOD_COLL_WAIT_ARR, MOD_COLL_WAIT_WIN, MOD_COLL_WAIT_FLAG, MOD_COLL_OTHER]

theorem rd_clearStragglers_out (s : State) (r : Reg) (i : Nat) (out : r.no ∉ stragglerRegs.map Reg.no) : rd (clearStragglers s) r i = rd s r i := by
  simp only [stragglerRegs, List.map_cons, List.map_nil, List.mem_cons, List.not_mem_nil, not_or, or_false] at out
  obtain ⟨info, units, paced, arr, win, flag, other⟩ := out
  rw [rd_clearStragglers, rd_wr_of_no _ _ _ _ _ _ other, rd_wr_of_no _ _ _ _ _ _ flag, rd_wr_of_no _ _ _ _ _ _ win, rd_wr_of_no _ _ _ _ _ _ arr]
  refine foldl_keeps (fun t => rd t r i) zeroStraggler (fun t k => ?_) (below 32) s
  rw [zeroStraggler, rd_wr_of_no _ _ _ _ _ _ paced, rd_wr_of_no _ _ _ _ _ _ units, rd_wr_of_no _ _ _ _ _ _ info]

theorem rd_clearFlags_other (s : State) (r : Reg) (i : Nat) (out : r.no ≠ WARD_FLAG.no) : rd (clearFlags s) r i = rd s r i :=
  sget_filter _ _ _ _ fun _ => by simpa only [key_div, bne_iff_ne] using out

theorem flagCount_clearFlags (s : State) (k : Nat) : flagCount (clearFlags s) k = 0 := by
  have reset : rd (clearFlags s) WARD_FLAG k = regReset (WARD_FLAG.key k) := sget_filter_drop _ _ _ _ fun _ => by simp only [key_div, bne_self_eq_false]
  have zero : regReset (WARD_FLAG.key k) = 0 := by
    rw [regReset, key_div]
    decide
  unfold flagCount fg
  rw [show WARD_FLAG_COUNT.reg = WARD_FLAG from rfl, reset, zero]
  rfl

/-- Flags, pool, watch and stragglers as a new job finds them. -/
def jobCleared (s : State) : State := clearWatches (clearStragglers (resetPool (clearFlags { s with watch := {} })))

theorem jobCleared_frame (s : State) : ∃ regs, jobCleared s = { s with regs := regs, watch := {}, pool := { op := s.pool.op }, strag := [] } := by
  unfold jobCleared
  obtain ⟨_, zeroed⟩ := clearStragglers_frame (resetPool (clearFlags { s with watch := {} }))
  obtain ⟨_, cleared⟩ := clearWatches_frame (clearStragglers (resetPool (clearFlags { s with watch := {} })))
  rw [cleared, zeroed]
  exact ⟨_, rfl⟩

theorem rd_jobCleared (s : State) (r : Reg) (i : Nat) (out : r.no ≠ WARD_FLAG.no ∧ r.no ≠ MOD_IRQ_WATCH.no ∧ r.no ∉ stragglerRegs.map Reg.no) :
    rd (jobCleared s) r i = rd s r i := by
  obtain ⟨flag, watch, strag⟩ := out
  rw [jobCleared, rd_clearWatches _ _ _ watch, rd_clearStragglers_out _ _ _ strag]
  exact rd_clearFlags_other { s with watch := {} } r i flag

theorem flagCount_jobCleared (s : State) (k : Nat) : flagCount (jobCleared s) k = 0 := by
  unfold flagCount jobCleared
  rw [fg_clearWatches _ _ _ (by decide), fg, rd_clearStragglers_out _ _ _ (by decide)]
  exact flagCount_clearFlags { s with watch := {} } k

/-! ### The overlay of a job (18, R455) -/

/-- An item on its way to its register waits for a pulse or for a step boundary. -/
theorem itemLater_frame (s : State) (it v : Nat) : ∃ pulses steps, itemLater s it v =
    { s with pwr := { s.pwr with nextRegs := pulses }, mc := { s.mc with stepRegs := steps } } := by
  unfold itemLater
  dsimp only
  split
  iterate 6 exact ⟨_, _, rfl⟩
  split
  · split
    · exact ⟨_, _, rfl⟩
    · split <;> exact ⟨_, _, rfl⟩
  · exact ⟨_, _, rfl⟩

theorem applyOverlay_frame (s : State) (k : Option Nat) : ∃ pulses steps next, applyOverlay s k =
    { s with pwr := { s.pwr with nextRegs := pulses }, mc := { s.mc with stepRegs := steps, nextOvl := next } } := by
  unfold applyOverlay
  refine List.foldlRecOn (motive := fun t : State => ∃ pulses steps next, t =
    { s with pwr := { s.pwr with nextRegs := pulses }, mc := { s.mc with stepRegs := steps, nextOvl := next } }) regItems _ ⟨_, _, _, rfl⟩ ?_
  rintro _ ⟨_, _, _, rfl⟩ it _
  obtain ⟨_, _, frame⟩ := itemLater_frame _ it _
  exact ⟨_, _, _, frame⟩

/-! ### An assignment in its stages (18, R450) -/

/-- Seed, accumulator and bound of a job. -/
def jobWords (s : State) (p : List Byte) : State :=
  fs (fs (wr (wr s MOD_KERF_SEED_LO 0 (BitVec.ofNat 32 (numAt p 4 4))) MOD_KERF_SEED_HI 0 (BitVec.ofNat 32 (numAt p 8 4)))
    MOD_ACCUM_CFG_C_LOG2 0 (byteAt p 12)) MOD_NUMERICS_BOUND_ONLY 0 (byteAt p 14)

/-- The overlay that a job names, 0xFF for none. -/
def jobOverlaid (s : State) (k : Nat) : State := if k = 0xFF then s else applyOverlay s (some k)

/-- The job shown, with no energy yet. -/
def jobShown (s : State) (job : Nat) : State :=
  showJob (fs { s with mc := { s.mc with job := job }, pwr := { s.pwr with jobUj := 0 } } MC_STATUS_JOB 0 1)

theorem assignJob_eq (s : State) (p : List Byte) : assignJob s p =
    jobShown (jobOverlaid (jobCleared (jobWords (unprepare (if s.standby then standbyWake s [] else s)) p)) (byteAt p 15)) (numAt p 0 4) := rfl

theorem unprepare_shows (s : State) : (unprepare s).store.returnReady = false ∧ (unprepare s).store.fail.closed = false ∧
    mcAndFuses (unprepare s) = mcAndFuses s := by
  unfold unprepare
  dsimp only
  split <;> exact ⟨rfl, rfl, rfl⟩

theorem ofBytesLE_lt (bs : List Byte) : ofBytesLE bs < 256 ^ bs.length := by
  induction bs with
  | nil => simp [ofBytesLE]
  | cons b bs ih =>
    have byte := b.isLt
    rw [ofBytesLE, List.length_cons, Nat.pow_succ]
    omega

theorem numAt_four_lt (p : List Byte) (i : Nat) : numAt p i 4 < 2 ^ 32 := by
  have fits : ((p.drop i).take 4).length ≤ 4 := List.length_take_le _ _
  calc numAt p i 4 < 256 ^ ((p.drop i).take 4).length := ofBytesLE_lt _
    _ ≤ 256 ^ 4 := Nat.pow_le_pow_right (by decide) fits
    _ = 2 ^ 32 := by decide

/-- A word of four bytes fits its register. -/
theorem toNat_word_numAt (p : List Byte) (i : Nat) : (BitVec.ofNat 32 (numAt p i 4)).toNat = numAt p i 4 := by
  rw [BitVec.toNat_ofNat, Nat.mod_eq_of_lt (numAt_four_lt p i)]

theorem jobWords_shows (s : State) (p : List Byte) (range : byteAt p 12 ≤ 16 ∧ byteAt p 14 ≤ 1) :
    (rd (jobWords s p) MOD_KERF_SEED_LO 0).toNat = numAt p 4 4 ∧ (rd (jobWords s p) MOD_KERF_SEED_HI 0).toNat = numAt p 8 4 ∧
    fg (jobWords s p) MOD_ACCUM_CFG_C_LOG2 0 = byteAt p 12 ∧ fg (jobWords s p) MOD_NUMERICS_BOUND_ONLY 0 = byteAt p 14 := by
  obtain ⟨log2, bound⟩ := range
  unfold jobWords
  refine ⟨?_, ?_, ?_, ?_⟩
  · rw [rd_fs_of_no _ _ _ _ _ _ (by decide), rd_fs_of_no _ _ _ _ _ _ (by decide), rd_wr_of_no _ _ _ _ _ _ (by decide), rd_wr_same, toNat_word_numAt]
  · rw [rd_fs_of_no _ _ _ _ _ _ (by decide), rd_fs_of_no _ _ _ _ _ _ (by decide), rd_wr_same, toNat_word_numAt]
  · rw [fg_fs_of_no _ _ _ _ _ _ (by decide), fg_fs_same _ _ _ _ (by decide) (by decide)]
    exact Nat.mod_eq_of_lt (Nat.lt_of_le_of_lt log2 (by decide))
  · rw [fg_fs_same _ _ _ _ (by decide) (by decide)]
    exact Nat.mod_eq_of_lt (Nat.lt_of_le_of_lt bound (by decide))

theorem jobOverlaid_frame (s : State) (k : Nat) : ∃ pulses steps next, jobOverlaid s k =
    { s with pwr := { s.pwr with nextRegs := pulses }, mc := { s.mc with stepRegs := steps, nextOvl := next } } := by
  unfold jobOverlaid
  split
  · exact ⟨_, _, _, rfl⟩
  · exact applyOverlay_frame s _

theorem rd_jobOverlaid (s : State) (k : Nat) (r : Reg) (i : Nat) : rd (jobOverlaid s k) r i = rd s r i := by
  obtain ⟨_, _, _, frame⟩ := jobOverlaid_frame s k
  rw [frame]
  rfl

theorem jobShown_frame (s : State) (job : Nat) : ∃ regs, jobShown s job =
    { s with regs := regs, mc := { s.mc with job := job }, pwr := { s.pwr with jobUj := 0 } } := ⟨_, rfl⟩

theorem rd_jobShown (s : State) (job : Nat) (r : Reg) (i : Nat) (out : r.no ∉ [MC_STATUS.no, PWR_JOB_E_LO.no, PWR_JOB_E_HI.no]) :
    rd (jobShown s job) r i = rd s r i := by
  simp only [List.mem_cons, List.not_mem_nil, or_false, not_or] at out
  obtain ⟨status, lo, hi⟩ := out
  rw [jobShown, showJob, rd_wr_of_no _ _ _ _ _ _ hi, rd_wr_of_no _ _ _ _ _ _ lo, rd_fs_of_no _ MC_STATUS_JOB _ _ _ _ status]
  rfl

theorem fg_jobShown (s : State) (job : Nat) : fg (jobShown s job) MC_STATUS_JOB 0 = 1 := by
  rw [jobShown, showJob, fg_wr_of_no _ _ _ _ _ _ (by decide), fg_wr_of_no _ _ _ _ _ _ (by decide)]
  exact fg_fs_flag _ MC_STATUS_JOB 0 (by decide)

/-! ### What an assignment leaves (18, R450) -/

/-- The parts of an assigned job that are no registers. -/
structure JobKept (s t : State) (job : Nat) : Prop where
  job : t.mc.job = job
  inbox : t.mc.inbox = s.mc.inbox
  waiting : t.mc.waiting = s.mc.waiting
  seqs : t.pool.seqs = []
  use : t.pool.use = 0
  watch : t.watch = {}
  strag : t.strag = []
  energy : t.pwr.jobUj = 0
  returned : t.store.returnReady = false
  unsealed : t.store.fail.closed = false
  fuses : t.fuses = s.fuses

/-- The words of an assigned job. -/
structure JobSet (t : State) (p : List Byte) : Prop where
  job : fg t MC_STATUS_JOB 0 = 1
  seedLo : (rd t MOD_KERF_SEED_LO 0).toNat = numAt p 4 4
  seedHi : (rd t MOD_KERF_SEED_HI 0).toNat = numAt p 8 4
  log2 : fg t MOD_ACCUM_CFG_C_LOG2 0 = byteAt p 12
  bound : fg t MOD_NUMERICS_BOUND_ONLY 0 = byteAt p 14
  flags : ∀ k, flagCount t k = 0

section
variable (s : State) (p : List Byte)

theorem jobKept_assignJob : JobKept s (assignJob s p) (numAt p 0 4) := by
  have awake : mcAndFuses (if s.standby then standbyWake s [] else s) = mcAndFuses s := by
    split
    · exact mcAndFuses_standbyWake s
    · rfl
  rw [assignJob_eq]
  obtain ⟨returned, unsealed, kept⟩ := unprepare_shows (if s.standby then standbyWake s [] else s)
  generalize unprepare (if s.standby then standbyWake s [] else s) = u at returned unsealed kept ⊢
  obtain ⟨mc, fuses⟩ : u.mc = s.mc ∧ u.fuses = s.fuses := Prod.mk.inj (kept.trans awake)
  obtain ⟨_, cleared⟩ := jobCleared_frame (jobWords u p)
  obtain ⟨_, _, _, overlaid⟩ := jobOverlaid_frame (jobCleared (jobWords u p)) (byteAt p 15)
  obtain ⟨_, shown⟩ := jobShown_frame (jobOverlaid (jobCleared (jobWords u p)) (byteAt p 15)) (numAt p 0 4)
  rw [shown, overlaid, cleared]
  have inbox := congrArg Mc.inbox mc
  have waiting := congrArg Mc.waiting mc
  exact ⟨rfl, inbox, waiting, rfl, rfl, rfl, rfl, rfl, returned, unsealed, fuses⟩

theorem rd_jobStages (u : State) (job k : Nat) (r : Reg) (i : Nat)
    (out : r.no ∉ [MC_STATUS.no, PWR_JOB_E_LO.no, PWR_JOB_E_HI.no] ∧ r.no ≠ WARD_FLAG.no ∧ r.no ≠ MOD_IRQ_WATCH.no ∧ r.no ∉ stragglerRegs.map Reg.no) :
    rd (jobShown (jobOverlaid (jobCleared u) k) job) r i = rd u r i := by
  rw [rd_jobShown _ _ _ _ out.1, rd_jobOverlaid, rd_jobCleared _ _ _ out.2]

theorem jobSet_assignJob (range : byteAt p 12 ≤ 16 ∧ byteAt p 14 ≤ 1) : JobSet (assignJob s p) p := by
  rw [assignJob_eq]
  generalize unprepare (if s.standby then standbyWake s [] else s) = u
  obtain ⟨seedLo, seedHi, log2, bound⟩ := jobWords_shows u p range
  refine ⟨fg_jobShown _ _, ?_, ?_, ?_, ?_, fun k => ?_⟩
  · rw [rd_jobStages _ _ _ _ _ (by decide), seedLo]
  · rw [rd_jobStages _ _ _ _ _ (by decide), seedHi]
  · rw [fg, rd_jobStages _ _ _ _ _ (by decide)]
    exact log2
  · rw [fg, rd_jobStages _ _ _ _ _ (by decide)]
    exact bound
  · rw [flagCount, fg, rd_jobShown _ _ _ _ (by decide), rd_jobOverlaid]
    exact flagCount_jobCleared _ k

end

/-! ### JOB_ASSIGN (18, R450) -/

theorem assignBad_of_job {s : State} (job : hasJob s = true) (p : List Byte) : assignBad s p = some (0x15, 0) := by
  simp [assignBad, job, stJobAssigned]

theorem assignBad_of_unready {s : State} (jobless : hasJob s = false) (unready : fg s MC_STATUS_READY 0 = 0) (p : List Byte) :
    assignBad s p = some (0x17, 1) := by
  simp [assignBad, jobless, notReady, unready, stNotReady]

/-- The checks admit C_LOG2 of 16 at most and BOUND_ONLY of one bit. -/
theorem range_of_assignBad {s : State} {p : List Byte} (good : assignBad s p = none) : byteAt p 12 ≤ 16 ∧ byteAt p 14 ≤ 1 := by
  unfold assignBad at good
  dsimp only at good
  by_cases job : hasJob s = true
  · rw [if_pos job] at good
    cases good
  · rw [if_neg job] at good
    split at good
    · cases good
    · by_cases log2 : byteAt p 12 < 8 ∨ byteAt p 12 > 16
      · rw [if_pos log2] at good
        cases good
      · by_cases wards : byteAt p 13 = 0 ∨ byteAt p 13 > s.fuses.grade
        · rw [if_neg log2, if_pos wards] at good
          cases good
        · by_cases bound : byteAt p 14 > 1
          · rw [if_neg log2, if_neg wards, if_pos bound] at good
            cases good
          · omega

section
variable {s : State} {r : Req} (accepted : Accepted s r 0x30)
include accepted

theorem perform_jobAssign : perform s r = jobAssign s r.par := by simp [perform, show r.op = 0x30 from accepted.2.2.1]

theorem jobAssign_refuses {st d : Nat} (bad : assignBad s r.par = some (st, d)) : Gives (.jobAssign r.src.1 r.src.2 r.raw) s fun t =>
    OnlyReplied s t r st d [] ∧ t.mc.job = s.mc.job ∧ fg t MC_STATUS_JOB 0 = fg s MC_STATUS_JOB 0 ∧ t.store = s.store := by
  have row : exec (.jobAssign r.src.1 r.src.2 r.raw) s = .next (receive 0x30 r.src.1 r.src.2 r.raw s) := rfl
  have does : perform s r = refuse s st d := by rw [perform_jobAssign accepted, jobAssign, bad]
  have shown := fg_reply s r st d [] true MC_STATUS_JOB 0 (by decide)
  obtain ⟨_, _, _, _, _, frame⟩ := reply_frame s r st d [] true
  rw [receive_refuses accepted (by decide) does] at row
  refine gives_next row ⟨onlyReplied_reply s r _ _ _ true, ?_, ?_, ?_⟩
  · rw [observe_mc, frame]
  · rw [fg_observe, shown]
  · rw [observe_store, frame]

theorem jobAssign_assigns (good : assignBad s r.par = none) : Gives (.jobAssign r.src.1 r.src.2 r.raw) s fun t =>
    Answered t r 0 0 [] ∧ JobSet t r.par ∧ JobKept s t (numAt r.par 0 4) := by
  have row : exec (.jobAssign r.src.1 r.src.2 r.raw) s = .next (receive 0x30 r.src.1 r.src.2 r.raw s) := rfl
  have does : perform s r = (assignJob s r.par, some (0, 0, [])) := by
    rw [perform_jobAssign accepted, jobAssign, good]
    rfl
  have kept := jobKept_assignJob s r.par
  have set := jobSet_assignJob s r.par (range_of_assignBad good)
  obtain ⟨inbox, waiting, -⟩ := accepted.2.2.2.1
  rw [receive_answers accepted (by decide) does (kept.inbox.trans inbox) (kept.waiting.trans waiting)] at row
  have word := rd_reply (assignJob s r.par) r 0 0 [] true
  have field := fg_reply (assignJob s r.par) r 0 0 [] true
  obtain ⟨_, _, _, _, _, frame⟩ := reply_frame (assignJob s r.par) r 0 0 [] true
  refine gives_next row ⟨(replied_reply _ _ _ _ _ _).observe.answered, ⟨?_, ?_, ?_, ?_, ?_, fun k => ?_⟩, ?_⟩
  · rw [fg_observe, field _ _ (by decide), set.job]
  · rw [rd_observe, word _ _ (by decide), set.seedLo]
  · rw [rd_observe, word _ _ (by decide), set.seedHi]
  · rw [fg_observe, field _ _ (by decide), set.log2]
  · rw [fg_observe, field _ _ (by decide), set.bound]
  · rw [flagCount_observe, flagCount, field _ _ (by decide)]
    exact set.flags k
  · obtain ⟨job, inbox, waiting, seqs, use, watch, strag, energy, returned, unsealed, fuses⟩ := kept
    rw [frame]
    constructor <;> simpa

end

/-- Settles O57: each packet by what it finds. A job assigned is set stage by stage; a stop asked of an enabled stream waits for it, and of none is
answered at once; a module reset replies before it clears. -/
theorem jobsAreAssignedAndStreamsStopped : Obligations.JobsAreAssignedAndStreamsStopped := by
  unfold Obligations.JobsAreAssignedAndStreamsStopped
  intro tr peer packet s r p m nobody waits zeros
  refine ⟨fun accepted => ⟨fun good => ?_, fun _ _ bad => jobAssign_refuses accepted bad⟩, fun job => assignBad_of_job job p,
    fun jobless unready => assignBad_of_unready jobless unready p,
    fun accepted => ⟨jobUnassign_refuses accepted, jobUnassign_ends accepted, fun k job enabled => ?_⟩,
    fun accepted => ⟨fun off => ?_, fun faulted => ?_, fun aborted => ?_, fun enabled => ?_⟩,
    fun code waiting inbox _ storing => abortSettle_answers code waiting inbox storing,
    fun accepted => ⟨abortAll_answers accepted, fun k enabled => ?_⟩,
    fun accepted => ⟨moduleReset_refuses accepted, fun k job off cool enabled => ?_, moduleReset_resets accepted⟩⟩
  · exact (jobAssign_assigns accepted good).imp fun t ⟨answered, set, kept⟩ => ⟨answered, set.job, kept.job, set.seedLo, set.seedHi, set.log2, set.bound,
      set.flags, kept.seqs, kept.use, kept.watch, kept.strag, kept.energy, kept.returned, kept.unsealed, kept.fuses⟩
  · have assigned : fg s MC_STATUS_JOB 0 = 1 := by simpa [hasJob] using job
    exact (jobUnassign_waits accepted job enabled).imp fun t asks =>
      ⟨asks.waits, asks.asked, asks.enabled, (asks.field _ _ (by decide)).trans assigned, asks.unanswered⟩
  · exact streamAbort_answers accepted (status := 5) (by simp [m, p, off])
  · exact streamAbort_answers accepted (status := 4) (by simp [m, p, faulted])
  · exact streamAbort_answers accepted (status := 3) (by simp [m, p, aborted])
  · exact (streamAbort_waits accepted enabled).imp fun t ⟨asks, req, cmds, mem, regs⟩ =>
      ⟨asks.waits, req, asks.enabled, cmds, asks.unanswered, mem, regs⟩
  · exact (abortAll_waits accepted enabled).imp fun t asks => ⟨asks.waits, asks.asked, asks.enabled, asks.unanswered⟩
  · exact (moduleReset_waits accepted job off cool enabled).imp fun t asks => ⟨asks.waits, asks.asked, asks.unanswered⟩

end Sys2Proof.Machine
end

section
/-!
CLAIM. A word written to one ward's kernel store (07, R186, R187): refused, or standing at its place. O53.
-/

namespace Sys2Proof.Machine

theorem anyEnabled_iff (s : State) (w : Nat) : anyEnabled s w = true ↔ ∃ k, k < 8 ∧ fg s WARD_SCFG_EN (8 * w + k) = 1 := by
  simp only [anyEnabled, wardStreams, List.any_eq_true, mem_rangeFrom, beq_iff_eq]
  constructor
  · rintro ⟨m, within, on⟩
    exact ⟨m - 8 * w, by omega, by rwa [show 8 * w + (m - 8 * w) = m by omega]⟩
  · rintro ⟨k, small, on⟩
    exact ⟨8 * w + k, by omega, on⟩

theorem kstoreLibrary_iff (off : Nat) : kstoreLibrary off = true ↔ off < 0x10000 ∨ (0x20000 ≤ off ∧ off < 0x28000) := by
  simp [kstoreLibrary]

/-- Offsets of the kernel stores' window (07, R186): ward by ward, 256 KiB each. -/
theorem busMem_kstore {s : State} {w off : Nat} (here : w < wardCount s) (last : w < 80) (inside : off < 0x40000) :
    busMem s (kstoreBase + w * 0x40000 + off) = .kstore w off := by
  have ward : (kstoreBase + w * 0x40000 + off - kstoreBase) / 0x40000 = w := by unfold kstoreBase; omega
  have place : (kstoreBase + w * 0x40000 + off - kstoreBase) % 0x40000 = off := by unfold kstoreBase; omega
  unfold busMem
  rw [if_neg (by unfold kstoreBase descBase; omega), if_pos (by omega), ward, place, if_pos here]

theorem busWrite_kstore {s : State} {w off : Nat} (here : w < wardCount s) (last : w < 80) (inside : off < 0x40000) (aligned : off % 4 = 0)
    (v : Word) (locked : Bool) : busWrite s (kstoreBase + w * 0x40000 + off) v locked = kstoreWrite s w off v := by
  have whole : ¬(kstoreBase + w * 0x40000 + off) % 4 ≠ 0 := by unfold kstoreBase; omega
  rw [busWrite, if_neg whole, busMem_kstore here last inside]

theorem kstoreWrite_of_guarded {s : State} {w off : Nat} (v : Word) (guarded : kstoreLibrary off = true ∨ anyEnabled s w = true) :
    kstoreWrite s w off v = fs s VE_KSCTL_KS_REFUSED w 1 := by
  rw [kstoreWrite, if_pos (by simpa using guarded)]

theorem kstoreWrite_of_free {s : State} {w off : Nat} (v : Word) (user : ¬kstoreLibrary off = true) (idle : ¬anyEnabled s w = true) :
    kstoreWrite s w off v = kstorePut s w off v := by
  rw [kstoreWrite, if_neg (by simp [user, idle])]

/-- Settles O53: the bus takes the word to the ward's store, whose guard refuses it or lets it stand. -/
theorem kernelStoreWritesAreGuarded : Obligations.KernelStoreWritesAreGuarded := by
  unfold Obligations.KernelStoreWritesAreGuarded
  intro w off v s here last inside aligned idle before s0 accessed library busy
  have row (t : State) (written : kstoreWrite s w off v = t) (mc : t.mc = s.mc) (store : t.store = s.store) :
      exec (.registerWrite (kstoreBase + w * 0x40000 + off) v before) s0 = .next (observe t) := by
    rw [exec_registerWrite, ← accessed,
      serveAll_busStep_of_idle s t _ v idle ((busWrite_kstore here last inside aligned v false).trans written) mc store]
  have guard : library ∨ busy ↔ kstoreLibrary off = true ∨ anyEnabled s w = true := or_congr (kstoreLibrary_iff off).symm (anyEnabled_iff s w).symm
  constructor
  · intro guarded
    refine gives_next (row _ (kstoreWrite_of_guarded v (guard.mp guarded)) rfl rfl) ⟨?_, ?_, ?_⟩
    · rw [fg_observe, fg_fs_same _ VE_KSCTL_KS_REFUSED w 1 (by decide) (by decide)]
      rfl
    · rw [observe_mem, fs_mem]
    · exact (fs_regsKept s VE_KSCTL_KS_REFUSED w 1).observe
  · intro user free
    have put := kstoreWrite_of_free v (mt (kstoreLibrary_iff off).mp user) (mt (anyEnabled_iff s w).mp free)
    refine gives_next (row _ put rfl rfl) ⟨?_, fun a out => ?_, ?_⟩
    · rw [memRead_observe]
      exact memRead_memWrite_same s (kstoreKey w off) (toBytesLE 4 v.toNat)
    · rw [readByte_observe]
      exact memWrite_memKept s (kstoreKey w off) (toBytesLE 4 v.toNat) a out
    · rw [observe_regs]
      rfl

end Sys2Proof.Machine
end

section
/-!
SUPPORT. An instruction of the VE: the fields that its word spells (07, R183), what it leaves in registers and counters, and how it ends: going on, or
with a fault of the kernel (07, R185).
-/

namespace Sys2Proof.Machine

/-! ### The fields of an instruction word (07, R183) -/

section
variable {op d a b c m k : Nat}

@[simp] theorem op_veWord (small : op < 256) : bits (veWord op d a b c m k) 63 56 = op := by unfold bits veWord; omega
@[simp] theorem d_veWord (small : d < 64) : bits (veWord op d a b c m k) 55 50 = d := by unfold bits veWord; omega
@[simp] theorem a_veWord (small : a < 64) : bits (veWord op d a b c m k) 49 44 = a := by unfold bits veWord; omega
@[simp] theorem b_veWord (small : b < 64) : bits (veWord op d a b c m k) 43 38 = b := by unfold bits veWord; omega
@[simp] theorem c_veWord (small : c < 64) : bits (veWord op d a b c m k) 37 32 = c := by unfold bits veWord; omega
@[simp] theorem m_veWord (small : m < 256) : bits (veWord op d a b c m k) 31 24 = m := by unfold bits veWord; omega
@[simp] theorem k_veWord (small : k < 2 ^ 24) : bits (veWord op d a b c m k) 23 0 = k := by unfold bits veWord; omega

end

/-! ### The state of a ward's VE -/

@[simp] theorem veRt_setVe_same (s : State) (w : Nat) (v : VeRt) : veRt (setVe s w v) w = v := sget_sset_same _ _ _ _

theorem veRt_setVe_other (s : State) {w u : Nat} (v : VeRt) (ne : u ≠ w) : veRt (setVe s w v) u = veRt s u := sget_sset_other _ _ _ _ ne

theorem veRt_of_ve {s t : State} (h : t.ve = s.ve) (w : Nat) : veRt t w = veRt s w := by unfold veRt; rw [h]

theorem fg_setVe (s : State) (w : Nat) (v : VeRt) (f : Fld) (i : Nat) : fg (setVe s w v) f i = fg s f i := rfl

@[simp] theorem observe_ve (s : State) : (observe s).ve = s.ve := by obtain ⟨_, _, _, h⟩ := observe_eq s; rw [h]
@[simp] theorem observe_poison (s : State) : (observe s).poison = s.poison := by obtain ⟨_, _, _, h⟩ := observe_eq s; rw [h]
@[simp] theorem veRt_observe (s : State) (w : Nat) : veRt (observe s) w = veRt s w := veRt_of_ve (observe_ve s) w

/-! ### Registers kept from state to state -/

theorem RegsKept.trans {s t u : State} {but : List (Reg × Nat)} (h : RegsKept s t but) (k : RegsKept t u but) : RegsKept s u but :=
  fun key out => (k key out).trans (h key out)

theorem RegsKept.mono {s t : State} {but more : List (Reg × Nat)} (h : RegsKept s t but) (sub : but ⊆ more) : RegsKept s t more :=
  fun key out => h key (fun x hx => out x (sub hx))

theorem RegsKept.bump {s t : State} {but : List (Reg × Nat)} (h : RegsKept s t but) {f : Fld} {i : Nat} (n : Nat) (named : (f.reg, i) ∈ but) :
    RegsKept s (bump t f i n) but := h.fs _ named

/-- A field set to the value that it has leaves its word. -/
theorem withField_fieldOf (w : Word) (hi lo : Nat) : withField w hi lo (fieldOf w hi lo) = w := by
  have small : fieldOf w hi lo % 2 ^ (hi + 1 - lo) = bits w.toNat hi lo := Nat.mod_eq_of_lt (fieldOf_lt w hi lo)
  have within : bits w.toNat hi lo * 2 ^ lo ≤ w.toNat :=
    (Nat.mul_le_mul_right _ (Nat.mod_le _ _)).trans (Nat.div_mul_le_self _ _)
  apply BitVec.eq_of_toNat_eq
  simp only [withField, small, Nat.sub_add_cancel within, BitVec.toNat_ofNat]
  exact Nat.mod_eq_of_lt w.isLt

/-- A counter that counts nothing reads as before, and so does every other register. -/
theorem bump_zero_regsKept (s : State) (f : Fld) (i : Nat) : RegsKept s (bump s f i 0) [] := by
  have stays : satAdd (2 ^ (f.hi + 1 - f.lo) - 1) (fg s f i) 0 = fg s f i := by
    have small := fg_lt s f i
    rw [satAdd_eq_min]
    omega
  intro key _
  by_cases own : key = f.reg.key i
  · subst own
    have same : rd (bump s f i 0) f.reg i = rd s f.reg i := by
      rw [bump, stays, fs, rd_wr_same]
      exact withField_fieldOf _ _ _
    exact same
  · exact bump_regsKept s f i 0 key (by simpa using own)

/-! ### What an instruction counts (07, R183; 02, R37 to R39, R43) -/

/-- The state once an instruction's clocks, its events and the reserved codes that it read are counted. -/
def veCounted (s : State) (w : Nat) (c : Cmd) (clocks : Nat) (e : Ev) (k : Nat) : State :=
  countReserved (countVe (bump s VE_BUSY_CLOCKS w clocks) w c.step e) w c.step k

theorem bump_setWatch (s : State) (x : Watch) (f : Fld) (i n : Nat) : bump { s with watch := x } f i n = { bump s f i n with watch := x } := rfl

theorem countReserved_eq (s : State) (w st k : Nat) : ∃ watch, countReserved s w st k =
    { bump s WARD_NCNT_MISC_CODE_RESERVED w k with watch := watch } := by
  unfold countReserved
  generalize bump s WARD_NCNT_MISC_CODE_RESERVED w k = t
  dsimp only
  split
  · exact ⟨_, rfl⟩
  · exact ⟨_, rfl⟩

section
variable (s : State) (w : Nat) (c : Cmd) (clocks : Nat) (e : Ev) (k : Nat)

/-- Counting changes the registers of the counters and the totals of the watch. -/
theorem veCounted_keeps {β : Type} (g : State → β) (watch : ∀ t x, g { t with watch := x } = g t) : g (veCounted s w c clocks e k) =
    g (bump (bump (bump (bump s VE_BUSY_CLOCKS w clocks) VE_NUMCNT_OVERFLOW w e.ovf) VE_NUMCNT_NAN_CREATED w e.nanc)
      WARD_NCNT_MISC_CODE_RESERVED w k) := by
  unfold veCounted countVe countEv
  generalize bump (bump (bump s VE_BUSY_CLOCKS w clocks) VE_NUMCNT_OVERFLOW w e.ovf) VE_NUMCNT_NAN_CREATED w e.nanc = u
  obtain ⟨x, totals⟩ := addEvTotals_eq u c.step e
  obtain ⟨y, codes⟩ := countReserved_eq { u with watch := x } w c.step k
  rw [totals, codes, watch, bump_setWatch, watch]

theorem veCounted_regs : (veCounted s w c clocks e k).regs = (bump (bump (bump (bump s VE_BUSY_CLOCKS w clocks) VE_NUMCNT_OVERFLOW w e.ovf)
    VE_NUMCNT_NAN_CREATED w e.nanc) WARD_NCNT_MISC_CODE_RESERVED w k).regs := veCounted_keeps s w c clocks e k State.regs (fun _ _ => rfl)

theorem veCounted_clocks : fg (veCounted s w c clocks e k) VE_BUSY_CLOCKS w = min (2 ^ 32 - 1) (fg s VE_BUSY_CLOCKS w + clocks) := by
  rw [fg_of_regs (veCounted_regs s w c clocks e k)]
  simp only [bump]
  rw [fg_fs_of_no _ _ _ _ _ _ (by decide), fg_fs_of_no _ _ _ _ _ _ (by decide), fg_fs_of_no _ _ _ _ _ _ (by decide)]
  exact fg_bump_clocks s VE_BUSY_CLOCKS w clocks ⟨rfl, rfl⟩

theorem veCounted_reserved :
    fg (veCounted s w c clocks e k) WARD_NCNT_MISC_CODE_RESERVED w = min (2 ^ 16 - 1) (fg s WARD_NCNT_MISC_CODE_RESERVED w + k) := by
  rw [fg_of_regs (veCounted_regs s w c clocks e k), fg_bump_same _ WARD_NCNT_MISC_CODE_RESERVED w k ⟨by decide, by decide⟩]
  simp only [bump]
  rw [fg_fs_of_no _ _ _ _ _ _ (by decide), fg_fs_of_no _ _ _ _ _ _ (by decide), fg_fs_of_no _ _ _ _ _ _ (by decide)]
  rfl

/-- An instruction's clocks and events count in registers of its VE. -/
theorem veEvents_regsKept : RegsKept s (bump (bump (bump s VE_BUSY_CLOCKS w clocks) VE_NUMCNT_OVERFLOW w e.ovf) VE_NUMCNT_NAN_CREATED w e.nanc)
    [(VE_BUSY, w), (VE_NUMCNT, w)] :=
  (((RegsKept.of_regs (s := s) (t := s) [(VE_BUSY, w), (VE_NUMCNT, w)] rfl).bump (f := VE_BUSY_CLOCKS) (i := w)
    clocks (by simp [VE_BUSY_CLOCKS])).bump (f := VE_NUMCNT_OVERFLOW) (i := w) e.ovf (by simp [VE_NUMCNT_OVERFLOW])).bump
    (f := VE_NUMCNT_NAN_CREATED) (i := w) e.nanc (by simp [VE_NUMCNT_NAN_CREATED])

theorem veCounted_regsKept : RegsKept s (veCounted s w c clocks e 0) [(VE_BUSY, w), (VE_NUMCNT, w)] :=
  ((veEvents_regsKept s w clocks e).trans ((bump_zero_regsKept _ WARD_NCNT_MISC_CODE_RESERVED w).mono (List.nil_subset _))).trans
    (.of_regs _ (veCounted_regs s w c clocks e 0))

theorem veCounted_regsKept_of_codes :
    RegsKept s (veCounted s w c clocks e k) ([(VE_BUSY, w), (VE_NUMCNT, w)] ++ [(WARD_NCNT_MISC, w)]) :=
  (((veEvents_regsKept s w clocks e).mono (List.subset_append_left _ _)).bump (f := WARD_NCNT_MISC_CODE_RESERVED) (i := w) k
    (by simp [WARD_NCNT_MISC_CODE_RESERVED])).trans (.of_regs _ (veCounted_regs s w c clocks e k))

/-- An instruction that goes on leaves everything but its own VE and the counters alone, whatever registers of counters are listed. -/
theorem veFrame_veCounted (v : VeRt) {but : List (Reg × Nat)}
    (regs : RegsKept s (veCounted s w c clocks e k) ([(VE_BUSY, w), (VE_NUMCNT, w)] ++ but)) :
    VeFrame s (observe (setVe (veCounted s w c clocks e k) w v)) w clocks but := by
  have keeps {β : Type} (g : State → β) (watch : ∀ t x, g { t with watch := x } = g t) := veCounted_keeps s w c clocks e k g watch
  have stays : RegsKept s (setVe (veCounted s w c clocks e k) w v) ([(VE_BUSY, w), (VE_NUMCNT, w)] ++ but) := regs
  refine ⟨?_, ?_, ?_, fun u ne => ?_, stays.observe, ?_⟩
  · exact (observe_mem _).trans (keeps State.mem (fun _ _ => rfl))
  · exact (observe_queues _).trans (keeps State.queues (fun _ _ => rfl))
  · exact (observe_poison _).trans (keeps State.poison (fun _ _ => rfl))
  · rw [veRt_observe, veRt_setVe_other _ _ ne]
    exact veRt_of_ve (keeps State.ve (fun _ _ => rfl)) u
  · rw [fg_observe, fg_setVe, veCounted_clocks]

end

/-! ### Faults of the VE (07, R185) -/

theorem Faulted.veStatus {s : State} {m code detail : Nat} (h : Faulted s m code detail) (w : Nat) (c : Cmd) (busy : Bool) :
    Faulted (veStatus s w c busy) m code detail := by
  obtain ⟨st, field, word⟩ := h
  refine ⟨st, ?_, ?_⟩
  · rw [Machine.veStatus, fg_fs_of_no _ _ _ _ _ _ (by decide), fg_fs_of_no _ _ _ _ _ _ (by decide), field]
  · rw [Machine.veStatus, rd_fs_of_no _ _ _ _ _ _ (by decide), rd_fs_of_no _ _ _ _ _ _ (by decide), word]

theorem faulted_kernelFault {s : State} {m : Nat} (c : Cmd) (pc : Nat) (enabled : (stream s m).st = .enabled) :
    Faulted (kernelFault s m c pc) m 0x17 pc :=
  (faulted_execFault c pc enabled (by decide)).veStatus _ _ _

/-! ### An instruction at the program counter (07, R179, R183) -/

section
variable {s : State} {w j word : Nat} {c : Cmd} (at' : VeAt s w j c word)
include at'

theorem VeAt.stands : veAt s w (veRt s w) word = true := by
  obtain ⟨-, active, within, fetched, clean, -, formed, -⟩ := at'
  simp [veAt, active, within, fetched, clean, formed]

/-- The row of the word at the program counter is one step of the invocation. -/
theorem veRow_of_veAt : veRow s w word = observe (veStep s j w c (veRt s w) word) := by
  obtain ⟨job, -, -, -, -, user, -, -⟩ := id at'
  simp [veRow, job, at'.stands, user]

theorem veStep_of_go {s1 : State} {v : VeRt} {e : Ev} {k : Nat} (does : veInstr s1 w c (veRt s w) word = .go v e k) :
    veStep s1 j w c (veRt s w) word = setVe (veCounted s1 w c (veClocks (bits word 63 56)) e k) w v := by
  obtain ⟨-, -, -, -, -, -, -, within⟩ := at'
  rw [veStep, if_neg (by omega), does]
  rfl

theorem veStep_of_bad {s1 : State} {pc : Nat} (does : veInstr s1 w c (veRt s w) word = .stop 0x17 pc) :
    veStep s1 j w c (veRt s w) word = kernelFault s1 j c pc := by
  obtain ⟨-, -, -, -, -, -, -, within⟩ := at'
  rw [veStep, if_neg (by omega), does]
  rfl

theorem gives_of_go {i : Instr} {v : VeRt} {e : Ev} {clocks : Nat} (row : exec i s = .next (veRow s w word))
    (does : veInstr s w c (veRt s w) word = .go v e) (time : veClocks (bits word 63 56) = clocks) :
    Gives i s fun t => veRt t w = v ∧ VeFrame s t w clocks := by
  rw [veRow_of_veAt at', veStep_of_go at' does, time] at row
  exact gives_next row ⟨by simp, veFrame_veCounted _ _ _ _ _ _ _ (veCounted_regsKept _ _ _ _ _)⟩

theorem gives_of_bad {i : Instr} {pc : Nat} (row : exec i s = .next (veRow s w word)) (does : veInstr s w c (veRt s w) word = .stop 0x17 pc)
    (enabled : (stream s j).st = .enabled) : Gives i s fun t => Faulted t j 0x17 pc := by
  rw [veRow_of_veAt at', veStep_of_bad at' does] at row
  exact gives_next row (faulted_kernelFault c pc enabled).observe

end

end Sys2Proof.Machine
end

section
/-!
CLAIM. The lane and row instructions of the VE (07, R183, R184; 02, R57): the table of what each writes into its destination register. O29.
-/

namespace Sys2Proof.Machine

/-! ### Results lane by lane -/

/-- An instruction that writes register d with r and goes on to the next. -/
def vePut (v : VeRt) (d : Nat) (r : List Nat × Ev) : VeOut := .go { v.setReg d r.1 with pc := v.pc + 1, count := v.count + 1 } r.2

theorem fst_lanes1 (f : Nat → Nat × Ev) (xs : List Nat) : (lanes1 f xs).1 = xs.map (fun x => (f x).1) := List.map_map

theorem getElem?_rangeFrom {start n i : Nat} (h : i < n) : (rangeFrom start n)[i]? = some (start + i) := by
  induction n generalizing start i with
  | zero => omega
  | succ n ih =>
    cases i with
    | zero => rfl
    | succ i => rw [rangeFrom, List.getElem?_cons_succ, ih (by omega)]; congr 1; omega

theorem nth_map_below {α : Type} (f : Nat → α) {n i : Nat} (h : i < n) (d : α) : nth ((below n).map f) i d = f i := by
  rw [nth, List.getElem?_map, below, getElem?_rangeFrom h, Nat.zero_add]
  rfl

/-- Lanes 2p and 2p + 1 of BF16 stand in lane p of 32 bits (log 18). -/
theorem fst_bf512 (f : Nat → Nat × Ev) : (bf512 f).1 = (below 256).map (fun p => (f (2 * p)).1 + (f (2 * p + 1)).1 * 2 ^ 16) := by
  unfold bf512 packBf
  refine List.map_congr_left (fun p mem => ?_)
  have lane := (mem_below 256 p).mp mem
  rw [List.map_map, nth_map_below _ (by omega), nth_map_below _ (by omega)]
  rfl

theorem bfLane_even (a : List Nat) (p : Nat) : bfLane a (2 * p) = bits (nth a p 0) (16 * 0 + 15) (16 * 0) := by
  rw [bfLane, Nat.mul_div_cancel_left p (by decide), Nat.mul_mod_right]

theorem bfLane_odd (a : List Nat) (p : Nat) : bfLane a (2 * p + 1) = bits (nth a p 0) (16 * 1 + 15) (16 * 1) := by
  rw [bfLane, show (2 * p + 1) / 2 = p by omega, show (2 * p + 1) % 2 = 1 by omega]

/-- BF16 operations on both halves of each lane. -/
theorem fst_bf512_lanes2 (f : Nat → Nat → Nat × Ev) (a b : List Nat) : (bf512 (fun p => f (bfLane a p) (bfLane b p))).1 =
    (below 256).map (fun p => (f (bits (nth a p 0) (16 * 0 + 15) (16 * 0)) (bits (nth b p 0) (16 * 0 + 15) (16 * 0))).1 +
      (f (bits (nth a p 0) (16 * 1 + 15) (16 * 1)) (bits (nth b p 0) (16 * 1 + 15) (16 * 1))).1 * 2 ^ 16) := by
  simp only [fst_bf512, bfLane_even, bfLane_odd]

theorem fst_bf512_lanes3 (f : Nat → Nat → Nat → Nat × Ev) (a b c : List Nat) :
    (bf512 (fun p => f (bfLane a p) (bfLane b p) (bfLane c p))).1 = (below 256).map (fun p =>
      (f (bits (nth a p 0) (16 * 0 + 15) (16 * 0)) (bits (nth b p 0) (16 * 0 + 15) (16 * 0)) (bits (nth c p 0) (16 * 0 + 15) (16 * 0))).1 +
      (f (bits (nth a p 0) (16 * 1 + 15) (16 * 1)) (bits (nth b p 0) (16 * 1 + 15) (16 * 1)) (bits (nth c p 0) (16 * 1 + 15) (16 * 1))).1 *
        2 ^ 16) := by
  simp only [fst_bf512, bfLane_even, bfLane_odd]

theorem fst_onRows (f : List Nat → Nat × Ev) (a : List Nat) : (onRows f a).1 =
    List.replicate 128 (f (padTo 128 0 (a.take 128))).1 ++ List.replicate 128 (f (padTo 128 0 (a.drop 128))).1 := rfl

/-! ### What each instruction does (07, R183) -/

section
variable (s : State) (w : Nat) (c : Cmd) (v : VeRt) {d a b cc m : Nat} (hd : d < 64) (ha : a < 64)
include hd ha

theorem veInstr_fsqrt : veInstr s w c v (veWord 0x07 d a 0 0 0 0) = vePut v d (lanes1 fsqrt32 (v.reg a)) := by
  simp [veInstr, vePut, hd, ha]

theorem veInstr_cvt (hm : m < 256) : veInstr s w c v (veWord 0x0A d a 0 0 m 0) = vePut v d (cvtLanes m (v.reg a)) := by
  simp [veInstr, vePut, hd, ha, hm]

theorem veInstr_rsum : veInstr s w c v (veWord 0x20 d a 0 0 0 0) = vePut v d (onRows rowSum (v.reg a)) := by
  simp [veInstr, vePut, hd, ha]

theorem veInstr_rmax : veInstr s w c v (veWord 0x21 d a 0 0 0 0) = vePut v d (onRows rowMax (v.reg a)) := by
  simp [veInstr, vePut, hd, ha]

theorem veInstr_ridx : veInstr s w c v (veWord 0x22 d a 0 0 0 0) = vePut v d (onRows (fun r => (rowIdx r, {})) (v.reg a)) := by
  simp [veInstr, vePut, hd, ha]

variable (hb : b < 64)
include hb

theorem veInstr_fadd : veInstr s w c v (veWord 0x01 d a b 0 0 0) = vePut v d (lanes2 fadd32 (v.reg a) (v.reg b)) := by
  simp [veInstr, vePut, hd, ha, hb]

theorem veInstr_fsub : veInstr s w c v (veWord 0x02 d a b 0 0 0) = vePut v d (lanes2 fsub32 (v.reg a) (v.reg b)) := by
  simp [veInstr, vePut, hd, ha, hb]

theorem veInstr_fmul : veInstr s w c v (veWord 0x03 d a b 0 0 0) = vePut v d (lanes2 fmul32 (v.reg a) (v.reg b)) := by
  simp [veInstr, vePut, hd, ha, hb]

theorem veInstr_fmin : veInstr s w c v (veWord 0x05 d a b 0 0 0) = vePut v d (lanes2 (pick32 true) (v.reg a) (v.reg b)) := by
  simp [veInstr, vePut, hd, ha, hb]

theorem veInstr_fmax : veInstr s w c v (veWord 0x06 d a b 0 0 0) = vePut v d (lanes2 (pick32 false) (v.reg a) (v.reg b)) := by
  simp [veInstr, vePut, hd, ha, hb]

theorem veInstr_fcmp (hm : m < 256) : veInstr s w c v (veWord 0x08 d a b 0 m 0) = vePut v d (lanes2 (fcmp32 m) (v.reg a) (v.reg b)) := by
  simp [veInstr, vePut, hd, ha, hb, hm]

theorem veInstr_vint (hm : m < 256) : veInstr s w c v (veWord 0x0B d a b 0 m 0) =
    vePut v d ((below 256).map (fun p => intOp m (nth (v.reg a) p 0) (nth (v.reg b) p 0)), {}) := by
  simp [veInstr, vePut, hd, ha, hb, hm]

theorem veInstr_badd : veInstr s w c v (veWord 0x10 d a b 0 0 0) =
    vePut v d (bf512 (fun p => opBf16 (bfLane (v.reg a) p) (bfLane (v.reg b) p) FV.add)) := by
  simp [veInstr, vePut, hd, ha, hb]

theorem veInstr_bmul : veInstr s w c v (veWord 0x11 d a b 0 0 0) =
    vePut v d (bf512 (fun p => opBf16 (bfLane (v.reg a) p) (bfLane (v.reg b) p) FV.mul)) := by
  simp [veInstr, vePut, hd, ha, hb]

theorem veInstr_scalb : veInstr s w c v (veWord 0x19 d a b 0 0 0) = vePut v d (lanes2 scalb32 (v.reg a) (v.reg b)) := by
  simp [veInstr, vePut, hd, ha, hb]

variable (hc : cc < 64)
include hc

theorem veInstr_ffma : veInstr s w c v (veWord 0x04 d a b cc 0 0) = vePut v d (lanes3 ffma32 (v.reg a) (v.reg b) (v.reg cc)) := by
  simp [veInstr, vePut, hd, ha, hb, hc]

theorem veInstr_fsel : veInstr s w c v (veWord 0x09 d a b cc 0 0) =
    vePut v d ((below 256).map (fun p => if nth (v.reg cc) p 0 % 2 = 1 then nth (v.reg a) p 0 else nth (v.reg b) p 0), {}) := by
  simp [veInstr, vePut, bit, hd, ha, hb, hc]

theorem veInstr_bfma : veInstr s w c v (veWord 0x12 d a b cc 0 0) =
    vePut v d (bf512 (fun p => bfma16 (bfLane (v.reg a) p) (bfLane (v.reg b) p) (bfLane (v.reg cc) p))) := by
  simp [veInstr, vePut, hd, ha, hb, hc]

theorem veInstr_kerf : veInstr s w c v (veWord 0x38 d a b cc 0 0) = vePut v d ((below 256).map (fun p =>
    kerfDraw (jobSeed s) (v.xreg a % 2 ^ 16) (bits c.imm 47 16) (v.xreg b % 2 ^ 16 * 2 ^ 32 + nth (v.reg cc) p 0) c.step), {}) := by
  simp [veInstr, vePut, hd, ha, hb, hc]

end

/-! ### The table of results -/

/-- An instruction row, its word, its clocks and the result that it writes into register d. -/
def WritesResult (s : State) (w : Nat) (c : Cmd) (d : Nat) (x : Instr × Nat × Nat × List Nat) : Prop :=
  exec x.1 s = .next (veRow s w x.2.1) ∧ veClocks (bits x.2.1 63 56) = x.2.2.1 ∧
  ∃ e, veInstr s w c (veRt s w) x.2.1 = vePut (veRt s w) d (x.2.2.2, e)

theorem WritesResult.of_put {s : State} {w : Nat} {c : Cmd} {d op D a b cc m k clocks : Nat} {i : Instr} {result : List Nat} {r : List Nat × Ev}
    (row : exec i s = .next (veRow s w (veWord op D a b cc m k))) (code : op < 256 ∧ veClocks op = clocks)
    (does : veInstr s w c (veRt s w) (veWord op D a b cc m k) = vePut (veRt s w) d r) (value : r.1 = result) :
    WritesResult s w c d (i, veWord op D a b cc m k, clocks, result) := by
  obtain ⟨small, time⟩ := code
  exact ⟨row, by simp [small, time], r.2, by rw [does, ← value]⟩

theorem WritesResult.gives {s : State} {w j d clocks word : Nat} {c : Cmd} {i : Instr} {result : List Nat}
    (h : WritesResult s w c d (i, word, clocks, result)) (at' : VeAt s w j c word) : Gives i s fun t =>
      veRt t w = { (veRt s w).setReg d result with pc := (veRt s w).pc + 1, count := (veRt s w).count + 1 } ∧ VeFrame s t w clocks := by
  obtain ⟨row, time, e, does⟩ := h
  exact gives_of_go at' row does time

/-- Settles O29: the instruction at the program counter writes its row of the table and goes on. -/
theorem laneInstructionsWriteTheirResults : Obligations.LaneInstructionsWriteTheirResults := by
  unfold Obligations.LaneInstructionsWriteTheirResults
  intro w d a b cc m k j c s i word clocks result hd ha hb hc hm hk v A B C each at' row half listed standing
  refine WritesResult.gives ((?_ : ∀ x ∈ _, WritesResult s w c d x) _ listed) standing
  simp only [List.forall_mem_cons]
  exact ⟨.of_put rfl ⟨by decide, rfl⟩ (veInstr_fadd s w c v hd ha hb) (fst_lanes1 _ _),
    .of_put rfl ⟨by decide, rfl⟩ (veInstr_fsub s w c v hd ha hb) (fst_lanes1 _ _),
    .of_put rfl ⟨by decide, rfl⟩ (veInstr_fmul s w c v hd ha hb) (fst_lanes1 _ _),
    .of_put rfl ⟨by decide, rfl⟩ (veInstr_ffma s w c v hd ha hb hc) (fst_lanes1 _ _),
    .of_put rfl ⟨by decide, rfl⟩ (veInstr_fmin s w c v hd ha hb) (fst_lanes1 _ _),
    .of_put rfl ⟨by decide, rfl⟩ (veInstr_fmax s w c v hd ha hb) (fst_lanes1 _ _),
    .of_put rfl ⟨by decide, rfl⟩ (veInstr_fsqrt s w c v hd ha) (fst_lanes1 _ _),
    .of_put rfl ⟨by decide, rfl⟩ (veInstr_fcmp s w c v hd ha hb hm) (fst_lanes1 _ _),
    .of_put rfl ⟨by decide, rfl⟩ (veInstr_fsel s w c v hd ha hb hc) rfl,
    .of_put rfl ⟨by decide, rfl⟩ (veInstr_cvt s w c v hd ha (by decide)) (congrArg packBf List.map_map),
    .of_put rfl ⟨by decide, rfl⟩ (veInstr_cvt s w c v hd ha (by decide)) (fst_lanes1 _ _),
    .of_put rfl ⟨by decide, rfl⟩ (veInstr_cvt s w c v hd ha (by decide)) (fst_lanes1 _ _),
    .of_put rfl ⟨by decide, rfl⟩ (veInstr_cvt s w c v hd ha (by decide)) (fst_lanes1 _ _),
    .of_put rfl ⟨by decide, rfl⟩ (veInstr_vint s w c v hd ha hb hm) rfl,
    .of_put rfl ⟨by decide, rfl⟩ (veInstr_badd s w c v hd ha hb) (fst_bf512_lanes2 (opBf16 · · FV.add) A B),
    .of_put rfl ⟨by decide, rfl⟩ (veInstr_bmul s w c v hd ha hb) (fst_bf512_lanes2 (opBf16 · · FV.mul) A B),
    .of_put rfl ⟨by decide, rfl⟩ (veInstr_bfma s w c v hd ha hb hc) (fst_bf512_lanes3 bfma16 A B C),
    .of_put rfl ⟨by decide, rfl⟩ (veInstr_scalb s w c v hd ha hb) (fst_lanes1 _ _),
    .of_put rfl ⟨by decide, rfl⟩ (veInstr_rsum s w c v hd ha) (fst_onRows _ _),
    .of_put rfl ⟨by decide, rfl⟩ (veInstr_rmax s w c v hd ha) (fst_onRows _ _),
    .of_put rfl ⟨by decide, rfl⟩ (veInstr_ridx s w c v hd ha) (fst_onRows _ _),
    .of_put rfl ⟨by decide, rfl⟩ (veInstr_kerf s w c v hd ha hb hc) rfl,
    List.forall_mem_nil _⟩

end Sys2Proof.Machine
end

section
/-!
SUPPORT. What an access that succeeds leaves alone (11, R280, R283, R287): with the engines' work, every ward's VE, the kernel stores and the poisoned
units; and the rows whose read of a tile may meet an error.
-/

namespace Sys2Proof.Machine

/-! ### A read that succeeds -/

/-- The work of the engines kept, and with it every VE, the library's place and the poisoned units. -/
structure ReadKept (s t : State) : Prop extends MetKept s t where
  ve : t.ve = s.ve
  libLoaded : t.libLoaded = s.libLoaded
  poison : t.poison = s.poison

theorem ReadKept.refl (s : State) : ReadKept s s := ⟨.refl s, rfl, rfl, rfl⟩

theorem readKept_noteCorrected (s : State) (a n : Nat) : ReadKept s (noteCorrected s a n) := by
  refine ⟨metKept_noteCorrected s a n, ?_, ?_, ?_⟩
  all_goals unfold noteCorrected; split <;> [rfl; split <;> rfl]

theorem readKept_noteResent (s : State) (a n : Nat) : ReadKept s (noteResent s a n) := by
  refine ⟨metKept_noteResent s a n, ?_, ?_, ?_⟩
  all_goals
    unfold noteResent
    split
    · dsimp only; split <;> rfl
    · split <;> rfl

theorem readKept_badLine {s : State} {a : Nat} (met : (badLine s a).2 = none) : ReadKept s (badLine s a).1 := by
  have kept := metKept_badLine s a
  revert met kept
  unfold badLine
  cases lineAt s a with
  | none => exact fun _ _ => .refl s
  | some l =>
    by_cases dirty : l.dirty = true
    · simp [dirty]
    · have counted := readKept_noteCorrected (dropLine s (cacheKey s a) l.way) (sliceKey (t1Stack s a) (lineOffset s a l.way)) 1
      simp only [dirty]
      exact fun _ kept => ⟨kept, counted.ve, counted.libLoaded, counted.poison⟩

/-- An access that no error fails leaves memory, work, VEs and poison as they were. -/
theorem readKept_meetErr {s : State} {err : MemErr} {runs : List (Nat × Nat)} (met : (meetErr s err runs).2 = none) :
    ReadKept s (meetErr s err runs).1 := by
  revert met
  unfold meetErr
  split
  · exact fun _ => .refl s
  · cases err with
    | corrected a => exact fun _ => readKept_noteCorrected s a 1
    | lost a => exact fun met => nomatch met
    | line a => exact readKept_badLine
    | failed a =>
      by_cases tiered : a < wardBase
      · simp [tiered]
      · simpa [tiered] using ReadKept.refl s
    | resent a n =>
      by_cases few : n ≤ 7
      · simpa [few] using readKept_noteResent s a n
      · simpa [few] using ReadKept.refl s
    | none => exact fun _ => .refl s
    | accum off => exact fun _ => .refl s

namespace ReadKept

variable {s t : State} (h : ReadKept s t)
include h

theorem veRt (w : Nat) : veRt t w = veRt s w := veRt_of_ve h.ve w

theorem poisoned (a n : Nat) : poisoned t a n = poisoned s a n := by unfold Machine.poisoned; rw [h.poison]

theorem kstoreWord (w off n : Nat) : kstoreWord t w off n = kstoreWord s w off n := by
  have byte : kstoreByte t w = kstoreByte s w := by
    funext o
    unfold kstoreByte readByte
    rw [h.libLoaded, h.mem, h.boot]
  unfold Machine.kstoreWord
  rw [byte]

theorem inputsVisible (w : Nat) (c : Cmd) (vs : List (List Nat)) : inputsVisible t w c vs = inputsVisible s w c vs := by
  unfold Machine.inputsVisible offVisible Machine.queueRt
  rw [h.queues]

end ReadKept

/-! ### The rows that read a tile (07, R183; 11, R291) -/

section
variable {s : State} {w j word e k : Nat} {c : Cmd} {err : MemErr} (at' : VeAt s w j c word)
include at'

theorem veReadRow_of_met (met : (meetErr s err (veTileRuns s w c e k)).2 = none) :
    veReadRow s w word e k err = observe (veStep (meetErr s err (veTileRuns s w c e k)).1 j w c (veRt s w) word) := by
  obtain ⟨job, -, -, -, -, user, -, -⟩ := id at'
  have pair : meetErr s err (veTileRuns s w c e k) = ((meetErr s err (veTileRuns s w c e k)).1, none) := Prod.ext rfl met
  simp only [veReadRow, job, at'.stands, user, Bool.not_false, Bool.and_self, if_true]
  rw [pair]

theorem veReadRow_of_lost {d : Nat} (lost : (meetErr s err (veTileRuns s w c e k)).2 = some d) : veReadRow s w word e k err =
    observe (veStatus (execFault (meetErr s err (veTileRuns s w c e k)).1 j c 0x12 d) w c false) := by
  obtain ⟨job, -, -, -, -, user, -, -⟩ := id at'
  have pair : meetErr s err (veTileRuns s w c e k) = ((meetErr s err (veTileRuns s w c e k)).1, some d) := Prod.ext rfl lost
  simp only [veReadRow, job, at'.stands, user, Bool.not_false, Bool.and_self, if_true]
  rw [pair]

theorem gives_of_read {i : Instr} {v : VeRt} {ev : Ev} {codes clocks : Nat} (row : exec i s = .next (veReadRow s w word e k err))
    (met : (meetErr s err (veTileRuns s w c e k)).2 = none)
    (does : veInstr (meetErr s err (veTileRuns s w c e k)).1 w c (veRt s w) word = .go v ev codes)
    (time : veClocks (bits word 63 56) = clocks) : Gives i s fun t =>
      VeFrame (meetErr s err (veTileRuns s w c e k)).1 t w clocks [(WARD_NCNT_MISC, w)] ∧ veRt t w = v ∧
      fg t WARD_NCNT_MISC_CODE_RESERVED w = min (2 ^ 16 - 1) (fg s WARD_NCNT_MISC_CODE_RESERVED w + codes) := by
  rw [veReadRow_of_met at' met, veStep_of_go at' does, time] at row
  refine gives_next row ⟨veFrame_veCounted _ _ _ _ _ _ _ (veCounted_regsKept_of_codes _ _ _ _ _ _), by simp, ?_⟩
  have counted := veCounted_reserved (meetErr s err (veTileRuns s w c e k)).1 w c clocks ev codes
  rw [(metKept_meetErr s err _).fg WARD_NCNT_MISC_CODE_RESERVED w (by decide)] at counted
  rw [fg_observe, fg_setVe]
  exact counted

theorem gives_of_unreadable {i : Instr} {pc : Nat} (row : exec i s = .next (veReadRow s w word e k err))
    (met : (meetErr s err (veTileRuns s w c e k)).2 = none)
    (does : veInstr (meetErr s err (veTileRuns s w c e k)).1 w c (veRt s w) word = .stop 0x17 pc) (enabled : (stream s j).st = .enabled) :
    Gives i s fun t => Faulted t j 0x17 pc := by
  rw [veReadRow_of_met at' met, veStep_of_bad at' does] at row
  refine gives_next row (faulted_kernelFault c pc ?_).observe
  rw [(metKept_meetErr s err _).stream, enabled]

theorem gives_of_lost {i : Instr} {d : Nat} (row : exec i s = .next (veReadRow s w word e k err))
    (lost : (meetErr s err (veTileRuns s w c e k)).2 = some d) (enabled : (stream s j).st = .enabled) :
    Gives i s fun t => Faulted t j 0x12 d := by
  rw [veReadRow_of_lost at' lost] at row
  refine gives_next row ((faulted_execFault c d ?_ (by decide)).veStatus w c false).observe
  rw [(metKept_meetErr s err _).stream, enabled]

end

/-! ### A tile that is not there -/

theorem veTile_eq_none_iff (s : State) (w : Nat) (c : Cmd) (e k : Nat) : veTile s w c e k = none ↔ inUsed c e = false ∨ (runOf c)[k]? = none := by
  cases used : inUsed c e <;> simp [veTile, used]

theorem veTileRuns_of_none {s : State} {w : Nat} {c : Cmd} {e k : Nat} (none : veTile s w c e k = none) : veTileRuns s w c e k = [] := by
  rcases (veTile_eq_none_iff s w c e k).mp none with unused | past
  · simp [veTileRuns, unused]
  · simp [veTileRuns, past]

end Sys2Proof.Machine
end

section
/-!
CLAIM. The VE's loads of tile rows, header fields, tables and parameters, staging, FREXP, scalar arithmetic and branches (07, R179, R181, R183, R185).
O30.
-/

namespace Sys2Proof.Machine

/-! ### What each instruction does (07, R183) -/

/-- The lanes, events and reserved codes of rows 2p and 2p + 1 of a tile: decoded by LDT, raw by LDR. -/
def rowPair (op : Nat) (c : Cmd) (e : Nat) (h : Hdr) (bs : List Byte) (p : Nat) : (List Nat × Ev) × Nat :=
  if op = 0x28 then (tileLanes (veFmt c e h) bs p, rowCodes (veFmt c e h) bs p) else ((rawLanes bs p, {}), 0)

theorem rowPair_lanes (op : Nat) (c : Cmd) (e : Nat) (h : Hdr) (bs : List Byte) (p : Nat) :
    (rowPair op c e h bs p).1.1 = if op = 0x28 then (tileLanes (veFmt c e h) bs p).1 else rawLanes bs p := by
  unfold rowPair
  split <;> rfl

theorem rowPair_codes {op : Nat} (decoded : op = 0x28) (c : Cmd) (e : Nat) (h : Hdr) (bs : List Byte) (p : Nat) :
    (rowPair op c e h bs p).2 = rowCodes (veFmt c e h) bs p := by rw [rowPair, if_pos decoded]

section
variable (s : State) (w : Nat) (c : Cmd) (v : VeRt) {op d a b m k : Nat} {h : Hdr} {bs : List Byte}

theorem veInstr_read_of_tile (code : op = 0x28 ∨ op = 0x29) (hd : d < 64) (ha : a < 64) (hm : m < 256) (hk : k < 2 ^ 24)
    (tile : veTile s w c m k = some (.ok (h, bs))) (inside : v.xreg a < 64) : veInstr s w c v (veWord op d a 0 0 m k) =
    .go { v.setReg d (rowPair op c m h bs (v.xreg a)).1.1 with pc := v.pc + 1, count := v.count + 1 } (rowPair op c m h bs (v.xreg a)).1.2
      (rowPair op c m h bs (v.xreg a)).2 := by
  rcases code with rfl | rfl <;> simp [veInstr, rowPair, hd, ha, hm, k_veWord hk, tile, inside]

theorem veInstr_read_past (code : op = 0x28 ∨ op = 0x29) (hd : d < 64) (ha : a < 64) (hm : m < 256) (hk : k < 2 ^ 24)
    (tile : veTile s w c m k = some (.ok (h, bs))) (past : 64 ≤ v.xreg a) : veInstr s w c v (veWord op d a 0 0 m k) =
    vePut v d ((below 256).map (fun i => Config.unstated 10 (v.xreg a) i % 2 ^ 32), {}) := by
  rcases code with rfl | rfl <;> simp [veInstr, vePut, hd, ha, hm, k_veWord hk, tile, Nat.not_lt.mpr past]

theorem veInstr_read_of_none (code : op = 0x28 ∨ op = 0x29) (hm : m < 256) (hk : k < 2 ^ 24)
    (tile : veTile s w c m k = none) : veInstr s w c v (veWord op d a 0 0 m k) = .stop 0x17 v.pc := by
  rcases code with rfl | rfl <;> simp [veInstr, hm, k_veWord hk, tile]

theorem veInstr_tlu (hd : d < 64) (ha : a < 64) (hk : k < 2 ^ 24)
    (clean : ∀ x ∈ v.reg a, k + 4 * x + 4 ≤ 0x10000 ∧ poisoned s (kstoreKey w (0x20000 + k + 4 * x)) 4 = false) :
    veInstr s w c v (veWord 0x18 d a 0 0 0 k) =
      vePut v d ((v.reg a).map (fun x => kstoreWord s w (0x20000 + k + 4 * x) 4), {}) := by
  have within : (v.reg a).all (fun x => decide (k + 4 * x + 4 ≤ 0x10000)) = true :=
    List.all_eq_true.mpr fun x mem => decide_eq_true (clean x mem).1
  have read : (v.reg a).findSome? (fun x => poisonDetail s (kstoreKey w (0x20000 + k + 4 * x)) 4) = none :=
    List.findSome?_eq_none_iff.mpr fun x mem => poisonDetail_of_not_poisoned (clean x mem).2
  simp only [veInstr, op_veWord, d_veWord, a_veWord, k_veWord, hd, ha, hk, Nat.reduceLT, within, read, if_true]
  rfl

theorem veInstr_tlu_past (ha : a < 64) (hk : k < 2 ^ 24) (past : ∃ x ∈ v.reg a, 0x10000 < k + 4 * x + 4) :
    veInstr s w c v (veWord 0x18 d a 0 0 0 k) = .stop 0x17 v.pc := by
  have outside : ¬(v.reg a).all (fun x => decide (k + 4 * x + 4 ≤ 0x10000)) = true := by
    obtain ⟨x, mem, out⟩ := past
    simp only [List.all_eq_true, decide_eq_true_eq]
    exact fun all => absurd (all x mem) (by omega)
  simp only [veInstr, op_veWord, a_veWord, k_veWord, ha, hk, Nat.reduceLT, outside]
  rfl

theorem veInstr_frexp (hd : d < 64) (ha : a < 64) : veInstr s w c v (veWord 0x1A d a 0 0 0 0) =
    let x := v.setReg d ((v.reg a).map (fun x => (frexpFrac x).1))
    let y := if d = 63 then x else x.setReg (d + 1) ((v.reg a).map frexpExp)
    .go { y with pc := v.pc + 1, count := v.count + 1 } (lanes1 frexpFrac (v.reg a)).2 := by
  have last : d < 63 ↔ ¬d = 63 := by omega
  simp [veInstr, hd, ha, fst_lanes1, last]

theorem veInstr_stt (ha : a < 64) (hb : b < 64) (hm : m < 256) : veInstr s w c v (veWord 0x2A 0 a b 0 m 0) =
    let x := if 64 ≤ v.xreg a then v else if m = 0 then { v with stage0 := putReg v.stage0 (v.xreg a) (v.reg b) }
      else { v with stage1 := putReg v.stage1 (v.xreg a) (v.reg b) }
    .go { x with pc := v.pc + 1, count := v.count + 1 } {} := by
  by_cases past : 64 ≤ v.xreg a
  · simp [veInstr, ha, past, Nat.not_lt.mpr past]
  · simp [veInstr, ha, hb, hm, past, Nat.not_le.mp past]

theorem veInstr_ldh_of_tile (hd : d < 64) (hb : b < 64) (hm : m < 256) (hk : k < 2 ^ 24)
    (tile : veTile s w c m (v.xreg b) = some (.ok (h, bs))) : veInstr s w c v (veWord 0x2C d 0 b 0 m k) =
    .go { v.setX d (hdrField h k) with pc := v.pc + 1, count := v.count + 1 } {} := by
  simp [veInstr, hd, hb, hm, k_veWord hk, tile]

theorem veInstr_ldh_of_none (hb : b < 64) (hm : m < 256) (tile : veTile s w c m (v.xreg b) = none) :
    veInstr s w c v (veWord 0x2C d 0 b 0 m k) = .stop 0x17 v.pc := by
  simp [veInstr, hb, hm, tile]

theorem veInstr_xalu (hd : d < 64) (ha : a < 64) (hb : b < 64) (hm : m < 256) : veInstr s w c v (veWord 0x30 d a b 0 m 0) =
    .go { v.setX d (intOp m (v.xreg a) (v.xreg b)) with pc := v.pc + 1, count := v.count + 1 } {} := by
  simp [veInstr, hd, ha, hb, hm]

theorem veInstr_xldp (hd : d < 64) (hk : k < 2 ^ 24)
    (clean : poisoned s (kstoreKey w (0x30000 + 64 * bits c.imm 63 48 + 4 * (k % 16))) 4 = false) :
    veInstr s w c v (veWord 0x31 d 0 0 0 0 k) =
      let x := if k < 16 then paramWord s w (bits c.imm 63 48) k else Config.unstated 12 k 0
      .go { v.setX d x with pc := v.pc + 1, count := v.count + 1 } {} := by
  simp only [veInstr, op_veWord, d_veWord, k_veWord, hd, hk, Nat.reduceLT, poisonDetail_of_not_poisoned clean]

/-- The condition of a BR by its modifier (07, R183). -/
def branchTaken (m x y : Nat) : Bool :=
  match m with
  | 0 => x == y
  | 1 => x != y
  | _ => decide (int32 x < int32 y)

omit s w c v in
theorem branchTaken_iff (m x y : Nat) : branchTaken m x y = true ↔
    if m = 0 then x = y else if m = 1 then x ≠ y else signed 32 (x % 2 ^ 32) < signed 32 (y % 2 ^ 32) := by
  match m with
  | 0 => simp [branchTaken]
  | 1 => simp [branchTaken]
  | n + 2 =>
    rw [if_neg (by omega), if_neg (by omega)]
    exact decide_eq_true_iff

theorem veInstr_br (ha : a < 64) (hb : b < 64) (hm : m < 256) (hk : k < 2 ^ 24) : veInstr s w c v (veWord 0x32 0 a b 0 m k) =
    .go { v with pc := if branchTaken m (v.xreg a) (v.xreg b) then k else v.pc + 1, count := v.count + 1 } {} := by
  simp only [veInstr, op_veWord, a_veWord, b_veWord, m_veWord, k_veWord, ha, hb, hm, hk, Nat.reduceLT]
  rfl

end

/-! ### The rows -/

section
variable {s : State} {w d a m k op j : Nat} {c : Cmd} {err : MemErr} {i : Instr} (code : op = 0x28 ∨ op = 0x29)
  (row : exec i s = .next (veReadRow s w (veWord op d a 0 0 m k) m k err)) (hm : m < 256) (hk : k < 2 ^ 24)
  (at' : VeAt s w j c (veWord op d a 0 0 m k))
include code

theorem veClocks_read : veClocks (bits (veWord op d a 0 0 m k) 63 56) = 1 := by rcases code with rfl | rfl <;> simp [veClocks]

include row hm hk at'

/-- A load of two rows of a tile that the error's sector lets through. -/
theorem gives_rowPair {h : Hdr} {bs : List Byte} (hd : d < 64) (ha : a < 64) (met : (meetErr s err (veTileRuns s w c m k)).2 = none)
    (tile : veTile (meetErr s err (veTileRuns s w c m k)).1 w c m k = some (.ok (h, bs))) (inside : (veRt s w).xreg a < 64) :
    Gives i s fun t => VeFrame (meetErr s err (veTileRuns s w c m k)).1 t w 1 [(WARD_NCNT_MISC, w)] ∧
      veRt t w = { (veRt s w).setReg d (rowPair op c m h bs ((veRt s w).xreg a)).1.1 with
        pc := (veRt s w).pc + 1, count := (veRt s w).count + 1 } ∧
      fg t WARD_NCNT_MISC_CODE_RESERVED w =
        min (2 ^ 16 - 1) (fg s WARD_NCNT_MISC_CODE_RESERVED w + (rowPair op c m h bs ((veRt s w).xreg a)).2) := by
  exact gives_of_read at' row met (veInstr_read_of_tile _ w c _ code hd ha hm hk tile inside) (veClocks_read code)

/-- A load of a row pair that the tile has not. -/
theorem gives_rowPair_past {h : Hdr} {bs : List Byte} (hd : d < 64) (ha : a < 64) (met : (meetErr s err (veTileRuns s w c m k)).2 = none)
    (tile : veTile (meetErr s err (veTileRuns s w c m k)).1 w c m k = some (.ok (h, bs))) (past : 64 ≤ (veRt s w).xreg a) :
    Gives i s fun t => VeFrame (meetErr s err (veTileRuns s w c m k)).1 t w 1 [(WARD_NCNT_MISC, w)] ∧
      ∃ x, veRt t w = { (veRt s w).setReg d x with pc := (veRt s w).pc + 1, count := (veRt s w).count + 1 } := by
  exact (gives_of_read at' row met (veInstr_read_past _ w c _ code hd ha hm hk tile past) (veClocks_read code)).imp fun t ⟨frame, reg, _⟩ => ⟨frame, _, reg⟩

/-- A load from a tile that is not there. -/
theorem gives_rowPair_missing (missing : veTile s w c m k = none) (enabled : (stream s j).st = .enabled) :
    Gives i s fun t => Faulted t j 0x17 (veRt s w).pc := by
  have met : meetErr s err (veTileRuns s w c m k) = (s, none) := by rw [veTileRuns_of_none missing, meetErr_nil]
  refine gives_of_unreadable at' row (by rw [met]) (veInstr_read_of_none _ w c _ code hm hk ?_) enabled
  rw [met]
  exact missing

end

theorem gives_of_instr {s : State} {w j op d a b cc m k clocks : Nat} {c : Cmd} {i : Instr} {v : VeRt} {e : Ev}
    (at' : VeAt s w j c (veWord op d a b cc m k)) (row : exec i s = .next (veRow s w (veWord op d a b cc m k)))
    (does : veInstr s w c (veRt s w) (veWord op d a b cc m k) = .go v e) (code : op < 256 ∧ veClocks op = clocks) :
    Gives i s fun t => veRt t w = v ∧ VeFrame s t w clocks := by
  obtain ⟨small, time⟩ := code
  exact gives_of_go at' row does (by rw [op_veWord small, time])

/-- Settles O30: each instruction's own effect at the program counter, or its fault. -/
theorem scalarAndTileInstructionsOfTheVe : Obligations.ScalarAndTileInstructionsOfTheVe := by
  unfold Obligations.ScalarAndTileInstructionsOfTheVe
  intro w d a b m k j c err s hd ha hb hm hk v on met faults
  refine ⟨fun i op listed at' => ?_, fun at' => ⟨fun clean => ?_, fun past enabled => ?_⟩, fun at' => ?_, fun at' => ?_,
    fun at' => ⟨fun h bs tile => ?_, fun missing enabled => ?_⟩, fun at' => ?_, fun at' clean => ?_, fun at' => ?_⟩
  · have ⟨code, row⟩ : (op = 0x28 ∨ op = 0x29) ∧ exec i s = .next (veReadRow s w (veWord op d a 0 0 m k) m k err) := by
      simp only [List.mem_cons, List.not_mem_nil, or_false, Prod.mk.injEq] at listed
      obtain ⟨rfl, rfl⟩ | ⟨rfl, rfl⟩ := listed
      · exact ⟨.inl rfl, rfl⟩
      · exact ⟨.inr rfl, rfl⟩
    refine ⟨fun read h bs tile => ?_, fun missing enabled => gives_rowPair_missing code row hm hk at' missing enabled,
      fun x lost enabled => gives_of_lost at' row lost enabled⟩
    by_cases inside : v.xreg a < 64
    · refine (gives_rowPair code row hm hk at' hd ha read tile inside).imp fun t ⟨frame, reg, codes⟩ =>
        ⟨frame, fun _ => ?_, fun past => absurd inside (by omega), fun decoded _ => ?_⟩
      · rw [reg, rowPair_lanes]
      · rw [codes, rowPair_codes decoded]
    · exact (gives_rowPair_past code row hm hk at' hd ha read tile (Nat.not_lt.mp inside)).imp fun t ⟨frame, reg⟩ =>
        ⟨frame, fun low => absurd low inside, fun _ => reg, fun _ low => absurd low inside⟩
  · exact gives_of_instr at' rfl (veInstr_tlu s w c v hd ha hk clean) ⟨by decide, rfl⟩
  · exact gives_of_bad at' rfl (veInstr_tlu_past s w c v ha hk past) enabled
  · exact gives_of_instr at' rfl (veInstr_frexp s w c v hd ha) ⟨by decide, rfl⟩
  · exact gives_of_instr at' rfl (veInstr_stt s w c v ha hb hm) ⟨by decide, rfl⟩
  · exact gives_of_instr at' rfl (veInstr_ldh_of_tile s w c v hd hb hm hk tile) ⟨by decide, rfl⟩
  · exact gives_of_bad at' rfl (veInstr_ldh_of_none s w c v hb hm missing) enabled
  · exact gives_of_instr at' rfl (veInstr_xalu s w c v hd ha hb hm) ⟨by decide, rfl⟩
  · exact (gives_of_instr at' rfl (veInstr_xldp s w c v hd hk clean) ⟨by decide, rfl⟩).imp fun t ⟨reg, frame⟩ =>
      ⟨⟨_, fun inside => if_pos inside, reg⟩, frame⟩
  · refine (gives_of_instr at' rfl (veInstr_br s w c v ha hb hm hk) ⟨by decide, rfl⟩).imp fun t ⟨reg, frame⟩ => ?_
    rw [reg]
    exact ⟨fun taken => if_pos ((branchTaken_iff _ _ _).mpr taken), fun not => if_neg (mt (branchTaken_iff _ _ _).mp not), rfl, rfl, rfl, frame⟩

end Sys2Proof.Machine
end

section
/-!
SUPPORT. The tile that an invocation pushes (07, R181, R185; 05, R122, R124), the end of an invocation, and its start with its scalar registers set
(07, R179).
-/

namespace Sys2Proof.Machine

/-! ### A staging tile pushed (07, R181) -/

/-- The registers that the values and elements of a pushed tile count in. -/
def stageRegs : List Reg := [VE_NUMCNT, WARD_NCNT_FLUSH, WARD_NCNT_SAT, WARD_NCNT_ZBLK, WARD_NCNT_SBLK, WARD_NCNT_MISC, MOD_NUMERICS]

theorem workKept_countVe (s : State) (w st : Nat) (e : Ev) : WorkKept stageRegs s (countVe s w st e) :=
  (WorkKept.refl _ s).countEv (by decide) _ _ _

theorem workKept_bumpNarrow (s : State) (w : Nat) (n : NEv) : WorkKept stageRegs s (bumpNarrow s w n) :=
  ((((((((WorkKept.refl _ s).bump (f := WARD_NCNT_FLUSH_FLUSHED) (by decide) w _).bump (f := WARD_NCNT_SAT_SATURATED) (by decide) w _).bump
    (f := WARD_NCNT_ZBLK_BLOCK_ZEROED) (by decide) w _).bump (f := WARD_NCNT_ZBLK_ZERO_BLOCK) (by decide) w _).bump
    (f := WARD_NCNT_SBLK_RESCUE) (by decide) w _).bump (f := WARD_NCNT_SBLK_BLOCK_SATURATED) (by decide) w _).bump
    (f := WARD_NCNT_MISC_CODE_RESERVED) (by decide) w _).bump (f := WARD_NCNT_MISC_NAN_BLOCK) (by decide) w _

theorem workKept_countNarrow (s : State) (w st : Nat) (n : NEv) : WorkKept stageRegs s (countNarrow s w st n) := by
  have watched (u : State) (x : Watch) : WorkKept stageRegs u { u with watch := x } := .of_work rfl
  unfold countNarrow
  dsimp only
  split
  · exact (workKept_bumpNarrow s w n).fs (f := MOD_NUMERICS_WATCH_LATE) (by decide) 0 1
  · exact (workKept_bumpNarrow s w n).trans (watched _ _)

section
variable (s : State) (m w : Nat) (c : Cmd) (e made : Nat) (st : List (Nat × List Nat)) (cols : Option Nat) (tail : List Byte)

/-- A staging tile is counted, pushed in its end's format, and its 64 clocks are counted. -/
theorem pushStage_eq : ∃ u h bs, WorkKept stageRegs s u ∧ h.fmt = pushFmt c e ∧
    pushStage s m w c e made st cols tail = bump (pushOut u m w c e h bs).1 VE_BUSY_CLOCKS w 64 := by
  refine ⟨_, _, _, ?_, ?_, rfl⟩
  · refine WorkKept.trans ?_ (workKept_countVe _ _ _ _)
    split
    · exact workKept_countNarrow _ _ _ _
    · exact .refl _ s
  · rfl

theorem pushedTile_pushStage : PushedTile s (pushStage s m w c e made st cols tail) (outQ w c e) (nextOut c e) (pushFmt c e) c.tag := by
  obtain ⟨u, h, bs, kept, fmt, pushed⟩ := pushStage_eq s m w c e made st cols tail
  have tile : PushedTile u (bump (pushOut u m w c e h bs).1 VE_BUSY_CLOCKS w 64) (outQ w c e) (nextOut c e) h.fmt c.tag :=
    ⟨pushedOn_pushOut u m w c e h bs, memKept_pushOut u m w c e h bs⟩
  rw [pushed, ← fmt]
  exact tile.of_workKept kept (by decide) (by decide)

theorem pushStage_clocks :
    fg (pushStage s m w c e made st cols tail) VE_BUSY_CLOCKS w = min (2 ^ 32 - 1) (fg s VE_BUSY_CLOCKS w + 64) := by
  obtain ⟨u, h, bs, kept, -, pushed⟩ := pushStage_eq s m w c e made st cols tail
  have before : fg (pushOut u m w c e h bs).1 VE_BUSY_CLOCKS w = fg s VE_BUSY_CLOCKS w :=
    (fg_of_regs rfl VE_BUSY_CLOCKS w).trans (kept.fg VE_BUSY_CLOCKS w (by decide))
  rw [pushed, fg_bump_clocks _ VE_BUSY_CLOCKS w 64 ⟨rfl, rfl⟩, before]

end

theorem PushedTile.congr {s t u : State} {n p f tag : Nat} (h : PushedTile s t n p f tag) (queues : u.queues = t.queues) (mem : u.mem = t.mem)
    (boot : u.boot = t.boot) : PushedTile s u n p f tag := by
  obtain ⟨on, kept⟩ := h
  refine ⟨on.congr (by unfold queueRt; rw [queues]), fun k out => ?_⟩
  rw [← kept k out]
  unfold readByte
  rw [mem, boot]

/-- A tile pushed, the VE's own state then set. -/
theorem PushedTile.setVe {s t : State} {n p f tag : Nat} (h : PushedTile s t n p f tag) (w : Nat) (v : VeRt) :
    PushedTile s (observe (setVe t w v)) n p f tag := h.congr (observe_queues _) (observe_mem _) (observe_boot _)

/-! ### PUSH (07, R181, R183, R185) -/

/-- The VE after the PUSH of end e: one push more, its staging tile empty. -/
def VeRt.pushed (v : VeRt) (e : Nat) : VeRt :=
  if e = 0 then { v with push0 := v.push0 + 1, stage0 := [] } else { v with push1 := v.push1 + 1, stage1 := [] }

section
variable {s : State} {m w e : Nat} {c : Cmd} {v : VeRt}

theorem vePush_of_free (going : c.stopping = false) (due : (if e = 0 then v.push0 else v.push1) < pushesDue c e)
    (present : outPresent (c.out e) = true) (lit : isDark s (outWard w (c.out e)) = false) (room : canPush s w c e 1 = true) :
    vePush s m w c v e = setVe (pushStage s m w c e (if e = 0 then v.push0 else v.push1) (if e = 0 then v.stage0 else v.stage1) none []) w
      { v.pushed e with pc := v.pc + 1, count := v.count + 1 } := by
  have free : ¬((if e = 0 then v.push0 else v.push1) ≥ pushesDue c e ∨ (!outPresent (c.out e)) = true) := by simp [present, due]
  simp only [vePush, free, lit, room, going, if_false, Bool.false_eq_true, Bool.not_true]
  unfold VeRt.pushed
  split <;> rfl

theorem vePush_of_undue (undue : pushesDue c e ≤ (if e = 0 then v.push0 else v.push1) ∨ outPresent (c.out e) = false) :
    vePush s m w c v e = kernelFault s m c v.pc := by
  have past : (if e = 0 then v.push0 else v.push1) ≥ pushesDue c e ∨ (!outPresent (c.out e)) = true := by simpa using undue
  simp only [vePush, past, if_true]

end

/-! ### The end of an invocation (07, R179, R185) -/

/-- The state once an invocation has ended: the VE free, its clock counted, the command's unit done. -/
def invocationEnded (s : State) (m w : Nat) (c : Cmd) : State := unitDone (bump (setVe s w {}) VE_BUSY_CLOCKS w 1) m w c

section
variable {s : State} {m w : Nat} {c : Cmd} {v : VeRt}

theorem veEnd_of_pushed (first : pushesDue c 0 ≤ v.push0) (second : pushesDue c 1 ≤ v.push1) : veEnd s m w c v =
    if c.iter + 1 ≥ unitCount c then veStatus (invocationEnded s m w c) w c false else invocationEnded s m w c := by
  rw [veEnd, if_neg (by omega)]
  rfl

theorem veEnd_of_missing (missing : v.push0 < pushesDue c 0 ∨ v.push1 < pushesDue c 1) : veEnd s m w c v = kernelFault s m c v.pc := by
  rw [veEnd, if_pos missing]

theorem invocationEnded_regs : (invocationEnded s m w c).regs = (bump s VE_BUSY_CLOCKS w 1).regs := unitDone_regs _ _ _ _

theorem invocationEnded_ve : (invocationEnded s m w c).ve = (setVe s w {}).ve :=
  unitDone_keeps State.ve (fun _ _ _ => rfl) (fun _ _ _ => rfl) _ m w c

theorem unitDone_invocationEnded (stands : Standing s m c) (issued : c.phase = .issued) : UnitDone (invocationEnded s m w c) m c :=
  unitDone_does w (stands.of_streams rfl) issued

theorem fg_veStatus_busy (s : State) (w : Nat) (c : Cmd) (busy : Bool) : fg (veStatus s w c busy) VE_STATUS_BUSY w = b2n busy := by
  rw [veStatus, fg_fs_same _ VE_STATUS_BUSY w _ (by decide) (by decide)]
  cases busy <;> rfl

theorem fg_veStatus_tag (s : State) (w : Nat) (c : Cmd) (busy : Bool) : fg (veStatus s w c busy) VE_STATUS_TAG w = c.tag := by
  rw [veStatus, fg_fs_apart _ VE_STATUS_BUSY VE_STATUS_TAG _ _ (by decide), fg_fs_same _ VE_STATUS_TAG w _ (by decide) (by decide)]
  exact Nat.mod_eq_of_lt (Nat.mod_lt _ (by decide))

theorem RegsKept.veStatus {s t : State} {but : List (Reg × Nat)} (h : RegsKept s t but) (w : Nat) (c : Cmd) (busy : Bool)
    (named : (VE_STATUS, w) ∈ but) : RegsKept s (veStatus t w c busy) but :=
  (h.fs (f := VE_STATUS_TAG) (i := w) _ named).fs (f := VE_STATUS_BUSY) (i := w) _ named

end

/-! ### The start of an invocation (07, R179) -/

/-- The invocation that starts: X0 the iteration, X1 the run's length, X16 to X31 the parameter block. -/
def newInvocation (s : State) (m w : Nat) (c : Cmd) : VeRt :=
  { active := true, stream := m, num := c.num, pc := bits c.imm 15 0 + 1
    xs := [(0, c.iter % 2 ^ 32), (1, runLength c)] ++ (below 16).map (fun k => (16 + k, paramWord s w (bits c.imm 63 48) k)) }

theorem lookupReg_cons {α : Type} (x y : α) (rs : List (Nat × α)) (i j : Nat) :
    lookupReg x ((j, y) :: rs) i = if j = i then y else lookupReg x rs i := by
  by_cases own : j = i <;> simp [lookupReg, own]

theorem lookupReg_map_offset {α : Type} (x : α) (base : Nat) (f : Nat → α) (ks : List Nat) (i : Nat) :
    lookupReg x (ks.map (fun k => (base + k, f k))) (base + i) = if i ∈ ks then f i else x := by
  induction ks with
  | nil => rfl
  | cons k ks ih =>
    rw [List.map_cons, lookupReg_cons, ih]
    by_cases own : k = i
    · simp [own]
    · have : ¬ i = k := Ne.symm own
      simp [own, this]

theorem lookupReg_map_below {α : Type} (x : α) {base i : Nat} (low : i < base) (f : Nat → α) (ks : List Nat) :
    lookupReg x (ks.map (fun k => (base + k, f k))) i = x := by
  induction ks with
  | nil => rfl
  | cons k ks ih => rw [List.map_cons, lookupReg_cons, if_neg (by omega), ih]

section
variable (s : State) (m w : Nat) (c : Cmd)

theorem newInvocation_x0 : (newInvocation s m w c).xreg 0 = c.iter % 2 ^ 32 := rfl

theorem newInvocation_x1 : (newInvocation s m w c).xreg 1 = runLength c := rfl

theorem newInvocation_param {k : Nat} (small : k < 16) : (newInvocation s m w c).xreg (16 + k) = paramWord s w (bits c.imm 63 48) k := by
  have other (x : Nat) (low : x < 16) : ¬x = 16 + k := by omega
  rw [VeRt.xreg, newInvocation, List.cons_append, List.cons_append, List.nil_append, lookupReg_cons, if_neg (other 0 (by decide)), lookupReg_cons,
    if_neg (other 1 (by decide)), lookupReg_map_offset, if_pos ((mem_below 16 k).mpr small)]

theorem newInvocation_zero {k : Nat} (high : 2 ≤ k) (low : k < 16) : (newInvocation s m w c).xreg k = 0 := by
  rw [VeRt.xreg, newInvocation, List.cons_append, List.cons_append, List.nil_append, lookupReg_cons, if_neg (by omega), lookupReg_cons,
    if_neg (by omega), lookupReg_map_below _ low]

end

theorem veStart_of_ready {s : State} {w : Nat} {c : Cmd} (m : Nat) (going : c.stopping = false) (visible : inputsVisible s w c (runOf c) = true)
    (clean : poisoned s (kstoreKey w (0x30000 + 64 * bits c.imm 63 48)) 64 = false) :
    veStart s m w c = veStatus (setVe s w (newInvocation s m w c)) w c true := by
  simp only [veStart, going, visible, poisonDetail_of_not_poisoned clean, Bool.not_true, Bool.or_self, Bool.false_eq_true, if_false]
  rfl

theorem ReadKept.newInvocation {s t : State} (h : ReadKept s t) (m w : Nat) (c : Cmd) : newInvocation t m w c = newInvocation s m w c := by
  simp only [Machine.newInvocation, paramWord, h.kstoreWord]

/-! ### What stops an invocation of a user kernel (07, R185) -/

theorem veCheck_of_stopped {s : State} {m w : Nat} {c : Cmd} {v : VeRt} (clean : poisoned s (fetchRun w v).1 8 = false)
    (stopped : 0x4000 ≤ v.pc ∨ veWellFormed (kstoreWord s w (8 * v.pc) 8) = false ∨ 2 ^ 24 ≤ v.count) :
    veCheck s m w c v = kernelFault s m c v.pc := by
  have stops : v.pc ≥ 0x4000 ∨ (!veWellFormed (kstoreWord s w (8 * v.pc) 8)) = true ∨ v.count ≥ 2 ^ 24 :=
    stopped.imp_right (.imp_left (fun malformed => by rw [malformed, Bool.not_false]))
  rw [veCheck, poisonDetail_of_not_poisoned clean]
  exact if_pos stops

/-! ### A library kernel's next push (07, R189) -/

theorem due_of_libEnd {s : State} {w : Nat} {c : Cmd} {v : VeRt} {e : Nat} (next : libEnd s w c v = some e) :
    (if e = 0 then v.push0 else v.push1) < pushesDue c e ∧ (e = 0 ∨ e = 1) := by
  unfold libEnd at next
  split at next
  · next h => cases next; exact ⟨h.1, .inl rfl⟩
  · split at next
    · next h => cases next; exact ⟨h.1, .inr rfl⟩
    · cases next

/-- The VE after a library kernel's push of end e: one push more. -/
def VeRt.pushedOn (v : VeRt) (e : Nat) : VeRt := if e = 0 then { v with push0 := v.push0 + 1 } else { v with push1 := v.push1 + 1 }

theorem libStep_of_end {s : State} {w e : Nat} {c : Cmd} {v : VeRt} (m : Nat) {out : Nat → Nat → LibTile} (made : libOut s w c = .ok (some out))
    (next : libEnd s w c v = some e) (lit : isDark s (outWard w (c.out e)) = false) (going : c.stopping = false) :
    ∃ tile : LibTile, libStep s m w c v = setVe (pushStage (countVe s w c.step tile.stage.2) m w c e (if e = 0 then v.push0 else v.push1)
      tile.stage.1 tile.cols tile.tail) w (v.pushedOn e) := by
  obtain ⟨due, which⟩ := due_of_libEnd next
  have more : ¬(v.push0 ≥ pushesDue c 0 ∧ v.push1 ≥ pushesDue c 1) := by
    rcases which with rfl | rfl
    · simp at due; omega
    · simp at due; omega
  simp only [libStep, made, more, next, lit, going, if_false, Bool.false_eq_true]
  refine ⟨out e (if e = 0 then v.push0 else v.push1), ?_⟩
  congr 1
  rcases which with rfl | rfl <;> rfl

end Sys2Proof.Machine
end

section
/-!
CLAIM. VOP, PUSH and END (07, R179 to R181, R183, R185, R189; 05, R124): an invocation starts, pushes and ends, or faults. O31.
-/

namespace Sys2Proof.Machine

/-! ### VOP (07, R179, R185, R189) -/

/-- Whether the VE of ward w is in an invocation of command c of stream m. -/
def inInvocation (s : State) (w m : Nat) (c : Cmd) : Bool := (veRt s w).active && (veRt s w).stream == m && (veRt s w).num == c.num

/-- The bytes that a VOP event reads: the input tiles, the word at the program counter, or the parameter block of an invocation to start. -/
def vopRuns (s : State) (w m : Nat) (c : Cmd) : List (Nat × Nat) :=
  if inInvocation s w m c then (if isLibrary c then endRuns s w c else [fetchRun w (veRt s w)])
  else [(kstoreKey w (0x30000 + 64 * bits c.imm 63 48), 64)]

/-- What a VOP event does once its reads have succeeded, at the VE's state v. -/
def vopStep (s : State) (v : VeRt) (now : Bool) (w m : Nat) (c : Cmd) : State :=
  if now then (if isLibrary c then libStep s m w c v else veCheck s m w c v) else veStart s m w c

/-- An event of the VE whose reads of the runs come first. -/
def veReads (s : State) (w m : Nat) (c : Cmd) (err : MemErr) (runs : List (Nat × Nat)) (go : State → State) : State :=
  match meetErr s err runs with
  | (t, some d) => veStatus (execFault t m c 0x12 d) w c false
  | (t, none) => go t

section
variable {s : State} {w m : Nat} {c : Cmd} {err : MemErr} {runs : List (Nat × Nat)} (go : State → State)

theorem veReads_of_met (met : (meetErr s err runs).2 = none) : veReads s w m c err runs go = go (meetErr s err runs).1 := by
  have pair : meetErr s err runs = ((meetErr s err runs).1, none) := Prod.ext rfl met
  rw [veReads, pair]

theorem veReads_of_lost {d : Nat} (lost : (meetErr s err runs).2 = some d) :
    veReads s w m c err runs go = veStatus (execFault (meetErr s err runs).1 m c 0x12 d) w c false := by
  have pair : meetErr s err runs = ((meetErr s err runs).1, some d) := Prod.ext rfl lost
  rw [veReads, pair]

end

section
variable {s : State} {w m : Nat} {c : Cmd} {err : MemErr} (job : jobOf s w 4 0x10 = some (m, c))
include job

theorem vopEvent_eq : vopEvent s w err =
    veReads s w m c err (vopRuns s w m c) (fun t => vopStep t (veRt s w) (inInvocation s w m c) w m c) := by
  have kinds : vopEvent s w err =
      if !inInvocation s w m c then
        veReads s w m c err [(kstoreKey w (0x30000 + 64 * bits c.imm 63 48), 64)] (fun t => veStart t m w c)
      else if isLibrary c then veReads s w m c err (endRuns s w c) (fun t => libStep t m w c (veRt s w))
      else veReads s w m c err [fetchRun w (veRt s w)] (fun t => veCheck t m w c (veRt s w)) := by
    simp only [vopEvent, job]
    rfl
  rw [kinds]
  unfold vopRuns vopStep
  cases inInvocation s w m c with
  | false => simp only [Bool.not_false, Bool.false_eq_true, if_true, if_false]
  | true => cases isLibrary c <;> simp only [Bool.not_true, Bool.false_eq_true, if_true, if_false]

theorem vop_faults_of_lost {d : Nat} (lost : (meetErr s err (vopRuns s w m c)).2 = some d) (enabled : (stream s m).st = .enabled) :
    Gives (.vop w err) s fun t => Faulted t m 0x12 d := by
  have row : exec (.vop w err) s = .next (observe (vopEvent s w err)) := rfl
  rw [vopEvent_eq job, veReads_of_lost _ lost] at row
  refine gives_next row ((faulted_execFault c d ?_ (by decide)).veStatus w c false).observe
  rw [(metKept_meetErr s err _).stream, enabled]

variable (met : (meetErr s err (vopRuns s w m c)).2 = none)
include met

theorem exec_vop_of_met : exec (.vop w err) s =
    .next (observe (vopStep (meetErr s err (vopRuns s w m c)).1 (veRt s w) (inInvocation s w m c) w m c)) := by
  have row : exec (.vop w err) s = .next (observe (vopEvent s w err)) := rfl
  rw [row, vopEvent_eq job, veReads_of_met _ met]

theorem vop_starts (idle : inInvocation s w m c = false) (going : c.stopping = false) (visible : inputsVisible s w c (runOf c) = true)
    (clean : poisoned s (kstoreKey w (0x30000 + 64 * bits c.imm 63 48)) 64 = false) : Gives (.vop w err) s fun t =>
      veRt t w = newInvocation s m w c ∧ fg t VE_STATUS_BUSY w = 1 ∧ fg t VE_STATUS_TAG w = c.tag ∧
      RegsKept (meetErr s err (vopRuns s w m c)).1 t [(VE_STATUS, w)] ∧ t.mem = s.mem ∧ t.queues = s.queues := by
  have row := exec_vop_of_met job met
  have kept := readKept_meetErr met
  generalize (meetErr s err (vopRuns s w m c)).1 = s1 at row kept
  have ready := veStart_of_ready m going ((kept.inputsVisible w c (runOf c)).trans visible) ((kept.poisoned _ _).trans clean)
  rw [vopStep, idle, if_neg (by decide), ready, kept.newInvocation] at row
  refine gives_next row ⟨?_, ?_, ?_, ?_, (observe_mem _).trans kept.mem, (observe_queues _).trans kept.queues⟩
  · rw [veRt_observe]
    exact veRt_setVe_same s1 w _
  · rw [fg_observe, fg_veStatus_busy]
    rfl
  · rw [fg_observe, fg_veStatus_tag]
  · exact ((RegsKept.of_regs _ rfl).veStatus w c true (by simp)).observe

theorem vop_stops (now : inInvocation s w m c = true) (user : isLibrary c = false) (clean : poisoned s (fetchRun w (veRt s w)).1 8 = false)
    (stopped : 0x4000 ≤ (veRt s w).pc ∨ veWellFormed (kstoreWord s w (8 * (veRt s w).pc) 8) = false ∨ 2 ^ 24 ≤ (veRt s w).count)
    (enabled : (stream s m).st = .enabled) : Gives (.vop w err) s fun t => Faulted t m 0x17 (veRt s w).pc := by
  have row := exec_vop_of_met job met
  have kept := readKept_meetErr met
  generalize (meetErr s err (vopRuns s w m c)).1 = s1 at row kept
  rw [← kept.kstoreWord] at stopped
  rw [vopStep, now, if_pos rfl, user, if_neg (by decide), veCheck_of_stopped ((kept.poisoned _ _).trans clean) stopped] at row
  exact gives_next row (faulted_kernelFault c _ ((congrArg Stream.st (kept.stream m)).trans enabled)).observe

theorem vop_pushes (now : inInvocation s w m c = true) (library : isLibrary c = true) {out : Nat → Nat → LibTile}
    (made : libOut (meetErr s err (vopRuns s w m c)).1 w c = .ok (some out)) {e : Nat} (next : libEnd s w c (veRt s w) = some e)
    (lit : isDark s (outWard w (c.out e)) = false) (going : c.stopping = false) : Gives (.vop w err) s fun t =>
      PushedTile s t (outQ w c e) (nextOut c e) (pushFmt c e) c.tag ∧ veRt t w = (veRt s w).pushedOn e := by
  have row := exec_vop_of_met job met
  have kept := readKept_meetErr met
  generalize (meetErr s err (vopRuns s w m c)).1 = s1 at row kept made
  have next' : libEnd s1 w c (veRt s w) = some e := by
    unfold libEnd at *
    rwa [kept.canPush w c 0 1 (by decide), kept.canPush w c 1 1 (by decide)]
  obtain ⟨tile, step⟩ := libStep_of_end m made next' ((kept.isDark _ (by decide)).trans lit) going
  rw [vopStep, now, if_pos rfl, library, if_pos rfl, step] at row
  have counted := kept.toWorkKept.mono (List.subset_append_left errRegs stageRegs) |>.trans
    ((workKept_countVe s1 w c.step tile.stage.2).mono (List.subset_append_right errRegs stageRegs))
  refine gives_next row ⟨.of_workKept counted ((pushedTile_pushStage _ m w c e _ _ _ _).setVe w _) (by decide) (by decide), ?_⟩
  rw [veRt_observe, veRt_setVe_same]

end

/-! ### PUSH (07, R181, R183, R185) -/

theorem veInstr_push (s : State) (w : Nat) (c : Cmd) (v : VeRt) {m : Nat} (small : m < 256) :
    veInstr s w c v (veWord 0x2B 0 0 0 0 m 0) = .push m := by
  simp [veInstr, small]

theorem veInstr_end (s : State) (w : Nat) (c : Cmd) (v : VeRt) : veInstr s w c v (veWord 0x33 0 0 0 0 0 0) = .done := by
  simp [veInstr]

section
variable {s : State} {w j m : Nat} {c : Cmd} (two : m < 2) (at' : VeAt s w j c (veWord 0x2B 0 0 0 0 m 0))
include two at'

theorem exec_push : exec (.push w m) s = .next (observe (vePush s j w c (veRt s w) m)) := by
  have row : exec (.push w m) s = .next (veRow s w (veWord 0x2B 0 0 0 0 m 0)) := rfl
  obtain ⟨-, -, -, -, -, -, -, within⟩ := id at'
  rw [row, veRow_of_veAt at', veStep, if_neg (by omega), veInstr_push s w c _ (by omega)]

theorem push_pushes (going : c.stopping = false) (due : (if m = 0 then (veRt s w).push0 else (veRt s w).push1) < pushesDue c m)
    (present : outPresent (c.out m) = true) (lit : isDark s (outWard w (c.out m)) = false) (room : canPush s w c m 1 = true) :
    Gives (.push w m) s fun t => PushedTile s t (outQ w c m) (nextOut c m) (pushFmt c m) c.tag ∧
      veRt t w = { (veRt s w).pushed m with pc := (veRt s w).pc + 1, count := (veRt s w).count + 1 } ∧
      fg t VE_BUSY_CLOCKS w = min (2 ^ 32 - 1) (fg s VE_BUSY_CLOCKS w + 64) := by
  have row := exec_push two at'
  rw [vePush_of_free going due present lit room] at row
  refine gives_next row ⟨(pushedTile_pushStage s j w c m _ _ _ _).setVe w _, by simp, ?_⟩
  rw [fg_observe, fg_setVe, pushStage_clocks]

theorem push_faults (undue : pushesDue c m ≤ (if m = 0 then (veRt s w).push0 else (veRt s w).push1) ∨ outPresent (c.out m) = false)
    (enabled : (stream s j).st = .enabled) : Gives (.push w m) s fun t => Faulted t j 0x17 (veRt s w).pc := by
  have row := exec_push two at'
  rw [vePush_of_undue undue] at row
  exact gives_next row (faulted_kernelFault c _ enabled).observe

end

/-! ### END (07, R179, R185) -/

section
variable {s : State} {w j : Nat} {c : Cmd} (at' : VeAt s w j c (veWord 0x33 0 0 0 0 0 0))
include at'

theorem exec_endKernel : exec (.endKernel w) s = .next (observe (veEnd s j w c (veRt s w))) := by
  have row : exec (.endKernel w) s = .next (veRow s w (veWord 0x33 0 0 0 0 0 0)) := rfl
  obtain ⟨-, -, -, -, -, -, -, within⟩ := id at'
  rw [row, veRow_of_veAt at', veStep, if_neg (by omega), veInstr_end]

theorem endKernel_ends (first : pushesDue c 0 ≤ (veRt s w).push0) (second : pushesDue c 1 ≤ (veRt s w).push1) :
    Gives (.endKernel w) s fun t => veRt t w = {} ∧ UnitDone t j c ∧ t.mem = s.mem ∧
      (unitCount c ≤ c.iter + 1 → fg t VE_STATUS_BUSY w = 0) ∧
      fg t VE_BUSY_CLOCKS w = min (2 ^ 32 - 1) (fg s VE_BUSY_CLOCKS w + 1) ∧ RegsKept s t [(VE_BUSY, w), (VE_STATUS, w)] := by
  have row := exec_endKernel at'
  obtain ⟨job, -⟩ := id at'
  obtain ⟨stands, issued⟩ := standing_of_jobOf job
  have done := unitDone_invocationEnded (w := w) stands issued
  have free : veRt (invocationEnded s j w c) w = {} := (veRt_of_ve invocationEnded_ve w).trans (veRt_setVe_same s w {})
  have mem : (invocationEnded s j w c).mem = s.mem := unitDone_mem _ _ _ _
  have clock := (fg_of_regs (invocationEnded_regs (s := s) (m := j) (w := w) (c := c)) VE_BUSY_CLOCKS w).trans
    (fg_bump_clocks s VE_BUSY_CLOCKS w 1 ⟨rfl, rfl⟩)
  have regs : RegsKept s (invocationEnded s j w c) [(VE_BUSY, w), (VE_STATUS, w)] :=
    ((bump_regsKept s VE_BUSY_CLOCKS w 1).mono (by simp [VE_BUSY_CLOCKS])).trans (.of_regs _ invocationEnded_regs)
  rw [veEnd_of_pushed first second] at row
  by_cases last : c.iter + 1 ≥ unitCount c
  · rw [if_pos last] at row
    refine gives_next row ⟨?_, done.congr (stream_observe_cmds _ _), (observe_mem _).trans mem, fun _ => ?_, ?_,
      (regs.veStatus w c false (by simp)).observe⟩
    · exact (veRt_observe _ w).trans free
    · rw [fg_observe, fg_veStatus_busy]
      rfl
    · rw [fg_observe, veStatus, fg_fs_of_no _ _ _ _ _ _ (by decide), fg_fs_of_no _ _ _ _ _ _ (by decide), clock]
  · rw [if_neg last] at row
    refine gives_next row ⟨(veRt_observe _ w).trans free, done.congr (stream_observe_cmds _ _), (observe_mem _).trans mem,
      fun ended => absurd ended last, (fg_observe _ _ _).trans clock, regs.observe⟩

theorem endKernel_faults (missing : (veRt s w).push0 < pushesDue c 0 ∨ (veRt s w).push1 < pushesDue c 1)
    (enabled : (stream s j).st = .enabled) : Gives (.endKernel w) s fun t => Faulted t j 0x17 (veRt s w).pc := by
  have row := exec_endKernel at'
  rw [veEnd_of_missing missing] at row
  exact gives_next row (faulted_kernelFault c _ enabled).observe

end

/-- Settles O31: a VOP event by what the VE stands at, PUSH and END by the pushes made and due. -/
theorem kernelsStartPushAndEnd : Obligations.KernelsStartPushAndEnd := by
  unfold Obligations.KernelsStartPushAndEnd
  refine ⟨fun w m c err s job => ⟨fun met idle going visible clean => ?_, fun d lost enabled => vop_faults_of_lost job lost enabled,
      fun met now user clean enabled stopped => vop_stops job met now user clean stopped enabled,
      fun met now library out made e next lit going => ?_⟩,
    fun w m j c s two at' => ⟨fun going due present lit room => ?_, fun absent enabled => push_faults two at' (.inr absent) enabled,
      fun undue enabled => push_faults two at' (.inl undue) enabled⟩,
    fun w j c s at' => ⟨endKernel_ends at', endKernel_faults at'⟩⟩
  · refine (vop_starts job met idle going visible clean).imp fun t ⟨begun, busy, tag, regs, mem, queues⟩ => ?_
    rw [begun]
    exact ⟨rfl, rfl, rfl, rfl, rfl, rfl, rfl, rfl, newInvocation_x0 s m w c, newInvocation_x1 s m w c,
      fun k small => newInvocation_param s m w c small, fun k high low => newInvocation_zero s m w c high low, busy, tag, regs, mem, queues⟩
  · refine (vop_pushes job met now library made next lit going).imp fun t ⟨tile, one⟩ => ⟨tile, ?_⟩
    rw [one]
    rcases (due_of_libEnd next).2 with rfl | rfl
    · exact ⟨rfl, rfl⟩
    · exact ⟨rfl, rfl⟩
  · refine (push_pushes two at' going due present lit room).imp fun t ⟨tile, one, clocks⟩ => ⟨tile, ?_⟩
    rw [one]
    refine ⟨rfl, rfl, ?_, ?_, ?_, ?_, clocks⟩
    · rintro rfl
      exact ⟨rfl, rfl, rfl⟩
    · rintro rfl
      exact ⟨rfl, rfl, rfl⟩
    · unfold VeRt.pushed
      split <;> rfl
    · unfold VeRt.pushed
      split <;> rfl

end Sys2Proof.Machine
end

section
/-!
SUPPORT. What an event of a UE counts and keeps: its own state, its clocks and the contributions of the watch (04, R112; 09, R244), through the errors
that its reads meet (11, R291), the stop of a stream (06, R174) and every counter.
-/

namespace Sys2Proof.Machine

/-! ### The UE's own state -/

@[simp] theorem ueRt_setUe_same (s : State) (w : Nat) (u : UeRt) : ueRt (setUe s w u) w = u := sget_sset_same _ _ _ _

theorem ueRt_of_ue {s t : State} (h : t.ue = s.ue) (w : Nat) : ueRt t w = ueRt s w := by unfold ueRt; rw [h]

@[simp] theorem observe_ue (s : State) : (observe s).ue = s.ue := by obtain ⟨_, _, _, h⟩ := observe_eq s; rw [h]

/-- A UE with no command in progress: its column accumulator stays. -/
def UeRt.idle (u : UeRt) : UeRt := { u with sched := [], run := none, terms := [] }

theorem clearUe_eq (s : State) (w : Nat) :
    clearUe s w = fs (fs (setUe s w (ueRt s w).idle) UE_STATUS_BUSY w 0) UE_STATUS_PASS w 0 := rfl

theorem ueRt_clearUe_same (s : State) (w : Nat) : ueRt (clearUe s w) w = (ueRt s w).idle := ueRt_setUe_same s w _

theorem ueRt_clearUe_other (s : State) {w v : Nat} (ne : v ≠ w) : ueRt (clearUe s w) v = ueRt s v := sget_sset_other _ _ _ _ ne

theorem ueRt_ueAcc_same (s : State) (w : Nat) (u : UeRt) (isOpen : Bool) : ueRt (ueAcc s w u isOpen) w = u := ueRt_setUe_same s w u

theorem rd_ueAcc (s : State) (w : Nat) (u : UeRt) (isOpen : Bool) : rd (ueAcc s w u isOpen) UE_ACC w = BitVec.ofNat 32 u.nrows := by
  unfold ueAcc
  rw [rd_fs_of_no _ _ _ _ _ _ (by decide), rd_wr_same]

theorem fg_ueAcc_open (s : State) (w : Nat) (u : UeRt) (isOpen : Bool) : fg (ueAcc s w u isOpen) UE_STATUS_ACC_OPEN w = b2n isOpen := by
  rw [ueAcc, fg_fs_same _ UE_STATUS_ACC_OPEN w _ (by decide) (by decide)]
  cases isOpen <;> rfl

theorem fg_ueAcc_pass (s : State) (w : Nat) (u : UeRt) (isOpen : Bool) : fg (ueAcc s w u isOpen) UE_STATUS_PASS w = fg s UE_STATUS_PASS w := by
  rw [ueAcc, fg_fs_apart _ UE_STATUS_ACC_OPEN UE_STATUS_PASS _ _ (by decide), fg_wr_of_no _ _ _ _ _ _ (by decide)]
  rfl

/-! ### What an event keeps -/

/-- The registers in which an event of a UE counts and shows its state, its clocks apart. -/
def updRegs : List Reg := errRegs ++ stageRegs ++ [UE_STATUS, UE_NUMCNT, UE_ZERO, UE_CLIP, UE_ACC]

/-- From s to t the UE of ward w comes to state u and counts k clocks; no step gets a contribution to the watch. -/
structure UeKept (w : Nat) (u : UeRt) (k : Nat) (s t : State) : Prop where
  ue : ueRt t w = u
  clocks : fg t UE_BUSY_CLOCKS w = min (2 ^ 32 - 1) (fg s UE_BUSY_CLOCKS w + k)
  items : t.watch.items = s.watch.items
  journaled : t.watch.journaled = s.watch.journaled

namespace UeKept
variable {w k j : Nat} {u v : UeRt} {s t r : State}

/-- What changes neither the UE's registers nor its state nor the watch's contributions. -/
theorem of_parts (w : Nat) (ue : t.ue = s.ue) (clocks : fg t UE_BUSY_CLOCKS w = fg s UE_BUSY_CLOCKS w) (items : t.watch.items = s.watch.items)
    (journaled : t.watch.journaled = s.watch.journaled) : UeKept w (ueRt s w) 0 s t := by
  refine ⟨ueRt_of_ue ue w, ?_, items, journaled⟩
  have top : fg s UE_BUSY_CLOCKS w < 2 ^ 32 := fg_lt s UE_BUSY_CLOCKS w
  rw [clocks, Nat.add_zero, Nat.min_eq_right (by omega)]

theorem refl (w : Nat) (s : State) : UeKept w (ueRt s w) 0 s s := of_parts w rfl rfl rfl rfl

theorem trans (h : UeKept w u k s t) (g : UeKept w v j t r) : UeKept w v (k + j) s r :=
  ⟨g.ue, by rw [g.clocks, h.clocks]; omega, g.items.trans h.items, g.journaled.trans h.journaled⟩

end UeKept

/-- The same where memory, queues, streams and all registers but the counters are as before. -/
structure UpdKept (w : Nat) (u : UeRt) (k : Nat) (s t : State) : Prop extends WorkKept (UE_BUSY :: updRegs) s t, UeKept w u k s t

theorem WorkKept.wr {but : List Reg} {s t : State} (h : WorkKept but s t) {r : Reg} (named : r ∈ but) (i : Nat) (v : Word) :
    WorkKept but s (wr t r i v) :=
  { h with rd := fun r' j out => (rd_wr_of_no t r r' i j v (fun e => out (e ▸ List.mem_map_of_mem named))).trans (h.rd r' j out) }

theorem WorkKept.clearUe {but : List Reg} {s t : State} (h : WorkKept but s t) (named : UE_STATUS ∈ but) (w : Nat) :
    WorkKept but s (clearUe t w) := by
  rw [clearUe_eq]
  exact (WorkKept.fs (t := setUe t w (ueRt t w).idle) (h.trans (.of_work rfl)) (f := UE_STATUS_BUSY) named w 0).fs (f := UE_STATUS_PASS) named w 0

theorem addEvTotals_watch (s : State) (st : Nat) (e : Ev) :
    (addEvTotals s st e).watch.items = s.watch.items ∧ (addEvTotals s st e).watch.journaled = s.watch.journaled := by
  unfold addEvTotals
  split
  · exact ⟨rfl, rfl⟩
  · exact ⟨rfl, rfl⟩

theorem countEv_ue (s : State) (ovf nanc : Fld) (i st : Nat) (e : Ev) : (countEv s ovf nanc i st e).ue = s.ue := by
  unfold countEv addEvTotals
  split <;> rfl

theorem countNarrow_keeps (s : State) (w st : Nat) (n : NEv) : (countNarrow s w st n).ue = s.ue ∧
    (countNarrow s w st n).watch.items = s.watch.items ∧ (countNarrow s w st n).watch.journaled = s.watch.journaled := by
  unfold countNarrow
  dsimp only
  split
  · exact ⟨rfl, rfl, rfl⟩
  · exact ⟨rfl, rfl, rfl⟩

theorem addDigest_keeps (s : State) (c : Cmd) (h : Hdr) (bs : List Byte) : (addDigest s c h bs).work = s.work ∧ (addDigest s c h bs).ue = s.ue ∧
    (addDigest s c h bs).watch.items = s.watch.items ∧ (addDigest s c h bs).watch.journaled = s.watch.journaled := by
  unfold addDigest
  split
  · exact ⟨rfl, rfl, rfl, rfl⟩
  · exact ⟨rfl, rfl, rfl, rfl⟩

theorem WorkKept.ueAcc {s t : State} (h : WorkKept updRegs s t) (w : Nat) (u : UeRt) (isOpen : Bool) : WorkKept updRegs s (ueAcc t w u isOpen) :=
  (WorkKept.wr (t := setUe t w u) (h.trans (.of_work rfl)) (r := UE_ACC) (by decide) w _).fs (f := UE_STATUS_ACC_OPEN) (by decide) w _

namespace UpdKept
variable {w k : Nat} {u : UeRt} {s t r : State}

theorem refl (w : Nat) (s : State) : UpdKept w (ueRt s w) 0 s s := ⟨.refl _ s, .refl w s⟩

/-- A step that counts no clocks, and leaves the UE in state v. -/
theorem step (h : UpdKept w u k s t) {v : UeRt} (work : WorkKept updRegs t r) (ue : ueRt r w = v) (items : r.watch.items = t.watch.items)
    (journaled : r.watch.journaled = t.watch.journaled) : UpdKept w v k s r :=
  ⟨h.toWorkKept.trans (work.mono (List.subset_cons_self _ _)), ue, (work.fg _ _ (by decide)).trans h.clocks, items.trans h.items,
    journaled.trans h.journaled⟩

theorem setUe (h : UpdKept w u k s t) (v : UeRt) : UpdKept w v k s (setUe t w v) := h.step (.of_work rfl) (ueRt_setUe_same t w v) rfl rfl

theorem fs (h : UpdKept w u k s t) {f : Fld} (named : f.reg ∈ updRegs) (i v : Nat) : UpdKept w u k s (fs t f i v) :=
  h.step ((WorkKept.refl _ t).fs named i v) ((ueRt_of_ue (fs_ue t f i v) w).trans h.ue) rfl rfl

theorem bump (h : UpdKept w u k s t) {f : Fld} (named : f.reg ∈ updRegs) (i n : Nat) : UpdKept w u k s (bump t f i n) := h.fs named i _

/-- The clocks of an event counted. -/
theorem busy (h : UpdKept w u k s t) (n : Nat) : UpdKept w u (k + n) s (Machine.bump t UE_BUSY_CLOCKS w n) :=
  ⟨h.toWorkKept.bump (f := UE_BUSY_CLOCKS) (by decide) w n,
    h.toUeKept.trans ⟨ueRt_of_ue (bump_ue t _ _ _) w |>.trans h.ue, fg_bump_clocks t UE_BUSY_CLOCKS w n ⟨rfl, rfl⟩, rfl, rfl⟩⟩

theorem countUe (h : UpdKept w u k s t) (st : Nat) (e : Ev) : UpdKept w u k s (countUe t w st e) := by
  obtain ⟨items, journaled⟩ := addEvTotals_watch (Machine.bump (Machine.bump t UE_NUMCNT_OVERFLOW w e.ovf) UE_NUMCNT_NAN_CREATED w e.nanc) st e
  exact h.step ((WorkKept.refl _ t).countEv (by decide) w st e) ((ueRt_of_ue (countEv_ue t _ _ w st e) w).trans h.ue) items journaled

theorem countNarrow (h : UpdKept w u k s t) (st : Nat) (n : NEv) : UpdKept w u k s (countNarrow t w st n) := by
  obtain ⟨ue, items, journaled⟩ := countNarrow_keeps t w st n
  exact h.step ((workKept_countNarrow t w st n).mono (by decide)) ((ueRt_of_ue ue w).trans h.ue) items journaled

theorem addDigest (h : UpdKept w u k s t) (c : Cmd) (hdr : Hdr) (bs : List Byte) : UpdKept w u k s (addDigest t c hdr bs) := by
  obtain ⟨work, ue, items, journaled⟩ := addDigest_keeps t c hdr bs
  exact h.step (.of_work work) ((ueRt_of_ue ue w).trans h.ue) items journaled

theorem ueAcc (h : UpdKept w u k s t) (v : UeRt) (isOpen : Bool) : UpdKept w v k s (ueAcc t w v isOpen) :=
  h.step ((WorkKept.refl _ t).ueAcc w v isOpen) (ueRt_ueAcc_same t w v isOpen) rfl rfl

/-- The UE freed. -/
theorem clearUe (h : UpdKept w u k s t) : UpdKept w u.idle k s (clearUe t w) := by
  rw [← h.ue, clearUe_eq]
  exact ((h.setUe (ueRt t w).idle).fs (f := UE_STATUS_BUSY) (by decide) w 0).fs (f := UE_STATUS_PASS) (by decide) w 0

/-- A command that starts: its schedule kept, its status shown. -/
theorem updStart (h : UpdKept w u k s t) (c : Cmd) (sch : List Nat × Ev) (pass : Nat) :
    UpdKept w { u with sched := sch.1 } k s (updStart t w c sch pass) := by
  rw [← h.ue]
  exact ((((h.setUe { ueRt t w with sched := sch.1 }).fs (f := UE_STATUS_TAG) (by decide) w c.tag).fs (f := UE_STATUS_BUSY) (by decide) w 1).fs
    (f := UE_STATUS_PASS) (by decide) w pass).countUe c.step sch.2

end UpdKept

theorem fg_updStart_pass (s : State) (w : Nat) (c : Cmd) (sch : List Nat × Ev) (pass : Nat) :
    fg (updStart s w c sch pass) UE_STATUS_PASS w = pass % 4 := by
  have counted : WorkKept [UE_NUMCNT] (ueStatus (setUe s w { ueRt s w with sched := sch.1 }) w c pass) (updStart s w c sch pass) :=
    (WorkKept.refl _ _).countEv (by decide) w c.step sch.2
  rw [counted.fg _ _ (by decide), ueStatus, fg_fs_same _ UE_STATUS_PASS w _ (by decide) (by decide)]
  rfl

/-! ### Errors that reads meet (11, R280, R283, R291) -/

/-- The UEs and the watch. -/
def State.updates (s : State) : SMap UeRt × Watch := (s.ue, s.watch)

theorem noteCorrected_updates (s : State) (a n : Nat) : (noteCorrected s a n).updates = s.updates := by
  unfold noteCorrected
  split
  · rfl
  · split <;> rfl

theorem noteResent_updates (s : State) (a n : Nat) : (noteResent s a n).updates = s.updates := by
  unfold noteResent
  split
  · dsimp only
    split <;> rfl
  · split <;> rfl

theorem failEntry_updates (s : State) (kind tag unit code detail step : Nat) :
    (failEntry s kind tag unit code detail step).updates = s.updates := by
  unfold failEntry
  dsimp only
  split <;> rfl

theorem noteWorn_updates (s : State) (a : Nat) : (noteWorn s a).updates = s.updates := by
  unfold noteWorn
  split
  · exact failEntry_updates s _ _ _ _ _ _
  · rfl

theorem markLost_updates (s : State) (a : Nat) : (markLost s a).updates = s.updates := by
  unfold markLost
  split
  · exact noteWorn_updates s a
  · split
    · rfl
    · exact noteWorn_updates s a

theorem badLine_updates (s : State) (a : Nat) : (badLine s a).1.updates = s.updates := by
  unfold badLine
  split
  · rfl
  · split
    · exact noteWorn_updates _ _
    · exact noteCorrected_updates _ _ 1

theorem meetErr_updates (s : State) (err : MemErr) (runs : List (Nat × Nat)) : (meetErr s err runs).1.updates = s.updates := by
  unfold meetErr
  split
  · rfl
  · cases err with
    | corrected a => exact noteCorrected_updates s a 1
    | lost a => exact markLost_updates s a
    | line a => exact badLine_updates s a
    | failed a =>
      by_cases tiered : a < wardBase
      · simpa [tiered] using noteResent_updates s a 7
      · simp [tiered]
    | resent a n =>
      by_cases few : n ≤ 7
      · simpa [few] using noteResent_updates s a n
      · simp [few]
    | none => rfl
    | accum off => rfl

theorem engineMeets_updates (s : State) (w e : Nat) (err : MemErr) (runs : List (Nat × Nat)) :
    (engineMeets s w e err runs).1.updates = s.updates := by
  unfold engineMeets
  split
  · rfl
  · exact meetErr_updates s err runs

theorem UpdKept.engineMeets {w k : Nat} {u : UeRt} {s t : State} (h : UpdKept w u k s t) (v e : Nat) (err : MemErr) (runs : List (Nat × Nat)) :
    UpdKept w u k s (engineMeets t v e err runs).1 := by
  obtain ⟨ue, watch⟩ := Prod.mk.inj (engineMeets_updates t v e err runs)
  exact h.step ((metKept_engineMeets t v e err runs).toWorkKept.mono (by decide)) ((ueRt_of_ue ue w).trans h.ue) (congrArg Watch.items watch)
    (congrArg Watch.journaled watch)

/-! ### A stream that stops keeps every column accumulator (06, R174; 09, R233, R245) -/

/-- The rows and the column sums in the accumulator of a UE. -/
def accOf (s : State) (w : Nat) : Nat × SMap Nat := ((ueRt s w).nrows, (ueRt s w).sacc)

theorem accOf_of_ue {s t : State} (h : t.ue = s.ue) (w : Nat) : accOf t w = accOf s w := by unfold accOf; rw [ueRt_of_ue h]

theorem accOf_clearUe (s : State) (v w : Nat) : accOf (clearUe s v) w = accOf s w := by
  unfold accOf
  by_cases own : w = v
  · subst own
    rw [ueRt_clearUe_same]
    rfl
  · rw [ueRt_clearUe_other s own]

theorem accOf_clearEngine (s : State) (v : Nat) (c : Cmd) (w : Nat) : accOf (clearEngine s v c) w = accOf s w := by
  unfold clearEngine
  split
  case h_5 => exact accOf_clearUe s v w
  all_goals rfl

theorem ue_pushDrain (m w : Nat) (s : State) (c : Cmd) (os : List (Hdr × List Byte)) : (pushDrain m w s c os).1.ue = s.ue := by
  induction os generalizing s c with
  | nil => rfl
  | cons o os ih =>
    rw [pushDrain]
    split
    · exact ih _ _
    · rfl

theorem ue_flushDrain (s : State) (m w : Nat) (c : Cmd) : (flushDrain s m w c).1.ue = s.ue := by
  unfold flushDrain
  split
  · exact ue_pushDrain m w s c _
  · rfl

theorem ue_markTiles (s : State) (n : Nat) (ps : List Nat) : (markTiles s n ps).ue = s.ue := by
  refine foldl_keeps State.ue _ (fun t p => ?_) ps s
  rfl

theorem ue_settleEnd (s : State) (w : Nat) (c : Cmd) (e : Nat) : (settleEnd s w c e).1.ue = s.ue := by
  by_cases present : outPresent (c.out e) = true
  · obtain ⟨ps, q, settled⟩ := settleEnd_of_present s w c e present
    rw [settled]
    exact ue_markTiles s _ ps
  · unfold settleEnd
    rw [if_pos (by simpa using present)]

theorem ue_withdrawPops (s : State) (w : Nat) (c : Cmd) : (withdrawPops s w c).ue = s.ue := by
  refine foldl_keeps State.ue _ (fun t e => ?_) _ s
  dsimp only
  split <;> rfl

theorem ue_releaseSlot (s : State) (c : Cmd) (early : Bool) : (releaseSlot s c early).ue = s.ue := by
  obtain ⟨regs, frame⟩ := releaseSlot_frame s c early
  rw [frame]

theorem accOf_stopCmd (s : State) (m : Nat) (c : Cmd) (w : Nat) : accOf (stopCmd s m c).1 w = accOf s w := by
  have flushed : (flushDrain (dropCommit s m c) m (m / 8) c).1.ue = s.ue := ue_flushDrain (dropCommit s m c) m (m / 8) c
  unfold stopCmd
  dsimp only
  generalize flushDrain (dropCommit s m c) m (m / 8) c = x at flushed ⊢
  rw [← accOf_of_ue flushed w]
  have cleared : accOf (if executing x.1 (m / 8) m x.2 then clearEngine x.1 (m / 8) x.2 else x.1) w = accOf x.1 w := by
    split
    · exact accOf_clearEngine _ _ _ _
    · rfl
  rw [← cleared]
  refine accOf_of_ue ?_ w
  rw [ebufRemove, setEbuf_ue, ue_releaseSlot, ue_withdrawPops, ue_settleEnd, ue_settleEnd]

theorem accOf_stopCmds (s : State) (m : Nat) (cs : List Cmd) (w : Nat) : accOf (stopCmds s m cs).1 w = accOf s w := by
  rw [stopCmds_eq]
  refine List.foldlRecOn (motive := fun t : State × Nat × Nat => accOf t.1 w = accOf s w) _ _ rfl fun t kept c _ => ?_
  rw [← kept, stopNext]
  refine (accOf_of_ue (setStream_ue _ _ _) w).trans ?_
  split
  · exact accOf_stopCmd t.1 m c w
  · rfl

theorem accOf_haltCmds (s : State) (m : Nat) (cs : List Cmd) (w : Nat) : accOf (haltCmds s m cs).1 w = accOf s w := by
  rw [haltCmds_eq]
  refine List.foldlRecOn (motive := fun t : State × Nat × Nat => accOf t.1 w = accOf s w) _ _ rfl fun t kept c _ => ?_
  have flushed : accOf (if c.phase = .issued then flushDrain t.1 m (m / 8) c else (t.1, c)).1 w = accOf t.1 w := by
    split
    · exact accOf_of_ue (ue_flushDrain t.1 m (m / 8) c) w
    · rfl
  rw [← kept, ← flushed, haltNext]
  generalize (if c.phase = .issued then flushDrain t.1 m (m / 8) c else (t.1, c)) = f
  dsimp only
  split
  · exact accOf_of_ue (setCmd_ue _ _ _) w
  · exact accOf_stopCmds _ m _ w

theorem ue_failStream (s : State) (m tag code detail step : Nat) : (failStream s m tag code detail step).ue = s.ue := by
  unfold failStream
  refine (congrArg Prod.fst (failEntry_updates _ _ _ _ _ _ _)).trans ?_
  split <;> rfl

theorem ue_writeFault (s : State) (m code tag detail num : Nat) : (writeFault s m code tag detail num).ue = s.ue :=
  ue_failStream s m tag code detail _

/-- A fault of an enabled stream leaves every accumulator as it was. -/
theorem accOf_execFault {s : State} {m : Nat} (c : Cmd) (code detail : Nat) (enabled : (stream s m).st = .enabled) (w : Nat) :
    accOf (execFault s m c code detail) w = accOf s w := by
  simp only [execFault, enabled]
  refine (accOf_of_ue (setStream_ue _ _ _) w).trans ?_
  rw [accOf_of_ue (ue_writeFault _ _ _ _ _ _) w, accOf_stopCmds, accOf_haltCmds]

end Sys2Proof.Machine
end

section
/-!
SUPPORT. The frame of an UPDATE's event (09, R230, R233, R245; 11, R291): how it begins and what its reads meet, the tiles that it pushes (05, R124),
and the end of its unit with the pair of sums of its step (04, R112, R113).
-/

namespace Sys2Proof.Machine

/-! ### An event's beginning (09, R233; 11, R291) -/

theorem jobOf_of_workKept {but : List Reg} {s t : State} (h : WorkKept but s t) (pwards : t.pwards = s.pwards) (pwr : t.pwr = s.pwr)
    (out : PWR_SREG.no ∉ but.map Reg.no ∧ PWR_WREG.no ∉ but.map Reg.no ∧ WARD_SCFG.no ∉ but.map Reg.no) (w e op : Nat) :
    jobOf t w e op = jobOf s w e op := by
  obtain ⟨sreg, wreg, scfg⟩ := out
  have active : wardActive t w = wardActive s w := by
    simp only [wardActive, physOf_congr (h.logicalOf sreg) h.dists, pward, pwards, h.isDark w wreg]
  have free (m : Nat) : withheld t w e m = withheld s w e m := by
    simp only [withheld, ebuf, distOf, districtOf, h.engines, h.dists, pwr, districtAux_congr (h.logicalOf sreg), h.fg WARD_SCFG_CLASS _ scfg]
  unfold jobOf job ebuf engineRuns
  rw [h.engines, jobIn_congr h.streams, active]
  simp only [free]

/-- Whether the event is the first of a command with ACC_CLEAR, all it waits for at hand. -/
abbrev Fresh (s : State) (w : Nat) (c : Cmd) : Prop :=
  updClear c = true ∧ c.iter = 0 ∧ (ueRt s w).run = none ∧ engineWait s w 5 = none

/-- The state that an UPDATE's event starts from: under the factored rule ACC_CLEAR acts first. -/
def updBegin (s : State) (w : Nat) (c : Cmd) : State := if updRule c = 0 then clearFirst s w else s

/-- The UE's own state there. -/
def begunUe (s : State) (w : Nat) (c : Cmd) : UeRt := if updRule c = 0 ∧ Fresh s w c then clearAcc (ueRt s w) else ueRt s w

/-- What the reads of an UPDATE's event meet. -/
def updMet (s : State) (w : Nat) (c : Cmd) (err : MemErr) : State × Option Nat :=
  engineMeets (updBegin s w c) w 5 err (endRuns (updBegin s w c) w c ++ schedRuns (updBegin s w c) w c)

/-- The rows of the four rules: command, rule and event. -/
def updRows (w : Nat) (err : MemErr) : List (Instr × Nat × (State → Nat → Nat → Cmd → State)) :=
  [(.factoredApply w err, 0, factoredEvent), (.elementwiseApply w err, 1, elementEvent), (.columnEmit w err, 2, emitEvent),
    (.columnFinish w err, 3, finishEvent)]

section
variable {s : State} {w m : Nat} {c : Cmd} (job : jobOf s w 5 0x18 = some (m, c))
include job

theorem updBegin_eq : updBegin s w c = if updRule c = 0 ∧ Fresh s w c then ueAcc s w (clearAcc (ueRt s w)) false else s := by
  unfold updBegin clearFirst
  rw [job]
  by_cases rule : updRule c = 0 <;> simp [rule]

theorem updBegin_of_fresh (first : updRule c = 0 ∧ Fresh s w c) : updBegin s w c = ueAcc s w (clearAcc (ueRt s w)) false :=
  (updBegin_eq job).trans (if_pos first)

theorem updBegin_of_not_fresh (other : ¬(updRule c = 0 ∧ Fresh s w c)) : updBegin s w c = s := (updBegin_eq job).trans (if_neg other)

theorem updKept_updBegin : UpdKept w (begunUe s w c) 0 s (updBegin s w c) := by
  by_cases first : updRule c = 0 ∧ Fresh s w c
  · rw [updBegin_of_fresh job first, begunUe, if_pos first]
    exact (UpdKept.refl w s).ueAcc _ false
  · rw [updBegin_of_not_fresh job first, begunUe, if_neg first]
    exact .refl w s

theorem jobOf_updBegin : jobOf (updBegin s w c) w 5 0x18 = some (m, c) := by
  by_cases first : updRule c = 0 ∧ Fresh s w c
  · rw [updBegin_of_fresh job first, ← job]
    exact jobOf_of_workKept ((WorkKept.refl _ s).ueAcc w _ _) rfl rfl (by decide) w 5 0x18
  · rw [updBegin_of_not_fresh job first, job]

variable {err : MemErr}

theorem updKept_updMet : UpdKept w (begunUe s w c) 0 s (updMet s w c err).1 := (updKept_updBegin job).engineMeets w 5 err _

theorem jobOf_updMet : jobOf (updMet s w c err).1 w 5 0x18 = some (m, c) :=
  (jobOf_of_metKept (metKept_engineMeets _ w 5 err _) w 5 0x18).trans (jobOf_updBegin job)

theorem ueEvent_of_job (f : State → Nat → Nat → Cmd → State) : ueEvent s w (updRule c) err f =
    observe (withErr s w 5 0x18 err (schedRuns s w) (fun t => if (jobOf t w 5 0x18).isSome then f t m w c else t)) := by
  unfold ueEvent
  rw [job]
  exact if_pos rfl

variable {i : Instr} {r : Nat} {f : State → Nat → Nat → Cmd → State} (row : (i, r, f) ∈ updRows w err) (rule : updRule c = r)
include row rule

theorem exec_updRow : exec i s = .next (observe (withErr (updBegin s w c) w 5 0x18 err (schedRuns (updBegin s w c) w)
    (fun t => if (jobOf t w 5 0x18).isSome then f t m w c else t))) := by
  rw [← ueEvent_of_job (jobOf_updBegin job), rule]
  simp only [updRows, List.mem_cons, Prod.mk.injEq, List.not_mem_nil, or_false] at row
  rcases row with ⟨rfl, rfl, rfl⟩ | ⟨rfl, rfl, rfl⟩ | ⟨rfl, rfl, rfl⟩ | ⟨rfl, rfl, rfl⟩
  · rw [updBegin, if_pos rule]
    rfl
  all_goals
    rw [updBegin, if_neg (by omega)]
    rfl

/-- The row of an UPDATE whose reads succeed. -/
theorem exec_updRow_of_met (met : (updMet s w c err).2 = none) : exec i s = .next (observe (f (updMet s w c err).1 m w c)) := by
  have there : jobOf (updMet s w c err).1 w 5 0x18 = some (m, c) := jobOf_updMet job
  have step : exec i s = .next (observe (if (jobOf (updMet s w c err).1 w 5 0x18).isSome then f (updMet s w c err).1 m w c
      else (updMet s w c err).1)) := by
    rw [exec_updRow job row rule, withErr_of_met _ (jobOf_updBegin job) rfl met]
    rfl
  rw [step, there]
  rfl

/-- The row of an UPDATE one of whose reads fails: the stream faults, and ACC_CLEAR has acted. -/
theorem updRow_faults {d : Nat} (lost : (updMet s w c err).2 = some d) (enabled : (stream s m).st = .enabled) : Gives i s fun t =>
    Faulted t m 0x12 d ∧ (r = 0 → Fresh s w c → (ueRt t w).nrows = 0 ∧ (ueRt t w).sacc = []) := by
  have kept : UpdKept w (begunUe s w c) 0 s (updMet s w c err).1 := updKept_updMet job
  have on : (stream (updMet s w c err).1 m).st = .enabled := by rw [kept.stream, enabled]
  have step := exec_updRow job row rule
  rw [withErr_of_lost _ (jobOf_updBegin job) rfl lost] at step
  refine gives_next step ⟨(faulted_execFault c d on (by decide)).observe, fun zero fresh => ?_⟩
  have acc : accOf (observe (execFault (updMet s w c err).1 m c 0x12 d)) w = ((clearAcc (ueRt s w)).nrows, (clearAcc (ueRt s w)).sacc) := by
    rw [accOf_of_ue (observe_ue _), accOf_execFault c 0x12 d on, accOf, kept.ue, begunUe, if_pos ⟨rule.trans zero, fresh⟩]
  exact Prod.mk.inj acc

end

/-! ### Two tiles pushed (05, R124) -/

theorem findPushed_filter_other (xs : List (Nat × Pushed)) {p p' : Nat} (ne : p ≠ p') :
    findPushed (xs.filter (fun x => x.1 != p')) p = findPushed xs p := by
  induction xs with
  | nil => rfl
  | cons x xs ih =>
    obtain ⟨k, v⟩ := x
    by_cases gone : k = p'
    · have other : ¬k = p := fun e => ne (e.symm.trans gone)
      simp [findPushed, gone, ih, Ne.symm ne]
    · simp [findPushed, gone, ih]

/-- A tile pushed stays pushed where another one follows, under another number or on another queue. -/
theorem PushedOn.pushOut {s : State} {n p f tag : Nat} (on : PushedOn s n p f tag) {w e : Nat} {c : Cmd}
    (apart : n ≠ outQ w c e ∨ p ≠ nextOut c e) (m : Nat) (h : Hdr) (bs : List Byte) : PushedOn (pushOut s m w c e h bs).1 n p f tag := by
  have same : findPushed (queueRt (Machine.pushOut s m w c e h bs).1 n).pushed p = findPushed (queueRt s n).pushed p := by
    change findPushed (queueRt (qPush s (outQ w c e) (nextOut c e) _ bs) n).pushed p = _
    unfold qPush
    dsimp only
    by_cases queue : n = outQ w c e
    · subst queue
      have other : p ≠ nextOut c e := apart.resolve_left (fun ne => ne rfl)
      rw [queueRt_setQueue_same, findPushed, if_neg (Ne.symm other), findPushed_filter_other _ other]
      rfl
    · rw [queueRt_setQueue_other _ _ queue]
      rfl
  unfold PushedOn
  rw [same]
  exact on

/-- From s to t command c has pushed tiles, and stands as d: registers, the UE and the watch are as before. -/
structure TilesPushed (w m : Nat) (c d : Cmd) (s t : State) : Prop extends UeKept w (ueRt s w) 0 s t where
  boot : t.boot = s.boot
  stands : Standing t m d
  cmd : ∃ fill, d = { c with outFill := fill }

theorem tilesPushed_pushOut {s : State} {m : Nat} {c : Cmd} (stands : Standing s m c) (w e : Nat) (h : Hdr) (bs : List Byte) :
    TilesPushed w m c (pushOut s m w c e h bs).2 s (pushOut s m w c e h bs).1 :=
  ⟨.of_parts w rfl rfl rfl rfl, rfl, standing_pushOut stands w e h bs, _, rfl⟩

theorem TilesPushed.trans {w m : Nat} {c d e : Cmd} {s t r : State} (h : TilesPushed w m c d s t) (k : TilesPushed w m d e t r) :
    TilesPushed w m c e s r := by
  obtain ⟨kept, boot, -, fill, rfl⟩ := h
  obtain ⟨kept', boot', stands, fill', rfl⟩ := k
  exact ⟨kept.ue ▸ kept.trans kept', boot'.trans boot, stands, fill', rfl⟩

section
variable (s : State) (m w : Nat) (c : Cmd) (h h1 : Hdr) (tile bs : List Byte)

theorem updPush_of_absent (absent : outPresent (c.out 1) = false) :
    updPush s m w c h tile (some (h1, bs)) = pushOut (addDigest s c h tile) m w c 0 h tile := by
  have still : outPresent ((pushOut (addDigest s c h tile) m w c 0 h tile).2.out 1) = false := absent
  simp [updPush, still]

theorem updPush_of_present (present : outPresent (c.out 1) = true) : updPush s m w c h tile (some (h1, bs)) =
    pushOut (pushOut (addDigest s c h tile) m w c 0 h tile).1 m w (pushOut (addDigest s c h tile) m w c 0 h tile).2 1 h1 bs := by
  have still : outPresent ((pushOut (addDigest s c h tile) m w c 0 h tile).2.out 1) = true := present
  simp [updPush, still]

theorem nextOut_pushOut : nextOut (pushOut s m w c 0 h tile).2 1 = nextOut c 1 := by
  have other : nth (setNth c.outFill 0 (nth c.outFill 0 0 + 1)) 1 0 = nth c.outFill 1 0 := by
    unfold nth
    rw [getElem?_setNth, if_neg (by decide)]
  exact congrArg (nth c.outBase 1 0 + ·) other

end

section
variable {s : State} {m w : Nat} {c : Cmd} (h h1 : Hdr) (tile bs : List Byte)

theorem tilesPushed_updPush (stands : Standing s m c) (out1 : Option (Hdr × List Byte)) :
    TilesPushed w m c (updPush s m w c h tile out1).2 s (updPush s m w c h tile out1).1 := by
  have digest := (UpdKept.refl w s).addDigest c h tile
  have begun : TilesPushed w m c c s (addDigest s c h tile) := ⟨digest.toUeKept, digest.boot, stands.of_streams digest.streams, c.outFill, rfl⟩
  have one := begun.trans (tilesPushed_pushOut begun.stands w 0 h tile)
  cases out1 with
  | none => exact one
  | some o =>
    obtain ⟨h1, bs⟩ := o
    by_cases present : outPresent (c.out 1) = true
    · rw [updPush_of_present s m w c h h1 tile bs present]
      exact one.trans (tilesPushed_pushOut one.stands w 1 h1 bs)
    · rw [updPush_of_absent s m w c h h1 tile bs (by simpa using present)]
      exact one

/-- The tile of OUT0. -/
theorem pushedOn_updPush (apart : outQ w c 0 ≠ outQ w c 1 ∨ nextOut c 0 ≠ nextOut c 1) :
    PushedOn (updPush s m w c h tile (some (h1, bs))).1 (outQ w c 0) (nextOut c 0) h.fmt c.tag := by
  have first := pushedOn_pushOut (addDigest s c h tile) m w c 0 h tile
  by_cases present : outPresent (c.out 1) = true
  · rw [updPush_of_present s m w c h h1 tile bs present]
    refine first.pushOut ?_ m h1 bs
    rw [nextOut_pushOut]
    exact apart
  · rw [updPush_of_absent s m w c h h1 tile bs (by simpa using present)]
    exact first

/-- The tile of OUT1. -/
theorem pushedOn_updPush_second (present : outPresent (c.out 1) = true) :
    PushedOn (updPush s m w c h tile (some (h1, bs))).1 (outQ w c 1) (nextOut c 1) h1.fmt c.tag := by
  rw [updPush_of_present s m w c h h1 tile bs present, ← nextOut_pushOut (addDigest s c h tile) m w c h tile]
  exact pushedOn_pushOut _ m w _ 1 h1 bs

end

/-! ### The end of a unit (04, R112, R113) -/

/-- From s to t the step of command c has got its pair of update-to-weight sums, or, journalled already, is late. -/
def Contributed (s t : State) (c : Cmd) : Prop :=
  if s.watch.journaled.contains c.step then fg t MOD_NUMERICS_WATCH_LATE 0 = 1 ∧ t.watch.items = s.watch.items
  else ∃ x, t.watch.items = s.watch.items ++ [x] ∧ x.step = c.step ∧ x.index = bits c.imm 55 48 ∧ x.tensor = bits c.imm 31 0

theorem Contributed.of_watch {s s' t : State} {c : Cmd} (h : Contributed s' t c) (items : s'.watch.items = s.watch.items)
    (journaled : s'.watch.journaled = s.watch.journaled) : Contributed s t c := by
  unfold Contributed at *
  rwa [items, journaled] at h

theorem Contributed.observe {s t : State} {c : Cmd} (h : Contributed s t c) : Contributed s (observe t) c := by
  unfold Contributed at *
  rwa [fg_observe, observe_watch]

/-- An UPDATE's last events counted, and its UE free. -/
def updFreed (s : State) (w : Nat) (c : Cmd) : State :=
  clearUe (countUe s w c.step ((uwrSums (ueRt s w).terms).1.2.add (uwrSums (ueRt s w).terms).2.2)) w

section
variable (s : State) (w : Nat) (c : Cmd)

theorem workKept_updFreed : WorkKept [UE_NUMCNT, UE_STATUS] s (updFreed s w c) :=
  ((WorkKept.refl _ s).countEv (by decide) w c.step _).clearUe (by decide) w

theorem updKept_updFreed : UpdKept w (ueRt s w).idle 0 s (updFreed s w c) := ((UpdKept.refl w s).countUe c.step _).clearUe

theorem fg_updFreed_busy : fg (updFreed s w c) UE_STATUS_BUSY w = 0 := by
  rw [updFreed, clearUe_eq, fg_fs_apart _ UE_STATUS_PASS UE_STATUS_BUSY _ _ (by decide), fg_fs_same _ UE_STATUS_BUSY w _ (by decide) (by decide)]
  rfl

theorem fg_updFreed_open : fg (updFreed s w c) UE_STATUS_ACC_OPEN w = fg s UE_STATUS_ACC_OPEN w := by
  have counted : WorkKept [UE_NUMCNT] s (countUe s w c.step ((uwrSums (ueRt s w).terms).1.2.add (uwrSums (ueRt s w).terms).2.2)) :=
    (WorkKept.refl _ s).countEv (by decide) w c.step _
  rw [updFreed, clearUe_eq, fg_fs_apart _ UE_STATUS_PASS UE_STATUS_ACC_OPEN _ _ (by decide),
    fg_fs_apart _ UE_STATUS_BUSY UE_STATUS_ACC_OPEN _ _ (by decide)]
  exact counted.fg _ _ (by decide)

theorem updEnd_of_journaled (late : s.watch.journaled.contains c.step = true) :
    updEnd s w c = fs (updFreed s w c) MOD_NUMERICS_WATCH_LATE 0 1 := by
  rw [← (updKept_updFreed s w c).journaled] at late
  exact if_pos late

theorem updEnd_of_early (early : s.watch.journaled.contains c.step = false) : ∃ x : UwrItem, x.step = c.step ∧ x.index = bits c.imm 55 48 ∧
    x.tensor = bits c.imm 31 0 ∧
    updEnd s w c = { updFreed s w c with watch := { (updFreed s w c).watch with items := (updFreed s w c).watch.items ++ [x] } } := by
  rw [← (updKept_updFreed s w c).journaled] at early
  exact ⟨_, rfl, rfl, rfl, if_neg (ne_true_of_eq_false early)⟩

/-- The end of an UPDATE: but for the watch's items, the UE freed. -/
theorem updEnd_frees : WorkKept [ MOD_NUMERICS] (updFreed s w c) (updEnd s w c) ∧ (updEnd s w c).ue = (updFreed s w c).ue ∧
    Contributed s (updEnd s w c) c := by
  have freed := updKept_updFreed s w c
  unfold Contributed
  cases late : s.watch.journaled.contains c.step with
  | true =>
    rw [updEnd_of_journaled s w c late, if_pos rfl]
    exact ⟨(WorkKept.refl _ _).fs (by decide) 0 1, rfl, fg_fs_same _ MOD_NUMERICS_WATCH_LATE 0 1 (by decide) (by decide), freed.items⟩
  | false =>
    obtain ⟨x, step, index, tensor, ends⟩ := updEnd_of_early s w c late
    rw [ends, if_neg (by decide)]
    exact ⟨.of_work rfl, rfl, x, congrArg (· ++ [x]) freed.items, step, index, tensor⟩

end

/-- From s to t command c has one unit more behind it, its last one with the end of the command; memory, the queues' tiles, the accumulator and
the clocks are as before. -/
structure UnitEnded (w m : Nat) (c : Cmd) (s t : State) : Prop where
  unit : UnitDone t m c
  mem : t.mem = s.mem
  boot : t.boot = s.boot
  pushed : ∀ n, (queueRt t n).pushed = (queueRt s n).pushed
  ue : ueRt t w = if unitCount c ≤ c.iter + 1 then (ueRt s w).idle else ueRt s w
  acc : rd t UE_ACC w = rd s UE_ACC w
  accOpen : fg t UE_STATUS_ACC_OPEN w = fg s UE_STATUS_ACC_OPEN w
  clocks : fg t UE_BUSY_CLOCKS w = fg s UE_BUSY_CLOCKS w
  last : unitCount c ≤ c.iter + 1 → Contributed s t c ∧ fg t UE_STATUS_BUSY w = 0

theorem unitEnded_updUnit {s : State} {m : Nat} {c : Cmd} (stands : Standing s m c) (issued : c.phase = .issued) (w : Nat) :
    UnitEnded w m c s (observe (updUnit s m w c)) := by
  have unit := unitDone_does w stands issued
  have regs := unitDone_regs s m w c
  have ue : (unitDone s m w c).ue = s.ue := unitDone_keeps State.ue (fun _ _ _ => rfl) (fun _ _ _ => rfl) s m w c
  have watch : (unitDone s m w c).watch = s.watch := unitDone_keeps State.watch (fun _ _ _ => rfl) (fun _ _ _ => rfl) s m w c
  by_cases last : unitCount c ≤ c.iter + 1
  · have ends : updUnit s m w c = updEnd (unitDone s m w c) w { c with iter := c.iter + 1 } := if_pos last
    obtain ⟨kept, same, given⟩ := updEnd_frees (unitDone s m w c) w { c with iter := c.iter + 1 }
    have freed := updKept_updFreed (unitDone s m w c) w { c with iter := c.iter + 1 }
    have work := workKept_updFreed (unitDone s m w c) w { c with iter := c.iter + 1 }
    rw [ends]
    refine ⟨(unit.congr ?_).congr (stream_observe_cmds _ _), ?_, ?_, fun n => ?_, ?_, ?_, ?_, ?_, fun _ => ⟨?_, ?_⟩⟩
    · rw [kept.stream, freed.stream]
    · rw [observe_mem, kept.mem, freed.mem, unitDone_mem]
    · rw [observe_boot, kept.boot, freed.boot, unitDone_boot]
    · rw [queueRt_observe, kept.queueRt, freed.queueRt, unitDone_pushed]
    · rw [if_pos last, ueRt_of_ue (observe_ue _), ueRt_of_ue same, freed.ue, ueRt_of_ue ue]
    · rw [rd_observe, kept.rd _ _ (by decide), work.rd _ _ (by decide)]
      unfold rd
      rw [regs]
    · rw [fg_observe, kept.fg _ _ (by decide), fg_updFreed_open, fg_of_regs regs]
    · rw [fg_observe, kept.fg _ _ (by decide), work.fg _ _ (by decide), fg_of_regs regs]
    · exact (given.of_watch (congrArg Watch.items watch) (congrArg Watch.journaled watch)).observe
    · rw [fg_observe, kept.fg _ _ (by decide), fg_updFreed_busy]
  · have more : updUnit s m w c = unitDone s m w c := if_neg last
    rw [more]
    refine ⟨unit.congr (stream_observe_cmds _ _), ?_, ?_, fun n => ?_, ?_, ?_, ?_, ?_, fun ended => absurd ended last⟩
    · rw [observe_mem, unitDone_mem]
    · rw [observe_boot, unitDone_boot]
    · rw [queueRt_observe, unitDone_pushed]
    · rw [if_neg last, ueRt_of_ue (observe_ue _), ueRt_of_ue ue]
    · rw [rd_observe]
      unfold rd
      rw [regs]
    · rw [fg_observe, fg_of_regs regs]
    · rw [fg_observe, fg_of_regs regs]

end Sys2Proof.Machine
end

section
/-!
SUPPORT. The first pass of a factored apply (09, R230, R233): the shape of the run that it forms, and the rows that it adds to the accumulator.
-/

namespace Sys2Proof.Machine

theorem length_setNth {α : Type} (xs : List α) (i : Nat) (y : α) : (setNth xs i y).length = xs.length := by
  induction xs generalizing i with
  | nil => rfl
  | cons x xs ih =>
    cases i with
    | zero => rfl
    | succ i => simp [setNth, ih]

theorem length_colFactors (len : Nat) (stats : List (List Byte)) : (colFactors len stats).length = len := by
  simp [colFactors]

/-! ### The rows of a run's sums -/

theorem length_rows_pass1Elem (ks : List Nat) (p : Pass1) (i j : Nat) (g : Ew) : (pass1Elem ks p i j g).rows.length = p.rows.length :=
  length_setNth _ _ _

theorem length_rows_pass1Tile (c : Cmd) (ks : List Nat) (p : Pass1) (t : Nat) (h : Hdr) (g mask : List Byte) :
    (pass1Tile c ks p t h g mask).rows.length = p.rows.length := by
  refine List.foldlRecOn (motive := fun q : Pass1 => q.rows.length = p.rows.length) _ _ rfl fun q kept j _ => ?_
  refine List.foldlRecOn (motive := fun q : Pass1 => q.rows.length = p.rows.length) _ _ kept fun q kept i _ => ?_
  split
  · rw [length_rows_pass1Elem, kept]
  · exact kept

/-- The sums of a run's tiles in its first pass. -/
def runSums (c : Cmd) (ks : List Nat) (gs ms : List (Hdr × List Byte)) : Pass1 :=
  (below gs.length).foldl (fun p t => let g := nth gs t ({}, []); pass1Tile c ks p t g.1 g.2 (maskOf c ms t))
    ({ rows := List.replicate (gs.headD ({}, [])).1.rows (0, 0, 0) } : Pass1)

theorem length_rows_runSums (c : Cmd) (ks : List Nat) (gs ms : List (Hdr × List Byte)) :
    (runSums c ks gs ms).rows.length = (gs.headD ({}, [])).1.rows := by
  unfold runSums
  refine List.foldlRecOn (motive := fun q : Pass1 => q.rows.length = (gs.headD ({}, [])).1.rows) _ _ (List.length_replicate) fun q kept t _ => ?_
  dsimp only
  rw [length_rows_pass1Tile, kept]

theorem length_rowStats (s : State) (c : Cmd) (sch : List Nat) (row0 : Nat) (old : List Nat) (p : Pass1) :
    (rowStats s c sch row0 old p).length = p.rows.length := by
  simp [rowStats]

/-! ### The accumulator (09, R233) -/

theorem nrows_addRows (u : UeRt) (stat : List Nat) : (addRows u stat).1.nrows = u.nrows + stat.length := by
  suffices h : ∀ a : UeRt × Ev, (stat.foldl (fun (a : UeRt × Ev) r =>
      let t := eadd (pv a.1.racc) (widen16 r)
      ({ a.1 with racc := t.1, nrows := a.1.nrows + 1 }, a.2.add t.2)) a).1.nrows = a.1.nrows + stat.length from h (u, {})
  induction stat with
  | nil => exact fun _ => rfl
  | cons r stat ih =>
    intro a
    rw [List.foldl_cons, ih, List.length_cons]
    exact Nat.add_right_comm a.1.nrows 1 stat.length

theorem nrows_addCols (u : UeRt) (cols : List (Nat × Nat × Nat)) : (addCols u cols).1.nrows = u.nrows :=
  List.foldlRecOn (motive := fun a : UeRt × Ev => a.1.nrows = u.nrows) _ _ rfl fun _ kept _ _ => kept

/-! ### The run formed (09, R230) -/

/-- From s to t the UE has formed a run of n tiles and the given number of rows, which have entered its accumulator. -/
def RunFormed (w : Nat) (c : Cmd) (rows n : Nat) (s t : State) : Prop :=
  ∃ (v : UeRt) (r : UeRun), WorkKept [UE_NUMCNT, UE_ZERO, UE_CLIP] (ueAcc (bump s UE_BUSY_CLOCKS w (64 * n)) w v true) t ∧
    t.ue = (ueAcc (bump s UE_BUSY_CLOCKS w (64 * n)) w v true).ue ∧
    v.run = some r ∧ v.nrows = (ueRt s w).nrows + rows ∧
    r.done = 0 ∧ r.cols.length = dRowLen c.desc ∧ r.rowStat.length = rows ∧ (r.allzero = true → r.kappa = one32)

theorem runFormed_pass1 (s : State) (w : Nat) (c : Cmd) (sch : List Nat) (gs st0 stats ms : List (Hdr × List Byte)) :
    RunFormed w c (gs.headD ({}, [])).1.rows gs.length s (pass1 s w c sch gs st0 stats ms) := by
  unfold pass1
  extract_lets len u ks h0 row0 kv p old s1 zeroRun rs stat hs ms k liveRun clipped
  have cols : kv.length = dRowLen c.desc := by rw [List.length_map, length_colFactors]
  have rows : p.rows.length = h0.rows := length_rows_runSums c kv gs _
  have olds : old.length = h0.rows := by rw [List.length_map, length_below]
  have stats : stat.length = h0.rows := by rw [List.length_map, length_rowStats, rows]
  split
  · refine ⟨_, _, ((WorkKept.refl _ _).bump (by decide) _ _).countEv (by decide) _ _ _, countEv_ue _ _ _ _ _ _, rfl, ?_,
      rfl, cols, olds, fun _ => rfl⟩
    exact (nrows_addRows u old).trans (congrArg _ olds)
  · refine ⟨_, _, (((WorkKept.refl _ _).bump (by decide) _ _).bump (by decide) _ _).countEv (by decide) _ _ _, countEv_ue _ _ _ _ _ _, rfl, ?_,
      rfl, cols, stats, nofun⟩
    exact (nrows_addRows (addCols u p.cols.reverse).1 stat).trans (congrArg₂ (· + ·) (nrows_addCols u _) stats)

end Sys2Proof.Machine
end

section
/-!
SUPPORT. The words of a tile in its slot (03, R65; 05, R122): what each reads as once the tile and then another tile have been pushed.
-/

namespace Sys2Proof.Machine

/-! ### A part of a run of bytes -/

theorem cellsOf_append (d : Nat → Byte) (a : Nat) (xs ys : List Byte) :
    cellsOf d a (xs ++ ys) = cellsOf d a xs ++ cellsOf d (a + xs.length) ys := by
  induction xs generalizing a with
  | nil => rfl
  | cons x xs ih =>
    have next : a + (x :: xs).length = a + 1 + xs.length := by rw [List.length_cons]; omega
    rw [List.cons_append, cellsOf, cellsOf, ih, next]
    split
    · rfl
    · rfl

theorem BytesAt.part {d : Nat → Byte} {m : SMap Byte} {a : Nat} {xs ys zs : List Byte} (h : BytesAt d m a (xs ++ (ys ++ zs))) :
    BytesAt d m (a + xs.length) ys := by
  obtain ⟨front, back, rfl, hf, hb⟩ := h
  refine ⟨front ++ cellsOf d a xs, cellsOf d (a + xs.length + ys.length) zs ++ back, ?_, fun p hp => ?_, fun p hp => ?_⟩
  · rw [cellsOf_append, cellsOf_append]
    simp only [List.append_assoc]
  · rcases List.mem_append.mp hp with hp | hp
    · have := hf p hp; omega
    · exact (cellsOf_range d a xs p hp).2
  · rcases List.mem_append.mp hp with hp | hp
    · exact (cellsOf_range d _ zs p hp).1
    · have := hb p hp; simp only [List.length_append] at this; omega

theorem ofBytesLE_toBytesLE (n v : Nat) : ofBytesLE (toBytesLE n v) = v % 256 ^ n := by
  induction n generalizing v with
  | zero => rw [pow_zero, Nat.mod_one]; rfl
  | succ n ih =>
    have byte : (BitVec.ofNat 8 v).toNat = v % 256 := BitVec.toNat_ofNat v 8
    rw [toBytesLE, ofBytesLE, ih, byte, pow_succ', Nat.mod_mul]

/-- Word j of words that stand in a row, four bytes to each. -/
theorem BytesAt.word {d : Nat → Byte} {m : SMap Byte} {a j x : Nat} {words : List Nat} (h : BytesAt d m a (words.flatMap (toBytesLE 4)))
    (word : words[j]? = some x) : ofBytesLE (Machine.readBytes d m (a + 4 * j) 4) = x % 2 ^ 32 := by
  obtain ⟨small, rfl⟩ := List.getElem?_eq_some_iff.mp word
  have split : words.flatMap (toBytesLE 4) =
      (words.take j).flatMap (toBytesLE 4) ++ (toBytesLE 4 words[j] ++ (words.drop (j + 1)).flatMap (toBytesLE 4)) := by
    conv_lhs => rw [← List.take_append_drop j words, List.drop_eq_getElem_cons small, List.flatMap_append, List.flatMap_cons]
  have place : ((words.take j).flatMap (toBytesLE 4)).length = 4 * j := by
    rw [length_flatMap_words (fun x => x), List.length_take, Nat.min_eq_left small.le]
  rw [split] at h
  have four := h.part.readBytes
  rw [length_toBytesLE, place] at four
  rw [four, ofBytesLE_toBytesLE]
  rfl

/-! ### A tile's bytes, and another tile's after them (05, R122) -/

theorem slotKey_pushOut (s : State) (m w : Nat) (c : Cmd) (e : Nat) (h : Hdr) (bs : List Byte) (n p : Nat) :
    slotKey (pushOut s m w c e h bs).1 n p = slotKey s n p := rfl

theorem qSlotBytes_pushOut (s : State) (m w : Nat) (c : Cmd) (e : Nat) (h : Hdr) (bs : List Byte) (n : Nat) :
    qSlotBytes (pushOut s m w c e h bs).1 n = qSlotBytes s n := rfl

theorem bytesAt_pushOut {s : State} {w e : Nat} {c : Cmd} {bs : List Byte} (fits : bs.length ≤ qSlotBytes s (outQ w c e)) (m : Nat) (h : Hdr) :
    BytesAt (memDefault s.boot) (pushOut s m w c e h bs).1.mem (slotKey s (outQ w c e) (nextOut c e)) bs := by
  rw [mem_pushOut, List.take_of_length_le fits]
  exact bytesAt_writeBytes _ _ _ _

theorem BytesAt.pushOut {s : State} {a w e : Nat} {c : Cmd} {xs bs : List Byte} (stand : BytesAt (memDefault s.boot) s.mem a xs)
    (apart : slotKey s (outQ w c e) (nextOut c e) + qSlotBytes s (outQ w c e) ≤ a ∨ a + xs.length ≤ slotKey s (outQ w c e) (nextOut c e))
    (m : Nat) (h : Hdr) : BytesAt (memDefault s.boot) (pushOut s m w c e h bs).1.mem a xs := by
  have within := List.length_take_le (qSlotBytes s (outQ w c e)) bs
  rw [mem_pushOut]
  exact stand.writeBytes_apart _ _ (by omega)

/-- The bytes of the tile of OUT0, wherever in memory the tile of OUT1 goes but over them. -/
theorem bytesAt_updPush {s a : State} {w k : Nat} {u : UeRt} (begun : UpdKept w u k s a) {c : Cmd} {tile : List Byte}
    (present : outPresent (c.out 1) = true) (fits : tile.length ≤ qSlotBytes s (outQ w c 0))
    (apart : slotKey s (outQ w c 0) (nextOut c 0) + tile.length ≤ slotKey s (outQ w c 1) (nextOut c 1) ∨
      slotKey s (outQ w c 1) (nextOut c 1) + qSlotBytes s (outQ w c 1) ≤ slotKey s (outQ w c 0) (nextOut c 0)) (m : Nat) (h h1 : Hdr)
    (bs : List Byte) :
    BytesAt (memDefault a.boot) (updPush a m w c h tile (some (h1, bs))).1.mem (slotKey s (outQ w c 0) (nextOut c 0)) tile := by
  have kept := begun.addDigest c h tile
  have key (n p : Nat) : slotKey (addDigest a c h tile) n p = slotKey s n p := kept.slotKey n p (by decide) (by decide)
  have slot (n : Nat) : qSlotBytes (addDigest a c h tile) n = qSlotBytes s n := kept.qSlotBytes n (by decide)
  have first : BytesAt (memDefault (addDigest a c h tile).boot) (pushOut (addDigest a c h tile) m w c 0 h tile).1.mem
      (slotKey s (outQ w c 0) (nextOut c 0)) tile := by
    rw [← key]
    exact bytesAt_pushOut (by rwa [slot]) m h
  rw [updPush_of_present a m w c h h1 tile bs present, begun.boot, ← kept.boot]
  refine BytesAt.pushOut (s := (pushOut (addDigest a c h tile) m w c 0 h tile).1) first ?_ m h1
  rw [nextOut_pushOut, slotKey_pushOut, qSlotBytes_pushOut, key, slot]
  exact apart.symm

end Sys2Proof.Machine
end

section
/-!
CLAIM. The four UPDATE rules (09, R226, R230, R233, R234, R236, R238; 04, R112; 14, R346): the run that a first pass forms, the tiles that every
other event pushes, and its unit's end. O42.
-/

namespace Sys2Proof.Machine

/-! ### A unit that pushes its tiles and ends -/

/-- From s to t the UE has done a unit of command c, at k clocks, and comes to state v, the command's last unit with the end of the command. -/
structure TileDone (w m : Nat) (c : Cmd) (v : UeRt) (k : Nat) (s t : State) : Prop where
  unit : UnitDone t m c
  ue : ueRt t w = if unitCount c ≤ c.iter + 1 then v.idle else v
  clocks : fg t UE_BUSY_CLOCKS w = min (2 ^ 32 - 1) (fg s UE_BUSY_CLOCKS w + k)
  last : unitCount c ≤ c.iter + 1 → Contributed s t c ∧ fg t UE_STATUS_BUSY w = 0

theorem unitCount_outFill (c : Cmd) (fill : List Nat) : unitCount { c with outFill := fill } = unitCount c := rfl

section
variable {w m k j : Nat} {c d : Cmd} {u v : UeRt} {s a p x : State} (tiles : TilesPushed w m c d a p) (after : UpdKept w v j p x)
  (issued : c.phase = .issued)
include tiles after issued

theorem unitEnded_of_tiles : UnitEnded w m d x (observe (updUnit x m w d)) := by
  obtain ⟨-, -, stands, fill, rfl⟩ := tiles
  exact unitEnded_updUnit (stands.of_streams after.streams) issued w

theorem tileDone_of_tiles (begun : UpdKept w u k s a) : TileDone w m c v (k + j) s (observe (updUnit x m w d)) := by
  have ended := unitEnded_of_tiles tiles after issued
  obtain ⟨kept, -, stands, fill, rfl⟩ := tiles
  have all := (begun.toUeKept.trans kept).trans after.toUeKept
  rw [Nat.add_zero] at all
  refine ⟨ended.unit, ?_, ended.clocks.trans all.clocks, fun last => ?_⟩
  · rw [ended.ue, unitCount_outFill, after.ue]
  · obtain ⟨given, busy⟩ := ended.last last
    exact ⟨given.of_watch all.items all.journaled, busy⟩

theorem pushed_of_tiles (n : Nat) : (queueRt (observe (updUnit x m w d)) n).pushed = (queueRt p n).pushed :=
  ((unitEnded_of_tiles tiles after issued).pushed n).trans (congrArg QueueRt.pushed (after.queueRt n))

/-- A tile that was pushed stays pushed to the end of the unit. -/
theorem PushedOn.of_tiles {n q f tag : Nat} (on : PushedOn p n q f tag) : PushedOn (observe (updUnit x m w d)) n q f tag :=
  on.congr (pushed_of_tiles tiles after issued n)

end

/-! ### A run formed (09, R230, R233) -/

/-- The mask tiles of some vectors, none where the command has no mask end. -/
abbrev readMaskRun (s : State) (w : Nat) (c : Cmd) (vs : List (List Nat)) : Got (List (Hdr × List Byte)) :=
  if updMask c = 0 then Got.ok [] else readRun s w c 3 vs

section
variable {s : State} {w m : Nat} {c : Cmd} {sch : List Nat × Ev} (sched : updSched s w c = .ok sch) {gs st cs ms : List (Hdr × List Byte)}
include sched

theorem factoredEvent_first (none : (ueRt s w).run = none) (grads : readRun s w c 0 (nth (units c) c.iter []) = .ok gs)
    (state : readRun s w c 1 ((nth (units c) c.iter []).take 1) = .ok st) (stats : readRun s w c 2 (nth (units c) c.iter []) = .ok cs)
    (masks : readMaskRun s w c (nth (units c) c.iter []) = .ok ms) :
    factoredEvent s m w c = pass1 (updStart s w c sch 1) w c sch.1 gs st cs ms := by
  unfold readMaskRun at masks
  simp only [factoredEvent, sched, updTake, none, grads, state, stats, masks, Got.bind]

theorem factoredEvent_second {r : UeRun} (run : (ueRt s w).run = some r) (ready : updReady s w c = true) (lit : darkOut s w c = none)
    (grads : readRun s w c 0 (((nth (units c) c.iter []).drop r.done).take 1) = .ok gs)
    (state : readRun s w c 1 (((nth (units c) c.iter []).drop r.done).take 1) = .ok st)
    (masks : readMaskRun s w c (((nth (units c) c.iter []).drop r.done).take 1) = .ok ms) :
    factoredEvent s m w c = pass2Tile (updStart s w c sch 2) m w c sch.1 r (gs.headD ({}, [])).1 (gs.headD ({}, [])).2 (st.headD ({}, [])).2
      (ms.headD ({}, [])).2 := by
  unfold readMaskRun at masks
  simp only [factoredEvent, sched, updTake, run, ready, lit, grads, state, masks, Got.bind, Bool.not_true, Bool.false_eq_true, if_false]

end

theorem updReady_of_updKept {w k : Nat} {u : UeRt} {s t : State} (h : UpdKept w u k s t) (v : Nat) (c : Cmd) : updReady t v c = updReady s v c := by
  unfold updReady
  rw [h.canPush v c 0 1 (by decide), h.canPush v c 1 1 (by decide)]

theorem darkOut_of_updKept {w k : Nat} {u : UeRt} {s t : State} (h : UpdKept w u k s t) (v : Nat) (c : Cmd) : darkOut t v c = darkOut s v c := by
  unfold darkOut
  simp only [h.isDark _ (show PWR_WREG.no ∉ (UE_BUSY :: updRegs).map Reg.no by decide)]

/-! ### The second pass (09, R226, R230) -/

/-- The state once a run's tile has been pushed: its terms and its place in the run are noted. -/
def runNoted (s : State) (w : Nat) (c : Cmd) (r : UeRun) (ts : List (Nat × Nat × Nat)) (ev : Ev) : State :=
  countUe (setUe s w { ueRt s w with terms := (ueRt s w).terms ++ ts, run := some { r with done := r.done + 1 } }) w c.step ev

/-- The vectors still to read after the tile at place t of the unit in progress. -/
def vectorsAfter (c : Cmd) (t : Nat) : List (List Nat) := (nth (units c) c.iter []).drop (t + 1) ++ ((units c).drop (c.iter + 1)).flatten

/-- What follows a run's tile pushed: the next tile, or the unit's end. -/
def runGoesOn (s : State) (m w : Nat) (c : Cmd) (r : UeRun) : State :=
  if r.done + 1 < (nth (units c) c.iter []).length then (popEnds s m w c (vectorsAfter c r.done)).1
  else updUnit (setUe s w { ueRt s w with run := none }) m w c

theorem pass2Tile_eq {w k : Nat} {u : UeRt} {s0 s : State} (begun : UpdKept w u k s0 s) (m : Nat) (c : Cmd) (sch : List Nat) (r : UeRun) (h : Hdr)
    (g st mask : List Byte) : ∃ (a : State) (h0 h1 : Hdr) (tile bs : List Byte) (ts : List (Nat × Nat × Nat)) (ev : Ev),
      UpdKept w u (k + 64) s0 a ∧ h0.fmt = fNone ∧ h1.fmt = fBf16 ∧ pass2Tile s m w c sch r h g st mask =
        runGoesOn (runNoted (updPush a m w c h0 tile (some (h1, bs))).1 w c r ts ev) m w (updPush a m w c h0 tile (some (h1, bs))).2 r := by
  refine ⟨_, _, _, _, _, _, _, ?_, ?_, ?_, rfl⟩
  · split
    · exact ((begun.busy 64).countUe _ _).countNarrow _ _
    · exact (begun.busy 64).countUe _ _
  · rfl
  · rfl

theorem UpdKept.runNoted {w k : Nat} {u : UeRt} {s t : State} (h : UpdKept w u k s t) (c : Cmd) (r : UeRun) (ts : List (Nat × Nat × Nat))
    (ev : Ev) : UpdKept w { u with terms := u.terms ++ ts, run := some { r with done := r.done + 1 } } k s (runNoted t w c r ts ev) := by
  rw [← h.ue]
  exact (h.setUe _).countUe c.step ev

/-- The state tile stands on OUT0, the BF16 weights on OUT1 where that end is present. -/
def AppliedTiles (t : State) (w : Nat) (c : Cmd) : Prop :=
  PushedOn t (outQ w c 0) (nextOut c 0) 0 c.tag ∧ (outPresent (c.out 1) = true → PushedOn t (outQ w c 1) (nextOut c 1) 2 c.tag)

theorem appliedTiles_updPush {s : State} {m w : Nat} {c : Cmd} {h h1 : Hdr} (fmt : h.fmt = fNone) (fmt1 : h1.fmt = fBf16)
    (apart : outQ w c 0 ≠ outQ w c 1 ∨ nextOut c 0 ≠ nextOut c 1) (tile bs : List Byte) :
    AppliedTiles (updPush s m w c h tile (some (h1, bs))).1 w c := by
  have first := pushedOn_updPush (s := s) (m := m) h h1 tile bs apart
  rw [fmt] at first
  refine ⟨first, fun present => ?_⟩
  have second := pushedOn_updPush_second (s := s) (m := m) (w := w) h h1 tile bs present
  rw [fmt1] at second
  exact second

theorem AppliedTiles.congr {s t : State} {w : Nat} {c : Cmd} (h : AppliedTiles s w c)
    (pushed : ∀ n, (queueRt t n).pushed = (queueRt s n).pushed) : AppliedTiles t w c :=
  ⟨h.1.congr (pushed _), fun present => (h.2 present).congr (pushed _)⟩

/-- What follows a run's tile: its place in the run, or with its last tile the end of the unit. -/
theorem runGoesOn_does {w m k : Nat} {c d : Cmd} {u : UeRt} {s a p : State} (begun : UpdKept w u k s a) (tiles : TilesPushed w m c d a p)
    (issued : c.phase = .issued) (r : UeRun) (ts : List (Nat × Nat × Nat)) (ev : Ev) :
    let t := observe (runGoesOn (runNoted p w c r ts ev) m w d r)
    (∀ n, (queueRt t n).pushed = (queueRt p n).pushed) ∧
    (r.done + 1 < (nth (units c) c.iter []).length → (ueRt t w).run = some { r with done := r.done + 1 } ∧
      ∃ c', findCmd (stream t m).cmds c.num = some c' ∧ c'.iter = c.iter) ∧
    ((nth (units c) c.iter []).length ≤ r.done + 1 → (ueRt t w).run = none ∧ UnitDone t m c ∧
      (unitCount c ≤ c.iter + 1 → Contributed s t c ∧ fg t UE_STATUS_BUSY w = 0)) := by
  have noted := (UpdKept.refl w p).runNoted c r ts ev
  have length : (nth (units d) d.iter []).length = (nth (units c) c.iter []).length := by
    obtain ⟨-, -, -, fill, rfl⟩ := tiles
    rfl
  by_cases more : r.done + 1 < (nth (units c) c.iter []).length
  · rw [runGoesOn, if_pos (length ▸ more)]
    obtain ⟨-, -, stands, fill, rfl⟩ := tiles
    obtain ⟨c', found, iter, -⟩ := findCmd_popEnds (stands.of_streams noted.streams) w (vectorsAfter { c with outFill := fill } r.done)
    refine ⟨fun n => ?_, fun _ => ⟨?_, c', ?_, iter⟩, fun done => absurd more (by omega)⟩
    · rw [queueRt_observe, popEnds_keeps (fun t => (queueRt t n).pushed) (fun t q k => pushed_qPop t q k n) (fun _ _ _ => rfl)]
      exact congrArg QueueRt.pushed (noted.queueRt n)
    · rw [ueRt_of_ue (observe_ue _), ueRt_of_ue (popEnds_keeps State.ue (fun _ _ _ => rfl) (fun _ _ _ => rfl) _ _ _ _ _), noted.ue]
    · rw [stream_observe_cmds]
      exact found
  · rw [runGoesOn, if_neg (length ▸ more)]
    have after := noted.setUe { ueRt (runNoted p w c r ts ev) w with run := none }
    have done := tileDone_of_tiles tiles after issued begun
    refine ⟨pushed_of_tiles tiles after issued, fun few => absurd few more, fun _ => ⟨?_, done.unit, done.last⟩⟩
    rw [done.ue]
    split <;> rfl

/-! ### The rules that take one tile at a time (09, R234, R236, R238) -/

/-- The tiles of the iteration in progress on the ends listed. -/
def readEnds (s : State) (w : Nat) (c : Cmd) (ends : List Nat) : Got (List (Hdr × List Byte)) :=
  ends.foldr (fun e acc => (readIn s w c e (inOffset c.desc e ((nth (units c) c.iter []).headD []))).bind (fun t =>
    acc.bind (fun ts => .ok (t :: ts)))) (.ok [])

theorem readEnds_cons {s : State} {w e : Nat} {c : Cmd} {ends : List Nat} {x : Hdr × List Byte} {xs : List (Hdr × List Byte)}
    (read : readIn s w c e (inOffset c.desc e ((nth (units c) c.iter []).headD [])) = .ok x) (rest : readEnds s w c ends = .ok xs) :
    readEnds s w c (e :: ends) = .ok (x :: xs) := by
  unfold readEnds at rest ⊢
  rw [List.foldr_cons, rest, read]
  rfl

/-- The words of the S tile: the sums of the accumulator (09, R234). -/
def sumWords (u : UeRt) : List Nat := (below 16384).map (fun j => if j < 8192 then sget 0 u.sacc j else 0)

theorem sumWords_of_column (u : UeRt) {j : Nat} (column : j < 8192) : (sumWords u)[j]? = some (sget 0 u.sacc j) := by
  rw [sumWords, List.getElem?_map, below, getElem?_rangeFrom (by omega), Nat.zero_add]
  exact congrArg some (if_pos column)

/-- The bytes of the S tile. -/
def sumsTile (u : UeRt) : List Byte := (sumWords u).flatMap (toBytesLE 4)

theorem length_sumsTile (u : UeRt) : (sumsTile u).length = 65536 := by
  rw [sumsTile, length_flatMap_words (fun x => x), sumWords, List.length_map, length_below]

section
variable {s : State} {w m : Nat} {c : Cmd} {sch : List Nat × Ev} (sched : updSched s w c = .ok sch) (ready : updReady s w c = true)
  (lit : darkOut s w c = none)
include sched ready lit

theorem tileEvent_of_free {ends : List Nat} {ts : List (Hdr × List Byte)} (read : readEnds s w c ends = .ok ts) (pass : Nat)
    (f : State → List Nat → List (Hdr × List Byte) → State) : tileEvent s m w c pass ends f = f (updStart s w c sch pass) sch.1 ts := by
  unfold readEnds at read
  simp only [tileEvent, sched, updTake, ready, lit, read, Bool.not_true, Bool.false_eq_true, if_false]

theorem emitEvent_of_free : ∃ (h : Hdr) (counts : List Byte), h.fmt = fFp32 ∧
    let p := updPush (updStart s w c sch 3) m w c h (sumsTile (ueRt (updStart s w c sch 3) w)) (some (h, counts))
    emitEvent s m w c = updUnit (ueAcc (bump p.1 UE_BUSY_CLOCKS w 32) w (clearAcc (ueRt p.1 w)) false) m w p.2 := by
  unfold emitEvent
  rw [tileEvent_of_free sched ready lit rfl]
  exact ⟨_, _, rfl, rfl⟩

theorem finishEvent_of_free {k : Nat} {ts : List (Hdr × List Byte)} (read : readEnds s w c [0, 1, 2] = .ok ts) {u : UeRt} {s0 : State}
    (begun : UpdKept w u k s0 s) : ∃ (a : State) (h : Hdr) (bs : List Byte), UpdKept w { u with sched := sch.1 } (k + 1) s0 a ∧ h.fmt = fNone ∧
      finishEvent s m w c = updUnit (updPush a m w c h bs none).1 m w (updPush a m w c h bs none).2 := by
  unfold finishEvent
  rw [tileEvent_of_free sched ready lit read]
  exact ⟨_, _, _, ((begun.updStart c sch 3).busy 1).countUe _ _, rfl, rfl⟩

end

theorem elementTile_eq {w k : Nat} {u : UeRt} {s0 s : State} (begun : UpdKept w u k s0 s) (m : Nat) (c : Cmd) (sch : List Nat) (h : Hdr)
    (g st mask : List Byte) : ∃ (a : State) (h0 h1 : Hdr) (tile bs : List Byte) (ts : List (Nat × Nat × Nat)),
      UpdKept w u (k + 128) s0 a ∧ h0.fmt = fNone ∧ h1.fmt = fBf16 ∧
      let p := updPush a m w c h0 tile (some (h1, bs))
      elementTile s m w c sch h g st mask = updUnit (setUe p.1 w { ueRt p.1 w with terms := (ueRt p.1 w).terms ++ ts }) m w p.2 := by
  refine ⟨_, _, _, _, _, _, ?_, ?_, ?_, rfl⟩
  · split
    · exact (((begun.busy 128).countUe _ _).bump (by decide) _ _).countNarrow _ _
    · exact ((begun.busy 128).countUe _ _).bump (by decide) _ _
  · rfl
  · rfl

/-! ### The rows -/

theorem begunUe_run (s : State) (w : Nat) (c : Cmd) : (begunUe s w c).run = (ueRt s w).run := by
  unfold begunUe
  split <;> rfl

theorem begunUe_of_not_factored {s : State} {w : Nat} {c : Cmd} (other : updRule c ≠ 0) : begunUe s w c = ueRt s w :=
  if_neg (fun first => other first.1)

section
variable {s : State} {w m : Nat} {c : Cmd} {err : MemErr} (job : jobOf s w 5 0x18 = some (m, c)) (met : (updMet s w c err).2 = none)
  {sch : List Nat × Ev} (sched : updSched (updMet s w c err).1 w c = .ok sch)
include job met sched

theorem factoredApply_forms {gs st cs ms : List (Hdr × List Byte)} (rule : updRule c = 0) (idle : (ueRt s w).run = none)
    (grads : readRun (updMet s w c err).1 w c 0 (nth (units c) c.iter []) = .ok gs)
    (state : readRun (updMet s w c err).1 w c 1 ((nth (units c) c.iter []).take 1) = .ok st)
    (stats : readRun (updMet s w c err).1 w c 2 (nth (units c) c.iter []) = .ok cs)
    (masks : readMaskRun (updMet s w c err).1 w c (nth (units c) c.iter []) = .ok ms) : Gives (.factoredApply w err) s fun t =>
      (∃ r, (ueRt t w).run = some r ∧ r.done = 0 ∧ r.cols.length = dRowLen c.desc ∧ r.rowStat.length = (gs.headD ({}, [])).1.rows ∧
        (r.allzero = true → r.kappa = one32)) ∧
      (ueRt t w).nrows = (begunUe s w c).nrows + (gs.headD ({}, [])).1.rows ∧
      (rd t UE_ACC w).toNat = (ueRt t w).nrows % 2 ^ 32 ∧ fg t UE_STATUS_ACC_OPEN w = 1 ∧ fg t UE_STATUS_PASS w = 1 ∧
      fg t UE_BUSY_CLOCKS w = min (2 ^ 32 - 1) (fg s UE_BUSY_CLOCKS w + 64 * gs.length) ∧ t.mem = s.mem ∧ t.queues = s.queues := by
  have kept : UpdKept w (begunUe s w c) 0 s (updMet s w c err).1 := updKept_updMet job
  have row := exec_updRow_of_met job (.head _) rule met
  rw [factoredEvent_first sched (by rw [kept.ue, begunUe_run, idle]) grads state stats masks] at row
  have start := kept.updStart c sch 1
  have pass := fg_updStart_pass (updMet s w c err).1 w c sch 1
  generalize updStart (updMet s w c err).1 w c sch 1 = a at row start pass
  obtain ⟨v, r, work, ue, run, nrows, formed⟩ := runFormed_pass1 a w c sch.1 gs st cs ms
  have shown := (start.busy (64 * gs.length)).ueAcc v true
  have own : ueRt (observe (pass1 a w c sch.1 gs st cs ms)) w = v := by rw [ueRt_of_ue (observe_ue _), ueRt_of_ue ue, shown.ue]
  rw [start.ue] at nrows
  refine gives_next row ?_
  rw [own]
  refine ⟨⟨r, run, formed⟩, nrows, ?_, ?_, ?_, ?_, ?_, ?_⟩
  · rw [rd_observe, work.rd _ _ (by decide), rd_ueAcc, BitVec.toNat_ofNat]
  · rw [fg_observe, work.fg _ _ (by decide), fg_ueAcc_open]
    rfl
  · rw [fg_observe, work.fg _ _ (by decide), fg_ueAcc_pass, bump, fg_fs_of_no _ _ _ _ _ _ (by decide), pass]
  · rw [fg_observe, work.fg _ _ (by decide), shown.clocks, Nat.zero_add]
  · rw [observe_mem, work.mem, shown.mem]
  · rw [observe_queues, work.queues, shown.queues]

variable (ready : updReady s w c = true) (lit : darkOut s w c = none)

section
variable (apart : outQ w c 0 ≠ outQ w c 1 ∨ nextOut c 0 ≠ nextOut c 1)
include ready lit apart

theorem factoredApply_applies {r : UeRun} {gs st ms : List (Hdr × List Byte)} (rule : updRule c = 0) (run : (ueRt s w).run = some r)
    (grads : readRun (updMet s w c err).1 w c 0 (((nth (units c) c.iter []).drop r.done).take 1) = .ok gs)
    (state : readRun (updMet s w c err).1 w c 1 (((nth (units c) c.iter []).drop r.done).take 1) = .ok st)
    (masks : readMaskRun (updMet s w c err).1 w c (((nth (units c) c.iter []).drop r.done).take 1) = .ok ms) :
    Gives (.factoredApply w err) s fun t => AppliedTiles t w c ∧
      (r.done + 1 < (nth (units c) c.iter []).length → (ueRt t w).run = some { r with done := r.done + 1 } ∧
        ∃ c', findCmd (stream t m).cmds c.num = some c' ∧ c'.iter = c.iter) ∧
      ((nth (units c) c.iter []).length ≤ r.done + 1 → (ueRt t w).run = none ∧ UnitDone t m c ∧
        (unitCount c ≤ c.iter + 1 → Contributed s t c ∧ fg t UE_STATUS_BUSY w = 0)) := by
  have kept : UpdKept w (begunUe s w c) 0 s (updMet s w c err).1 := updKept_updMet job
  obtain ⟨stands, issued⟩ := standing_of_jobOf job
  have row := exec_updRow_of_met job (.head _) rule met
  rw [factoredEvent_second sched (by rw [kept.ue, begunUe_run, run]) ((updReady_of_updKept kept w c).trans ready)
    ((darkOut_of_updKept kept w c).trans lit) grads state masks] at row
  obtain ⟨a, h0, h1, tile, bs, ts, ev, begun, fmt, fmt1, pushes⟩ := pass2Tile_eq (kept.updStart c sch 2) m c sch.1 r (gs.headD ({}, [])).1
    (gs.headD ({}, [])).2 (st.headD ({}, [])).2 (ms.headD ({}, [])).2
  rw [pushes] at row
  have tiles := tilesPushed_updPush (w := w) h0 tile (stands.of_streams begun.streams) (some (h1, bs))
  obtain ⟨pushed, next, ended⟩ := runGoesOn_does begun tiles issued r ts ev
  exact gives_next row ⟨(appliedTiles_updPush fmt fmt1 apart tile bs).congr pushed, next, ended⟩

theorem elementwiseApply_applies {ts : List (Hdr × List Byte)} (rule : updRule c = 1)
    (read : readEnds (updMet s w c err).1 w c (if updMask c = 0 then [0, 1] else [0, 1, 3]) = .ok ts) :
    Gives (.elementwiseApply w err) s fun t => AppliedTiles t w c ∧ ∃ v, TileDone w m c v 128 s t := by
  have kept : UpdKept w (begunUe s w c) 0 s (updMet s w c err).1 := updKept_updMet job
  obtain ⟨stands, issued⟩ := standing_of_jobOf job
  have row := exec_updRow_of_met job (.tail _ (.head _)) rule met
  rw [elementEvent, tileEvent_of_free sched ((updReady_of_updKept kept w c).trans ready) ((darkOut_of_updKept kept w c).trans lit) read] at row
  obtain ⟨a, h0, h1, tile, bs, terms, begun, fmt, fmt1, pushes⟩ := elementTile_eq (kept.updStart c sch 2) m c sch.1 (nth ts 0 ({}, [])).1
    (nth ts 0 ({}, [])).2 (nth ts 1 ({}, [])).2 (nth ts 2 ({}, [])).2
  rw [pushes] at row
  have tiles := tilesPushed_updPush (w := w) h0 tile (stands.of_streams begun.streams) (some (h1, bs))
  have applied := appliedTiles_updPush (s := a) (m := m) fmt fmt1 apart tile bs
  generalize updPush a m w c h0 tile (some (h1, bs)) = p at row tiles applied
  have after := (UpdKept.refl w p.1).setUe { ueRt p.1 w with terms := (ueRt p.1 w).terms ++ terms }
  exact gives_next row ⟨applied.congr (pushed_of_tiles tiles after issued), _, tileDone_of_tiles tiles after issued begun⟩

theorem columnEmit_emits (rule : updRule c = 2) (present : outPresent (c.out 1) = true) : Gives (.columnEmit w err) s fun t =>
    PushedOn t (outQ w c 0) (nextOut c 0) 1 c.tag ∧ PushedOn t (outQ w c 1) (nextOut c 1) 1 c.tag ∧
    (∃ v : UeRt, TileDone w m c (clearAcc v) 32 s t) ∧ rd t UE_ACC w = 0 ∧ fg t UE_STATUS_ACC_OPEN w = 0 ∧
    (65536 ≤ qSlotBytes s (outQ w c 0) → (slotKey s (outQ w c 0) (nextOut c 0) + 65536 ≤ slotKey s (outQ w c 1) (nextOut c 1) ∨
        slotKey s (outQ w c 1) (nextOut c 1) + qSlotBytes s (outQ w c 1) ≤ slotKey s (outQ w c 0) (nextOut c 0)) →
      BytesAt (memDefault t.boot) t.mem (slotKey s (outQ w c 0) (nextOut c 0)) (sumsTile (ueRt s w))) := by
  have kept : UpdKept w (begunUe s w c) 0 s (updMet s w c err).1 := updKept_updMet job
  obtain ⟨stands, issued⟩ := standing_of_jobOf job
  have row := exec_updRow_of_met job (.tail _ (.tail _ (.head _))) rule met
  obtain ⟨h, counts, fmt, emits⟩ := emitEvent_of_free (m := m) sched ((updReady_of_updKept kept w c).trans ready)
    ((darkOut_of_updKept kept w c).trans lit)
  rw [emits] at row
  have begun := kept.updStart c sch 3
  rw [begunUe_of_not_factored (by omega)] at begun
  generalize updStart (updMet s w c err).1 w c sch 3 = a at row begun
  have sums : sumsTile (ueRt a w) = sumsTile (ueRt s w) := by rw [begun.ue]; rfl
  rw [sums] at row
  have tiles := tilesPushed_updPush (w := w) h (sumsTile (ueRt s w)) (stands.of_streams begun.streams) (some (h, counts))
  have first := pushedOn_updPush (s := a) (m := m) h h (sumsTile (ueRt s w)) counts apart
  have second := pushedOn_updPush_second (s := a) (m := m) (w := w) h h (sumsTile (ueRt s w)) counts present
  have bytes := fun fits away => bytesAt_updPush begun (tile := sumsTile (ueRt s w)) present fits away m h h counts
  generalize updPush a m w c h (sumsTile (ueRt s w)) (some (h, counts)) = p at row tiles first second bytes
  have after := ((UpdKept.refl w p.1).busy 32).ueAcc (clearAcc (ueRt p.1 w)) false
  have ended := unitEnded_of_tiles tiles after issued
  have done := tileDone_of_tiles tiles after issued begun
  rw [fmt] at first second
  refine gives_next row ⟨first.of_tiles tiles after issued, second.of_tiles tiles after issued, ⟨_, done⟩, ?_, ?_, fun fits away => ?_⟩
  · rw [ended.acc, rd_ueAcc]
    rfl
  · rw [ended.accOpen, fg_ueAcc_open]
    rfl
  · rw [length_sumsTile] at bytes
    rw [ended.boot, ended.mem, after.boot, after.mem, tiles.boot]
    exact bytes fits away

end

include ready lit

theorem columnFinish_finishes {ts : List (Hdr × List Byte)} (rule : updRule c = 3)
    (read : readEnds (updMet s w c err).1 w c [0, 1, 2] = .ok ts) : Gives (.columnFinish w err) s fun t =>
      PushedTile s t (outQ w c 0) (nextOut c 0) 0 c.tag ∧ ∃ v, TileDone w m c v 1 s t := by
  have kept : UpdKept w (begunUe s w c) 0 s (updMet s w c err).1 := updKept_updMet job
  obtain ⟨stands, issued⟩ := standing_of_jobOf job
  have row := exec_updRow_of_met job (.tail _ (.tail _ (.tail _ (.head _)))) rule met
  obtain ⟨a, h, bs, begun, fmt, pushes⟩ := finishEvent_of_free (m := m) sched ((updReady_of_updKept kept w c).trans ready)
    ((darkOut_of_updKept kept w c).trans lit) read kept
  rw [pushes] at row
  have tiles := tilesPushed_updPush (w := w) h bs (stands.of_streams begun.streams) none
  have after := UpdKept.refl w (updPush a m w c h bs none).1
  have ended := unitEnded_of_tiles tiles after issued
  refine gives_next row ⟨?_, _, tileDone_of_tiles tiles after issued begun⟩
  have digest := begun.addDigest c h bs
  have tile : PushedTile s (updPush a m w c h bs none).1 (outQ w c 0) (nextOut c 0) h.fmt c.tag :=
    PushedTile.of_workKept digest.toWorkKept ⟨pushedOn_pushOut _ m w c 0 h bs, memKept_pushOut _ m w c 0 h bs⟩ (by decide) (by decide)
  rw [fmt] at tile
  obtain ⟨on, memKept⟩ := tile
  refine ⟨on.of_tiles tiles after issued, fun k out => ?_⟩
  rw [← memKept k out]
  unfold readByte
  rw [ended.mem, ended.boot]

end

/-- Settles O42: an event begins with ACC_CLEAR and its reads, counts, and either forms a run or pushes its tiles; its unit ends, and with the
command's last one the pair of its sums is its step's. -/
theorem updatesPushTheirTiles : Obligations.UpdatesPushTheirTiles := by
  unfold Obligations.UpdatesPushTheirTiles
  intro w m c err s job s0 met s1 vs v u last fresh free apart item pushed
  refine ⟨fun i r d row rule lost enabled => ?_, fun sch ok sched => ⟨?_, ?_, ?_, ?_, ?_⟩⟩
  · obtain ⟨f, listed⟩ : ∃ f, (i, r, f) ∈ updRows w err := by
      simp only [List.mem_cons, List.not_mem_nil, or_false, Prod.mk.injEq] at row
      rcases row with ⟨rfl, rfl⟩ | ⟨rfl, rfl⟩ | ⟨rfl, rfl⟩ | ⟨rfl, rfl⟩
      · exact ⟨_, .head _⟩
      · exact ⟨_, .tail _ (.head _)⟩
      · exact ⟨_, .tail _ (.tail _ (.head _))⟩
      · exact ⟨_, .tail _ (.tail _ (.tail _ (.head _)))⟩
    exact updRow_faults job listed rule lost enabled
  · intro gs st cs ms rule idle going grads state stats masks
    refine (factoredApply_forms job ok sched rule idle grads state stats masks).imp fun t ⟨run, rows, shown⟩ => ⟨run, rows.trans ?_, shown⟩
    congr 1
    have first : (updRule c = 0 ∧ Fresh s w c) ↔ updClear c = true ∧ c.iter = 0 :=
      ⟨fun ⟨_, clear, zero, _⟩ => ⟨clear, zero⟩, fun ⟨clear, zero⟩ => ⟨rule, clear, zero, idle, going⟩⟩
    simp only [begunUe, first]
    split <;> rfl
  · rintro r g st ms rule run ⟨ready, lit⟩ away grads state masks
    exact factoredApply_applies job ok sched ready lit away rule run grads state masks
  · rintro g st rule ⟨ready, lit⟩ away grad state mask
    obtain ⟨ts, read⟩ : ∃ ts, readEnds (updMet s w c err).1 w c (if updMask c = 0 then [0, 1] else [0, 1, 3]) = .ok ts := by
      by_cases none : updMask c = 0
      · rw [if_pos none]
        exact ⟨_, readEnds_cons grad (readEnds_cons state rfl)⟩
      · rw [if_neg none]
        obtain ⟨x, third⟩ := mask none
        exact ⟨_, readEnds_cons grad (readEnds_cons state (readEnds_cons third rfl))⟩
    exact (elementwiseApply_applies job ok sched ready lit away rule read).imp fun t ⟨tiles, v, done⟩ =>
      ⟨tiles, done.unit, done.clocks, done.last⟩
  · rintro rule ⟨ready, lit⟩ away _ present
    refine (columnEmit_emits job ok sched ready lit away rule present).imp fun t ⟨first, second, ⟨v, done⟩, acc, isOpen, bytes⟩ => ?_
    obtain ⟨sacc, nacc, racc, nrows⟩ : (ueRt t w).sacc = [] ∧ (ueRt t w).nacc = [] ∧ (ueRt t w).racc = 0 ∧ (ueRt t w).nrows = 0 := by
      rw [done.ue]
      split <;> exact ⟨rfl, rfl, rfl, rfl⟩
    refine ⟨first, second, done.unit, sacc, nacc, racc, nrows, by rw [acc]; rfl, isOpen, fun fits away j small => ?_⟩
    exact (bytes fits away).word (sumWords_of_column (ueRt s w) small)
  · rintro a b d rule ⟨ready, lit⟩ first second third
    exact (columnFinish_finishes job ok sched ready lit rule (readEnds_cons first (readEnds_cons second (readEnds_cons third rfl)))).imp
      fun t ⟨tile, v, done⟩ => ⟨tile, done.unit, done.clocks⟩

end Sys2Proof.Machine
end

section
/-!
CLAIM. The write packets (18, R449, R453 to R455). A ROUTE_WRITE that releases the last port to come up ends discovery, whose event goes to the
event destination before the packet is answered (12, R312; 18, R443, R453). O56.
-/

namespace Sys2Proof.Machine

/-- Port 0 is HELD for a neighbour that has changed, and every other port is UP. -/
def withHeldPort (s : State) : State :=
  fs (setPortState ((below 28).foldl (fun t p => setPortState t p 3) s) 0 5) FAB_PORT_STATUS_NBR_CHANGED 0 1

/-- The module at the link stage of its bring-up, which has not yet reported, reached over Ethernet, with an event destination set. -/
def discovering : State :=
  { served with
      regs := (withHeldPort served).regs
      mc := { served.mc with stages := [linkStage] }
      store := { served.store with base := [(0x0300, 0x0A000002), (0x0303, 0x0A000003)] } }

/-- The parameters of a ROUTE_WRITE of one entry, of chip 65,535: valid, allowed, by port 0 alone. -/
def releasingPar : List Byte := [0xFF, 0xFF, 1, 0, 1, 0, 0, 0xC0]

def releasingReq : Req := req 0x51 0 releasingPar

/-- The packet is one of those that the witness of the statement accepts. -/
theorem releasingReq_witnessed : Accepted served releasingReq 0x51 ∧ releasingReq.par = releasingPar :=
  test_WritePacketsTakeEffect_witness.1 (0x51, releasingPar) (by decide)

theorem accepted_releasingReq : Accepted discovering releasingReq 0x51 := by
  obtain ⟨-, good, code, -⟩ := releasingReq_witnessed.1
  exact ⟨by decide, good, code, by decide, by decide, by decide⟩

/-- The state that the entry leaves. -/
def released : State := routeEntry discovering 0xFFFF 0xC0000001

theorem perform_releasingReq : perform discovering releasingReq = (released, some (0, 0, [])) := by
  obtain ⟨⟨-, -, code, -⟩, par⟩ := releasingReq_witnessed
  have one : below (numAt releasingPar 2 2) = [0] := by decide
  have chip : numAt releasingPar 0 2 = 0xFFFF := by decide
  have entry : BitVec.ofNat 32 (numAt releasingPar (4 + 4 * 0) 4) = 0xC0000001 := by decide
  simp only [perform, code, routeWrite, par]
  rw [one, List.foldl_cons, List.foldl_nil, entry, chip]
  rfl

/-- The end of discovery has sent its event. -/
theorem length_replies_released : released.mc.replies.length = 1 := by decide

/-- The packet's row answers both, the event first. -/
theorem exec_releasingReq : exec (.routeWrite 2 5 releasingReq.raw) discovering = .next (observe (reply released releasingReq 0 0 [] true)) :=
  congrArg Host.Outcome.next (receive_answers accepted_releasingReq (by decide) perform_releasingReq (by decide) (by decide))

/-- Refutes O56: the packet's release of port 0 ends discovery, and the event of that (12, R312) is sent before the reply, so that the packets sent
are not the reply alone. -/
theorem not_writePacketsTakeEffect : ¬ Obligations.WritePacketsTakeEffect := by
  unfold Obligations.WritePacketsTakeEffect
  intro claimed
  obtain ⟨-, -, -, -, -, -, -, -, -, route, -⟩ := claimed 2 5 releasingReq.raw discovering
  obtain ⟨t, row, ⟨⟨sent, -⟩, -⟩, -⟩ := route accepted_releasingReq
  obtain rfl : observe (reply released releasingReq 0 0 [] true) = t := Host.Outcome.next.inj (exec_releasingReq.symm.trans row)
  have both := (replied_reply released releasingReq 0 0 [] true).1 (by decide)
  have alone := sent (by decide)
  rw [observe_mc, both] at alone
  have lengths := congrArg List.length alone
  rw [List.length_append, List.length_append, length_replies_released] at lengths
  exact absurd lengths (by decide)

end Sys2Proof.Machine
end

section
/-!
SUPPORT. The shared page pool (10, R256 to R260): its sequences as they are put and found, what the results of an operation show, and the
operation that a row ends.
-/

namespace Sys2Proof.Machine

/-! ### The sequences of a pool (R257) -/

/-- The entry of a sequence in a pool. -/
def Pool.entry (p : Pool) (q : Nat) : Option PSeq := p.seqs.find? (fun x => x.seq == q)

theorem Pool.seq_of_entry {p : Pool} {q : Nat} {x : PSeq} (found : p.entry q = some x) : x.seq = q := by
  simpa using List.find?_some found

theorem entry_putPseq_same (p : Pool) {x : PSeq} (tracked : x.tracked = true) : (putPseq p x).entry x.seq = some x := by
  have gone : (p.seqs.filter (fun y => y.seq != x.seq)).find? (fun y => y.seq == x.seq) = none := by simp
  simp [Pool.entry, putPseq, tracked, gone]

theorem entry_putPseq_other (p : Pool) (x : PSeq) {q : Nat} (ne : q ≠ x.seq) : (putPseq p x).entry q = p.entry q := by
  have kept : (p.seqs.filter (fun y => y.seq != x.seq)).find? (fun y => y.seq == q) = p.entry q := by
    rw [List.find?_filter, Pool.entry]
    congr 1
    funext y
    by_cases own : y.seq = q <;> simp [own, ne]
  have last : (x.seq == q) = false := by simpa using ne.symm
  by_cases tracked : x.tracked = true
  · rw [← kept]
    simp [Pool.entry, putPseq, tracked, last]
  · simpa [Pool.entry, putPseq, tracked] using kept

/-- A victim is another sequence than the one that asks. -/
theorem seq_ne_of_victim {p : Pool} {q : Nat} {v : PSeq} (victim : poolVictim p q = some v) : q ≠ v.seq := by
  unfold poolVictim at victim
  refine List.foldlRecOn (motive := fun a : Option PSeq => ∀ y, a = some y → q ≠ y.seq) _ _ (by simp) ?_ v victim
  intro a other x listed y chosen
  have apart : q ≠ x.seq := by
    have := (List.mem_filter.mp listed).2
    simp only [Bool.and_eq_true, bne_iff_ne] at this
    exact this.1.1.symm
  cases a with
  | none => cases chosen; exact apart
  | some z =>
    dsimp only at chosen
    split at chosen <;> cases chosen
    · exact apart
    · exact other _ rfl

theorem freePage_congr {s t : State} {p p' : Pool} (pages : poolPages t = poolPages s) (seqs : p'.seqs = p.seqs) : freePage t p' = freePage s p := by
  unfold freePage
  rw [pages, seqs]

/-! ### The results of an operation (10, MOD_PPOOL_RESULT, MOD_PPOOL_VICTIM) -/

section
variable (s : State) (status page : Nat)

@[simp] theorem poolResult_pool : (poolResult s status page).pool = s.pool := rfl

theorem fg_poolResult_status (code : status < 8) : fg (poolResult s status page) MOD_PPOOL_RESULT_STATUS 0 = status := by
  rw [poolResult, fg_fs_of_no _ _ _ _ _ _ (by decide), fg_fs_apart _ _ _ _ _ (by decide), fg_fs_same _ _ _ _ (by decide) (by decide)]
  exact Nat.mod_eq_of_lt code

theorem fg_poolResult_page : fg (poolResult s status page) MOD_PPOOL_RESULT_PAGE 0 = page % 2 ^ 14 := by
  rw [poolResult, fg_fs_of_no _ _ _ _ _ _ (by decide), fg_fs_same _ _ _ _ (by decide) (by decide)]
  rfl

theorem fg_poolResult_busy : fg (poolResult s status page) MOD_PPOOL_RESULT_BUSY 0 = fg s MOD_PPOOL_RESULT_BUSY 0 := by
  rw [poolResult, fg_fs_of_no _ _ _ _ _ _ (by decide), fg_fs_apart _ _ _ _ _ (by decide), fg_fs_apart _ _ _ _ _ (by decide)]

theorem fg_poolResult_victim : fg (poolResult s status page) MOD_PPOOL_VICTIM_VALID 0 = 0 := by
  rw [poolResult, fg_fs_same _ _ _ _ (by decide) (by decide)]
  rfl

theorem fg_poolResult_of_no (f : Fld) (i : Nat) (out : f.reg.no ≠ MOD_PPOOL_RESULT.no ∧ f.reg.no ≠ MOD_PPOOL_VICTIM.no) :
    fg (poolResult s status page) f i = fg s f i := by
  rw [poolResult, fg_fs_of_no _ _ _ _ _ _ out.2, fg_fs_of_no _ _ _ _ _ _ out.1, fg_fs_of_no _ _ _ _ _ _ out.1]

end

/-! ### A page given (R256, R257) -/

/-- The entry of a sequence once it is given a page. -/
def givenSeq (p : Pool) (q page : Nat) : PSeq :=
  let x := (p.entry q).getD { seq := q }
  { x with pages := x.pages ++ [page], evicted := false, pin := true, stamp := p.use }

theorem seq_givenSeq (p : Pool) (q page : Nat) : (givenSeq p q page).seq = q := by
  have own : ((p.entry q).getD { seq := q }).seq = q := by
    cases found : p.entry q with
    | none => rfl
    | some x => exact Pool.seq_of_entry found
  exact own

theorem tracked_givenSeq (p : Pool) (q page : Nat) : (givenSeq p q page).tracked = true := by simp [givenSeq, PSeq.tracked]

theorem pages_givenSeq (p : Pool) (q page : Nat) : (givenSeq p q page).pages = ((p.entry q).map PSeq.pages).getD [] ++ [page] := by
  unfold givenSeq
  cases p.entry q <;> rfl

section
variable (s : State) (p : Pool) (q page : Nat)

theorem poolGive_pool : (poolGive s p q page).pool = { putPseq p (givenSeq p q page) with use := (p.use + 1) % 2 ^ 32 } := rfl

theorem pseqOf_poolGive : pseqOf (poolGive s p q page) q = some (givenSeq p q page) := by
  have put := entry_putPseq_same p (tracked_givenSeq p q page)
  rw [seq_givenSeq] at put
  exact put

theorem fg_poolGive_of_no (f : Fld) (i : Nat) (out : f.reg.no ≠ MOD_PPOOL_CNT.no) : fg (poolGive s p q page) f i = fg s f i :=
  fg_fs_of_no s MOD_PPOOL_CNT_REPREFILL f 0 i _ out

theorem fg_poolGive_evict : fg (poolGive s p q page) MOD_PPOOL_CNT_EVICT 0 = fg s MOD_PPOOL_CNT_EVICT 0 :=
  fg_fs_apart s MOD_PPOOL_CNT_REPREFILL MOD_PPOOL_CNT_EVICT 0 _ (by decide)

end

/-- Sequence q of pool p has been given a page, the newest of its stamps. -/
def PageGiven (t : State) (p : Pool) (q page : Nat) : Prop :=
  fg t MOD_PPOOL_RESULT_PAGE 0 = page % 2 ^ 14 ∧ t.pool.use = (p.use + 1) % 2 ^ 32 ∧
    ∃ x, pseqOf t q = some x ∧ x.pages = ((p.entry q).map PSeq.pages).getD [] ++ [page] ∧ x.pin = true ∧ x.evicted = false ∧ x.stamp = p.use

theorem PageGiven.congr {t : State} {p p' : Pool} {q page : Nat} (h : PageGiven t p q page) (use : p'.use = p.use) (entry : p'.entry q = p.entry q) :
    PageGiven t p' q page := by
  unfold PageGiven
  rwa [use, entry]

theorem pageGiven_poolGive {s : State} (p : Pool) (q : Nat) {page : Nat} (shown : fg s MOD_PPOOL_RESULT_PAGE 0 = page % 2 ^ 14) :
    PageGiven (poolGive s p q page) p q page :=
  ⟨(fg_poolGive_of_no s p q page _ 0 (by decide)).trans shown, rfl, _, pseqOf_poolGive s p q page, pages_givenSeq p q page, rfl, rfl, rfl⟩

/-! ### ALLOC by its cases (R256, R257) -/

section
variable {s : State} {q : Nat}

theorem poolAlloc_full (full : ¬((pseqOf s q).isSome = true ∨ s.pool.seqs.length < 4096)) : poolAlloc s q = poolResult (poolUse s) 3 0 := by
  obtain ⟨new, many⟩ := not_or.mp full
  have refused : ((pseqOf s q).isNone && decide (s.pool.seqs.length ≥ 4096)) = true := by simp_all
  rw [poolAlloc, if_pos refused]

variable (tracked : (pseqOf s q).isSome = true ∨ s.pool.seqs.length < 4096)
include tracked

theorem not_refused_of_tracked : ¬((pseqOf s q).isNone && decide (s.pool.seqs.length ≥ 4096)) = true := by
  rcases tracked with known | few
  · simp [Option.isSome_iff_ne_none.mp known]
  · simp [few]

theorem poolAlloc_free {n : Nat} (free : freePage s s.pool = some n) : poolAlloc s q = poolGive (poolResult s 0 n) s.pool q n := by
  rw [poolAlloc, if_neg (not_refused_of_tracked tracked), free]

theorem poolAlloc_pinned (taken : freePage s s.pool = none) (pinned : poolVictim s.pool q = none) : poolAlloc s q = poolResult s 2 0 := by
  rw [poolAlloc, if_neg (not_refused_of_tracked tracked), taken, pinned]

/-- The result of an ALLOC that evicts sequence v. -/
def evictShown (s : State) (v page : Nat) : State :=
  bump (fs (fs (poolResult s 1 page) MOD_PPOOL_VICTIM_VALID 0 1) MOD_PPOOL_VICTIM_SEQ 0 v) MOD_PPOOL_CNT_EVICT 0 1

theorem poolAlloc_evicts {v : PSeq} {n : Nat} (taken : freePage s s.pool = none) (victim : poolVictim s.pool q = some v)
    (free : freePage s (putPseq s.pool { v with pages := [], evicted := true }) = some n) :
    poolAlloc s q = poolGive (evictShown s v.seq n) (putPseq s.pool { v with pages := [], evicted := true }) q n := by
  rw [poolAlloc, if_neg (not_refused_of_tracked tracked), taken, victim]
  simp only [free]
  rfl

end

section
variable (s : State) (v page : Nat)

theorem fg_evictShown_of_no (f : Fld) (i : Nat) (out : f.reg.no ≠ MOD_PPOOL_CNT.no ∧ f.reg.no ≠ MOD_PPOOL_VICTIM.no) :
    fg (evictShown s v page) f i = fg (poolResult s 1 page) f i := by
  rw [evictShown, bump, fg_fs_of_no _ _ _ _ _ _ out.1, fg_fs_of_no _ _ _ _ _ _ out.2, fg_fs_of_no _ _ _ _ _ _ out.2]

theorem fg_evictShown_valid : fg (evictShown s v page) MOD_PPOOL_VICTIM_VALID 0 = 1 := by
  rw [evictShown, bump, fg_fs_of_no _ _ _ _ _ _ (by decide), fg_fs_apart _ _ _ _ _ (by decide)]
  exact fg_fs_flag _ _ _ (by decide)

theorem fg_evictShown_seq : fg (evictShown s v page) MOD_PPOOL_VICTIM_SEQ 0 = v % 2 ^ 16 := by
  rw [evictShown, bump, fg_fs_of_no _ _ _ _ _ _ (by decide), fg_fs_same _ _ _ _ (by decide) (by decide)]
  rfl

theorem fg_evictShown_count : fg (evictShown s v page) MOD_PPOOL_CNT_EVICT 0 = min (2 ^ 16 - 1) (fg s MOD_PPOOL_CNT_EVICT 0 + 1) := by
  rw [evictShown, fg_bump_same _ _ _ _ (by decide), fg_fs_of_no _ _ _ _ _ _ (by decide), fg_fs_of_no _ _ _ _ _ _ (by decide),
    fg_poolResult_of_no _ _ _ _ _ (by decide)]
  rfl

end

/-! ### The operation that a row ends (R256; log 51) -/

/-- The state in which an operation's effect is made: none is in progress any more, and BUSY reads 0. -/
def poolEnded (s : State) : State := fs { s with pool := { s.pool with op := none } } MOD_PPOOL_RESULT_BUSY 0 0

/-- What state u, in which an operation's effect is made, has of the state s in which its row came. -/
structure OpEnds (s u : State) : Prop where
  pool : u.pool = { s.pool with op := none }
  busy : fg u MOD_PPOOL_RESULT_BUSY 0 = 0
  field : ∀ (f : Fld) (i : Nat), f.reg.no ≠ MOD_PPOOL_RESULT.no → fg u f i = fg s f i

theorem opEnds_poolEnded {s u : State} (seqs : u.pool.seqs = s.pool.seqs) (use : u.pool.use = s.pool.use)
    (field : ∀ (f : Fld) (i : Nat), f.reg.no ≠ MOD_PPOOL_RESULT.no → fg u f i = fg s f i) : OpEnds s (poolEnded u) where
  pool := by
    have left : (poolEnded u).pool = ⟨u.pool.seqs, u.pool.use, none⟩ := rfl
    rw [left, seqs, use]
  busy := by
    rw [poolEnded, fg_fs_same _ _ _ _ (by decide) (by decide)]
    rfl
  field f i out := (fg_fs_of_no _ _ _ _ _ _ out).trans (field f i out)

/-- A row whose operation is in progress, or that finds none in progress, ends its operation. -/
theorem poolRow_ends {s : State} {k q : Nat} (mine : s.pool.op = none ∨ s.pool.op = some (k, q)) :
    ∃ u, OpEnds s (poolEnded u) ∧ poolRow s k q = poolOp u k q := by
  rcases mine with none | own
  · have begun : writePoolOp s k q = fs { s with pool := { s.pool with op := some (k, q) } } MOD_PPOOL_RESULT_BUSY 0 1 := by simp [writePoolOp, none]
    refine ⟨writePoolOp s k q, ?_, ?_⟩
    · rw [begun]
      exact opEnds_poolEnded rfl rfl fun f i out => fg_fs_of_no _ _ _ _ _ _ out
    · simp only [poolRow, none]
      rw [begun]
      rfl
  · exact ⟨s, opEnds_poolEnded rfl rfl fun _ _ _ => rfl, by simp [poolRow, endPoolOp, own]⟩

/-- A row that names another operation than the one in progress is refused. -/
theorem poolRow_refused {s : State} {k q : Nat} {o : Nat × Nat} (own : s.pool.op = some o) (other : o.1 ≠ k ∨ (o.2 ≠ q ∧ k ≠ 4)) :
    poolRow s k q = fs s MOD_PPOOL_CFG_REFUSED 0 1 := by
  have apart : ¬(o.1 = k ∧ (o.2 = q ∨ k = 4)) := by tauto
  simp [poolRow, own, apart, writePoolOp]

/-- The rows of the pool's operations, with the code of each. -/
def poolRows (q : Nat) : List (Instr × Nat) := [(.alloc q, 1), (.touch q, 2), (.free q, 3), (.unpinAll q, 4)]

theorem exec_poolRow {i : Instr} {k q : Nat} (listed : (i, k) ∈ poolRows q) (small : q < 2 ^ 16) (s : State) : exec i s = .next (poolRow s k q) := by
  have same : exec i s = .next (poolRow s k (q % 2 ^ 16)) := by
    simp only [poolRows, List.mem_cons, List.not_mem_nil, or_false, Prod.mk.injEq] at listed
    rcases listed with ⟨rfl, rfl⟩ | ⟨rfl, rfl⟩ | ⟨rfl, rfl⟩ | ⟨rfl, rfl⟩ <;> rfl
  rw [same, Nat.mod_eq_of_lt small]

theorem gives_poolRow {i : Instr} {k q : Nat} (listed : (i, k) ∈ poolRows q) (small : q < 2 ^ 16) {s : State}
    (mine : s.pool.op = none ∨ s.pool.op = some (k, q)) {P : State → Prop} (does : ∀ u, OpEnds s (poolEnded u) → P (poolOp u k q)) :
    Gives i s P := by
  obtain ⟨u, ends, row⟩ := poolRow_ends mine
  exact gives_next ((exec_poolRow listed small s).trans (congrArg _ row)) (does u ends)

/-! ### What each operation leaves (R256, R257) -/

section
variable {s u : State} (ends : OpEnds s u)
include ends

theorem OpEnds.pseqOf (q : Nat) : pseqOf u q = pseqOf s q := by
  unfold Machine.pseqOf
  rw [ends.pool]

theorem OpEnds.poolPages : poolPages u = poolPages s := ends.field MOD_PPOOL_CFG_PAGES 0 (by decide)

theorem OpEnds.freePage {p p' : Pool} (seqs : p'.seqs = p.seqs) : freePage u p' = freePage s p := freePage_congr ends.poolPages seqs

theorem OpEnds.tracked {q : Nat} (tracked : (Machine.pseqOf s q).isSome = true ∨ s.pool.seqs.length < 4096) :
    (Machine.pseqOf u q).isSome = true ∨ u.pool.seqs.length < 4096 := by
  rwa [ends.pseqOf, ends.pool]

/-- An operation that only shows a result of its own. -/
theorem OpEnds.result (status page : Nat) (code : status < 8) : fg (poolResult u status page) MOD_PPOOL_RESULT_STATUS 0 = status ∧
    (poolResult u status page).pool = { s.pool with op := none } ∧ fg (poolResult u status page) MOD_PPOOL_RESULT_BUSY 0 = 0 :=
  ⟨fg_poolResult_status u status page code, ends.pool, (fg_poolResult_busy u status page).trans ends.busy⟩

theorem OpEnds.alloc_free {q n : Nat} (tracked : (Machine.pseqOf s q).isSome = true ∨ s.pool.seqs.length < 4096)
    (free : Machine.freePage s s.pool = some n) :
    let t := poolAlloc u q
    fg t MOD_PPOOL_RESULT_STATUS 0 = 0 ∧ PageGiven t s.pool q n ∧ fg t MOD_PPOOL_VICTIM_VALID 0 = 0 ∧
      t.pool.op = none ∧ fg t MOD_PPOOL_RESULT_BUSY 0 = 0 := by
  have there : Machine.freePage u u.pool = some n := (ends.freePage (by rw [ends.pool])).trans free
  rw [poolAlloc_free (ends.tracked tracked) there, ends.pool]
  refine ⟨?_, pageGiven_poolGive { s.pool with op := none } q (fg_poolResult_page u 0 n), ?_, rfl, ?_⟩
  · rw [fg_poolGive_of_no _ _ _ _ _ _ (by decide), fg_poolResult_status _ _ _ (by decide)]
  · rw [fg_poolGive_of_no _ _ _ _ _ _ (by decide), fg_poolResult_victim]
  · rw [fg_poolGive_of_no _ _ _ _ _ _ (by decide), fg_poolResult_busy, ends.busy]

theorem OpEnds.alloc_evicts {q n : Nat} {v : PSeq} (tracked : (Machine.pseqOf s q).isSome = true ∨ s.pool.seqs.length < 4096)
    (taken : Machine.freePage s s.pool = none) (victim : poolVictim s.pool q = some v)
    (free : Machine.freePage s (putPseq s.pool { v with pages := [], evicted := true }) = some n) :
    let t := poolAlloc u q
    fg t MOD_PPOOL_RESULT_STATUS 0 = 1 ∧ PageGiven t s.pool q n ∧ fg t MOD_PPOOL_VICTIM_VALID 0 = 1 ∧ fg t MOD_PPOOL_VICTIM_SEQ 0 = v.seq % 2 ^ 16 ∧
      fg t MOD_PPOOL_CNT_EVICT 0 = min (2 ^ 16 - 1) (fg s MOD_PPOOL_CNT_EVICT 0 + 1) ∧ t.pool.op = none ∧ fg t MOD_PPOOL_RESULT_BUSY 0 = 0 := by
  have here : Machine.freePage u u.pool = none := (ends.freePage (by rw [ends.pool])).trans taken
  have chosen : poolVictim u.pool q = some v := by rw [ends.pool]; exact victim
  have there : Machine.freePage u (putPseq u.pool { v with pages := [], evicted := true }) = some n :=
    (ends.freePage (by rw [ends.pool]; rfl)).trans free
  rw [poolAlloc_evicts (ends.tracked tracked) here chosen there, ends.pool]
  have page : fg (evictShown u v.seq n) MOD_PPOOL_RESULT_PAGE 0 = n % 2 ^ 14 := by
    rw [fg_evictShown_of_no _ _ _ _ _ (by decide), fg_poolResult_page]
  have other : q ≠ v.seq := seq_ne_of_victim victim
  have apart := entry_putPseq_other s.pool { v with pages := [], evicted := true } other
  refine ⟨?_, (pageGiven_poolGive _ q page).congr rfl apart.symm, ?_, ?_, ?_, rfl, ?_⟩
  · rw [fg_poolGive_of_no _ _ _ _ _ _ (by decide), fg_evictShown_of_no _ _ _ _ _ (by decide), fg_poolResult_status _ _ _ (by decide)]
  · rw [fg_poolGive_of_no _ _ _ _ _ _ (by decide), fg_evictShown_valid]
  · rw [fg_poolGive_of_no _ _ _ _ _ _ (by decide), fg_evictShown_seq]
  · rw [fg_poolGive_evict, fg_evictShown_count, ends.field _ _ (by decide)]
  · rw [fg_poolGive_of_no _ _ _ _ _ _ (by decide), fg_evictShown_of_no _ _ _ _ _ (by decide), fg_poolResult_busy, ends.busy]

theorem OpEnds.alloc_pinned {q : Nat} (tracked : (Machine.pseqOf s q).isSome = true ∨ s.pool.seqs.length < 4096)
    (taken : Machine.freePage s s.pool = none) (pinned : poolVictim s.pool q = none) : poolAlloc u q = poolResult u 2 0 :=
  poolAlloc_pinned (ends.tracked tracked) ((ends.freePage (by rw [ends.pool])).trans taken) (by rw [ends.pool]; exact pinned)

theorem OpEnds.alloc_full {q : Nat} (full : ¬((Machine.pseqOf s q).isSome = true ∨ s.pool.seqs.length < 4096)) :
    poolAlloc u q = poolResult (poolUse u) 3 0 :=
  poolAlloc_full (by rwa [ends.pseqOf, ends.pool])

theorem OpEnds.touch_known {q : Nat} {x : PSeq} (known : Machine.pseqOf s q = some x) (tracked : x.tracked = true) :
    let t := poolTouch u q
    fg t MOD_PPOOL_RESULT_STATUS 0 = (if x.evicted then 4 else 0) ∧ Machine.pseqOf t q = some { x with stamp := s.pool.use, pin := true } ∧
      t.pool.use = (s.pool.use + 1) % 2 ^ 32 ∧ t.pool.op = none ∧ fg t MOD_PPOOL_RESULT_BUSY 0 = 0 := by
  have here : Machine.pseqOf u q = some x := (ends.pseqOf q).trans known
  obtain rfl : x.seq = q := Pool.seq_of_entry known
  have put := entry_putPseq_same { s.pool with op := none } (x := { x with stamp := s.pool.use, pin := true }) tracked
  simp only [poolTouch, here, ends.pool]
  refine ⟨fg_poolResult_status _ _ _ (by split <;> decide), put, rfl, rfl, ?_⟩
  rw [fg_poolResult_busy]
  exact ends.busy

theorem OpEnds.touch_unknown {q : Nat} (unknown : Machine.pseqOf s q = none) : poolTouch u q = poolResult (poolUse u) 0 0 := by
  simp only [poolTouch, ends.pseqOf, unknown]

theorem OpEnds.release (q : Nat) :
    let t := poolRelease u q
    fg t MOD_PPOOL_RESULT_STATUS 0 = 0 ∧ Machine.pseqOf t q = none ∧ t.pool.use = s.pool.use ∧ t.pool.op = none ∧ fg t MOD_PPOOL_RESULT_BUSY 0 = 0 := by
  simp only [poolRelease, ends.pool]
  refine ⟨fg_poolResult_status _ _ _ (by decide), ?_, rfl, rfl, (fg_poolResult_busy _ _ _).trans ends.busy⟩
  simp [Machine.pseqOf]

theorem OpEnds.unpin :
    let t := poolUnpin u
    fg t MOD_PPOOL_RESULT_STATUS 0 = 0 ∧ (∀ x ∈ t.pool.seqs, x.pin = false) ∧ t.pool.seqs.map PSeq.pages = s.pool.seqs.map PSeq.pages ∧
      t.pool.op = none ∧ fg t MOD_PPOOL_RESULT_BUSY 0 = 0 := by
  simp only [poolUnpin, ends.pool]
  refine ⟨fg_poolResult_status _ _ _ (by decide), ?_, ?_, rfl, (fg_poolResult_busy _ _ _).trans ends.busy⟩
  · simp
  · simp [Function.comp_def]

end

/-! ### The effect by the enable -/

section
variable {u : State} {q : Nat}

theorem poolOp_disabled (k : Nat) (off : fg (poolEnded u) MOD_PPOOL_CFG_EN 0 = 0) : poolOp u k q = poolResult (poolEnded u) 5 0 := if_pos off

variable (on : fg (poolEnded u) MOD_PPOOL_CFG_EN 0 = 1) (small : q < 2 ^ 16)
include on

theorem poolOp_unpinAll : poolOp u 4 q = poolUnpin (poolEnded u) := if_neg (by rw [← poolEnded, on]; decide)

include small

theorem poolOp_alloc : poolOp u 1 q = poolAlloc (poolEnded u) q :=
  (if_neg (by rw [← poolEnded, on]; decide)).trans (congrArg (poolAlloc (poolEnded u)) (Nat.mod_eq_of_lt small))

theorem poolOp_touch : poolOp u 2 q = poolTouch (poolEnded u) q :=
  (if_neg (by rw [← poolEnded, on]; decide)).trans (congrArg (poolTouch (poolEnded u)) (Nat.mod_eq_of_lt small))

theorem poolOp_free : poolOp u 3 q = poolRelease (poolEnded u) q :=
  (if_neg (by rw [← poolEnded, on]; decide)).trans (congrArg (poolRelease (poolEnded u)) (Nat.mod_eq_of_lt small))

end

end Sys2Proof.Machine
end

section
/-!
SUPPORT. The registers of the page pool written (10, R256, R260), and the state writes of the Tier 2 slots (10, R251).
-/

namespace Sys2Proof.Machine

/-! ### MOD_PPOOL_OP written (R256) -/

theorem writeReg_poolOp (s : State) (v : Word) (locked : Bool) :
    writeReg s MOD_PPOOL_OP 0 v locked = writePoolOp s (fieldIn v MOD_PPOOL_OP_OP) (fieldIn v MOD_PPOOL_OP_SEQ) := rfl

section
variable {off : Nat} {value : Word} {s : State} (aligned : off % 4 = 0) (notMem : busMem s off = .none) (at' : regAt off = some (MOD_PPOOL_OP, 0))
  (idle : McIdle s)
include aligned notMem at' idle

theorem exec_registerWrite_poolOp : exec (.registerWrite off value []) s =
    .next (observe (writePoolOp s (fieldIn value MOD_PPOOL_OP_OP) (fieldIn value MOD_PPOOL_OP_SEQ))) := by
  have written := (busWrite_of_regAt s off value false aligned notMem at' rfl).trans (writeReg_poolOp s value false)
  have kept : (writePoolOp s (fieldIn value MOD_PPOOL_OP_OP) (fieldIn value MOD_PPOOL_OP_SEQ)).mc = s.mc ∧
      (writePoolOp s (fieldIn value MOD_PPOOL_OP_OP) (fieldIn value MOD_PPOOL_OP_SEQ)).store = s.store := by
    unfold writePoolOp
    split <;> exact ⟨rfl, rfl⟩
  exact (exec_registerWrite off value [] s).trans (congrArg Host.Outcome.next (serveAll_busStep_of_idle s _ off value idle written kept.1 kept.2))

theorem registerWrite_poolOp_begins (free : s.pool.op = none) : Gives (.registerWrite off value []) s fun t =>
    fg t MOD_PPOOL_RESULT_BUSY 0 = 1 ∧
      t.pool = { s.pool with op := some (fieldIn value MOD_PPOOL_OP_OP, fieldIn value MOD_PPOOL_OP_SEQ) } ∧ RegsKept s t [(MOD_PPOOL_RESULT, 0)] := by
  refine gives_next (exec_registerWrite_poolOp aligned notMem at' idle) ?_
  rw [writePoolOp, if_neg (by simp [free]), fg_observe, observe_pool]
  exact ⟨fg_fs_flag _ _ _ (by decide), rfl, (fs_regsKept _ MOD_PPOOL_RESULT_BUSY 0 1).observe⟩

theorem registerWrite_poolOp_refused (busy : s.pool.op ≠ none) : Gives (.registerWrite off value []) s fun t =>
    fg t MOD_PPOOL_CFG_REFUSED 0 = 1 ∧ t.pool = s.pool ∧ RegsKept s t [(MOD_PPOOL_CFG, 0)] := by
  refine gives_next (exec_registerWrite_poolOp aligned notMem at' idle) ?_
  rw [writePoolOp, if_pos (Option.isSome_iff_ne_none.mpr busy), fg_observe, observe_pool]
  exact ⟨fg_fs_flag _ _ _ (by decide), rfl, (fs_regsKept s MOD_PPOOL_CFG_REFUSED 0 1).observe⟩

end

/-! ### The pool enabled (R260) -/

/-- The configuration as a write leaves it before the checks of an enabling, EN still 0. -/
def poolSet (s : State) (v : Word) : State := writeFields s MOD_PPOOL_CFG 0 (withField v 31 31 0)

/-- A field of code RW takes the value written. -/
theorem fg_writeFields_rw (s : State) (f : Fld) (i : Nat) (v : Word) (reset : Nat) (tidy : f.reg.tidy = true)
    (mem : ⟨f.hi, f.lo, .rw, reset⟩ ∈ f.reg.fields) : fg (writeFields s f.reg i v) f i = fieldIn v f :=
  fg_writeFields s f i v .rw reset tidy mem

section
variable (s : State) (v : Word)

theorem poolSet_regsKept : RegsKept s (poolSet s v) [(MOD_PPOOL_CFG, 0)] := wr_regsKept s MOD_PPOOL_CFG 0 _

theorem fg_poolSet_en : fg (poolSet s v) MOD_PPOOL_CFG_EN 0 = 0 :=
  (fg_writeFields_rw s MOD_PPOOL_CFG_EN 0 _ 0 (by decide) (by decide)).trans (fieldIn_top v 0 _ rfl rfl)

theorem poolPages_poolSet : poolPages (poolSet s v) = fieldIn v MOD_PPOOL_CFG_PAGES :=
  (fg_writeFields_rw s MOD_PPOOL_CFG_PAGES 0 _ 0 (by decide) (by decide)).trans (fieldIn_withTop v 0 _ (by decide) (by decide))

theorem fg_poolSet_units : fg (poolSet s v) MOD_PPOOL_CFG_PAGE_UNITS 0 = fieldIn v MOD_PPOOL_CFG_PAGE_UNITS :=
  (fg_writeFields_rw s MOD_PPOOL_CFG_PAGE_UNITS 0 _ 0 (by decide) (by decide)).trans (fieldIn_withTop v 0 _ (by decide) (by decide))

theorem poolBase_poolSet : poolBase (poolSet s v) = poolBase s := by
  unfold poolBase poolSet writeFields
  rw [fg_wr_of_no _ _ _ _ _ _ (by decide), fg_wr_of_no _ _ _ _ _ _ (by decide)]

theorem fg_resetPool (s : State) (f : Fld) (i : Nat) : fg (resetPool s) f i = fg s f i := rfl

theorem RegsKept.resetPool {s t : State} {but : List (Reg × Nat)} (h : RegsKept s t but) : RegsKept s (resetPool t) but := h

theorem poolFree_of_empty {s : State} (empty : s.pool.seqs = []) : poolFree s = poolPages s := by simp [poolFree, empty, sumNat]

/-- An enabling that fails the size checks. -/
def PoolBad (s : State) (v : Word) : Prop := fieldIn v MOD_PPOOL_CFG_PAGES = 0 ∨ fieldIn v MOD_PPOOL_CFG_PAGE_UNITS = 0 ∨
  tier1Size < poolBase s + fieldIn v MOD_PPOOL_CFG_PAGES * fieldIn v MOD_PPOOL_CFG_PAGE_UNITS * 65536

end

section
variable {s : State} {v : Word} (off : fg s MOD_PPOOL_CFG_EN 0 = 0)
include off

theorem writePoolCfg_bad (bad : PoolBad s v) : writePoolCfg s (withField v 31 31 1) = fs (poolSet s v) MOD_PPOOL_CFG_REFUSED 0 1 := by
  unfold PoolBad at bad
  have set : writeFields s MOD_PPOOL_CFG 0 (withField v 31 31 0) = poolSet s v := rfl
  unfold writePoolCfg
  simp only [off, fieldIn_top v 1 MOD_PPOOL_CFG_EN rfl rfl, withField_top_top, set, poolPages_poolSet, fg_poolSet_units, poolBase_poolSet]
  simp [bad]

theorem writePoolCfg_good (good : ¬PoolBad s v) : writePoolCfg s (withField v 31 31 1) = resetPool (fs (poolSet s v) MOD_PPOOL_CFG_EN 0 1) := by
  unfold PoolBad at good
  have set : writeFields s MOD_PPOOL_CFG 0 (withField v 31 31 0) = poolSet s v := rfl
  unfold writePoolCfg
  simp only [off, fieldIn_top v 1 MOD_PPOOL_CFG_EN rfl rfl, withField_top_top, set, poolPages_poolSet, fg_poolSet_units, poolBase_poolSet]
  simp [good]

theorem poolEnable_empties (good : ¬PoolBad s v) : Gives (.poolEnable v) s fun t =>
    fg t MOD_PPOOL_CFG_EN 0 = 1 ∧ poolPages t = fieldIn v MOD_PPOOL_CFG_PAGES ∧ poolFree t = fieldIn v MOD_PPOOL_CFG_PAGES ∧
      t.pool = { op := s.pool.op } ∧ RegsKept s t [(MOD_PPOOL_CFG, 0)] ∧ t.mem = s.mem := by
  have pages : poolPages (resetPool (fs (poolSet s v) MOD_PPOOL_CFG_EN 0 1)) = fieldIn v MOD_PPOOL_CFG_PAGES := by
    rw [poolPages, fg_resetPool, fg_fs_apart _ MOD_PPOOL_CFG_EN MOD_PPOOL_CFG_PAGES 0 1 (by decide)]
    exact poolPages_poolSet s v
  have kept := (poolSet_regsKept s v).fs (f := MOD_PPOOL_CFG_EN) 1 (List.mem_singleton.mpr rfl)
  refine gives_next (congrArg Host.Outcome.next (writePoolCfg_good off good)) ⟨?_, pages, (poolFree_of_empty rfl).trans pages, rfl, kept.resetPool, rfl⟩
  rw [fg_resetPool]
  exact fg_fs_flag _ _ _ (by decide)

theorem poolEnable_refused (bad : PoolBad s v) : Gives (.poolEnable v) s fun t =>
    fg t MOD_PPOOL_CFG_EN 0 = 0 ∧ fg t MOD_PPOOL_CFG_REFUSED 0 = 1 ∧ t.pool = s.pool ∧ RegsKept s t [(MOD_PPOOL_CFG, 0)] := by
  refine gives_next (congrArg Host.Outcome.next (writePoolCfg_bad off bad)) ⟨?_, fg_fs_flag _ _ _ (by decide), rfl, ?_⟩
  · rw [fg_fs_apart _ _ _ _ _ (by decide), fg_poolSet_en]
  · exact (poolSet_regsKept s v).fs (f := MOD_PPOOL_CFG_REFUSED) 1 (List.mem_singleton.mpr rfl)

end

/-! ### The state writes of the slots (R251) -/

/-- The units of a slot that is opened leave Tier 2, are none, or meet those of a slot that is not CLOSED. -/
def SlotClash (s : State) (k : Nat) : Prop :=
  (slotUnits s k).2 = 0 ∨ 63488 < (slotUnits s k).1 + (slotUnits s k).2 ∨
    ∃ j, j < 16 ∧ j ≠ k ∧ slotState s j ≠ 0 ∧ overlaps (slotUnits s k) (slotUnits s j) = true

/-- The cases in which a state write is refused. -/
def SlotRefuses (s : State) (k goal : Nat) : Prop :=
  let st := slotState s k
  let busyR := fg s MOD_T2SLOT_USE_READERS k ≠ 0
  let busyW := fg s MOD_T2SLOT_USE_WRITERS k ≠ 0
  (st = 0 ∧ goal = 1 ∧ SlotClash s k) ∨ (st = 1 ∧ goal = 2 ∧ (busyW ∨ fg s MOD_T2SLOT_CTL_INVALID k = 1)) ∨ (st = 2 ∧ goal = 1 ∧ busyR) ∨
    (st = 1 ∧ goal = 0 ∧ busyW) ∨ (st = 2 ∧ goal = 0 ∧ busyR) ∨ (st = 0 ∧ goal = 2) ∨ (st = 3 ∧ goal ≠ 3)

theorem slotState_lt (s : State) (k : Nat) : slotState s k < 4 := fg_lt s MOD_T2SLOT_CTL_STATE k

theorem slotRefused_iff (s : State) (k : Nat) {goal : Nat} (known : goal < 3) : slotRefused s k goal = true ↔ SlotRefuses s k goal := by
  have range := slotState_lt s k
  unfold slotRefused SlotRefuses SlotClash
  dsimp only
  interval_cases slotState s k <;> interval_cases goal <;> simp [or_assoc, and_assoc]

/-- The slot's register once its W1C bit and, in an OPEN slot, its VERSION are written. -/
def slotVersioned (s : State) (k : Nat) (v : Word) : State :=
  if slotState s k = 1 then fs (clearBits s MOD_T2SLOT_CTL k v) MOD_T2SLOT_CTL_VERSION k (fieldIn v MOD_T2SLOT_CTL_VERSION)
  else clearBits s MOD_T2SLOT_CTL k v

/-- A refused state, or a VERSION that the slot does not take, noted. -/
def slotNoted (s : State) (k : Nat) (v : Word) : State :=
  if slotRefused s k (fieldIn v MOD_T2SLOT_CTL_STATE) ||
      (slotState s k != 1 && fieldIn v MOD_T2SLOT_CTL_VERSION != fg s MOD_T2SLOT_CTL_VERSION k) then
    fs (slotVersioned s k v) MOD_T2SLOT_CTL_REFUSED k 1
  else slotVersioned s k v

/-- The slot's state changed; opening clears INVALID. -/
def slotMoved (s : State) (k goal : Nat) : State :=
  if goal = 1 then fs (fs s MOD_T2SLOT_CTL_STATE k goal) MOD_T2SLOT_CTL_INVALID k 0 else fs s MOD_T2SLOT_CTL_STATE k goal

theorem writeSlotCtl_eq (s : State) (k : Nat) (v : Word) : writeSlotCtl s k v =
    if slotRefused s k (fieldIn v MOD_T2SLOT_CTL_STATE) || fieldIn v MOD_T2SLOT_CTL_STATE == slotState s k then slotNoted s k v
    else slotMoved (slotNoted s k v) k (fieldIn v MOD_T2SLOT_CTL_STATE) := rfl

theorem clearBits_slot (s : State) (k : Nat) (v : Word) : clearBits s MOD_T2SLOT_CTL k v = fs s MOD_T2SLOT_CTL_REFUSED k
    (fg s MOD_T2SLOT_CTL_REFUSED k - (fg s MOD_T2SLOT_CTL_REFUSED k &&& fieldIn v MOD_T2SLOT_CTL_REFUSED)) := rfl

/-- What a write of the slot's register leaves alone: memory, and every other register. -/
def SlotKept (k : Nat) (s t : State) : Prop := RegsKept s t [(MOD_T2SLOT_CTL, k)] ∧ t.mem = s.mem

theorem SlotKept.fs {k : Nat} {s t : State} (h : SlotKept k s t) {f : Fld} (own : f.reg = MOD_T2SLOT_CTL) (v : Nat) : SlotKept k s (fs t f k v) :=
  ⟨h.1.fs v (by simp [own]), h.2⟩

section
variable (s : State) (k : Nat) (v : Word)

theorem slotKept_slotVersioned : SlotKept k s (slotVersioned s k v) := by
  have cleared : SlotKept k s (clearBits s MOD_T2SLOT_CTL k v) := ⟨wr_regsKept s MOD_T2SLOT_CTL k _, rfl⟩
  unfold slotVersioned
  split
  · exact cleared.fs rfl _
  · exact cleared

theorem slotKept_slotNoted : SlotKept k s (slotNoted s k v) := by
  unfold slotNoted
  split
  · exact (slotKept_slotVersioned s k v).fs rfl 1
  · exact slotKept_slotVersioned s k v

theorem slotKept_writeSlotCtl : SlotKept k s (writeSlotCtl s k v) := by
  have noted := slotKept_slotNoted s k v
  rw [writeSlotCtl_eq]
  unfold slotMoved
  split
  · exact noted
  · split
    · exact (noted.fs rfl _).fs rfl 0
    · exact noted.fs rfl _

/-- The fields that share no bit with REFUSED or VERSION. -/
theorem fg_slotNoted_apart (f : Fld) (apart : f ∈ [ MOD_T2SLOT_CTL_STATE, MOD_T2SLOT_CTL_INVALID]) : fg (slotNoted s k v) f k = fg s f k := by
  have flag : ∀ (t : State) (x : Nat), fg (fs t MOD_T2SLOT_CTL_REFUSED k x) f k = fg t f k := fun t x =>
    fg_fs_apart t MOD_T2SLOT_CTL_REFUSED f k x (by revert f; decide)
  have version : ∀ (t : State) (x : Nat), fg (fs t MOD_T2SLOT_CTL_VERSION k x) f k = fg t f k := fun t x =>
    fg_fs_apart t MOD_T2SLOT_CTL_VERSION f k x (by clear flag; revert f; decide)
  unfold slotNoted slotVersioned
  rw [clearBits_slot]
  split <;> split <;> simp only [flag, version]

theorem fg_slotNoted_version : fg (slotNoted s k v) MOD_T2SLOT_CTL_VERSION k =
    if slotState s k = 1 then fieldIn v MOD_T2SLOT_CTL_VERSION else fg s MOD_T2SLOT_CTL_VERSION k := by
  have flag : ∀ (t : State) (x : Nat), fg (fs t MOD_T2SLOT_CTL_REFUSED k x) MOD_T2SLOT_CTL_VERSION k = fg t MOD_T2SLOT_CTL_VERSION k :=
    fun t x => fg_fs_apart t _ _ k x (by decide)
  have versioned : fg (slotVersioned s k v) MOD_T2SLOT_CTL_VERSION k =
      if slotState s k = 1 then fieldIn v MOD_T2SLOT_CTL_VERSION else fg s MOD_T2SLOT_CTL_VERSION k := by
    unfold slotVersioned
    rw [clearBits_slot]
    split
    · rw [fg_fs_same _ _ _ _ (by decide) (by decide)]
      exact Nat.mod_eq_of_lt (fieldOf_lt v _ _)
    · exact flag _ _
  rw [← versioned]
  unfold slotNoted
  split
  · exact flag _ _
  · rfl

theorem fg_writeSlotCtl_version : fg (writeSlotCtl s k v) MOD_T2SLOT_CTL_VERSION k =
    if slotState s k = 1 then fieldIn v MOD_T2SLOT_CTL_VERSION else fg s MOD_T2SLOT_CTL_VERSION k := by
  rw [← fg_slotNoted_version, writeSlotCtl_eq]
  unfold slotMoved
  split
  · rfl
  · split
    · rw [fg_fs_apart _ _ _ _ _ (by decide), fg_fs_apart _ _ _ _ _ (by decide)]
    · rw [fg_fs_apart _ _ _ _ _ (by decide)]

/-- A refused write keeps the slot's state and sets REFUSED. -/
theorem writeSlotCtl_refused (refused : slotRefused s k (fieldIn v MOD_T2SLOT_CTL_STATE) = true) :
    slotState (writeSlotCtl s k v) k = slotState s k ∧ fg (writeSlotCtl s k v) MOD_T2SLOT_CTL_REFUSED k = 1 := by
  have same : writeSlotCtl s k v = slotNoted s k v := by rw [writeSlotCtl_eq, if_pos (by simp [refused])]
  rw [same]
  refine ⟨fg_slotNoted_apart s k v _ (by simp), ?_⟩
  rw [slotNoted, if_pos (by simp [refused])]
  exact fg_fs_flag _ _ _ (by decide)

/-- A write that is not refused leaves the slot in the state written, an opened slot with INVALID 0. -/
theorem writeSlotCtl_moves (allowed : slotRefused s k (fieldIn v MOD_T2SLOT_CTL_STATE) ≠ true) :
    slotState (writeSlotCtl s k v) k = fieldIn v MOD_T2SLOT_CTL_STATE ∧
      (fieldIn v MOD_T2SLOT_CTL_STATE = 1 → slotState s k ≠ 1 → fg (writeSlotCtl s k v) MOD_T2SLOT_CTL_INVALID k = 0) := by
  have shown (t : State) : fg (fs t MOD_T2SLOT_CTL_STATE k (fieldIn v MOD_T2SLOT_CTL_STATE)) MOD_T2SLOT_CTL_STATE k = fieldIn v MOD_T2SLOT_CTL_STATE :=
    (fg_fs_same t _ k _ (by decide) (by decide)).trans (Nat.mod_eq_of_lt (fieldOf_lt v _ _))
  rw [writeSlotCtl_eq]
  by_cases stays : fieldIn v MOD_T2SLOT_CTL_STATE = slotState s k
  · rw [if_pos (by simp [stays])]
    exact ⟨(fg_slotNoted_apart s k v _ (by simp)).trans stays.symm, fun opens other => absurd (stays.symm.trans opens) other⟩
  · rw [if_neg (by simp [allowed, stays])]
    unfold slotMoved slotState
    split
    · refine ⟨?_, fun _ _ => ?_⟩
      · rw [fg_fs_apart _ _ _ _ _ (by decide), shown]
      · rw [fg_fs_same _ _ _ _ (by decide) (by decide)]
        rfl
    · exact ⟨shown _, fun opens => by contradiction⟩

end

/-- The rows of the slots' state writes, with the state that each writes. -/
def slotRows (k : Nat) (value : Word) : List (Instr × Nat) := [(.slotOpen k value, 1), (.slotSeal k value, 2), (.slotClose k value, 0)]

theorem exec_slotRow {i : Instr} {goal k : Nat} {value : Word} (listed : (i, goal) ∈ slotRows k value) (here : k < 16) (s : State) :
    exec i s = .next (writeSlotCtl s k (withField value 31 30 goal)) ∧ goal < 3 := by
  have next (g : Nat) : (Host.Outcome.next (if k < 16 then writeSlotCtl s k (withField value 31 30 g) else s) : Host.Outcome State Fault Refusal) =
      .next (writeSlotCtl s k (withField value 31 30 g)) := congrArg _ (if_pos here)
  simp only [slotRows, List.mem_cons, List.not_mem_nil, or_false, Prod.mk.injEq] at listed
  rcases listed with ⟨rfl, rfl⟩ | ⟨rfl, rfl⟩ | ⟨rfl, rfl⟩
  · exact ⟨next 1, by decide⟩
  · exact ⟨next 2, by decide⟩
  · exact ⟨next 0, by decide⟩

theorem slotRow_moves {i : Instr} {goal k : Nat} {value : Word} (listed : (i, goal) ∈ slotRows k value) (here : k < 16) (s : State) :
    Gives i s fun t => RegsKept s t [(MOD_T2SLOT_CTL, k)] ∧ t.mem = s.mem ∧
      (SlotRefuses s k goal → slotState t k = slotState s k ∧ fg t MOD_T2SLOT_CTL_REFUSED k = 1) ∧
      (¬SlotRefuses s k goal → slotState t k = goal ∧ (goal = 1 → slotState s k ≠ 1 → fg t MOD_T2SLOT_CTL_INVALID k = 0)) ∧
      fg t MOD_T2SLOT_CTL_VERSION k = (if slotState s k = 1 then fieldIn value MOD_T2SLOT_CTL_VERSION else fg s MOD_T2SLOT_CTL_VERSION k) := by
  obtain ⟨row, known⟩ := exec_slotRow listed here s
  have asks : fieldIn (withField value 31 30 goal) MOD_T2SLOT_CTL_STATE = goal :=
    (fieldOf_withField_same value 31 30 goal (by decide) (by decide)).trans (Nat.mod_eq_of_lt (by omega))
  have version : fieldIn (withField value 31 30 goal) MOD_T2SLOT_CTL_VERSION = fieldIn value MOD_T2SLOT_CTL_VERSION :=
    fieldOf_withField_other value 31 30 goal _ _ (by decide) (by decide) (by decide) (by decide)
  have refuses := slotRefused_iff s k known
  have refused := writeSlotCtl_refused s k (withField value 31 30 goal)
  have moves := writeSlotCtl_moves s k (withField value 31 30 goal)
  have kept := slotKept_writeSlotCtl s k (withField value 31 30 goal)
  have shown := fg_writeSlotCtl_version s k (withField value 31 30 goal)
  rw [asks] at refused moves
  rw [version] at shown
  exact gives_next row ⟨kept.1, kept.2, fun no => refused (refuses.mpr no), fun yes => moves (fun h => yes (refuses.mp h)), shown⟩

end Sys2Proof.Machine
end

section
/-!
CLAIM. The page pool's operations and enabling, and the state writes of the Tier 2 slots (10, R250, R251, R256 to R258, R260). O52.
-/

namespace Sys2Proof.Machine

/-- Settles O52: a row ends its operation in a state that has the sequences of the one it came in, and each operation's effect is read there; the
registers' writes follow their cases. -/
theorem pagesAndSlotsAreGivenUnderTheirRules : Obligations.PagesAndSlotsAreGivenUnderTheirRules := by
  unfold Obligations.PagesAndSlotsAreGivenUnderTheirRules
  refine ⟨fun q s small => ?_, fun off value s aligned notMem at' idle => ?_, fun value s off => ?_, fun i goal k value s listed here => ?_⟩
  · intro p status given tracked at' ends same
    refine ⟨fun i k listed => ⟨fun off mine => ?_, fun o own other => ?_⟩, fun on => ?_⟩
    · refine gives_poolRow listed small mine fun u ends => ?_
      rw [poolOp_disabled k ((ends.field _ _ (by decide)).trans off)]
      exact ends.result 5 0 (by decide)
    · refine gives_next ((exec_poolRow listed small s).trans (congrArg _ (poolRow_refused own other))) ⟨?_, rfl, fs_regsKept _ _ _ _⟩
      exact fg_fs_flag _ _ _ (by decide)
    · have enabled {u : State} (ends : OpEnds s (poolEnded u)) : fg (poolEnded u) MOD_PPOOL_CFG_EN 0 = 1 := (ends.field _ _ (by decide)).trans on
      have alloc {P : State → Prop} (mine : at' 1) (does : ∀ u, OpEnds s u → P (poolAlloc u q)) : Gives (.alloc q) s P :=
        gives_poolRow (.head _) small mine fun u ends => poolOp_alloc (enabled ends) small ▸ does _ ends
      have touch {P : State → Prop} (mine : at' 2) (does : ∀ u, OpEnds s u → P (poolTouch u q)) : Gives (.touch q) s P :=
        gives_poolRow (.tail _ (.head _)) small mine fun u ends => poolOp_touch (enabled ends) small ▸ does _ ends
      refine ⟨fun n mine known free => alloc mine fun u ends => ?_, fun v n mine known taken victim free => alloc mine fun u ends => ?_,
        fun mine known taken pinned => alloc mine fun u ends => ?_, fun mine full => alloc mine fun u ends => ?_,
        fun x mine known kept => touch mine fun u ends => ends.touch_known known kept, fun mine unknown => touch mine fun u ends => ?_,
        fun mine => ?_, fun mine => ?_⟩
      · exact ends.alloc_free known free
      · exact ends.alloc_evicts known taken victim free
      · rw [ends.alloc_pinned known taken pinned]
        exact ends.result 2 0 (by decide)
      · rw [ends.alloc_full full]
        exact ⟨fg_poolResult_status _ _ _ (by decide), by rw [poolResult_pool, poolUse, ends.pool]⟩
      · rw [ends.touch_unknown unknown]
        exact ⟨fg_poolResult_status _ _ _ (by decide), by rw [poolResult_pool, poolUse, ends.pool]⟩
      · exact gives_poolRow (.tail _ (.tail _ (.head _))) small mine fun u ends => poolOp_free (enabled ends) small ▸ ends.release q
      · exact gives_poolRow (.tail _ (.tail _ (.tail _ (.head _)))) small mine fun u ends => poolOp_unpinAll (enabled ends) ▸ ends.unpin
  · exact ⟨registerWrite_poolOp_begins aligned notMem at' idle, registerWrite_poolOp_refused aligned notMem at' idle⟩
  · refine ⟨fun pages units fits => poolEnable_empties off ?_, fun bad => poolEnable_refused off bad⟩
    rintro (zero | zero | large)
    · exact pages.ne' zero
    · exact units.ne' zero
    · exact absurd fits (not_le.mpr large)
  · exact slotRow_moves listed here s

end Sys2Proof.Machine
end

section
/-!
SUPPORT. Runs of bytes by their transactions (11, R286): a canonical memory read as a list of its bytes, the transactions that cover a run, and what
a local transfer reads and writes (11, R267, R268, R291, R292).
-/

namespace Sys2Proof.Machine

/-! ### A canonical memory read byte by byte -/

theorem rangeFrom_add (a j k : Nat) : rangeFrom a (j + k) = rangeFrom a j ++ rangeFrom (a + j) k := by
  induction j generalizing a with
  | zero => simp [rangeFrom]
  | succ j ih => rw [Nat.succ_add, rangeFrom, rangeFrom, ih, List.cons_append, Nat.add_right_comm, Nat.add_assoc]

theorem sget_below {α : Type} [DecidableEq α] {d : Nat → α} {m : SMap α} {lo k : Nat} (e : α) (wf : swfFrom d lo m = true) (low : k < lo) :
    sget e m k = e := by
  induction m generalizing lo with
  | nil => rfl
  | cons p m ih =>
    simp only [swfFrom, Bool.and_eq_true, decide_eq_true_eq] at wf
    obtain ⟨⟨above, -⟩, rest⟩ := wf
    rw [sget, if_neg (by omega)]
    exact ih rest (by omega)

theorem readAux_eq_map (d : Nat → Byte) (n : Nat) {m : SMap Byte} {a : Nat} (wf : swfFrom d a m = true) :
    readAux d n m a = (rangeFrom a n).map (fun k => sget (d k) m k) := by
  induction n generalizing m a with
  | zero => rfl
  | succ n ih =>
    cases m with
    | nil => exact congrArg _ (ih rfl)
    | cons p m =>
      obtain ⟨k, b⟩ := p
      have parts := wf
      simp only [swfFrom, Bool.and_eq_true, decide_eq_true_eq] at parts
      obtain ⟨⟨above, new⟩, rest⟩ := parts
      by_cases own : k = a
      · subst own
        have later : ∀ j ∈ rangeFrom (k + 1) n, sget (d j) m j = sget (d j) ((k, b) :: m) j := fun j listed => by
          have := (mem_rangeFrom _ _ _).mp listed
          rw [sget, if_neg (by omega)]
        rw [readAux, if_pos rfl, ih rest, List.map_congr_left later]
        simp [rangeFrom, sget]
      · have after : swfFrom d (a + 1) ((k, b) :: m) = true := by
          have : a + 1 ≤ k := by omega
          simp [swfFrom, this, new, rest]
        rw [readAux, if_neg own, ih after, rangeFrom, List.map_cons, sget_below (d a) after (Nat.lt_succ_self a)]

theorem swfFrom_dropWhile {d : Nat → Byte} {m : SMap Byte} {lo : Nat} (a : Nat) (wf : swfFrom d lo m = true) :
    swfFrom d a (m.dropWhile (fun p => decide (p.1 < a))) = true := by
  induction m generalizing lo with
  | nil => rfl
  | cons p m ih =>
    simp only [swfFrom, Bool.and_eq_true, decide_eq_true_eq] at wf
    obtain ⟨⟨-, new⟩, rest⟩ := wf
    by_cases low : p.1 < a
    · rw [List.dropWhile_cons_of_pos (by simpa using low)]
      exact ih rest
    · rw [List.dropWhile_cons_of_neg (by simpa using low)]
      simp [swfFrom, new, rest, not_lt.mp low]

theorem sget_dropWhile (e : Byte) (m : SMap Byte) {a k : Nat} (high : a ≤ k) : sget e (m.dropWhile (fun p => decide (p.1 < a))) k = sget e m k := by
  induction m with
  | nil => rfl
  | cons p m ih =>
    by_cases low : p.1 < a
    · rw [List.dropWhile_cons_of_pos (by simpa using low), ih, sget, if_neg (by omega)]
    · rw [List.dropWhile_cons_of_neg (by simpa using low)]

/-- A run read from a canonical memory is the list of its bytes. -/
theorem memRead_eq_map {s : State} (wf : Memory.wf s = true) (a n : Nat) : memRead s a n = (rangeFrom a n).map (readByte s) := by
  rw [memRead, readBytes, readAux_eq_map _ n (swfFrom_dropWhile a wf)]
  exact List.map_congr_left fun k listed => sget_dropWhile _ _ ((mem_rangeFrom _ _ _).mp listed).1

theorem memRead_add {s : State} (wf : Memory.wf s = true) (a j k : Nat) : memRead s a (j + k) = memRead s a j ++ memRead s (a + j) k := by
  rw [memRead_eq_map wf, memRead_eq_map wf, memRead_eq_map wf, rangeFrom_add, List.map_append]

/-! ### The transactions of a run (11, R286) -/

/-- Transactions that cover n bytes from an offset, in order and without a gap. -/
inductive Covers : Int → Nat → List (Int × Nat) → Prop
  | nil (off : Int) : Covers off 0 []
  | cons {off : Int} {k n : Nat} {ts : List (Int × Nat)} (rest : Covers (off + k) n ts) : Covers off (k + n) ((off, k) :: ts)

/-- With f blocks of 256 bytes that hold the run, its transactions cover it. -/
theorem covers_txnsOf (f : Nat) (off : Int) (n : Nat) (enough : n = 0 ∨ n + (off % 256).toNat ≤ 256 * f) : Covers off n (txnsOf f off n) := by
  induction f generalizing off n with
  | zero =>
    obtain rfl : n = 0 := by omega
    exact .nil off
  | succ f ih =>
    unfold txnsOf
    by_cases empty : n = 0
    · subst empty
      exact .nil off
    · rw [if_neg empty]
      have split : min n (256 - (off % 256).toNat) + (n - min n (256 - (off % 256).toNat)) = n := Nat.add_sub_cancel' (min_le_left _ _)
      have rest : Covers (off + (min n (256 - (off % 256).toNat) : Nat)) (n - min n (256 - (off % 256).toNat)) _ := ih _ _ (by omega)
      have run := Covers.cons rest
      rw [split] at run
      exact run

theorem covers_txns (off : Int) (n : Nat) : Covers off n (txns off n) := covers_txnsOf _ off n (by omega)

/-- The first transaction of a run. -/
theorem txns_cons (off : Int) {n : Nat} (some : n ≠ 0) : ∃ ts, txns off n = (off, min n (256 - (off % 256).toNat)) :: ts :=
  ⟨_, by rw [txns, txnsOf, if_neg some]⟩

/-! ### The regions of Tier 1 and Tier 2 (11, R266) -/

theorem regionOf_tier1_iff (s : State) (off : Int) (n : Nat) : regionOf s off n = .tier1 ↔ 0 ≤ off ∧ off.toNat + n ≤ tier1Size := by
  unfold regionOf
  dsimp only
  split_ifs <;> simp only [false_iff, true_iff] <;> omega

theorem regionOf_tier2_iff (s : State) (off : Int) (n : Nat) :
    regionOf s off n = .tier2 ↔ 0 ≤ off ∧ tier2Base ≤ off.toNat ∧ off.toNat + n ≤ tier2Base + tier2Size := by
  have apart : tier1Size < tier2Base := by decide
  unfold regionOf
  dsimp only
  split_ifs <;> simp only [false_iff, true_iff] <;> omega

/-- What stands in Tier 2 stands there in every state. -/
theorem regionOf_tier2_congr {s : State} (t : State) {off : Int} {n : Nat} (here : regionOf s off n = .tier2) : regionOf t off n = .tier2 :=
  (regionOf_tier2_iff t off n).mpr ((regionOf_tier2_iff s off n).mp here)

/-! ### Local reads (11, R267, R291) -/

theorem poisonDetail_of_clean {s : State} (clean : s.poison = []) (a n : Nat) : poisonDetail s a n = none := by
  simp [poisonDetail, firstPoison, clean]

theorem readTxn_tier1 {s : State} (clean : s.poison = []) (tier2 stores : Bool) (sum : Int) {off : Int} {n : Nat} (here : regionOf s off n = .tier1) :
    readTxn s tier2 stores sum (off, n) = .ok (memRead s off.toNat n) := by
  simp [readTxn, here, poisonDetail_of_clean clean]

/-- Transactions that cover a run of Tier 1 read its bytes. -/
theorem readTxns_of_covers {s : State} (clean : s.poison = []) (tier2 stores : Bool) (sum : Int) {off : Int} {n : Nat} {ts : List (Int × Nat)}
    (covers : Covers off n ts) (here : regionOf s off n = .tier1) :
    ∃ bs, readTxns s tier2 stores sum ts = .ok bs ∧ (Memory.wf s = true → bs = memRead s off.toNat n) := by
  induction covers with
  | nil off => exact ⟨[], rfl, fun _ => rfl⟩
  | @cons off k n ts _ ih =>
    obtain ⟨above, inside⟩ := (regionOf_tier1_iff s _ _).mp here
    have first := readTxn_tier1 clean tier2 stores sum ((regionOf_tier1_iff s off k).mpr ⟨above, by omega⟩)
    obtain ⟨bs, rest, bytes⟩ := ih ((regionOf_tier1_iff s _ _).mpr ⟨by omega, by omega⟩)
    have next : (off + (k : Int)).toNat = off.toNat + k := by omega
    refine ⟨memRead s off.toNat k ++ bs, ?_, fun wf => ?_⟩
    · rw [readTxns, first, Got.bind, rest, Got.bind]
    · rw [bytes wf, next, memRead_add wf]

/-- A read from local memory without an error of its own. -/
theorem fetchTile_local {s : State} {base : Nat} (home : isLocal s base = true) {tier2 stores : Bool} {off : Int} {n : Nat} {bs : List Byte}
    (read : readTxns s tier2 stores off (txns off n) = .ok bs) (m : Nat) (c : Cmd) (err : MemErr) (alloc : Bool) :
    fetchTile s m c base off n err tier2 stores alloc =
      match (meetErr s err [(off.toNat, n)]).2 with
      | some d => ((meetErr s err [(off.toNat, n)]).1, .fault 0x12 d)
      | none => (cacheTouches (meetErr s err [(off.toNat, n)]).1 alloc false (txns off n), .ok bs) := by
  unfold fetchTile
  rw [if_pos home, read]
  rcases meetErr s err [(off.toNat, n)] with ⟨s1, _ | d⟩ <;> rfl

/-! ### What a transfer leaves alone (11, R273, R280, R283, R287) -/

/-- Memory, its poison and the streams are as before. -/
structure TransferKept (s t : State) : Prop where
  mem : t.mem = s.mem
  boot : t.boot = s.boot
  poison : t.poison = s.poison
  streams : t.streams = s.streams

theorem TransferKept.trans {s t u : State} (h : TransferKept s t) (k : TransferKept t u) : TransferKept s u :=
  ⟨k.mem.trans h.mem, k.boot.trans h.boot, k.poison.trans h.poison, k.streams.trans h.streams⟩

theorem poison_noteCorrected (s : State) (a n : Nat) : (noteCorrected s a n).poison = s.poison := by
  unfold noteCorrected
  split
  · rfl
  · split <;> rfl

theorem poison_noteResent (s : State) (a n : Nat) : (noteResent s a n).poison = s.poison := by
  unfold noteResent
  split
  · dsimp only
    split <;> rfl
  · split <;> rfl

theorem poison_badLine {s : State} {a : Nat} (met : (badLine s a).2 = none) : (badLine s a).1.poison = s.poison := by
  unfold badLine at met ⊢
  split at met
  · rfl
  · dsimp only at met ⊢
    split at met
    · cases met
    · rename_i clean
      rw [if_neg clean, poison_noteCorrected]
      rfl

/-- An error that fails no access poisons nothing. -/
theorem transferKept_meetErr {s : State} {err : MemErr} {runs : List (Nat × Nat)} (met : (meetErr s err runs).2 = none) :
    TransferKept s (meetErr s err runs).1 := by
  have kept := metKept_meetErr s err runs
  refine ⟨kept.mem, kept.boot, ?_, kept.streams⟩
  unfold meetErr at met ⊢
  split at met
  · rw [if_pos (by assumption)]
  · rw [if_neg (by assumption)]
    cases err with
    | corrected a => exact poison_noteCorrected s a 1
    | lost a => cases met
    | line a => exact poison_badLine met
    | failed a =>
      by_cases tiered : a < wardBase
      · simp [tiered] at met
      · simp [tiered]
    | resent a n =>
      by_cases few : n ≤ 7
      · simpa [few] using poison_noteResent s a n
      · simp [few]
    | none => rfl
    | accum off => rfl

theorem transferKept_cacheTouch (s : State) (a : Nat) (alloc dirty : Bool) : TransferKept s (cacheTouch s a alloc dirty) := by
  unfold cacheTouch
  dsimp only
  split <;> exact ⟨rfl, rfl, rfl, rfl⟩

theorem transferKept_cacheTouches (s : State) (alloc dirty : Bool) (ts : List (Int × Nat)) : TransferKept s (cacheTouches s alloc dirty ts) := by
  refine List.foldlRecOn (motive := fun t : State => TransferKept s t) ts _ ⟨rfl, rfl, rfl, rfl⟩ fun t kept x _ => ?_
  split
  · exact kept.trans (transferKept_cacheTouch _ _ _ _)
  · exact kept

theorem workKept_countLeft (s : State) (w : Nat) (c : Cmd) (n : NEv) : WorkKept stageRegs s (countLeft s w c n) := by
  unfold countLeft
  split
  · exact .refl _ s
  · split
    · exact workKept_countNarrow s w _ n
    · exact (WorkKept.refl _ s).countReserved (by decide) w _ _

/-! ### Local writes (11, R267, R268, R292) -/

/-- The bytes bs stand from a on, every other byte reads as before, and so do the streams. -/
structure Wrote (s t : State) (a : Nat) (bs : List Byte) : Prop where
  bytes : ∀ (i : Nat) (h : i < bs.length), readByte t (a + i) = bs[i]
  kept : MemKept s t a bs.length
  wf : Memory.wf s = true → Memory.wf t = true
  clean : s.poison = [] → t.poison = []
  streams : t.streams = s.streams

theorem Wrote.refl (s : State) (a : Nat) : Wrote s s a [] := ⟨by simp, fun _ _ => rfl, id, id, rfl⟩

theorem wrote_memWrite (s : State) (a : Nat) (bs : List Byte) : Wrote s (memWrite s a bs) a bs where
  bytes i h := (readByte_memWrite_in s a bs i h).trans (by simp)
  kept := memWrite_memKept s a bs
  wf := memWrite_wf s a bs
  clean none := by simp [memWrite, none]
  streams := rfl

theorem Wrote.of_kept {s t u : State} {a : Nat} {bs : List Byte} (kept : TransferKept s t) (h : Wrote t u a bs) : Wrote s u a bs where
  bytes := h.bytes
  kept k out := (h.kept k out).trans (by unfold readByte; rw [kept.mem, kept.boot])
  wf same := h.wf (by unfold Memory.wf; rwa [kept.mem, kept.boot])
  clean none := h.clean (kept.poison.trans none)
  streams := h.streams.trans kept.streams

theorem Wrote.append {s t u : State} {a : Nat} {xs ys : List Byte} (h : Wrote s t a xs) (k : Wrote t u (a + xs.length) ys) :
    Wrote s u a (xs ++ ys) where
  bytes i inside := by
    by_cases early : i < xs.length
    · rw [k.kept _ (.inl (by omega)), h.bytes i early, List.getElem_append_left early]
    · have late : xs.length ≤ i := not_lt.mp early
      have there : a + xs.length + (i - xs.length) = a + i := by omega
      rw [List.getElem_append_right late, ← k.bytes (i - xs.length) (by rw [List.length_append] at inside; omega), there]
  kept j out := by
    rw [List.length_append] at out
    rw [k.kept j (by omega), h.kept j (by omega)]
  wf same := k.wf (h.wf same)
  clean none := k.clean (h.clean none)
  streams := k.streams.trans h.streams

/-- A run written to a canonical memory reads back. -/
theorem Wrote.memRead {s t : State} {a : Nat} {bs : List Byte} (h : Wrote s t a bs) (wf : Memory.wf s = true) : memRead t a bs.length = bs := by
  refine List.ext_getElem (length_memRead t a bs.length) fun i _ inside => ?_
  have listed : ∀ (start n k : Nat) (h : k < (rangeFrom start n).length), (rangeFrom start n)[k] = start + k := by
    intro start n
    induction n generalizing start with
    | zero => simp [rangeFrom]
    | succ n ih =>
      rintro (_ | k) h
      · rfl
      · exact (ih (start + 1) k (by simpa [rangeFrom] using h)).trans (by omega)
  simp only [memRead_eq_map (h.wf wf), List.getElem_map, listed, h.bytes i inside]

/-- A write transaction of a PUBLISH into Tier 2. -/
theorem writeTxn_publish {s : State} (clean : s.poison = []) (sum : Int) {off : Int} {bs : List Byte} (here : regionOf s off bs.length = .tier2) :
    writeTxn s true sum off bs = .ok (memWrite s off.toNat bs) := by
  have sound : partialPoison s off.toNat bs.length = none := by simp [partialPoison, poisoned, clean]
  simp [writeTxn, here, sound]

/-- An error that is neither beyond correction nor a failed transmission fails no write. -/
theorem writeErr_passes {err : MemErr} (mild : ∀ a, err ≠ .lost a ∧ err ≠ .failed a) (s : State) (a n : Nat) :
    (writeErr s err a n).2 = none ∧ TransferKept s (writeErr s err a n).1 := by
  have passes : ∀ runs, (∀ x, err ≠ .line x) → (meetErr s err runs).2 = none := fun runs other => by
    unfold meetErr
    split
    · rfl
    · cases err with
      | lost x => exact absurd rfl (mild x).1
      | failed x => exact absurd rfl (mild x).2
      | line x => exact absurd rfl (other x)
      | _ => rfl
  cases err with
  | line x => exact ⟨rfl, rfl, rfl, rfl, rfl⟩
  | _ => exact ⟨passes _ nofun, transferKept_meetErr (passes _ nofun)⟩

/-- Transactions that cover a run of Tier 2 write it whole. -/
theorem writeTxns_of_covers {err : MemErr} (mild : ∀ a, err ≠ .lost a ∧ err ≠ .failed a) (sum : Int) {off : Int} {n : Nat} {ts : List (Int × Nat)}
    (covers : Covers off n ts) {s : State} (clean : s.poison = []) {bs : List Byte} (size : bs.length = n) (here : regionOf s off n = .tier2) :
    ∃ t, writeTxns s true err sum bs ts = (t, .ok ()) ∧ Wrote s t off.toNat bs := by
  induction covers generalizing s bs with
  | nil off =>
    obtain rfl : bs = [] := List.length_eq_zero_iff.mp size
    exact ⟨s, rfl, .refl s _⟩
  | @cons off k n ts _ ih =>
    obtain ⟨above, low, high⟩ := (regionOf_tier2_iff s _ _).mp here
    have head : (bs.take k).length = k := by rw [List.length_take, size]; omega
    have first := writeTxn_publish clean sum (bs := bs.take k) ((regionOf_tier2_iff s off _).mpr ⟨above, low, by omega⟩)
    obtain ⟨passes, kept⟩ := writeErr_passes mild s off.toNat (bs.take k).length
    have put := (wrote_memWrite (writeErr s err off.toNat (bs.take k).length).1 off.toNat (bs.take k)).of_kept kept
    obtain ⟨t, rest, wrote⟩ := ih (s := moverWrite (writeErr s err off.toNat (bs.take k).length).1 true off.toNat (bs.take k)) (put.clean clean)
      (bs := bs.drop k) (by rw [List.length_drop, size]; omega) ((regionOf_tier2_iff _ _ _).mpr ⟨by omega, by omega, by omega⟩)
    have next : (off + (k : Int)).toNat = off.toNat + (bs.take k).length := by omega
    rw [next] at wrote
    refine ⟨t, ?_, List.take_append_drop k bs ▸ put.append wrote⟩
    rw [writeTxns]
    simp only [first]
    rw [← rest]
    generalize writeErr s err off.toNat (bs.take k).length = met at passes
    obtain ⟨u, _ | d⟩ := met
    · rfl
    · cases passes

/-- A write whose first transaction fails in eight transmissions takes the fault of that. -/
theorem writeTxns_failed {s : State} (clean : s.poison = []) (sum : Int) {off : Int} {bs : List Byte} {x : Nat}
    (here : regionOf s off bs.length = .tier2) (within : off.toNat ≤ x ∧ x < off.toNat + min bs.length (256 - off.toNat % 256)) :
    writeTxns s true (.failed x) sum bs (txns off bs.length) = (noteResent s x 7, .fault 0x12 (ueAt s 3 x)) := by
  obtain ⟨above, low, high⟩ := (regionOf_tier2_iff s _ _).mp here
  obtain ⟨ts, first⟩ := txns_cons off (n := bs.length) (by omega)
  have block : (off % 256).toNat = off.toNat % 256 := by omega
  rw [block] at first
  generalize size : min bs.length (256 - off.toNat % 256) = k at first within
  have head : (bs.take k).length = k := by rw [List.length_take]; omega
  have done := writeTxn_publish clean sum (bs := bs.take k) ((regionOf_tier2_iff s off _).mpr ⟨above, low, by omega⟩)
  have met : writeErr s (.failed x) off.toNat k = (noteResent s x 7, some (ueAt s 3 x)) := by
    have tiers : tier2Base + tier2Size ≤ wardBase := by decide
    have low : x < wardBase := by omega
    simp [writeErr, meetErr, errAddr, inRuns, within, low]
  rw [first, writeTxns]
  simp only [done, head, met]

end Sys2Proof.Machine
end

section
/-!
CLAIM. PUBLISH (10, R252; 11, R285): a tile of Tier 1 copied under its open slot of Tier 2, and the faults of a PUBLISH. O44.
-/

namespace Sys2Proof.Machine

/-- The vector of a PUBLISH's next tile. -/
def publishVector (c : Cmd) : List Nat := (nth (units c) c.iter []).headD []

/-- Where the tile stands in Tier 1. -/
def publishSource (c : Cmd) : Int := walkAddr (dBase2 c.desc) (dSrcStride c.desc) (publishVector c)

/-- Its offset within Tier 2. -/
def publishDest (c : Cmd) : Int := walkAddr c.imm (dDstStride c.desc) (publishVector c)

/-- Its offset in the module's address space. -/
def publishPlace (c : Cmd) : Int := publishDest c + (tier2Base : Int)

/-- What the reads of the tile meet. -/
def publishMet (s : State) (c : Cmd) (err : MemErr) : State × Option Nat := meetErr s err [((publishSource c).toNat, dTileBytes c.desc)]

/-- The state in which the tile's writes begin. -/
def publishRead (s : State) (c : Cmd) (err : MemErr) : State :=
  cacheTouches (publishMet s c err).1 false false (txns (publishSource c) (dTileBytes c.desc))

theorem transferKept_publishRead {s : State} {c : Cmd} {err : MemErr} (met : (publishMet s c err).2 = none) : TransferKept s (publishRead s c err) :=
  (transferKept_meetErr met).trans (transferKept_cacheTouches _ _ _ _)

section
variable {w u m : Nat} {c : Cmd} {err : MemErr} {s : State} (unit : u < 2) (job : jobOf s w (6 + u) 0x38 = some (m, c))
include unit job

theorem publish_without_slot (none : c.slot = none) (enabled : (stream s m).st = .enabled) : Gives (.publish w u err) s fun t =>
    Faulted t m 0x11 (addrDetail (publishDest c)) := by
  have stepped : publishStep s w u err = execFault s m c 0x11 (addrDetail (publishDest c)) := by
    simp [publishStep, Nat.mod_eq_of_lt unit, job, none, publishDest, publishVector]
  exact gives_next (congrArg (fun t => Host.Outcome.next (observe t)) stepped) (faulted_execFault c _ enabled (by decide)).observe

variable (slot : c.slot.isSome = true) (going : c.stopping = false) (home : isLocal s (dBase2 c.desc) = true)
  (tier1 : regionOf s (publishSource c) (dTileBytes c.desc) = .tier1) (clean : s.poison = [])
include slot going home tier1 clean

/-- With its slot, a PUBLISH reads its tile, and writes it unless its reads meet an error beyond correction. -/
theorem exec_publish : ∃ bs, (Memory.wf s = true → bs = memRead s (publishSource c).toNat (dTileBytes c.desc)) ∧
    exec (.publish w u err) s = .next (observe (match (publishMet s c err).2 with
      | some d => execFault (publishMet s c err).1 m c 0x12 d
      | none => moveAfter (publishRead s c err) m w c {}
          (writeTxns (publishRead s c err) true err (publishDest c) bs (txns (publishPlace c) bs.length)))) := by
  obtain ⟨bs, read, bytes⟩ := readTxns_of_covers clean false false (publishSource c) (covers_txns (publishSource c) (dTileBytes c.desc)) tier1
  refine ⟨bs, bytes, congrArg (fun t => Host.Outcome.next (observe t)) ?_⟩
  have fetched := fetchTile_local home read m c err false
  have open' : ¬c.slot.isNone = true := by simpa [Option.isSome_iff_ne_none] using slot
  have runs : ¬(c.stopping && !midTile s m c) = true := by simp [going]
  unfold publishStep
  rw [Nat.mod_eq_of_lt unit, job]
  simp only [publishMet, publishRead, publishSource, publishPlace, publishDest, publishVector, if_neg open', if_neg runs] at fetched ⊢
  rw [fetched]
  generalize meetErr s err _ = met
  rcases met with ⟨s1, _ | d⟩ <;> rfl

theorem publish_meets {d : Nat} (lost : (publishMet s c err).2 = some d) (enabled : (stream s m).st = .enabled) :
    Gives (.publish w u err) s fun t => Faulted t m 0x12 d := by
  obtain ⟨bs, -, row⟩ := exec_publish (err := err) unit job slot going home tier1 clean
  rw [lost] at row
  have kept : (stream (publishMet s c err).1 m).st = .enabled := by
    rw [publishMet, (metKept_meetErr s err _).stream, enabled]
  exact gives_next row (faulted_execFault c d kept (by decide)).observe

variable (met : (publishMet s c err).2 = none) (wf : Memory.wf s = true)
  (tier2 : regionOf s (publishPlace c) (dTileBytes c.desc) = .tier2)
include met wf tier2

theorem publish_writes (mild : ∀ a, err ≠ .lost a ∧ err ≠ .failed a) : Gives (.publish w u err) s fun t =>
    memRead t (publishPlace c).toNat (dTileBytes c.desc) = memRead s (publishSource c).toNat (dTileBytes c.desc) ∧
      MemKept s t (publishPlace c).toNat (dTileBytes c.desc) ∧ UnitDone t m c := by
  obtain ⟨bs, bytes, row⟩ := exec_publish (err := err) unit job slot going home tier1 clean
  have size : bs.length = dTileBytes c.desc := by rw [bytes wf, length_memRead]
  have kept := transferKept_publishRead met
  obtain ⟨t, written, wrote⟩ := writeTxns_of_covers mild (publishDest c) (covers_txns (publishPlace c) _)
    (kept.poison.trans clean) rfl (size ▸ regionOf_tier2_congr _ tier2)
  have whole := wrote.of_kept kept
  have counted := workKept_countLeft t w c {}
  obtain ⟨stands, issued⟩ := standing_of_jobOf job
  have done := unitDone_does w (stands.of_streams (counted.streams.trans whole.streams)) issued
  rw [met, moveAfter, written] at row
  refine gives_next row ⟨?_, fun k out => ?_, done.congr (stream_observe_cmds _ _)⟩
  · rw [memRead_observe, memRead, unitDone_mem, unitDone_boot, counted.mem, counted.boot, ← memRead, ← size, whole.memRead wf, bytes wf, length_memRead]
  · rw [readByte_observe, readByte, unitDone_mem, unitDone_boot, counted.mem, counted.boot, ← readByte, whole.kept k (by rwa [size])]

theorem publish_fails {x : Nat} (failed : err = .failed x)
    (within : (publishPlace c).toNat ≤ x ∧
      x < (publishPlace c).toNat + min (dTileBytes c.desc) (256 - (publishPlace c).toNat % 256))
    (enabled : (stream s m).st = .enabled) : Gives (.publish w u err) s fun t => Faulted t m 0x12 (ueAt s 3 x) := by
  obtain ⟨bs, bytes, row⟩ := exec_publish (err := err) unit job slot going home tier1 clean
  have size : bs.length = dTileBytes c.desc := by rw [bytes wf, length_memRead]
  have kept := transferKept_publishRead met
  have stopped := writeTxns_failed (kept.poison.trans clean) (publishDest c) (x := x) (bs := bs)
    (size ▸ regionOf_tier2_congr _ tier2) (by rwa [size])
  have place : ueAt (publishRead s c err) 3 x = ueAt s 3 x := by
    obtain ⟨-, low, -⟩ := (regionOf_tier2_iff _ _ _).mp tier2
    have apart : tier1Size < tier2Base := by decide
    have beyond : ¬x < tier1Size := by omega
    simp only [ueAt, if_neg beyond]
  have running : (stream (noteResent (publishRead s c err) x 7) m).st = .enabled := by
    rw [(metKept_noteResent _ x 7).stream, stream, kept.streams, ← stream, enabled]
  rw [met, moveAfter] at row
  subst failed
  rw [stopped, place] at row
  exact gives_next row (faulted_execFault c _ running (by decide)).observe

end

/-- Settles O44: a PUBLISH reads its tile and then writes it, each by the transactions that cover it, and faults where they do. -/
theorem publishWritesItsOpenSlot : Obligations.PublishWritesItsOpenSlot := by
  unfold Obligations.PublishWritesItsOpenSlot
  intro w u m c err s unit job v n src dst at' met
  refine ⟨publish_without_slot unit job, fun slot going home tier1 clean => ⟨fun d lost => ?_, fun none wf tier2 => ⟨fun mild => ?_, ?_⟩⟩⟩
  · exact publish_meets unit job slot going home tier1 clean lost
  · exact publish_writes unit job slot going home tier1 clean none wf tier2 mild
  · intro x failed low high enabled
    exact publish_fails unit job slot going home tier1 clean none wf tier2 failed ⟨low, high⟩ enabled

end Sys2Proof.Machine
end

section
/-!
SUPPORT. What errors met by an access leave alone (11, R280, R283, R287, R291 to R296): everything but registers, marks, lists of places, the
failure record, resends and lines of the shared caches.
-/

namespace Sys2Proof.Machine

/-- From s to t nothing changes but registers, poison, worn places, the stores of the controller, resends and lines of the shared caches. -/
def ErrFrame (s t : State) : Prop := ∃ regs poison worn store links cache,
  t = { s with regs := regs, poison := poison, worn := worn, store := store, links := links, cache := cache }

namespace ErrFrame

theorem refl (s : State) : ErrFrame s s := ⟨_, _, _, _, _, _, rfl⟩

theorem trans {s t u : State} (h : ErrFrame s t) (k : ErrFrame t u) : ErrFrame s u := by
  obtain ⟨_, _, _, _, _, _, rfl⟩ := h
  obtain ⟨_, _, _, _, _, _, rfl⟩ := k
  exact ⟨_, _, _, _, _, _, rfl⟩

variable {s t : State} (h : ErrFrame s t)
include h

theorem mem : t.mem = s.mem := by obtain ⟨_, _, _, _, _, _, rfl⟩ := h; rfl
theorem queues : t.queues = s.queues := by obtain ⟨_, _, _, _, _, _, rfl⟩ := h; rfl
theorem host : t.host = s.host := by obtain ⟨_, _, _, _, _, _, rfl⟩ := h; rfl
theorem scrubs : t.scrubs = s.scrubs := by obtain ⟨_, _, _, _, _, _, rfl⟩ := h; rfl
theorem life : t.life = s.life := by obtain ⟨_, _, _, _, _, _, rfl⟩ := h; rfl
theorem mc : t.mc = s.mc := by obtain ⟨_, _, _, _, _, _, rfl⟩ := h; rfl

end ErrFrame

theorem errFrame_noteCorrected (s : State) (a n : Nat) : ErrFrame s (noteCorrected s a n) := by
  unfold noteCorrected
  split
  · exact ⟨_, _, _, _, _, _, rfl⟩
  · split <;> exact ⟨_, _, _, _, _, _, rfl⟩

theorem errFrame_noteResent (s : State) (a n : Nat) : ErrFrame s (noteResent s a n) := by
  unfold noteResent
  split
  · dsimp only
    split <;> exact ⟨_, _, _, _, _, _, rfl⟩
  · split <;> exact ⟨_, _, _, _, _, _, rfl⟩

theorem errFrame_failEntry (s : State) (kind tag unit code detail step : Nat) : ErrFrame s (failEntry s kind tag unit code detail step) := by
  obtain ⟨_, _, entered⟩ := failEntry_frame s kind tag unit code detail step
  rw [entered]
  exact ⟨_, _, _, _, _, _, rfl⟩

theorem errFrame_noteWorn (s : State) (a : Nat) : ErrFrame s (noteWorn s a) := by
  have listed : ∀ (u : State) (worn : List Nat), ErrFrame u { u with worn := worn } := fun _ _ => ⟨_, _, _, _, _, _, rfl⟩
  unfold noteWorn
  split
  · exact (errFrame_failEntry s _ _ _ _ _ _).trans (listed _ _)
  · exact listed _ _

theorem errFrame_poisonAt (s : State) (a n : Nat) : ErrFrame s (poisonAt s a n) := ⟨_, _, _, _, _, _, rfl⟩

theorem errFrame_dropLine (s : State) (key way : Nat) : ErrFrame s (dropLine s key way) := ⟨_, _, _, _, _, _, rfl⟩

theorem errFrame_markLost (s : State) (a : Nat) : ErrFrame s (markLost s a) := by
  unfold markLost
  split
  · exact errFrame_noteWorn s a
  · split
    · exact .refl s
    · exact (errFrame_noteWorn s a).trans (errFrame_poisonAt _ _ _)

theorem errFrame_badLine (s : State) (a : Nat) : ErrFrame s (badLine s a).1 := by
  unfold badLine
  split
  · exact .refl s
  · split
    · exact (errFrame_dropLine s _ _).trans ((errFrame_noteWorn _ _).trans (errFrame_poisonAt _ _ _))
    · exact (errFrame_dropLine s _ _).trans (errFrame_noteCorrected _ _ 1)

theorem errFrame_meetErr (s : State) (err : MemErr) (runs : List (Nat × Nat)) : ErrFrame s (meetErr s err runs).1 := by
  unfold meetErr
  split
  · exact .refl s
  · cases err with
    | corrected a => exact errFrame_noteCorrected s a 1
    | lost a => exact errFrame_markLost s a
    | line a => exact errFrame_badLine s a
    | failed a =>
      by_cases tiered : a < wardBase
      · simpa [tiered] using errFrame_noteResent s a 7
      · simpa [tiered] using ErrFrame.refl s
    | resent a n =>
      by_cases few : n ≤ 7
      · simpa [few] using errFrame_noteResent s a n
      · simpa [few] using ErrFrame.refl s
    | none => exact .refl s
    | accum off => exact .refl s

end Sys2Proof.Machine
end

section
/-!
CLAIM. Atomics (11, R275, R276; 19, R479): what one stores and answers, and what it leaves alone where it is refused. O27.
-/

namespace Sys2Proof.Machine

/-! ### Poison of a run -/

/-- A poisoned unit that overlaps a run that is not empty fails a read of it. -/
theorem poisonDetail_of_poisoned {s : State} {a n : Nat} (some : 0 < n) (bad : poisoned s a n = true) : ∃ d, poisonDetail s a n = .some d := by
  obtain ⟨p, listed, touches⟩ := List.any_eq_true.mp bad
  simp only [Bool.and_eq_true, decide_eq_true_eq] at touches
  have within : p ∈ rangeFrom (a / 4) (ceilDiv (a % 4 + n) 4) := (mem_rangeFrom _ _ _).mpr (by unfold ceilDiv; omega)
  have found : ((rangeFrom (a / 4) (ceilDiv (a % 4 + n) 4)).find? (fun p => s.poison.contains p)).isSome = true :=
    List.find?_isSome.mpr ⟨p, within, by simpa using listed⟩
  exact Option.isSome_iff_exists.mp (by simpa [poisonDetail, firstPoison] using found)

/-! ### What the stores of a hart leave alone (19, R475, R477) -/

/-- The harts' registers and the PCIe completions are as before, and no reservation is new. -/
structure HostKept (s t : State) : Prop where
  regs : t.host.regs = s.host.regs
  tlps : t.host.tlps = s.host.tlps
  resv : ∀ r ∈ t.host.resv, r ∈ s.host.resv

theorem HostKept.of_host {s t : State} (h : t.host = s.host) : HostKept s t := ⟨by rw [h], by rw [h], by rw [h]; exact fun _ => id⟩

theorem HostKept.trans {s t u : State} (h : HostKept s t) (k : HostKept t u) : HostKept s u :=
  ⟨k.regs.trans h.regs, k.tlps.trans h.tlps, fun r mem => h.resv r (k.resv r mem)⟩

theorem hostKept_showStore (s : State) (x : HStore) : HostKept s (showStore s x) := by
  unfold showStore
  dsimp only
  split
  · exact .of_host rfl
  · exact ⟨rfl, rfl, fun r mem => (List.mem_filter.mp mem).1⟩

theorem hostKept_hostFence (s : State) (hart : Nat) : HostKept s (hostFence s hart) :=
  List.foldlRecOn (motive := HostKept s) _ _ ⟨rfl, rfl, fun _ => id⟩ fun _ kept _ _ => kept.trans (hostKept_showStore _ _)

theorem hostKept_cacheTouch (s : State) (a : Nat) (alloc dirty : Bool) : HostKept s (cacheTouch s a alloc dirty) := by
  unfold cacheTouch
  dsimp only
  split <;> exact .of_host rfl

theorem hostKept_moverWrite (s : State) (a : Nat) (bs : List Byte) : HostKept s (moverWrite s false a bs) :=
  ⟨rfl, rfl, fun _ mem => (List.mem_filter.mp mem).1⟩

/-! ### The value that an atomic stores (11, R275, R276) -/

theorem toFp32_lt (x : FV) : (toFp32 x).1 < 2 ^ 32 := by
  cases x with
  | nan => decide
  | fin neg num den e =>
    have sign : b2n neg ≤ 1 := by cases neg <;> decide
    rcases coded : fp32F.encodeMag .rne max32 num den e with ⟨code, above⟩
    simp only [toFp32, toBinRne, coded]
    by_cases high : code > max32
    · rw [if_pos high]; simp only [fp32F, max32]; omega
    · rw [if_neg high]; simp only [fp32F]; unfold max32 at high; omega

theorem fadd32_eq (a b : Nat) : (fadd32 a b).1 = (toFp32 ((ofFp32 a).1.add (ofFp32 b).1)).1 := rfl

theorem pick32_lt (less : Bool) (a b : Nat) : (pick32 less a b).1 < 2 ^ 32 := by
  unfold pick32
  dsimp only
  split
  · exact (by decide : nan32 < 2 ^ 32)
  · exact toFp32_lt _

section
variable {f old v cmp : Nat}

theorem atomValue_add (int : f ≤ 3) : (atomValue .add f old v cmp).1 = (old + v) % 2 ^ (8 * atomBytes f) := by
  have fp32 : f ≠ 4 := by omega
  have bf16 : f ≠ 5 := by omega
  simp only [atomValue, if_neg fp32, if_neg bf16]

/-- An integer maximum is one of the two values, and neither is above it as its format orders them. -/
theorem atomValue_max (int : f ≤ 3) : let x := (atomValue .max f old v cmp).1
    (x = old ∨ x = v) ∧ (f = 2 ∨ f = 3 → old ≤ x ∧ v ≤ x) ∧
      (f = 0 ∨ f = 1 → signed (8 * atomBytes f) old ≤ signed (8 * atomBytes f) x ∧ signed (8 * atomBytes f) v ≤ signed (8 * atomBytes f) x) := by
  have integer : ¬4 ≤ f := by omega
  by_cases signs : f = 0 ∨ f = 1
  · simp only [atomValue, ge_iff_le, if_neg integer, if_pos signs, decide_eq_true_eq]
    split <;> omega
  · simp only [atomValue, ge_iff_le, if_neg integer, if_neg signs, decide_eq_true_eq]
    split <;> omega

/-- An integer minimum is one of the two values, and neither is below it as its format orders them. -/
theorem atomValue_min (int : f ≤ 3) : let x := (atomValue .min f old v cmp).1
    (x = old ∨ x = v) ∧ (f = 2 ∨ f = 3 → x ≤ old ∧ x ≤ v) ∧
      (f = 0 ∨ f = 1 → signed (8 * atomBytes f) x ≤ signed (8 * atomBytes f) old ∧ signed (8 * atomBytes f) x ≤ signed (8 * atomBytes f) v) := by
  have integer : ¬4 ≤ f := by omega
  by_cases signs : f = 0 ∨ f = 1
  · simp only [atomValue, ge_iff_le, if_neg integer, if_pos signs, decide_eq_true_eq]
    split <;> omega
  · simp only [atomValue, ge_iff_le, if_neg integer, if_neg signs, decide_eq_true_eq]
    split <;> omega

/-- The value of an integer atomic lies within its format. -/
theorem atomValue_lt (op : AtomOp) (int : f ≤ 3) (held : old < 2 ^ (8 * atomBytes f)) (given : v < 2 ^ (8 * atomBytes f)) :
    (atomValue op f old v cmp).1 < 2 ^ (8 * atomBytes f) := by
  cases op with
  | add => rw [atomValue_add int]; exact Nat.mod_lt _ (by positivity)
  | max => exact (atomValue_max (cmp := cmp) int).1.elim (·.trans_lt held) (·.trans_lt given)
  | min => exact (atomValue_min (cmp := cmp) int).1.elim (·.trans_lt held) (·.trans_lt given)
  | swap => exact given
  | cas => simp only [atomValue]; split <;> assumption

end

/-- What the integer operations make of the old value and the operands (11, R275). -/
def IntegerAtomic (op : AtomOp) (f old v cmp new : Nat) : Prop :=
  let w := 8 * atomBytes f
  (op = .add → new = (old + v) % 2 ^ w) ∧ (op = .swap → new = v % 2 ^ w) ∧
  (op = .cas → new = if old = cmp % 2 ^ w then v % 2 ^ w else old) ∧ (op = .max ∨ op = .min → new = old ∨ new = v % 2 ^ w) ∧
  ((f = 2 ∨ f = 3) → (op = .max → old ≤ new ∧ v % 2 ^ w ≤ new) ∧ (op = .min → new ≤ old ∧ new ≤ v % 2 ^ w)) ∧
  ((f = 0 ∨ f = 1) → (op = .min → signed w new ≤ signed w old ∧ signed w new ≤ signed w (v % 2 ^ w)) ∧
    (op = .max → signed w old ≤ signed w new ∧ signed w (v % 2 ^ w) ≤ signed w new))

theorem integerAtomic_atomValue (op : AtomOp) {f : Nat} (old v cmp : Nat) (int : f ≤ 3) :
    IntegerAtomic op f old v cmp (atomValue op f old (v % 2 ^ (8 * atomBytes f)) (cmp % 2 ^ (8 * atomBytes f))).1 := by
  cases op with
  | add => simp [IntegerAtomic, atomValue_add int]
  | max =>
    obtain ⟨either, unsigned, signs⟩ := atomValue_max (old := old) (v := v % 2 ^ (8 * atomBytes f)) (cmp := cmp % 2 ^ (8 * atomBytes f)) int
    exact ⟨nofun, nofun, nofun, fun _ => either, fun h => ⟨fun _ => unsigned h, nofun⟩, fun h => ⟨nofun, fun _ => signs h⟩⟩
  | min =>
    obtain ⟨either, unsigned, signs⟩ := atomValue_min (old := old) (v := v % 2 ^ (8 * atomBytes f)) (cmp := cmp % 2 ^ (8 * atomBytes f)) int
    exact ⟨nofun, nofun, nofun, fun _ => either, fun h => ⟨nofun, fun _ => unsigned h⟩, fun h => ⟨fun _ => signs h, nofun⟩⟩
  | swap => simp [IntegerAtomic, atomValue]
  | cas => simp [IntegerAtomic, atomValue]

/-! ### An atomic by its cases -/

/-- What an atomic's read meets. -/
def atomicMet (s : State) (addr f : Nat) (err : MemErr) : State × Option Nat := meetErr s err [(addr, atomBytes f)]

/-- The state in which an atomic reads: after its errors, with the hart's own earlier stores visible. -/
def atomicBegun (s : State) (who addr f : Nat) (err : MemErr) : State :=
  if who < 32 then hostFence (atomicMet s addr f err).1 who else (atomicMet s addr f err).1

/-- The value x stored, its events counted, and host-core copies of its line gone. -/
def atomicStored (s : State) (addr f : Nat) (x : Nat × Ev) : State :=
  moverWrite (cacheTouch (bump (bump s DIST_ATOMIC_OVERFLOW (t1Stack s addr) x.2.ovf) DIST_ATOMIC_NAN_CREATED (t1Stack s addr) x.2.nanc) addr true true)
    false addr (toBytesLE (atomBytes f) x.1)

section
variable {s : State} {op : AtomOp} {who f : Nat} (rd addr v cmp : Nat) (err : MemErr)

theorem atomic_without (lacks : atomFmtOk op f = false ∨ atomSourceOk s who op f = false) : atomic s op who rd addr f v cmp err = s := by
  rcases lacks with h | h <;> simp [atomic, h]

variable (fmt : atomFmtOk op f = true) (source : atomSourceOk s who op f = true)
include fmt source

theorem atomic_misaligned {addr : Nat} (odd : addr % atomBytes f ≠ 0) : atomic s op who rd addr f v cmp err = atomRefuse s who 6 := by
  simp [atomic, fmt, source, odd]

variable {addr : Nat} (aligned : addr % atomBytes f = 0)
include aligned

theorem atomic_outside (outside : tier1Size < addr + atomBytes f) : atomic s op who rd addr f v cmp err = atomRefuse s who 7 := by
  simp [atomic, fmt, source, aligned, outside]

variable (inside : addr + atomBytes f ≤ tier1Size)
include inside

theorem atomic_poisoned {d : Nat} (bad : poisonDetail s addr (atomBytes f) = some d) :
    atomic s op who rd addr f v cmp err = atomRefuse (noteUe s d 0) who 7 := by
  simp [atomic, fmt, source, aligned, inside, bad]

variable {err}

theorem atomic_lost (clean : poisonDetail s addr (atomBytes f) = none) {d : Nat} (lost : (atomicMet s addr f err).2 = some d) :
    atomic s op who rd addr f v cmp err = atomRefuse (noteUe (atomicMet s addr f err).1 d 0) who 7 := by
  unfold atomicMet at lost ⊢
  simp only [atomic, fmt, source, aligned, clean, not_lt.mpr inside, if_false, ne_eq, not_true_eq_false, Bool.not_true, Bool.or_self,
    Bool.false_eq_true]
  generalize meetErr s err _ = met at lost ⊢
  obtain ⟨s1, d'⟩ := met
  simp only at lost
  subst lost
  rfl

theorem atomic_stores (clean : poisonDetail s addr (atomBytes f) = none) (met : (atomicMet s addr f err).2 = none) :
    let u := atomicBegun s who addr f err
    let old := ofBytesLE (memRead u addr (atomBytes f))
    atomic s op who rd addr f v cmp err = atomAnswer (atomicStored u addr f
      (atomValue op f old (v % 2 ^ (8 * atomBytes f)) (cmp % 2 ^ (8 * atomBytes f)))) who rd f old := by
  unfold atomicBegun
  unfold atomicMet at met ⊢
  simp only [atomic, fmt, source, aligned, clean, not_lt.mpr inside, if_false, ne_eq, not_true_eq_false, Bool.not_true, Bool.or_self,
    Bool.false_eq_true]
  generalize meetErr s err _ = pair at met ⊢
  obtain ⟨s1, d'⟩ := pair
  simp only at met
  subst met
  rfl

end

/-! ### What a refusal and a store leave (19, R479) -/

theorem atomRefuse_mem (s : State) (who cause : Nat) : (atomRefuse s who cause).mem = s.mem := by unfold atomRefuse; split_ifs <;> rfl
theorem atomRefuse_regs (s : State) (who cause : Nat) : (atomRefuse s who cause).regs = s.regs := by unfold atomRefuse; split_ifs <;> rfl
theorem atomRefuse_hostRegs (s : State) (who cause : Nat) : (atomRefuse s who cause).host.regs = s.host.regs := by unfold atomRefuse; split_ifs <;> rfl

theorem atomRefuse_traps (s : State) {who : Nat} (cause : Nat) (hart : who < 32) :
    (atomRefuse s who cause).host.traps = s.host.traps ++ [(who, cause)] := by simp [atomRefuse, hart, hostTrap]

theorem atomRefuse_tlps (s : State) {who : Nat} (cause : Nat) (pcie : who = 32) : (atomRefuse s who cause).host.tlps = s.host.tlps ++ [(4, 0)] := by
  simp [atomRefuse, pcie, tlp]

/-- A refusal after an error noted: no byte and no hart's register changes. -/
theorem refused_of_noted {s u : State} (frame : ErrFrame s u) (d who : Nat) :
    let t := atomRefuse (noteUe u d 0) who 7
    t.mem = s.mem ∧ t.host.regs = s.host.regs ∧ (who < 32 → t.host.traps = s.host.traps ++ [(who, 7)]) ∧
      (who = 32 → t.host.tlps = s.host.tlps ++ [(4, 0)]) := by
  have noted : (noteUe u d 0).host = s.host := frame.host
  refine ⟨(atomRefuse_mem _ _ _).trans frame.mem, ?_, fun hart => ?_, fun pcie => ?_⟩
  · rw [atomRefuse_hostRegs, noted]
  · rw [atomRefuse_traps _ _ hart, noted]
  · rw [atomRefuse_tlps _ _ pcie, noted]

section
variable (s : State) (addr f : Nat) (x : Nat × Ev)

theorem hostKept_atomicStored : HostKept s (atomicStored s addr f x) :=
  have counted : HostKept s (bump (bump s DIST_ATOMIC_OVERFLOW (t1Stack s addr) x.2.ovf) DIST_ATOMIC_NAN_CREATED (t1Stack s addr) x.2.nanc) :=
    .of_host rfl
  counted.trans ((hostKept_cacheTouch _ addr true true).trans (hostKept_moverWrite _ addr _))

theorem resv_atomicStored : ∀ r ∈ (atomicStored s addr f x).host.resv, ¬(r.2 * 64 < addr + atomBytes f ∧ addr < r.2 * 64 + 64) := by
  rintro r mem ⟨low, high⟩
  have kept := (List.mem_filter.mp mem).2
  simp only [length_toBytesLE, low, high, decide_true, Bool.and_self, Bool.not_true, Bool.false_eq_true] at kept

theorem atomicStored_mem : (atomicStored s addr f x).mem = (memWrite s addr (toBytesLE (atomBytes f) x.1)).mem ∧ (atomicStored s addr f x).boot = s.boot := by
  let u := bump (bump s DIST_ATOMIC_OVERFLOW (t1Stack s addr) x.2.ovf) DIST_ATOMIC_NAN_CREATED (t1Stack s addr) x.2.nanc
  have touched := transferKept_cacheTouch u addr true true
  refine ⟨?_, touched.boot⟩
  show writeBytes (memDefault (cacheTouch u addr true true).boot) (cacheTouch u addr true true).mem addr _ = _
  rw [touched.boot, touched.mem]
  rfl

theorem memKept_atomicStored : MemKept s (atomicStored s addr f x) addr (atomBytes f) := by
  intro k out
  obtain ⟨mem, boot⟩ := atomicStored_mem s addr f x
  rw [readByte, mem, boot]
  exact readByte_memWrite_out s addr _ k (by rwa [length_toBytesLE])

theorem ofBytesLE_memRead_atomicStored : ofBytesLE (memRead (atomicStored s addr f x) addr (atomBytes f)) = x.1 % 2 ^ (8 * atomBytes f) := by
  obtain ⟨mem, boot⟩ := atomicStored_mem s addr f x
  have back := memRead_memWrite_same s addr (toBytesLE (atomBytes f) x.1)
  rw [length_toBytesLE] at back
  have same : memRead (atomicStored s addr f x) addr (atomBytes f) = toBytesLE (atomBytes f) x.1 := by
    rw [← back, memRead, mem, boot]
    rfl
  rw [same, ofBytesLE_toBytesLE, pow_mul]
  rfl

end

section
variable (s : State) (who rd f old : Nat)

theorem atomAnswer_mem : (atomAnswer s who rd f old).mem = s.mem ∧ (atomAnswer s who rd f old).boot = s.boot := by
  unfold atomAnswer hostReg
  split_ifs <;> exact ⟨rfl, rfl⟩

theorem atomAnswer_resv : (atomAnswer s who rd f old).host.resv = s.host.resv := by
  unfold atomAnswer hostReg
  split_ifs <;> rfl

variable {who rd}

theorem atomAnswer_rd (hart : who < 32) (named : rd % 32 ≠ 0) : sget 0 (atomAnswer s who rd f old).host.regs (32 * who + rd % 32) =
    if f = 0 ∨ f = 2 then (signed 32 old % 2 ^ 64).toNat else old := by
  rw [atomAnswer, if_pos hart, hostReg, if_neg named]
  exact sget_sset_same _ _ _ _

theorem atomAnswer_zero (hart : who < 32) (zero : rd % 32 = 0) : atomAnswer s who rd f old = s := by
  rw [atomAnswer, if_pos hart, hostReg, if_pos zero]

theorem atomAnswer_tlps (pcie : who = 32) : (atomAnswer s who rd f old).host.tlps = s.host.tlps ++ [(0, old)] := by
  simp [atomAnswer, pcie, tlp]

end

/-- An atomic's row performs it for its source and format; only a compare-and-swap has an operand to compare. -/
theorem exec_atomic {h src rd addr fmt v cmp : Nat} {err : MemErr} {op : AtomOp} {who f : Nat} {c : Instr}
    (row : (op, who, f, c) ∈ [(AtomOp.add, src, fmt, Instr.atomicAdd src rd addr fmt v err), (.max, src, fmt, .atomicMax src rd addr fmt v err),
      (.min, src, fmt, .atomicMin src rd addr fmt v err), (.swap, src, fmt, .atomicSwap src rd addr fmt v err),
      (.cas, src, fmt, .atomicCas src rd addr fmt v cmp err), (.add, h % 32, 4, .amofaddS h rd addr v err),
      (.add, h % 32, 5, .amofaddB h rd addr v err), (.max, h % 32, 4, .amofmax h rd addr v 0 err), (.max, h % 32, 5, .amofmax h rd addr v 1 err),
      (.min, h % 32, 4, .amofmin h rd addr v 0 err), (.min, h % 32, 5, .amofmin h rd addr v 1 err)]) (s : State) :
    ∃ cmp', (op = .cas → cmp' = cmp) ∧ exec c s = .next (atomic s op who rd addr f v cmp' err) := by
  simp only [List.mem_cons, List.not_mem_nil, or_false, Prod.mk.injEq] at row
  rcases row with ⟨rfl, rfl, rfl, rfl⟩ | ⟨rfl, rfl, rfl, rfl⟩ | ⟨rfl, rfl, rfl, rfl⟩ | ⟨rfl, rfl, rfl, rfl⟩ | ⟨rfl, rfl, rfl, rfl⟩ |
    ⟨rfl, rfl, rfl, rfl⟩ | ⟨rfl, rfl, rfl, rfl⟩ | ⟨rfl, rfl, rfl, rfl⟩ | ⟨rfl, rfl, rfl, rfl⟩ | ⟨rfl, rfl, rfl, rfl⟩ | ⟨rfl, rfl, rfl, rfl⟩ <;>
  exact ⟨_, fun _ => rfl, rfl⟩

section
variable {s : State} {op : AtomOp} {who f rd addr v cmp cmp' : Nat} {err : MemErr} {c : Instr} (row : exec c s = .next (atomic s op who rd addr f v cmp' err))
  (fmt : atomFmtOk op f = true) (source : atomSourceOk s who op f = true)
include row fmt source

theorem atomic_traps_misaligned (odd : addr % atomBytes f ≠ 0) : Gives c s fun t => t.mem = s.mem ∧ t.regs = s.regs ∧
    (who < 32 → t.host.traps = s.host.traps ++ [(who, 6)]) ∧ (who = 32 → t.host.tlps = s.host.tlps ++ [(4, 0)]) := by
  rw [atomic_misaligned _ _ _ _ fmt source odd] at row
  exact gives_next row ⟨atomRefuse_mem _ _ _, atomRefuse_regs _ _ _, atomRefuse_traps s 6, atomRefuse_tlps s 6⟩

variable (aligned : addr % atomBytes f = 0)
include aligned

theorem atomic_traps_outside (outside : tier1Size < addr + atomBytes f) : Gives c s fun t => t.mem = s.mem ∧ t.regs = s.regs ∧
    (who < 32 → t.host.traps = s.host.traps ++ [(who, 7)]) ∧ (who = 32 → t.host.tlps = s.host.tlps ++ [(4, 0)]) := by
  rw [atomic_outside _ _ _ _ fmt source aligned outside] at row
  exact gives_next row ⟨atomRefuse_mem _ _ _, atomRefuse_regs _ _ _, atomRefuse_traps s 7, atomRefuse_tlps s 7⟩

variable (inside : addr + atomBytes f ≤ tier1Size)
include inside

theorem atomic_traps_beyond (bad : poisoned s addr (atomBytes f) = true ∨ (atomicMet s addr f err).2.isSome = true) : Gives c s fun t =>
    t.mem = s.mem ∧ t.host.regs = s.host.regs ∧ (who < 32 → t.host.traps = s.host.traps ++ [(who, 7)]) ∧
      (who = 32 → t.host.tlps = s.host.tlps ++ [(4, 0)]) := by
  have some : 0 < atomBytes f := by unfold atomBytes; split_ifs <;> decide
  by_cases poison : poisoned s addr (atomBytes f) = true
  · obtain ⟨d, detail⟩ := poisonDetail_of_poisoned some poison
    rw [atomic_poisoned _ _ _ _ fmt source aligned inside detail] at row
    exact gives_next row (refused_of_noted (.refl s) d who)
  · obtain ⟨d, lost⟩ := Option.isSome_iff_exists.mp (bad.resolve_left poison)
    rw [atomic_lost _ _ _ fmt source aligned inside (poisonDetail_of_not_poisoned (by simpa using poison)) lost] at row
    exact gives_next row (refused_of_noted (errFrame_meetErr s err _) d who)

theorem atomic_reads_and_stores (other : op = .cas → cmp' = cmp) (clean : poisoned s addr (atomBytes f) = false)
    (met : (atomicMet s addr f err).2 = none) : Gives c s fun t =>
      let u := atomicBegun s who addr f err
      let w := 8 * atomBytes f
      let old := ofBytesLE (memRead u addr (atomBytes f))
      let new := ofBytesLE (memRead t addr (atomBytes f))
      MemKept u t addr (atomBytes f) ∧
      ((f ≤ 3 → IntegerAtomic op f old v cmp new) ∧ (f = 4 → op = .add → new = (fadd32 old (v % 2 ^ w)).1) ∧
        (f = 4 → op = .max ∨ op = .min → new = (pick32 (op == .min) old (v % 2 ^ w)).1)) ∧
      (who < 32 → rd % 32 ≠ 0 → sget 0 t.host.regs (32 * who + rd % 32) = if f = 0 ∨ f = 2 then (signed 32 old % 2 ^ 64).toNat else old) ∧
      (who < 32 → rd % 32 = 0 → t.host.regs = s.host.regs) ∧ (who = 32 → t.host.tlps = s.host.tlps ++ [(0, old)]) ∧
      ∀ r ∈ t.host.resv, r ∈ s.host.resv ∧ ¬(r.2 * 64 < addr + atomBytes f ∧ addr < r.2 * 64 + 64) := by
  rw [atomic_stores _ _ _ fmt source aligned inside (poisonDetail_of_not_poisoned clean) met] at row
  refine gives_next row ?_
  have begun : HostKept s (atomicBegun s who addr f err) := by
    have frame := HostKept.of_host (errFrame_meetErr s err [(addr, atomBytes f)]).host
    unfold atomicBegun
    split
    · exact frame.trans (hostKept_hostFence _ _)
    · exact frame
  generalize atomicBegun s who addr f err = u at begun ⊢
  dsimp only
  have held : ofBytesLE (memRead u addr (atomBytes f)) < 2 ^ (8 * atomBytes f) := by
    have bound := ofBytesLE_lt (memRead u addr (atomBytes f))
    rwa [length_memRead, show 256 = 2 ^ 8 from rfl, ← pow_mul] at bound
  generalize ofBytesLE (memRead u addr (atomBytes f)) = old at held ⊢
  have given : v % 2 ^ (8 * atomBytes f) < 2 ^ (8 * atomBytes f) := Nat.mod_lt _ (by positivity)
  generalize stored : atomValue op f old (v % 2 ^ (8 * atomBytes f)) (cmp' % 2 ^ (8 * atomBytes f)) = x
  have kept := begun.trans (hostKept_atomicStored u addr f x)
  obtain ⟨mem, boot⟩ := atomAnswer_mem (atomicStored u addr f x) who rd f old
  have new : ofBytesLE (memRead (atomAnswer (atomicStored u addr f x) who rd f old) addr (atomBytes f)) = x.1 % 2 ^ (8 * atomBytes f) := by
    rw [← ofBytesLE_memRead_atomicStored u, memRead, memRead, mem, boot]
  rw [new]
  refine ⟨fun k out => ?_, ⟨fun int => ?_, fun fp32 add => ?_, fun fp32 pick => ?_⟩, atomAnswer_rd _ _ _, fun hart zero => ?_, fun pcie => ?_,
    fun r listed => ?_⟩
  · rw [readByte, mem, boot]
    exact memKept_atomicStored u addr f x k out
  · have value := integerAtomic_atomValue op old v cmp' int
    have small := atomValue_lt (cmp := cmp' % 2 ^ (8 * atomBytes f)) op int held given
    rw [stored] at value small
    rw [Nat.mod_eq_of_lt small]
    obtain ⟨add, swap, cas, rest⟩ := value
    exact ⟨add, swap, fun eq => other eq ▸ cas eq, rest⟩
  · subst fp32 add stored
    exact Nat.mod_eq_of_lt (toFp32_lt _)
  · subst fp32 stored
    rcases pick with rfl | rfl
    · exact Nat.mod_eq_of_lt (pick32_lt false _ _)
    · exact Nat.mod_eq_of_lt (pick32_lt true _ _)
  · rw [atomAnswer_zero _ _ _ hart zero, kept.regs]
  · rw [atomAnswer_tlps _ _ _ pcie, kept.tlps]
  · rw [atomAnswer_resv] at listed
    exact ⟨kept.resv r listed, resv_atomicStored u addr f x r listed⟩

end

/-- Settles O27: what the operation has, the alignment, the place and what the read meets tell the case. -/
theorem atomicsReadModifyAndWrite : Obligations.AtomicsReadModifyAndWrite := by
  unfold Obligations.AtomicsReadModifyAndWrite
  intro h src rd addr fmt v cmp err s op who f c row
  obtain ⟨cmp', other, next⟩ := exec_atomic row s
  refine ⟨fun lacks => ?_, fun has source => ⟨fun aligned inside clean met => ?_, fun aligned inside bad => ?_, fun odd => ?_, fun aligned outside => ?_⟩⟩
  · rw [atomic_without _ _ _ _ _ lacks] at next
    exact gives_next next rfl
  · exact atomic_reads_and_stores next has source aligned inside other clean met
  · exact atomic_traps_beyond next has source aligned inside bad
  · exact atomic_traps_misaligned next has source odd
  · exact atomic_traps_outside next has source aligned outside

end Sys2Proof.Machine
end

section
/-!
SUPPORT. The patrol scrub (11, R287, R288, R293, R294): what a step counts, how its pass moves on, and what a location beyond correction leaves.
-/

namespace Sys2Proof.Machine

/-! ### What a step of the scrub leaves alone -/

/-- The registers in which a scrub counts and notes what it finds. -/
def scrubRegs : List Reg := [DIST_MEM_ERR, MOD_T2_DEV, MOD_FAILREC, MOD_UE_INFO, MOD_UE_ADDR_LO, MOD_UE_ADDR_HI, MC_EVENT]

/-- The engines' work, the passes of the scrubs and every register not of the scrub are as before. -/
structure ScrubKept (s t : State) : Prop extends WorkKept scrubRegs s t where
  scrubs : t.scrubs = s.scrubs

namespace ScrubKept

theorem refl (s : State) : ScrubKept s s := ⟨.refl _ s, rfl⟩

theorem trans {s t u : State} (h : ScrubKept s t) (k : ScrubKept t u) : ScrubKept s u := ⟨h.toWorkKept.trans k.toWorkKept, k.scrubs.trans h.scrubs⟩

theorem wr (s : State) {r : Reg} (named : r ∈ scrubRegs) (i : Nat) (v : Word) : ScrubKept s (wr s r i v) := ⟨(WorkKept.refl _ s).wr named i v, rfl⟩

theorem bump (s : State) {f : Fld} (named : f.reg ∈ scrubRegs) (i n : Nat) : ScrubKept s (bump s f i n) := ⟨(WorkKept.refl _ s).bump named i n, rfl⟩

end ScrubKept

theorem scrubKept_spend (s : State) (a bytes slots energy : Nat) : ScrubKept s (spend s a bytes slots energy) := ⟨.of_work rfl, rfl⟩

theorem scrubKept_noteCorrected (s : State) (a n : Nat) : ScrubKept s (noteCorrected s a n) := by
  unfold noteCorrected
  split
  · exact .bump s (by decide) _ n
  · split <;> exact .bump s (by decide) _ n

theorem scrubKept_failEntry (s : State) (kind tag unit code detail step : Nat) : ScrubKept s (failEntry s kind tag unit code detail step) := by
  unfold failEntry
  dsimp only
  split
  · exact .bump s (by decide) 0 1
  · exact ⟨.of_work rfl, rfl⟩

theorem scrubKept_noteWorn (s : State) (a : Nat) : ScrubKept s (noteWorn s a) := by
  have listed : ∀ (u : State) (worn : List Nat), ScrubKept u { u with worn := worn } := fun _ _ => ⟨.of_work rfl, rfl⟩
  unfold noteWorn
  split
  · exact (scrubKept_failEntry s _ _ _ _ _ _).trans (listed _ _)
  · exact listed _ _

theorem scrubKept_poisonAt (s : State) (a n : Nat) : ScrubKept s (poisonAt s a n) := ⟨.of_work rfl, rfl⟩

theorem scrubKept_dropLine (s : State) (key way : Nat) : ScrubKept s (dropLine s key way) := ⟨.of_work rfl, rfl⟩

theorem scrubKept_markLost (s : State) (a : Nat) : ScrubKept s (markLost s a) := by
  unfold markLost
  split
  · exact scrubKept_noteWorn s a
  · split
    · exact .refl s
    · exact (scrubKept_noteWorn s a).trans (scrubKept_poisonAt _ _ _)

theorem scrubKept_noteUe (s : State) (detail tag : Nat) : ScrubKept s (noteUe s detail tag) := by
  have lived : ∀ (u : State) (life : Lifetime), ScrubKept u { u with life := life } := fun _ _ => ⟨.of_work rfl, rfl⟩
  exact ((ScrubKept.wr s (r := MOD_UE_INFO) (by decide) 0 _).trans ((ScrubKept.wr _ (r := MOD_UE_ADDR_LO) (by decide) 0 _).trans
    ((ScrubKept.wr _ (r := MOD_UE_ADDR_HI) (by decide) 0 _).trans (ScrubKept.bump _ (f := MOD_UE_ADDR_HI_COUNT) (by decide) 0 1)))).trans (lived _ _)

theorem scrubKept_raiseEvent (s : State) (code tag unit d0 d1 : Nat) : ScrubKept s (raiseEvent s code tag unit d0 d1) := by
  obtain ⟨mc, lost, event, -⟩ := raiseEvent_eq s code tag unit d0 d1
  rw [event]
  exact (ScrubKept.bump s (by decide) 0 lost).trans ⟨.of_work rfl, rfl⟩

theorem scrubKept_backgroundNote (s : State) (detail : Nat) : ScrubKept s (backgroundNote s detail) :=
  (scrubKept_noteUe s detail 0).trans ((scrubKept_failEntry _ _ _ _ _ _ _).trans (scrubKept_raiseEvent _ _ _ _ _ _))

theorem noteCorrected_frame (s : State) (a n : Nat) : ∃ regs, noteCorrected s a n = { s with regs := regs } := by
  unfold noteCorrected
  split
  · exact ⟨_, rfl⟩
  · split <;> exact ⟨_, rfl⟩

/-! ### Places (11, R278, R282, R295) -/

namespace ScrubKept

variable {s t : State} (h : ScrubKept s t)
include h

theorem logical : logicalOf t = logicalOf s := h.logicalOf (by decide)

theorem localGib : Machine.fg t MOD_T1_CFG_LOCAL_GIB 0 = Machine.fg s MOD_T1_CFG_LOCAL_GIB 0 := h.fg MOD_T1_CFG_LOCAL_GIB 0 (by decide)

theorem t1Stack (a : Nat) : t1Stack t a = t1Stack s a := by unfold Machine.t1Stack; rw [h.localGib]

theorem ueAt (kind a : Nat) : ueAt t kind a = ueAt s kind a := by unfold Machine.ueAt; rw [h.t1Stack]

theorem scrubAddr (store unit k : Nat) : scrubAddr t store unit k = scrubAddr s store unit k := by unfold Machine.scrubAddr; rw [h.localGib]

theorem scrubUnits (store : Nat) : scrubUnits t store = scrubUnits s store := by unfold Machine.scrubUnits; rw [wardCount_congr h.logical]

theorem scrubPlace (store unit loc : Nat) : scrubPlace t store unit loc = scrubPlace s store unit loc := by
  unfold Machine.scrubPlace t1Local; rw [h.t1Stack, h.localGib]

theorem sramDistrict (a : Nat) : sramDistrict t a = sramDistrict s a := by
  simp only [Machine.sramDistrict, districtOf, h.ueAt, districtAux_congr h.logical]

theorem scrubOf (c : Nat) : scrubOf t c = scrubOf s c := by unfold Machine.scrubOf; rw [h.scrubs]

theorem scrubPos (store unit : Nat) : scrubPos t store unit = scrubPos s store unit := by unfold Machine.scrubPos; rw [h.scrubOf]

theorem slicePins (d : Nat) : slicePins t d = slicePins s d := by
  have cfg : ∀ f : Fld, f.reg.no ∉ scrubRegs.map Reg.no → ∀ n, Machine.fg t f n = Machine.fg s f n := fun f out n => h.fg f n out
  unfold Machine.slicePins firstWard qEnabled qHome
  simp only [h.logical, cfg WARD_QCFG_EN (by decide), cfg WARD_QCFG_HOME (by decide)]
  refine List.map_congr_left fun n _ => ?_
  simp only [qSpan, qBytes, qDepth, qSlotBytes, cfg WARD_QCFG_BASE (by decide), cfg WARD_QCFG_DEPTH (by decide), cfg WARD_QCFG_SLOT (by decide)]

end ScrubKept

/-! ### The pass moved on (11, R288) -/

/-- The state with the scrub's place in a unit moved on. -/
def scrubMoved (s : State) (store unit n : Nat) : State :=
  setScrub s (scrubClass store) { scrubOf s (scrubClass store) with
    places := sset 0 (scrubOf s (scrubClass store)).places (scrubKey store unit) (scrubPos s store unit + n) }

/-- The count of passes of a class. -/
def passField (c : Nat) : Fld :=
  if c = 0 then MOD_SCRUB_STATUS_T1_PASSES else if c = 1 then MOD_SCRUB_STATUS_T2_PASSES else MOD_SCRUB_STATUS_SRAM_PASSES

theorem scrubMove_eq (s : State) (store unit n : Nat) : scrubMove s store unit n =
    if scrubWhole (scrubMoved s store unit n) (scrubClass store) = true then
      fs (setScrub (scrubMoved s store unit n) (scrubClass store) {}) (passField (scrubClass store)) 0 (fg s (passField (scrubClass store)) 0 + 1)
    else scrubMoved s store unit n := by
  have word : ∀ f, fg (scrubMoved s store unit n) f 0 = fg s f 0 := fun _ => rfl
  show (if !scrubWhole (scrubMoved s store unit n) (scrubClass store) then scrubMoved s store unit n
    else fs (setScrub (scrubMoved s store unit n) (scrubClass store) {}) (passField (scrubClass store)) 0
      (fg (scrubMoved s store unit n) (passField (scrubClass store)) 0 + 1)) = _
  rw [word]
  cases scrubWhole (scrubMoved s store unit n) (scrubClass store) <;> rfl

theorem passField_reg (c : Nat) : (passField c).reg = MOD_SCRUB_STATUS := by unfold passField; split_ifs <;> rfl

theorem passField_bits (c : Nat) : (passField c).lo ≤ (passField c).hi ∧ (passField c).hi ≤ 31 ∧ (passField c).hi + 1 - (passField c).lo = 8 := by
  unfold passField; split_ifs <;> decide

/-- Moving a pass on changes the passes and their counts alone. -/
theorem scrubMove_frame (s : State) (store unit n : Nat) : ∃ regs scrubs, scrubMove s store unit n = { s with regs := regs, scrubs := scrubs } := by
  rw [scrubMove_eq]
  split <;> exact ⟨_, _, rfl⟩

theorem rd_scrubMove (s : State) (store unit n : Nat) (r : Reg) (i : Nat) (out : r.no ≠ MOD_SCRUB_STATUS.no) :
    rd (scrubMove s store unit n) r i = rd s r i := by
  rw [scrubMove_eq]
  split
  · rw [rd_fs_of_no _ _ _ _ _ _ (by rwa [passField_reg])]
    rfl
  · rfl

theorem fg_scrubMove (s : State) (store unit n : Nat) (f : Fld) (i : Nat) (out : f.reg.no ≠ MOD_SCRUB_STATUS.no) :
    fg (scrubMove s store unit n) f i = fg s f i := by unfold fg; rw [rd_scrubMove _ _ _ _ _ _ out]

theorem nth_setNth_same {α : Type} {xs : List α} {i : Nat} (y d : α) (inside : i < xs.length) : nth (setNth xs i y) i d = y := by
  rw [nth, getElem?_setNth, if_pos rfl, List.getElem?_eq_getElem inside]
  rfl

theorem length_scrubs_scrubMoved (s : State) (store unit n : Nat) : (scrubMoved s store unit n).scrubs.length = s.scrubs.length :=
  length_setNth _ _ _

/-- From s to t memory and queues are as before, and the scrub of a store has moved on by n bytes in a unit: a pass that is whole counts, modulo
256, and the next begins. -/
def ScrubGoes (s t : State) (store unit n : Nat) : Prop :=
  let k := scrubClass store
  t.mem = s.mem ∧ t.queues = s.queues ∧
  (scrubWhole (scrubMoved s store unit n) k = false → scrubOf t k = scrubOf (scrubMoved s store unit n) k ∧ fg t (passField k) 0 = fg s (passField k) 0) ∧
  (scrubWhole (scrubMoved s store unit n) k = true → scrubOf t k = {} ∧ fg t (passField k) 0 = (fg s (passField k) 0 + 1) % 256)

theorem scrubGoes_scrubMove {s : State} {store : Nat} (unit n : Nat) (here : scrubClass store < s.scrubs.length) :
    ScrubGoes s (scrubMove s store unit n) store unit n := by
  obtain ⟨regs, scrubs, frame⟩ := scrubMove_frame s store unit n
  obtain ⟨ord, top, width⟩ := passField_bits (scrubClass store)
  refine ⟨by rw [frame], by rw [frame], fun part => ?_, fun whole => ?_⟩
  · rw [scrubMove_eq, if_neg (by simp [part])]
    exact ⟨rfl, rfl⟩
  · rw [scrubMove_eq, if_pos whole, fg_fs_same _ _ _ _ ord top, width]
    exact ⟨nth_setNth_same _ _ (by rwa [length_scrubs_scrubMoved]), rfl⟩

theorem ScrubGoes.of_kept {s u t : State} {store unit n : Nat} (kept : ScrubKept s u) (h : ScrubGoes u t store unit n) :
    ScrubGoes s t store unit n := by
  have moved : ScrubKept (scrubMoved s store unit n) (scrubMoved u store unit n) := by
    refine ⟨⟨kept.rd, kept.mem, kept.boot, kept.streams, kept.queues, kept.engines, kept.me, kept.dists⟩, ?_⟩
    show setNth u.scrubs _ _ = setNth s.scrubs _ _
    rw [kept.scrubs, kept.scrubOf, kept.scrubPos]
  have whole : scrubWhole (scrubMoved u store unit n) (scrubClass store) = scrubWhole (scrubMoved s store unit n) (scrubClass store) := by
    simp only [scrubWhole, moved.scrubUnits, moved.scrubPos]
  have word : fg u (passField (scrubClass store)) 0 = fg s (passField (scrubClass store)) 0 :=
    kept.fg _ 0 (by rw [passField_reg]; decide)
  obtain ⟨mem, queues, going, ending⟩ := h
  rw [whole, moved.scrubOf, word] at going
  rw [whole, word] at ending
  exact ⟨mem.trans kept.mem, queues.trans kept.queues, going, ending⟩

theorem ScrubGoes.observe {s t : State} {store unit n : Nat} (h : ScrubGoes s t store unit n) : ScrubGoes s (observe t) store unit n := by
  have scrubs : ∀ c, scrubOf (Machine.observe t) c = scrubOf t c := fun c => by
    obtain ⟨_, _, _, eq⟩ := observe_eq t
    rw [eq]
    rfl
  obtain ⟨mem, queues, going, ending⟩ := h
  rw [← scrubs, ← fg_observe] at going ending
  exact ⟨(observe_mem t).trans mem, (observe_queues t).trans queues, going, ending⟩

/-! ### Corrections counted (11, R287) -/

/-- The first byte of a unit of Tier 1 stands on its own stack. -/
theorem t1Stack_scrubAddr {s : State} {store unit : Nat} (tier : store ≤ 3) (unit' : unit < 20) (gib : fg s MOD_T1_CFG_LOCAL_GIB 0 ≤ 24) :
    scrubAddr s store unit 0 < tier1Size ∧ t1Stack s (scrubAddr s store unit 0) = unit := by
  have addr : scrubAddr s store unit 0 = t1Offset (fg s MOD_T1_CFG_LOCAL_GIB 0) unit 0 := by
    interval_cases store <;> simp [scrubAddr]
  rw [addr]
  unfold t1Stack
  dsimp only
  generalize fg s MOD_T1_CFG_LOCAL_GIB 0 = g at gib ⊢
  unfold t1Offset tier1Size
  by_cases all : g = 24
  · subst all
    rw [if_neg (by omega), if_neg (by omega), if_neg (by omega)]
    omega
  · rw [if_pos (show 0 < (24 - g) * 2 ^ 30 by omega)]
    rw [if_pos (by omega)]
    omega

/-- The first byte of a unit of Tier 2 stands on its own device. -/
theorem t2Device_scrubAddr (s : State) {store unit : Nat} (tier : 3 < store ∧ store ≤ 6) (unit' : unit < 32) :
    ¬scrubAddr s store unit 0 < tier1Size ∧ scrubAddr s store unit 0 < wardBase ∧ t2Device (scrubAddr s store unit 0 - tier2Base) = unit := by
  have addr : scrubAddr s store unit 0 = tier2Base + unit * 256 := by
    obtain ⟨low, high⟩ := tier
    interval_cases store <;> simp [scrubAddr]
  rw [addr]
  unfold tier1Size tier2Base wardBase t2Device
  omega

/-- The SRAM stores stand above both tiers. -/
theorem wardBase_le_scrubAddr (s : State) {store : Nat} (unit : Nat) (sram : 6 < store ∧ store ≤ 11) :
    ¬scrubAddr s store unit 0 < tier1Size ∧ ¬scrubAddr s store unit 0 < wardBase := by
  have above : wardBase ≤ scrubAddr s store unit 0 := by
    obtain ⟨low, high⟩ := sram
    interval_cases store <;>
      simp only [scrubAddr, wardStoreKey, accumKey, sliceKey, descKey, kstoreKey, wardBase, sliceBase, ctrlBase] <;> omega
  have tiers : tier1Size < wardBase := by decide
  omega

theorem stores_of_scrubClass (store : Nat) : (scrubClass store = 0 → store ≤ 3) ∧ (scrubClass store = 1 → 3 < store ∧ store ≤ 6) ∧
    (scrubClass store = 2 → 6 < store) ∧ scrubClass store < 3 := by
  unfold scrubClass
  refine ⟨fun h => ?_, fun h => ?_, fun h => ?_, ?_⟩
  · split_ifs at h
    omega
  · split_ifs at h <;> omega
  · split_ifs at h <;> omega
  · split_ifs <;> omega

theorem scrubUnits_tiers (s : State) {store : Nat} (tier : store ≤ 6) : scrubUnits s store = if store ≤ 3 then 20 else 32 := by
  interval_cases store <;> rfl

section
variable {s : State} {store unit : Nat} (n : Nat) (last : store ≤ 11) (here : unit < scrubUnits s store)

include here in
theorem noteCorrected_tier1 (gib : fg s MOD_T1_CFG_LOCAL_GIB 0 ≤ 24) (tier : scrubClass store = 0) :
    fg (noteCorrected s (scrubAddr s store unit 0) n) DIST_MEM_ERR_T1_CORRECTED unit = min (2 ^ 16 - 1) (fg s DIST_MEM_ERR_T1_CORRECTED unit + n) := by
  have low := (stores_of_scrubClass store).1 tier
  rw [scrubUnits_tiers s (by omega), if_pos low] at here
  obtain ⟨inside, stack⟩ := t1Stack_scrubAddr low here gib
  rw [noteCorrected, if_pos inside, stack, fg_bump_same _ _ _ _ (by decide)]
  rfl

include here in
theorem noteCorrected_tier2 (tier : scrubClass store = 1) :
    fg (noteCorrected s (scrubAddr s store unit 0) n) MOD_T2_DEV_CORRECTED unit = min (2 ^ 12 - 1) (fg s MOD_T2_DEV_CORRECTED unit + n) := by
  have within := (stores_of_scrubClass store).2.1 tier
  rw [scrubUnits_tiers s within.2, if_neg (by omega)] at here
  obtain ⟨above, inside, device⟩ := t2Device_scrubAddr s within here
  rw [noteCorrected, if_neg above, if_pos inside, device, fg_bump_same _ _ _ _ (by decide)]
  rfl

include last in
theorem noteCorrected_sram (sram : scrubClass store = 2) :
    let d := sramDistrict s (scrubAddr s store unit 0)
    fg (noteCorrected s (scrubAddr s store unit 0) n) DIST_MEM_ERR_SRAM_CORRECTED d = min 255 (fg s DIST_MEM_ERR_SRAM_CORRECTED d + n) := by
  intro d
  obtain ⟨above, beyond⟩ := wardBase_le_scrubAddr s unit ⟨(stores_of_scrubClass store).2.2.1 sram, last⟩
  rw [noteCorrected, if_neg above, if_neg beyond, fg_bump_same _ _ _ _ (by decide)]
  rfl

end

end Sys2Proof.Machine
end

section
/-!
CLAIM. The patrol scrub (11, R287, R288, R293 to R296): a step in its budget, what it counts, and a location beyond correction that it finds.
-/

namespace Sys2Proof.Machine

/-! ### Poisoned, worn and noted (11, R291, R294 to R296) -/

/-- What has been poisoned is poisoned. -/
theorem poisoned_poisonAt (s : State) {a n b : Nat} (inside : a ≤ b ∧ b < a + n) : poisoned (poisonAt s a n) b 1 = true := by
  have listed : b / 4 ∈ (poisonAt s a n).poison := by
    have within : b / 4 ∈ rangeFrom (a / 4) (ceilDiv (a % 4 + n) 4) := (mem_rangeFrom _ _ _).mpr (by unfold ceilDiv; omega)
    by_cases old : b / 4 ∈ s.poison
    · exact List.mem_append_left _ old
    · exact List.mem_append_right _ (List.mem_filter.mpr ⟨within, by simpa using old⟩)
  refine List.any_eq_true.mpr ⟨b / 4, listed, ?_⟩
  simp only [Bool.and_eq_true, decide_eq_true_eq]
  omega

theorem sectorSize_pos (a : Nat) : 0 < sectorSize a := by unfold sectorSize; split_ifs <;> decide

theorem mem_sector (a : Nat) : sectorOf a ≤ a ∧ a < sectorOf a + sectorSize a :=
  ⟨Nat.div_mul_le_self _ _, by unfold sectorOf; have := Nat.div_add_mod' a (sectorSize a); have := Nat.mod_lt a (sectorSize_pos a); omega⟩

theorem failEntry_closed (s : State) (kind tag unit code detail step : Nat) :
    (failEntry s kind tag unit code detail step).store.fail.closed = s.store.fail.closed := by
  unfold failEntry
  dsimp only
  split <;> rfl

theorem rd_failEntry (s : State) (kind tag unit code detail step : Nat) (r : Reg) (i : Nat) (out : r.no ≠ MOD_FAILREC.no) :
    rd (failEntry s kind tag unit code detail step) r i = rd s r i := by
  unfold failEntry
  dsimp only
  split
  · exact rd_fs_of_no s MOD_FAILREC_DROPPED r 0 i _ out
  · rfl

theorem noteWorn_lists (s : State) (a : Nat) : sectorOf a ∈ (noteWorn s a).worn := by
  by_cases old : sectorOf a ∈ s.worn <;> simp [noteWorn, old]

/-- A location that has failed before is recorded again. -/
theorem noteWorn_eseq (s : State) (a : Nat) (unsealed : s.store.fail.closed = false) : (noteWorn s a).store.fail.closed = false ∧
    (noteWorn s a).store.fail.eseq = s.store.fail.eseq + if sectorOf a ∈ s.worn then 1 else 0 := by
  by_cases old : sectorOf a ∈ s.worn
  · simp only [noteWorn, List.contains_iff_mem, old, if_true, failEntry_closed, unsealed, true_and]
    exact (failEntry_enters s _ _ _ _ _ _ unsealed (by decide)).1
  · simp only [noteWorn, List.contains_iff_mem, old, if_false, unsealed, true_and]
    rfl

section
variable {s : State} {a : Nat} (clean : a < 2 ^ 61 → poisoned s (sectorOf a) (sectorSize a) = false)
include clean

theorem markLost_eq : markLost s a = if a < 2 ^ 61 then poisonAt (noteWorn s a) (sectorOf a) (sectorSize a) else noteWorn s a := by
  unfold markLost
  by_cases low : a < 2 ^ 61
  · rw [if_neg (not_le.mpr low), clean low, if_neg Bool.false_ne_true, if_pos low]
  · rw [if_pos (not_lt.mp low), if_neg low]

theorem markLost_noted : (markLost s a).worn = (noteWorn s a).worn ∧ (markLost s a).store = (noteWorn s a).store := by
  rw [markLost_eq clean]
  split <;> exact ⟨rfl, rfl⟩

theorem markLost_poisons (low : a < 2 ^ 61) : poisoned (markLost s a) a 1 = true := by
  rw [markLost_eq clean, if_pos low]
  exact poisoned_poisonAt _ (mem_sector a)

end

theorem raiseEvent_frame (s : State) (code tag unit d0 d1 : Nat) : ∃ regs mc,
    raiseEvent s code tag unit d0 d1 = { s with regs := regs, mc := mc } ∧ mc.evseq = s.mc.evseq + 1 := by
  obtain ⟨mc, lost, event, evseq⟩ := raiseEvent_eq s code tag unit d0 d1
  exact ⟨(bump s MC_EVENT_LOST 0 lost).regs, mc, event, evseq⟩

/-- An error noted counts in the lifetime and raises one event; one more entry is in an open failure record. -/
theorem backgroundNote_frame (s : State) (d : Nat) : ∃ regs store mc,
    backgroundNote s d = { s with regs := regs, store := store, mc := mc, life := { s.life with uncorr := s.life.uncorr + 1 } } ∧
      mc.evseq = s.mc.evseq + 1 ∧ (s.store.fail.closed = false → store.fail.eseq = s.store.fail.eseq + 1) := by
  have raised : backgroundNote s d = raiseEvent (failEntry (noteUe s d 0) 5 0 (bits d 27 16) (bits d 31 28) (d / 2 ^ 32 % 2 ^ 32) noStep)
    0x000B 0 (bits d 31 28) (d / 2 ^ 32) 0 := rfl
  have entry := fun unsealed => (failEntry_enters (noteUe s d 0) 5 0 (bits d 27 16) (bits d 31 28) (d / 2 ^ 32 % 2 ^ 32) noStep unsealed (by decide)).1
  obtain ⟨_, store, entered⟩ := failEntry_frame (noteUe s d 0) 5 0 (bits d 27 16) (bits d 31 28) (d / 2 ^ 32 % 2 ^ 32) noStep
  generalize failEntry (noteUe s d 0) 5 0 (bits d 27 16) (bits d 31 28) (d / 2 ^ 32 % 2 ^ 32) noStep = u at raised entered entry
  obtain ⟨regs, mc, event, evseq⟩ := raiseEvent_frame u 0x000B 0 (bits d 31 28) (d / 2 ^ 32) 0
  subst entered
  exact ⟨regs, store, mc, raised.trans event, evseq, entry⟩

theorem rd_life (s : State) (life : Lifetime) (r : Reg) (i : Nat) : rd { s with life := life } r i = rd s r i := rfl

theorem rd_noteUe (s : State) (d : Nat) (r : Reg) (out : r.no ≠ MOD_UE_ADDR_HI.no) : rd (noteUe s d 0) r 0 =
    rd (wr (wr s MOD_UE_INFO 0 (BitVec.ofNat 32 (d % 2 ^ 32 + 0 % 2 ^ 16))) MOD_UE_ADDR_LO 0 (BitVec.ofNat 32 (d / 2 ^ 32))) r 0 := by
  generalize located : wr (wr s MOD_UE_INFO 0 (BitVec.ofNat 32 (d % 2 ^ 32 + 0 % 2 ^ 16))) MOD_UE_ADDR_LO 0 (BitVec.ofNat 32 (d / 2 ^ 32)) = u
  unfold noteUe
  dsimp only
  rw [located, rd_life, bump, rd_fs_of_no _ _ _ _ _ _ out, rd_fs_of_no _ _ _ _ _ _ out]

/-- The error's place stands in the registers that name the last one. -/
theorem rd_backgroundNote (s : State) (d : Nat) : (rd (backgroundNote s d) MOD_UE_INFO 0).toNat = d % 2 ^ 32 ∧
    (rd (backgroundNote s d) MOD_UE_ADDR_LO 0).toNat = d / 2 ^ 32 % 2 ^ 32 := by
  have through : ∀ r : Reg, r.no ≠ MC_EVENT.no → r.no ≠ MOD_FAILREC.no → rd (backgroundNote s d) r 0 = rd (noteUe s d 0) r 0 := by
    intro r event entry
    unfold backgroundNote
    rw [rd_raiseEvent _ _ _ _ _ _ _ _ event, rd_failEntry _ _ _ _ _ _ _ _ _ entry]
  rw [through _ (by decide) (by decide), through _ (by decide) (by decide), rd_noteUe _ _ _ (by decide), rd_noteUe _ _ _ (by decide),
    rd_wr_of_no _ _ _ _ _ _ (by decide), rd_wr_same, rd_wr_same, BitVec.toNat_ofNat, BitVec.toNat_ofNat]
  omega

/-! ### A location found beyond correction (11, R293, R294) -/

section
variable {s : State} {store unit loc : Nat}

theorem scrubUe_of_memory (memory : store ≠ 9) (clean : scrubAddr s store unit (scrubPlace s store unit loc).2 < 2 ^ 61 →
    poisoned s (sectorOf (scrubAddr s store unit (scrubPlace s store unit loc).2)) (sectorSize (scrubAddr s store unit (scrubPlace s store unit loc).2)) = false) :
    scrubUe s store unit loc = backgroundNote (markLost s (scrubAddr s store unit (scrubPlace s store unit loc).2))
      (ueAt s 1 (scrubAddr s store unit (scrubPlace s store unit loc).2)) := by
  unfold scrubUe
  dsimp only
  rw [if_pos memory, if_neg]
  simpa using clean

theorem dropLine_poison (s : State) (key way : Nat) : (dropLine s key way).poison = s.poison := rfl

theorem dropLine_mc (s : State) (key way : Nat) : (dropLine s key way).mc = s.mc := rfl

theorem scrubUe_of_line {set way : Nat} (where' : loc % 0x80000 / 256 = set ∧ loc / 0x80000 = way) {l : CLine} (free : way ∈ freeWays (slicePins s unit) set)
    (held : (heldLines s (unit * 2048 + set)).find? (fun l => l.way == way) = some l) :
    scrubUe s 9 unit loc = if l.dirty = true then
        backgroundNote (poisonAt (noteWorn (dropLine s (unit * 2048 + set) way) (sliceKey unit loc))
          (t1Offset (fg s MOD_T1_CFG_LOCAL_GIB 0) unit (l.block * 256)) 256) (ueAt s 1 (sliceKey unit loc))
      else noteCorrected (dropLine s (unit * 2048 + set) way) (sliceKey unit loc) 1 := by
  obtain ⟨rfl, rfl⟩ := where'
  have named : (freeWays (slicePins s unit) (loc % 0x80000 / 256)).contains (loc / 0x80000) = true := by simpa using free
  have place : scrubAddr s 9 unit (scrubPlace s 9 unit loc).2 = sliceKey unit loc := by simp [scrubAddr, scrubPlace]
  unfold scrubUe
  simp only [named, held, place, ne_eq, not_true_eq_false, if_false, Bool.not_true, Bool.false_eq_true]
  cases l.dirty
  · simp
  · simp

end

theorem scrubKept_scrubUe (s : State) (store unit loc : Nat) : ScrubKept s (scrubUe s store unit loc) := by
  have lost : ∀ a d, ScrubKept s (if (a < 2 ^ 61 && poisoned s (sectorOf a) (sectorSize a)) = true then s else backgroundNote (markLost s a) d) := by
    intro a d
    split
    · exact .refl s
    · exact (scrubKept_markLost s a).trans (scrubKept_backgroundNote _ d)
  unfold scrubUe
  dsimp only
  split
  · simpa using lost _ _
  · split
    · simpa using lost _ _
    · split
      · exact .refl s
      · split
        · exact (scrubKept_dropLine s _ _).trans (scrubKept_noteCorrected _ _ 1)
        · exact (scrubKept_dropLine s _ _).trans ((scrubKept_noteWorn _ _).trans ((scrubKept_poisonAt _ _ _).trans (scrubKept_backgroundNote _ _)))

/-! ### The row -/

/-- The bytes of a step. -/
def scrubLen (s : State) (store unit bytes : Nat) : Nat := min bytes (scrubUnitSize store - scrubPos s store unit)

/-- A step finds an uncorrectable word: one stands in the run that it reads. -/
abbrev ScrubFinds (s : State) (store unit loc bytes uncorr : Nat) : Prop :=
  uncorr ≠ 0 ∧ (scrubPlace s store unit loc).1 = unit ∧ scrubPos s store unit ≤ (scrubPlace s store unit loc).2 ∧
    (scrubPlace s store unit loc).2 < scrubPos s store unit + scrubLen s store unit bytes

/-- The state in which a step looks for what it finds: its use of the budget added, its corrections counted. -/
def scrubCounted (s : State) (store unit bytes energy n : Nat) : State :=
  noteCorrected (spend s actScrub (scrubLen s store unit bytes) 0 energy) (scrubAddr s store unit 0) n

section
variable {s : State} {store unit : Nat} (loc bytes energy n uncorr : Nat)

theorem scrubCounted_frame (s : State) (store unit bytes energy n : Nat) :
    ∃ regs pwr, scrubCounted s store unit bytes energy n = { s with regs := regs, pwr := pwr } := by
  obtain ⟨_, counted⟩ := noteCorrected_frame (spend s actScrub (scrubLen s store unit bytes) 0 energy) (scrubAddr s store unit 0) n
  exact ⟨_, _, counted⟩

theorem scrubKept_scrubCounted (s : State) (store unit bytes energy n : Nat) : ScrubKept s (scrubCounted s store unit bytes energy n) :=
  (scrubKept_spend s _ _ _ _).trans (scrubKept_noteCorrected _ _ n)

theorem exec_patrolScrub_of_none (none : scrubLen s store unit bytes = 0) :
    exec (.patrolScrub store unit loc bytes energy n uncorr) s = .next s := by
  change execPatrolScrub store unit loc bytes energy n uncorr s = _
  unfold scrubLen at none
  simp [execPatrolScrub, none]

variable (first : 1 ≤ store) (last : store ≤ 11) (here : unit < scrubUnits s store) (some : scrubLen s store unit bytes ≠ 0)
include first last here some

theorem exec_patrolScrub : exec (.patrolScrub store unit loc bytes energy n uncorr) s =
    .next (withBudget s actScrub (scrubLen s store unit bytes) 0 energy (fun t => observe (scrubMove
      (if uncorr ≠ 0 ∧ (scrubPlace s store unit loc).1 = unit ∧ scrubPos s store unit ≤ (scrubPlace s store unit loc).2 ∧
          (scrubPlace s store unit loc).2 < scrubPos s store unit + scrubLen s store unit bytes
        then scrubUe (noteCorrected t (scrubAddr t store unit 0) n) store unit loc else noteCorrected t (scrubAddr t store unit 0) n)
      store unit (scrubLen s store unit bytes)))) := by
  change execPatrolScrub store unit loc bytes energy n uncorr s = _
  have may : ¬(store = 0 ∨ store > 11 ∨ unit ≥ scrubUnits s store ∨ min bytes (scrubUnitSize store - scrubPos s store unit) = 0) := by
    unfold scrubLen at some
    omega
  unfold execPatrolScrub
  dsimp only
  rw [if_neg may]
  rfl

theorem patrolScrub_waits (out : ¬budgetCovers s actScrub (scrubLen s store unit bytes) 0 energy = true) :
    Gives (.patrolScrub store unit loc bytes energy n uncorr) s fun t => (sget {} t.pwr.used 0).out = true ∧ t = { s with pwr := t.pwr } := by
  refine gives_next (exec_patrolScrub loc bytes energy n uncorr first last here some) ?_
  rw [withBudget_of_out _ out]
  exact ⟨congrArg Spent.out (sget_sset_same _ _ _ _), rfl⟩

variable (covered : budgetCovers s actScrub (scrubLen s store unit bytes) 0 energy = true)
include covered

theorem exec_patrolScrub_of_clean (unfound : ¬ScrubFinds s store unit loc bytes uncorr) :
    exec (.patrolScrub store unit loc bytes energy n uncorr) s =
      .next (observe (scrubMove (scrubCounted s store unit bytes energy n) store unit (scrubLen s store unit bytes))) := by
  rw [exec_patrolScrub loc bytes energy n uncorr first last here some, withBudget_of_covered _ covered, if_neg unfound]
  rfl

theorem exec_patrolScrub_of_found (found : ScrubFinds s store unit loc bytes uncorr) :
    exec (.patrolScrub store unit loc bytes energy n uncorr) s = .next (observe (scrubMove
      (scrubUe (scrubCounted s store unit bytes energy n) store unit loc) store unit (scrubLen s store unit bytes))) := by
  rw [exec_patrolScrub loc bytes energy n uncorr first last here some, withBudget_of_covered _ covered, if_pos found]
  rfl

variable (three : s.scrubs.length = 3)
include three

omit first last here some covered in
/-- Whatever a step has counted and found, its pass moves on. -/
theorem scrubGoes_of_kept {u : State} (kept : ScrubKept s u) (len : Nat) : ScrubGoes s (observe (scrubMove u store unit len)) store unit len := by
  refine (ScrubGoes.of_kept kept (scrubGoes_scrubMove unit len ?_)).observe
  rw [kept.scrubs, three]
  exact (stores_of_scrubClass store).2.2.2

theorem patrolScrub_counts (gib : fg s MOD_T1_CFG_LOCAL_GIB 0 ≤ 24) (unfound : ¬ScrubFinds s store unit loc bytes uncorr) :
    Gives (.patrolScrub store unit loc bytes energy n uncorr) s fun t =>
      ScrubGoes s t store unit (scrubLen s store unit bytes) ∧ t.poison = s.poison ∧ t.mc.evseq = s.mc.evseq ∧
      (scrubClass store = 0 → fg t DIST_MEM_ERR_T1_CORRECTED unit = min (2 ^ 16 - 1) (fg s DIST_MEM_ERR_T1_CORRECTED unit + n)) ∧
      (scrubClass store = 1 → fg t MOD_T2_DEV_CORRECTED unit = min (2 ^ 12 - 1) (fg s MOD_T2_DEV_CORRECTED unit + n)) ∧
      (scrubClass store = 2 → fg t DIST_MEM_ERR_SRAM_CORRECTED (sramDistrict s (scrubAddr s store unit 0)) =
        min 255 (fg s DIST_MEM_ERR_SRAM_CORRECTED (sramDistrict s (scrubAddr s store unit 0)) + n)) := by
  have kept := scrubKept_scrubCounted s store unit bytes energy n
  obtain ⟨_, _, moved⟩ := scrubMove_frame (scrubCounted s store unit bytes energy n) store unit (scrubLen s store unit bytes)
  obtain ⟨_, _, counted⟩ := scrubCounted_frame s store unit bytes energy n
  refine gives_next (exec_patrolScrub_of_clean loc bytes energy n uncorr first last here some covered unfound)
    ⟨scrubGoes_of_kept three kept _, ?_, ?_, fun tier => ?_, fun tier => ?_, fun sram => ?_⟩
  · rw [observe_poison, moved, counted]
  · rw [observe_mc, moved, counted]
  · rw [fg_observe, fg_scrubMove _ _ _ _ _ _ (by decide)]
    exact noteCorrected_tier1 (s := spend s actScrub (scrubLen s store unit bytes) 0 energy) n here gib tier
  · rw [fg_observe, fg_scrubMove _ _ _ _ _ _ (by decide)]
    exact noteCorrected_tier2 (s := spend s actScrub (scrubLen s store unit bytes) 0 energy) n here tier
  · rw [fg_observe, fg_scrubMove _ _ _ _ _ _ (by decide)]
    exact noteCorrected_sram (s := spend s actScrub (scrubLen s store unit bytes) 0 energy) n last sram

variable (found : ScrubFinds s store unit loc bytes uncorr)
include found

theorem patrolScrub_finds (memory : store ≠ 9) {a : Nat} (place : scrubAddr s store unit (scrubPlace s store unit loc).2 = a)
    (clean : a < 2 ^ 61 → poisoned s (sectorOf a) (sectorSize a) = false) :
    Gives (.patrolScrub store unit loc bytes energy n uncorr) s fun t =>
      ScrubGoes s t store unit (scrubLen s store unit bytes) ∧ (a < 2 ^ 61 → poisoned t a 1 = true) ∧
      (rd t MOD_UE_INFO 0).toNat = ueAt s 1 a % 2 ^ 32 ∧ (rd t MOD_UE_ADDR_LO 0).toNat = ueAt s 1 a / 2 ^ 32 % 2 ^ 32 ∧
      t.life.uncorr = s.life.uncorr + 1 ∧ t.mc.evseq = s.mc.evseq + 1 ∧ sectorOf a ∈ t.worn ∧
      (s.store.fail.closed = false → t.store.fail.eseq = s.store.fail.eseq + if sectorOf a ∈ s.worn then 2 else 1) := by
  have row := exec_patrolScrub_of_found loc bytes energy n uncorr first last here some covered found
  have kept := scrubKept_scrubCounted s store unit bytes energy n
  obtain ⟨_, _, counted⟩ := scrubCounted_frame s store unit bytes energy n
  generalize scrubCounted s store unit bytes energy n = u at row kept counted
  have there : scrubAddr u store unit (scrubPlace u store unit loc).2 = a := by rw [kept.scrubPlace, kept.scrubAddr, place]
  have clean' : a < 2 ^ 61 → poisoned u (sectorOf a) (sectorSize a) = false := by rw [counted]; exact clean
  rw [scrubUe_of_memory memory (by rwa [there]), there, kept.ueAt] at row
  have noted := (kept.trans (scrubKept_markLost u a)).trans (scrubKept_backgroundNote _ (ueAt s 1 a))
  have frame := errFrame_markLost u a
  obtain ⟨worn, store'⟩ := markLost_noted clean'
  obtain ⟨info, low⟩ := rd_backgroundNote (markLost u a) (ueAt s 1 a)
  obtain ⟨_, _, _, background, evseq, eseq⟩ := backgroundNote_frame (markLost u a) (ueAt s 1 a)
  obtain ⟨_, _, moved⟩ := scrubMove_frame (backgroundNote (markLost u a) (ueAt s 1 a)) store unit (scrubLen s store unit bytes)
  refine gives_next row ⟨scrubGoes_of_kept three noted _, fun inside => ?_, ?_, ?_, ?_, ?_, ?_, fun unsealed => ?_⟩
  · have poison := markLost_poisons clean' inside
    unfold poisoned at poison ⊢
    rw [observe_poison, moved, background]
    exact poison
  · rw [rd_observe, rd_scrubMove _ _ _ _ _ _ (by decide), info]
  · rw [rd_observe, rd_scrubMove _ _ _ _ _ _ (by decide), low]
  · rw [observe_life, moved, background, frame.life, counted]
  · rw [observe_mc, moved, background]
    exact evseq.trans (by rw [frame.mc, counted])
  · obtain ⟨_, _, _, watched⟩ := observe_eq (scrubMove (backgroundNote (markLost u a) (ueAt s 1 a)) store unit (scrubLen s store unit bytes))
    rw [watched, moved, background, worn]
    exact noteWorn_lists u a
  · have open' : u.store.fail.closed = false := by rw [counted]; exact unsealed
    obtain ⟨closed, entered⟩ := noteWorn_eseq u a open'
    rw [store'] at eseq
    rw [observe_store, moved, background, eseq closed, entered, counted]
    split <;> rfl

theorem patrolScrub_finds_line (slice : store = 9) {l : CLine} (free : loc / 0x80000 ∈ freeWays (slicePins s unit) (loc % 0x80000 / 256))
    (held : (heldLines s (unit * 2048 + loc % 0x80000 / 256)).find? (fun l => l.way == loc / 0x80000) = .some l) :
    Gives (.patrolScrub store unit loc bytes energy n uncorr) s fun t => ScrubGoes s t store unit (scrubLen s store unit bytes) ∧
      (l.dirty = false → t.poison = s.poison ∧ t.mc.evseq = s.mc.evseq) ∧
      (l.dirty = true → t.mc.evseq = s.mc.evseq + 1 ∧ ∀ b, b < 256 →
        poisoned t (t1Offset (fg s MOD_T1_CFG_LOCAL_GIB 0) unit (l.block * 256) + b) 1 = true) := by
  have row := exec_patrolScrub_of_found loc bytes energy n uncorr first last here some covered found
  have kept := scrubKept_scrubCounted s store unit bytes energy n
  obtain ⟨_, _, counted⟩ := scrubCounted_frame s store unit bytes energy n
  generalize scrubCounted s store unit bytes energy n = u at row kept counted
  have ways : heldLines u (unit * 2048 + loc % 0x80000 / 256) = heldLines s (unit * 2048 + loc % 0x80000 / 256) := by
    unfold heldLines
    rw [kept.slicePins, counted]
  have noted := kept.trans (scrubKept_scrubUe u store unit loc)
  refine gives_next row ⟨scrubGoes_of_kept three noted _, ?_⟩
  subst slice
  rw [scrubUe_of_line ⟨rfl, rfl⟩ (by rwa [kept.slicePins]) (by rwa [ways]), kept.ueAt, kept.localGib]
  generalize dropped : dropLine u (unit * 2048 + loc % 0x80000 / 256) (loc / 0x80000) = v
  have parts : v.poison = s.poison ∧ v.mc = s.mc := by
    rw [← dropped, counted]
    exact ⟨dropLine_poison _ _ _, dropLine_mc _ _ _⟩
  obtain ⟨poison, mc⟩ := parts
  refine ⟨fun clean => ?_, fun dirty => ?_⟩
  · rw [if_neg (by simp [clean])]
    obtain ⟨_, corrected⟩ := noteCorrected_frame v (sliceKey unit loc) 1
    obtain ⟨_, _, moved⟩ := scrubMove_frame (noteCorrected v (sliceKey unit loc) 1) 9 unit (scrubLen s 9 unit bytes)
    rw [observe_poison, observe_mc, moved, corrected]
    exact ⟨poison, congrArg _ mc⟩
  · rw [if_pos dirty]
    generalize marked : poisonAt (noteWorn v (sliceKey unit loc)) (t1Offset (fg s MOD_T1_CFG_LOCAL_GIB 0) unit (l.block * 256)) 256 = x
    have same : x.mc = s.mc := by rw [← marked]; exact ((errFrame_noteWorn v _).trans (errFrame_poisonAt _ _ _)).mc.trans mc
    obtain ⟨_, _, _, background, evseq, -⟩ := backgroundNote_frame x (ueAt s 1 (sliceKey unit loc))
    obtain ⟨_, _, moved⟩ := scrubMove_frame (backgroundNote x (ueAt s 1 (sliceKey unit loc))) 9 unit (scrubLen s 9 unit bytes)
    refine ⟨?_, fun b inside => ?_⟩
    · rw [observe_mc, moved, background]
      exact evseq.trans (by rw [same])
    · have there := poisoned_poisonAt (noteWorn v (sliceKey unit loc)) (a := t1Offset (fg s MOD_T1_CFG_LOCAL_GIB 0) unit (l.block * 256))
        (n := 256) (b := t1Offset (fg s MOD_T1_CFG_LOCAL_GIB 0) unit (l.block * 256) + b) (by omega)
      rw [marked] at there
      unfold poisoned at there ⊢
      rw [observe_poison, moved, background]
      exact there

end

end Sys2Proof.Machine
end

section
/-!
SUPPORT. The findings of the media (14, R338 to R342): what they leave alone, what a retired block and a relocated one leave.
-/

namespace Sys2Proof.Machine

/-! ### What a finding leaves alone -/

/-- From s to t memory, queues and the controller's own state are as before, and so are the host device, the images, the orphaned bytes and the
state of the configuration store; no packet joined the changes that wait for it, and no power-fail sequence began. -/
structure MediaKept (s t : State) : Prop where
  mem : t.mem = s.mem
  queues : t.queues = s.queues
  mc : t.mc = s.mc
  host : t.flash.host = s.flash.host
  images : t.flash.images = s.flash.images
  orphans : t.flash.orphans = s.flash.orphans
  protect : t.flash.protect = s.flash.protect
  recs : t.store.recs = s.store.recs
  gens : t.store.gens = s.store.gens
  compact : t.store.compact = s.store.compact
  packets : t.store.queue.contains .packet = s.store.queue.contains .packet
  pfw : fg t JNL_STATUS_PFW_ACTIVE 0 = fg s JNL_STATUS_PFW_ACTIVE 0

namespace MediaKept

theorem refl (s : State) : MediaKept s s := ⟨rfl, rfl, rfl, rfl, rfl, rfl, rfl, rfl, rfl, rfl, rfl, rfl⟩

theorem trans {s t u : State} (h : MediaKept s t) (k : MediaKept t u) : MediaKept s u :=
  ⟨k.mem.trans h.mem, k.queues.trans h.queues, k.mc.trans h.mc, k.host.trans h.host, k.images.trans h.images, k.orphans.trans h.orphans,
    k.protect.trans h.protect, k.recs.trans h.recs, k.gens.trans h.gens, k.compact.trans h.compact, k.packets.trans h.packets, k.pfw.trans h.pfw⟩

/-- A register's field set, apart from PFW_ACTIVE. -/
theorem fs (s : State) {f : Fld} (n v : Nat) (other : fg (fs s f n v) JNL_STATUS_PFW_ACTIVE 0 = fg s JNL_STATUS_PFW_ACTIVE 0) :
    MediaKept s (Machine.fs s f n v) := ⟨rfl, rfl, rfl, rfl, rfl, rfl, rfl, rfl, rfl, rfl, rfl, other⟩

theorem flash (s : State) (x : Flash)
    (same : x.host = s.flash.host ∧ x.images = s.flash.images ∧ x.orphans = s.flash.orphans ∧ x.protect = s.flash.protect) :
    MediaKept s { s with flash := x } :=
  ⟨rfl, rfl, rfl, same.1, same.2.1, same.2.2.1, same.2.2.2, rfl, rfl, rfl, rfl, rfl⟩

end MediaKept

theorem mediaKept_setBlock (s : State) (k : Nat) (b : FBlock) : MediaKept s (setBlock s k b) := .flash s _ ⟨rfl, rfl, rfl, rfl⟩

theorem mediaKept_queueRecord (s : State) {r : StoreRec} (own : r ≠ .packet) : MediaKept s (queueRecord s r) where
  mem := rfl
  queues := rfl
  mc := rfl
  host := rfl
  images := rfl
  orphans := rfl
  protect := rfl
  recs := rfl
  gens := rfl
  compact := rfl
  packets := by
    unfold queueRecord
    rw [Bool.eq_iff_iff]
    simp [Ne.symm own]
  pfw := rfl

theorem mediaKept_failEntry (s : State) (kind tag unit code detail step : Nat) : MediaKept s (failEntry s kind tag unit code detail step) := by
  have entered : ∀ fail, MediaKept s { s with store := { s.store with fail := fail } } :=
    fun _ => ⟨rfl, rfl, rfl, rfl, rfl, rfl, rfl, rfl, rfl, rfl, rfl, rfl⟩
  unfold failEntry
  dsimp only
  split
  · exact .fs s 0 _ (fg_fs_of_no _ _ _ _ _ _ (by decide))
  · exact (entered _).trans (mediaKept_queueRecord _ (by decide))

/-! ### A block retired (14, R339) -/

section
variable {s : State} {k spare : Nat} (good : badBlock s k = false)

/-- The state with a block in the bad-block table and counted. -/
def blockRetired (s : State) (k : Nat) : State :=
  let t := queueRecord { s with store := { s.store with bad := s.store.bad ++ [k] } } .block
  bump { t with flash := { t.flash with blocks := t.flash.blocks.filter (fun p => p.1 != k) } } JNL_FLASH_GROWN_BAD 0 1

include good in
theorem retireBlock_eq : retireBlock s k spare =
    if (!slcBlock k && decide (spare < 64) && fg s JNL_STATUS_T3_DEGRADED 0 == 0) = true then
      failEntry (fs (blockRetired s k) JNL_STATUS_T3_DEGRADED 0 1) 0x0012 0 0 spare 0 noStep
    else blockRetired s k := by
  have flag : fg (blockRetired s k) JNL_STATUS_T3_DEGRADED 0 = fg s JNL_STATUS_T3_DEGRADED 0 := fg_fs_of_no _ _ _ _ _ _ (by decide)
  rw [← flag, retireBlock, if_neg (by simp [good])]
  rfl

theorem mediaKept_blockRetired (s : State) (k : Nat) : MediaKept s (blockRetired s k) := by
  have counted : ∀ u : State, MediaKept u (bump u JNL_FLASH_GROWN_BAD 0 1) := fun u => .fs u 0 _ (fg_fs_of_no _ _ _ _ _ _ (by decide))
  have listed : MediaKept s { s with store := { s.store with bad := s.store.bad ++ [k] } } :=
    ⟨rfl, rfl, rfl, rfl, rfl, rfl, rfl, rfl, rfl, rfl, rfl, rfl⟩
  have queued := listed.trans (mediaKept_queueRecord _ (r := .block) (by decide))
  refine .trans (queued.trans ?_) (counted _)
  exact .flash _ _ ⟨rfl, rfl, rfl, rfl⟩

theorem mediaKept_retireBlock (s : State) (k spare : Nat) : MediaKept s (retireBlock s k spare) := by
  cases good : badBlock s k with
  | true => rw [retireBlock, if_pos good]; exact .refl s
  | false =>
    rw [retireBlock_eq good]
    split
    · exact (mediaKept_blockRetired s k).trans
        ((MediaKept.fs _ 0 _ (fg_fs_apart _ _ _ _ _ (by decide))).trans (mediaKept_failEntry _ _ _ _ _ _ _))
    · exact mediaKept_blockRetired s k

theorem fg_failEntry (s : State) (kind tag unit code detail step : Nat) (f : Fld) (i : Nat) (out : f.reg.no ≠ MOD_FAILREC.no) :
    fg (failEntry s kind tag unit code detail step) f i = fg s f i := by unfold fg; rw [rd_failEntry _ _ _ _ _ _ _ _ _ out]

theorem failEntry_bad (s : State) (kind tag unit code detail step : Nat) : (failEntry s kind tag unit code detail step).store.bad = s.store.bad := by
  unfold failEntry
  dsimp only
  split <;> rfl

include good

theorem badBlock_retireBlock : badBlock (retireBlock s k spare) k = true := by
  have listed : badBlock (blockRetired s k) k = true := by
    show (s.store.bad ++ [k]).contains k = true
    simp
  rw [retireBlock_eq good]
  split
  · rw [badBlock, failEntry_bad]
    exact listed
  · exact listed

theorem grownBad_retireBlock : fg (retireBlock s k spare) JNL_FLASH_GROWN_BAD 0 = min (2 ^ 16 - 1) (fg s JNL_FLASH_GROWN_BAD 0 + 1) := by
  have counted : fg (blockRetired s k) JNL_FLASH_GROWN_BAD 0 = min (2 ^ 16 - 1) (fg s JNL_FLASH_GROWN_BAD 0 + 1) := fg_bump_same _ _ _ _ (by decide)
  rw [retireBlock_eq good]
  split
  · rw [fg_failEntry _ _ _ _ _ _ _ _ _ (by decide), fg_fs_of_no _ _ _ _ _ _ (by decide), counted]
  · exact counted

/-- Fewer than 64 GiB of spare blocks of the user region degrade Tier 3, and it stays degraded. -/
theorem degraded_retireBlock : fg (retireBlock s k spare) JNL_STATUS_T3_DEGRADED 0 =
    if slcBlock k = false ∧ spare < 64 then 1 else fg s JNL_STATUS_T3_DEGRADED 0 := by
  have same : fg (blockRetired s k) JNL_STATUS_T3_DEGRADED 0 = fg s JNL_STATUS_T3_DEGRADED 0 := fg_fs_of_no _ _ _ _ _ _ (by decide)
  have bit : fg s JNL_STATUS_T3_DEGRADED 0 < 2 := fg_lt s JNL_STATUS_T3_DEGRADED 0
  rw [retireBlock_eq good]
  by_cases low : slcBlock k = false ∧ spare < 64
  · by_cases now : fg s JNL_STATUS_T3_DEGRADED 0 = 0
    · rw [if_pos (by simp [low, now]), if_pos low, fg_failEntry _ _ _ _ _ _ _ _ _ (by decide), fg_fs_flag _ _ _ (by decide)]
    · rw [if_neg (by simp [now]), if_pos low, same]
      omega
  · rw [if_neg, if_neg low, same]
    simp only [Bool.and_eq_true, Bool.not_eq_true', decide_eq_true_eq]
    exact fun h => low h.1

end

/-! ### A finding (14, R338, R339, R341) -/

theorem mediaKept_losePage (s : State) (p : FlashPage) : MediaKept s (losePage s p) := by
  unfold losePage
  cases p with
  | none => exact .refl s
  | record step =>
    have gone : ∀ x, MediaKept s { s with flash := { s.flash with records := x } } := fun _ => .flash s _ ⟨rfl, rfl, rfl, rfl⟩
    dsimp only
    split
    · exact (gone _).trans ⟨rfl, rfl, rfl, rfl, rfl, rfl, rfl, rfl, rfl, rfl, rfl, fg_wr_of_no _ _ _ _ _ _ (by decide)⟩
    · exact gone _
  | image => dsimp only; split; exacts [.refl s, .flash s _ ⟨rfl, rfl, rfl, rfl⟩]
  | host => dsimp only; split; exacts [.refl s, .flash s _ ⟨rfl, rfl, rfl, rfl⟩]

theorem mediaKept_flashEvent (s : State) (e : FlashEvt) : MediaKept s (flashEvent s e) := by
  have either : ∀ k b, MediaKept s (if e.bad = true then retireBlock s k e.spare else setBlock s k b) := by
    intro k b
    split
    · exact mediaKept_retireBlock s _ _
    · exact mediaKept_setBlock s _ _
  unfold flashEvent
  dsimp only
  split
  · exact .refl s
  · split
    · have read := mediaKept_setBlock s (blockKey e.slc e.block)
      split
      · exact read _
      · split
        · exact (read _).trans (mediaKept_retireBlock _ _ _)
        · exact ((read _).trans (mediaKept_retireBlock _ _ _)).trans (mediaKept_losePage _ _)
    · exact either _ _
    · exact either _ _

theorem mediaKept_flashEvents (s : State) (media : List FlashEvt) : MediaKept s (flashEvents s media) :=
  List.foldlRecOn (motive := MediaKept s) media flashEvent (.refl s) fun _ kept e _ => kept.trans (mediaKept_flashEvent _ e)

section
variable {s : State} {e : FlashEvt} (good : badBlock s (blockKey e.slc e.block) = false)
include good

/-- A read that its code corrects counts in its block. -/
theorem flashEvent_of_read (read : e.op = 0) (fine : e.bad = false) :
    flashEvent s e = setBlock s (blockKey e.slc e.block) { flashBlock s (blockKey e.slc e.block) with
      reads := (flashBlock s (blockKey e.slc e.block)).reads + 1, hot := (flashBlock s (blockKey e.slc e.block)).hot || e.soft } := by
  simp [flashEvent, good, read, fine]

/-- A program or erase that fails retires its block. -/
theorem flashEvent_of_failed (writes : 1 ≤ e.op) (fails : e.bad = true) : flashEvent s e = retireBlock s (blockKey e.slc e.block) e.spare := by
  unfold flashEvent
  simp only [good, fails, if_true, Bool.false_eq_true, if_false]
  split
  · omega
  · rfl
  · rfl

end

/-! ### Blocks set (14, R341) -/

theorem flashBlock_setBlock (s : State) (k : Nat) (b : FBlock) : flashBlock (setBlock s k b) k = b := sget_sset_same _ _ _ _

theorem flashBlock_setBlock_of_ne (s : State) {j k : Nat} (b : FBlock) (ne : j ≠ k) : flashBlock (setBlock s k b) j = flashBlock s j :=
  sget_sset_other _ _ _ _ ne

theorem flashBlock_relocate (s : State) (k : Nat) : flashBlock (relocate s k) k = { erases := (flashBlock s k).erases } := flashBlock_setBlock s k _

theorem flashBlock_relocate_of_ne (s : State) {j k : Nat} (ne : j ≠ k) : flashBlock (relocate s k) j = flashBlock s j :=
  flashBlock_setBlock_of_ne s _ ne

theorem refreshed_relocate (s : State) (k : Nat) : fg (relocate s k) JNL_CNT_REFRESH 0 = min (2 ^ 16 - 1) (fg s JNL_CNT_REFRESH 0 + 1) :=
  fg_bump_same (setBlock s k { erases := (flashBlock s k).erases }) JNL_CNT_REFRESH 0 1 (by decide)

theorem relocate_regsKept (s : State) (k : Nat) : RegsKept s (relocate s k) [(JNL_CNT, 0)] :=
  bump_regsKept (setBlock s k { erases := (flashBlock s k).erases }) JNL_CNT_REFRESH 0 1

/-! ### Wear levelled and shown (14, R340, R342) -/

theorem mediaKept_level (s : State) (slc : Bool) : MediaKept s (level s slc) := .flash s _ ⟨rfl, rfl, rfl, rfl⟩

/-- The findings of a step of wear management, each levelled. -/
def wearFound (s : State) (media : List FlashEvt) : State := media.foldl (fun t e => level (level (flashEvent t e) false) true) s

theorem mediaKept_wearFound (s : State) (media : List FlashEvt) : MediaKept s (wearFound s media) :=
  List.foldlRecOn (motive := MediaKept s) media _ (.refl s)
    fun _ kept e _ => kept.trans ((mediaKept_flashEvent _ e).trans ((mediaKept_level _ false).trans (mediaKept_level _ true)))

/-- The state with bytes of the orphaned ones reclaimed. -/
def reclaimed (s : State) (bytes : Nat) : State := { s with flash := { s.flash with orphans := s.flash.orphans - bytes } }

theorem wearStep_eq (s : State) (bytes : Nat) (media : List FlashEvt) : wearStep s bytes media = showWear (reclaimed (wearFound s media) bytes) := rfl

theorem showWear_frame (s : State) : ∃ regs, showWear s = { s with regs := regs } := ⟨(showWear s).regs, rfl⟩

theorem fg_showWear (s : State) (f : Fld) (out : f.reg.no ≠ JNL_FLASH.no) : fg (showWear s) f 0 = fg s f 0 := by
  rw [showWear, fg_fs_of_no _ _ _ _ _ _ out, fg_fs_of_no _ _ _ _ _ _ out]

theorem grownBad_showWear (s : State) : fg (showWear s) JNL_FLASH_GROWN_BAD 0 = fg s JNL_FLASH_GROWN_BAD 0 := by
  rw [showWear, fg_fs_apart _ _ _ _ _ (by decide), fg_fs_apart _ _ _ _ _ (by decide)]

theorem badBlock_showWear (s : State) (k : Nat) : badBlock (showWear s) k = badBlock s k := rfl

theorem badBlock_reclaimed (s : State) (bytes k : Nat) : badBlock (reclaimed s bytes) k = badBlock s k := rfl

theorem fg_reclaimed (s : State) (bytes : Nat) (f : Fld) (i : Nat) : fg (reclaimed s bytes) f i = fg s f i := rfl

theorem badBlock_level (s : State) (slc : Bool) (k : Nat) : badBlock (level s slc) k = badBlock s k := rfl

theorem fg_level (s : State) (slc : Bool) (f : Fld) (i : Nat) : fg (level s slc) f i = fg s f i := rfl

/-- The wear shown is that of the most erased block, in percent of the rated cycles. -/
theorem showWear_shows (s : State) : fg (showWear s) JNL_FLASH_WEAR_USER 0 = min 255 (mostErased s false * 100 / 3000) ∧
    fg (showWear s) JNL_FLASH_WEAR_SLC 0 = min 255 (mostErased s true * 100 / 50000) := by
  have byte : ∀ n, min 255 n % 2 ^ 8 = min 255 n := fun n => Nat.mod_eq_of_lt (by omega)
  constructor
  · rw [showWear, fg_fs_apart _ _ _ _ _ (by decide), fg_fs_same _ _ _ _ (by decide) (by decide)]
    exact byte _
  · rw [showWear, fg_fs_same _ _ _ _ (by decide) (by decide)]
    exact byte _

end Sys2Proof.Machine
end

section
/-!
CLAIM. The other background work (11, R283; 14, R339 to R342; 16, R414): Tier 2 retraining, retention refresh and wear management in their
budgets.
-/

namespace Sys2Proof.Machine

/-- A use that is not covered waits, and its frame is marked. -/
theorem withBudget_waits {s : State} {a bytes slots energy : Nat} (go : State → State) (out : budgetCovers s a bytes slots energy = false) :
    withBudget s a bytes slots energy go = { s with pwr := (withBudget s a bytes slots energy go).pwr } ∧
      (sget {} (withBudget s a bytes slots energy go).pwr.used a).out = true := by
  rw [withBudget_of_out go (by simp [out])]
  exact ⟨rfl, congrArg Spent.out (sget_sset_same _ _ _ _)⟩

/-! ### Retraining (11, R283) -/

section
variable {s : State} {d : Nat} (energy : Nat)

/-- The state with a device no longer due and its retraining counted. -/
def retrained (d : Nat) (s : State) : State :=
  bump { s with links := { s.links with due := s.links.due.filter (· != d) } } MOD_T2_DEV_RETRAINS d 1

theorem exec_t2Retrain_of_due (due : d ∈ s.links.due) : exec (.t2Retrain d energy) s = .next (withBudget s actCalib 0 0 energy (retrained d)) := by
  change execT2Retrain d energy s = _
  rw [execT2Retrain, if_pos (by simpa using due)]
  rfl

theorem t2Retrain_retrains (due : d ∈ s.links.due) (covered : budgetCovers s actCalib 0 0 energy = true) : Gives (.t2Retrain d energy) s fun t =>
    d ∉ t.links.due ∧ fg t MOD_T2_DEV_RETRAINS d = min 255 (fg s MOD_T2_DEV_RETRAINS d + 1) ∧ RegsKept s t [(MOD_T2_DEV, d)] := by
  have row := exec_t2Retrain_of_due energy due
  rw [withBudget_of_covered _ covered] at row
  refine gives_next row ⟨?_, ?_, ?_⟩
  · show d ∉ s.links.due.filter (· != d)
    simp
  · exact fg_bump_same _ _ _ _ (by decide)
  · exact bump_regsKept _ MOD_T2_DEV_RETRAINS d 1

theorem t2Retrain_waits (due : d ∈ s.links.due) (out : budgetCovers s actCalib 0 0 energy = false) :
    Gives (.t2Retrain d energy) s fun t => t.links = s.links ∧ t.regs = s.regs := by
  obtain ⟨frame, -⟩ := withBudget_waits (retrained d) out
  refine gives_next (exec_t2Retrain_of_due energy due) ?_
  rw [frame]
  exact ⟨rfl, rfl⟩

theorem exec_t2Retrain_of_not_due (fine : d ∉ s.links.due) : exec (.t2Retrain d energy) s = .next s := by
  change execT2Retrain d energy s = _
  simp [execT2Retrain, fine]

end

/-! ### Refresh and wear (14, R339 to R342) -/

section
variable {s : State} (bytes energy : Nat) (media : List FlashEvt)

theorem exec_flashRefresh_of_power (fails : pfwActive s = true) : exec (.flashRefresh bytes energy media) s = .next s :=
  congrArg Host.Outcome.next (if_pos fails)

theorem exec_wearManagement_of_power (fails : pfwActive s = true) : exec (.wearManagement bytes energy media) s = .next s :=
  congrArg Host.Outcome.next (if_pos fails)

variable (powered : pfwActive s = false)
include powered

theorem flashRefresh_waits (out : budgetCovers s actRefresh bytes 0 energy = false) : Gives (.flashRefresh bytes energy media) s fun t =>
    t = { s with pwr := t.pwr } ∧ (sget {} t.pwr.used actRefresh).out = true :=
  gives_next (congrArg Host.Outcome.next (if_neg (by simp [powered]))) (withBudget_waits _ out)

theorem wearManagement_waits (out : budgetCovers s actWear bytes 0 energy = false) : Gives (.wearManagement bytes energy media) s fun t =>
    t = { s with pwr := t.pwr } ∧ (sget {} t.pwr.used actWear).out = true :=
  gives_next (congrArg Host.Outcome.next (if_neg (by simp [powered]))) (withBudget_waits _ out)

/-- The blocks that a step of the refresh reads. -/
def blocksRead (media : List FlashEvt) : List Nat := uniques ((media.filter (fun e => e.op == 0)).map (fun e => blockKey e.slc e.block))

/-- The state after the reads of a step of the refresh, and the relocations that they ask for. -/
def refreshed (s : State) (media : List FlashEvt) : State :=
  ((blocksRead media).filter (fun k => !badBlock (flashEvents s (media.filter (fun e => e.op == 0))) k &&
    relocateDue (flashEvents s (media.filter (fun e => e.op == 0))) k)).foldl relocate (flashEvents s (media.filter (fun e => e.op == 0)))

theorem exec_flashRefresh (covered : budgetCovers s actRefresh bytes 0 energy = true) : ∃ t, exec (.flashRefresh bytes energy media) s = .next t ∧
    ∃ passes, t = { refreshed (spend s actRefresh bytes 0 energy) media with
      flash := { (refreshed (spend s actRefresh bytes 0 energy) media).flash with passes := passes } } := by
  have row : exec (.flashRefresh bytes energy media) s = .next (passRead (passRead (refreshed (spend s actRefresh bytes 0 energy) media) false
      ((blocksRead media).filter (fun k => !slcBlock k))) true ((blocksRead media).filter slcBlock)) := by
    change execFlashRefresh bytes energy media s = _
    rw [execFlashRefresh, if_neg (by simp [powered]), withBudget_of_covered _ covered]
    rfl
  exact ⟨_, row, _, rfl⟩

theorem flashRefresh_reads_none (covered : budgetCovers s actRefresh bytes 0 energy = true) : Gives (.flashRefresh bytes energy []) s fun t =>
    RegsKept s t [] ∧ t.flash.blocks = s.flash.blocks ∧ t.mem = s.mem := by
  obtain ⟨t, row, passes, frame⟩ := exec_flashRefresh bytes energy [] powered covered
  have none : refreshed (spend s actRefresh bytes 0 energy) [] = spend s actRefresh bytes 0 energy := rfl
  rw [none] at frame
  subst frame
  exact gives_next row ⟨.of_regs _ rfl, rfl, rfl⟩

end

/-- One good read: its block is relocated where it is due. -/
theorem refreshed_of_read {u : State} {e : FlashEvt} (read : e.op = 0) (fine : e.bad = false) (good : badBlock u (blockKey e.slc e.block) = false) :
    refreshed u [e] = if relocateDue (flashEvent u e) (blockKey e.slc e.block) = true then relocate (flashEvent u e) (blockKey e.slc e.block)
      else flashEvent u e := by
  have still : badBlock (flashEvent u e) (blockKey e.slc e.block) = false := by rw [flashEvent_of_read good read fine]; exact good
  have listed : blocksRead [e] = [blockKey e.slc e.block] := by simp [blocksRead, read, uniques]
  have found : flashEvents u ([e].filter (fun e => e.op == 0)) = flashEvent u e := by simp [flashEvents, read]
  unfold refreshed
  rw [listed, found]
  cases due : relocateDue (flashEvent u e) (blockKey e.slc e.block) <;> simp [still, due]

section
variable {s : State} {bytes energy : Nat} (powered : pfwActive s = false)
include powered

theorem flashRefresh_reads {e : FlashEvt} (covered : budgetCovers s actRefresh bytes 0 energy = true) (read : e.op = 0) (fine : e.bad = false) {k : Nat}
    (key : blockKey e.slc e.block = k) (good : badBlock s k = false) : Gives (.flashRefresh bytes energy [e]) s fun t =>
      (relocateDue (flashEvent s e) k = true → fg t JNL_CNT_REFRESH 0 = min (2 ^ 16 - 1) (fg s JNL_CNT_REFRESH 0 + 1) ∧
        flashBlock t k = { erases := (flashBlock s k).erases }) ∧
      (relocateDue (flashEvent s e) k = false → fg t JNL_CNT_REFRESH 0 = fg s JNL_CNT_REFRESH 0 ∧ flashBlock t k = flashBlock (flashEvent s e) k ∧
        (flashBlock t k).reads = (flashBlock s k).reads + 1) ∧
      RegsKept s t [(JNL_CNT, 0)] ∧ t.flash.host = s.flash.host ∧ ∀ j, j ≠ k → flashBlock t j = flashBlock s j := by
  subst key
  obtain ⟨t, row, passes, frame⟩ := exec_flashRefresh bytes energy [e] powered covered
  have good' : badBlock (spend s actRefresh bytes 0 energy) (blockKey e.slc e.block) = false := good
  rw [refreshed_of_read read fine good', flashEvent_of_read good' read fine] at frame
  rw [flashEvent_of_read good read fine]
  generalize blockKey e.slc e.block = k at *
  have same : flashBlock (spend s actRefresh bytes 0 energy) k = flashBlock s k := rfl
  rw [same] at frame
  generalize counted : { flashBlock s k with reads := (flashBlock s k).reads + 1, hot := (flashBlock s k).hot || e.soft } = b at frame ⊢
  have due : relocateDue (setBlock (spend s actRefresh bytes 0 energy) k b) k = relocateDue (setBlock s k b) k := by
    unfold relocateDue
    rw [flashBlock_setBlock, flashBlock_setBlock]
    rfl
  rw [due] at frame
  have blocks : ∀ u : State, t = { u with flash := { u.flash with passes := passes } } → ∀ j, flashBlock t j = flashBlock u j := by
    intro u eq j
    rw [eq]
    rfl
  refine gives_next row ?_
  cases relocates : relocateDue (setBlock s k b) k
  · rw [relocates, if_neg Bool.false_ne_true] at frame
    refine ⟨fun h => absurd h Bool.false_ne_true, fun _ => ⟨by rw [frame]; rfl, ?_, ?_⟩, ?_, by rw [frame]; rfl, fun j ne => ?_⟩
    · rw [blocks _ frame, flashBlock_setBlock, flashBlock_setBlock]
    · rw [blocks _ frame, flashBlock_setBlock, ← counted]
    · rw [frame]
      exact .of_regs _ rfl
    · rw [blocks _ frame, flashBlock_setBlock_of_ne _ _ ne]
      rfl
  · rw [relocates, if_pos rfl] at frame
    refine ⟨fun _ => ⟨?_, ?_⟩, fun h => absurd h.symm Bool.false_ne_true, ?_, by rw [frame]; rfl, fun j ne => ?_⟩
    · rw [frame]
      exact refreshed_relocate (setBlock (spend s actRefresh bytes 0 energy) k b) k
    · rw [blocks _ frame, flashBlock_relocate, flashBlock_setBlock, ← counted]
    · rw [frame]
      exact relocate_regsKept (setBlock (spend s actRefresh bytes 0 energy) k b) k
    · rw [blocks _ frame, flashBlock_relocate_of_ne _ ne, flashBlock_setBlock_of_ne _ _ ne]
      rfl

theorem exec_wearManagement (media : List FlashEvt) (covered : budgetCovers s actWear bytes 0 energy = true) :
    exec (.wearManagement bytes energy media) s = .next (showWear (reclaimed (wearFound (spend s actWear bytes 0 energy) media) bytes)) := by
  change execWearManagement bytes energy media s = _
  rw [execWearManagement, if_neg (by simp [powered]), withBudget_of_covered _ covered, wearStep_eq]

theorem wearManagement_shows (media : List FlashEvt) (covered : budgetCovers s actWear bytes 0 energy = true) :
    Gives (.wearManagement bytes energy media) s fun t =>
      fg t JNL_FLASH_WEAR_USER 0 = min 255 (mostErased t false * 100 / 3000) ∧ fg t JNL_FLASH_WEAR_SLC 0 = min 255 (mostErased t true * 100 / 50000) ∧
      t.flash.orphans = s.flash.orphans - bytes ∧ t.flash.host = s.flash.host ∧ t.flash.images = s.flash.images ∧ t.mem = s.mem := by
  have kept := mediaKept_wearFound (spend s actWear bytes 0 energy) media
  obtain ⟨user, slc⟩ := showWear_shows (reclaimed (wearFound (spend s actWear bytes 0 energy) media) bytes)
  obtain ⟨_, frame⟩ := showWear_frame (reclaimed (wearFound (spend s actWear bytes 0 energy) media) bytes)
  have erased : ∀ r, mostErased (showWear (reclaimed (wearFound (spend s actWear bytes 0 energy) media) bytes)) r =
      mostErased (reclaimed (wearFound (spend s actWear bytes 0 energy) media) bytes) r := by
    intro r
    rw [frame]
    rfl
  refine gives_next (exec_wearManagement powered media covered) ⟨by rw [user, erased], by rw [slc, erased], ?_⟩
  rw [frame]
  exact ⟨congrArg (· - bytes) kept.orphans, kept.host, kept.images, kept.mem⟩

theorem wearManagement_retires {e : FlashEvt} (covered : budgetCovers s actWear bytes 0 energy = true) (writes : 1 ≤ e.op) (fails : e.bad = true) {k : Nat}
    (key : blockKey e.slc e.block = k) (good : badBlock s k = false) : Gives (.wearManagement bytes energy [e]) s fun t =>
      badBlock t k = true ∧ fg t JNL_FLASH_GROWN_BAD 0 = min (2 ^ 16 - 1) (fg s JNL_FLASH_GROWN_BAD 0 + 1) ∧
      fg t JNL_STATUS_T3_DEGRADED 0 = if slcBlock k = false ∧ e.spare < 64 then 1 else fg s JNL_STATUS_T3_DEGRADED 0 := by
  subst key
  have good' : badBlock (spend s actWear bytes 0 energy) (blockKey e.slc e.block) = false := good
  have found : wearFound (spend s actWear bytes 0 energy) [e] =
      level (level (flashEvent (spend s actWear bytes 0 energy) e) false) true := rfl
  have row := exec_wearManagement powered [e] covered
  rw [found, flashEvent_of_failed good' writes fails] at row
  have word : ∀ f i, fg (spend s actWear bytes 0 energy) f i = fg s f i := fun _ _ => rfl
  refine gives_next row ⟨?_, ?_, ?_⟩
  · rw [badBlock_showWear, badBlock_reclaimed, badBlock_level, badBlock_level, badBlock_retireBlock good']
  · rw [grownBad_showWear, fg_reclaimed, fg_level, fg_level, grownBad_retireBlock good', word]
  · rw [fg_showWear _ _ (by decide), fg_reclaimed, fg_level, fg_level, degraded_retireBlock good', word]

end

end Sys2Proof.Machine
end

section
/-!
CLAIM. The configuration store (14, R360), and the obligation of the background work (O49).
-/

namespace Sys2Proof.Machine

/-! ### A record held (14, R360) -/

/-- The state with a record less left to a power-fail sequence. -/
def storeLeft (s : State) : State :=
  if s.flash.pfwLeft > 0 then { s with flash := { s.flash with pfwLeft := s.flash.pfwLeft - 1 } } else s

theorem storeLeft_frame (s : State) : ∃ flash, storeLeft s = { s with flash := flash } := by
  unfold storeLeft
  split
  · exact ⟨_, rfl⟩
  · exact ⟨s.flash, rfl⟩

theorem storeLeft_store (s : State) : (storeLeft s).store = s.store := by
  obtain ⟨_, left⟩ := storeLeft_frame s
  rw [left]

/-- A record of the configuration store leaves it as x, and of the rest of the block changes the state of the flash alone. -/
def StoresAs (s : State) (good : Bool) (x : Store) : Prop := ∃ flash, storeRecord s good = { s with flash := flash, store := x }

/-- What a compaction's next record leaves of the store, n entries being left and live in all. -/
def compactedStore (x : Store) (n live : Nat) : Store :=
  if n > 0 then { x with compact := some (n - 1) }
  else { x with
    gens := setNth x.gens (1 - storeHalf x) (some ((nth x.gens (storeHalf x) none).getD 0 + 1))
    recs := min (halfRecords - 1) (live + 1)
    compact := none }

theorem compactStep_frame (s : State) (n : Nat) :
    ∃ flash, compactStep (storeLeft s) n = { s with flash := flash, store := compactedStore s.store n (liveEntries s) } := by
  obtain ⟨flash, left⟩ := storeLeft_frame s
  rw [left]
  refine ⟨flash, ?_⟩
  unfold compactStep compactedStore
  dsimp only
  split <;> rfl

section
variable {s : State} (good : Bool)

theorem storeRecord_of_held {n : Nat} (compacts : s.store.compact = some n) :
    storeRecord s good = if good = true then compactStep (storeLeft s) n else storeLeft s := by
  unfold storeRecord
  simp only [compacts]
  rfl

theorem storeRecord_of_full (compacts : s.store.compact = none) (full : 1024 ≤ s.store.recs) :
    storeRecord s good = if good = true then compactStep (storeLeft s) (liveEntries s) else storeLeft s := by
  have holds : decide (s.store.recs ≥ halfRecords) = true := by simpa [halfRecords] using full
  unfold storeRecord
  simp only [compacts, holds]
  rfl

theorem storeRecord_of_room (compacts : s.store.compact = none) (room : s.store.recs < 1024) (own : s.store.queue.head? ≠ some .packet) :
    storeRecord s good = if good = true then
        { storeLeft s with store := { (storeLeft s).store with recs := (storeLeft s).store.recs + 1, queue := (storeLeft s).store.queue.drop 1 } }
      else storeLeft s := by
  have holds : decide (s.store.recs ≥ halfRecords) = false := by simpa [halfRecords] using room
  unfold storeRecord
  simp only [compacts, holds]
  cases head : s.store.queue.head? with
  | none => rfl
  | some r =>
    cases r with
    | packet => exact absurd head own
    | _ => rfl

theorem storesAs_of_full {n : Nat}
    (which : s.store.compact = some n ∨ s.store.compact = none ∧ 1024 ≤ s.store.recs ∧ n = liveEntries s) :
    StoresAs s good (if good = true then compactedStore s.store n (liveEntries s) else s.store) := by
  have record : storeRecord s good = if good = true then compactStep (storeLeft s) n else storeLeft s := by
    rcases which with held | ⟨none, full, rfl⟩
    · exact storeRecord_of_held good held
    · exact storeRecord_of_full good none full
  unfold StoresAs
  rw [record]
  cases good
  · obtain ⟨flash, left⟩ := storeLeft_frame s
    exact ⟨flash, left⟩
  · exact compactStep_frame s n

theorem storesAs_of_room (compacts : s.store.compact = none) (room : s.store.recs < 1024) (own : s.store.queue.head? ≠ some .packet) :
    StoresAs s good (if good = true then { s.store with recs := s.store.recs + 1, queue := s.store.queue.drop 1 } else s.store) := by
  obtain ⟨flash, left⟩ := storeLeft_frame s
  unfold StoresAs
  rw [storeRecord_of_room good compacts room own, left]
  cases good <;> exact ⟨flash, rfl⟩

end

/-- The half in use, by the generations of the two. -/
def halfOf : Option Nat → Option Nat → Nat
  | none, some _ => 1
  | some a, some b => if b > a then 1 else 0
  | _, _ => 0

theorem storeHalf_of_gens {x : Store} {a b : Option Nat} (gens : x.gens = [a, b]) : storeHalf x = halfOf a b := by
  unfold storeHalf
  rw [gens]
  rfl

/-- A generation above the other half's is the higher one, and one above its own half's leaves that half the lower. -/
theorem halfOf_next (a b : Option Nat) : halfOf a (some (a.getD 0 + 1)) = 1 ∧ halfOf (some (b.getD 0 + 1)) b = 0 := by
  constructor
  · cases a <;> simp [halfOf]
  · cases b <;> simp [halfOf]

theorem halfOf_cases (a b : Option Nat) : halfOf a b = 0 ∨ halfOf a b = 1 := by
  unfold halfOf
  split
  · exact .inr rfl
  · exact (ite_eq_or_eq _ _ _).symm
  · exact .inl rfl

/-- The switch record puts the other half in use. -/
theorem storeHalf_switched {x : Store} (two : x.gens.length = 2) (live : Nat) : storeHalf (compactedStore x 0 live) = 1 - storeHalf x := by
  obtain ⟨a, b, gens⟩ := List.length_eq_two.mp two
  have half := storeHalf_of_gens gens
  have switched : (compactedStore x 0 live).gens = setNth [a, b] (1 - storeHalf x) (some ((nth [a, b] (storeHalf x) none).getD 0 + 1)) := by
    rw [← gens]
    rfl
  rcases halfOf_cases a b with zero | one
  · rw [half, zero] at switched ⊢
    rw [storeHalf_of_gens (b := some (a.getD 0 + 1)) switched, (halfOf_next a b).1]
  · rw [half, one] at switched ⊢
    rw [storeHalf_of_gens (a := some (b.getD 0 + 1)) switched, (halfOf_next a b).2]

/-! ### CONFIG_RECORD_COMMIT (14, R360) -/

/-- From s to t memory, queues and replies are as before, and so is every register where the media found nothing. -/
def CommitLeaves (s : State) (media : List FlashEvt) (t : State) : Prop :=
  t.mem = s.mem ∧ t.queues = s.queues ∧ (media = [] → t.regs = s.regs) ∧ t.mc.replies = s.mc.replies

section
variable {s : State} {good : Bool} {media : List FlashEvt} (idle : McIdle s) (writable : s.flash.protect = false) (powered : pfwActive s = false)
include idle writable powered

theorem commits {x : Store} (stores : StoresAs (flashEvents s media) good x) (own : x.queue.contains .packet = false) :
    Gives (.configRecordCommit good media) s fun t => CommitLeaves s media t ∧ t.store = x := by
  have kept := mediaKept_flashEvents s media
  have none : media = [] → (flashEvents s media).regs = s.regs := fun e => by rw [e]; rfl
  have row : exec (.configRecordCommit good media) s = .next (serveAll (protectIdle (storeRecord (flashEvents s media) good))) :=
    congrArg Host.Outcome.next (if_neg (by simp [writable]))
  obtain ⟨flash, stored⟩ := stores
  generalize flashEvents s media = u at kept none row stored
  have awake : fg u JNL_STATUS_PFW_ACTIVE 0 ≠ 1 := by
    rw [kept.pfw]
    simpa [pfwActive] using powered
  have unprotected : protectIdle { u with flash := flash, store := x } = { u with flash := flash, store := x } :=
    if_neg fun h => awake h.2.1
  have idle' : McIdle { u with flash := flash, store := x } := by
    obtain ⟨inbox, waiting, held, storing, -⟩ := idle
    rw [← kept.mc] at inbox waiting held storing
    exact ⟨inbox, waiting, held, storing, own⟩
  rw [stored, unprotected, serveAll_of_idle _ idle'] at row
  refine gives_next row ⟨⟨?_, ?_, fun e => ?_, ?_⟩, ?_⟩
  · rw [observe_mem, kept.mem]
  · rw [observe_queues, kept.queues]
  · rw [observe_regs, none e]
  · rw [observe_mc, kept.mc]
  · rw [observe_store]

omit writable powered in
theorem packetFree_flashEvents : (flashEvents s media).store.queue.contains .packet = false := (mediaKept_flashEvents s media).packets.trans idle.2.2.2.2

theorem configRecordCommit_holds (compacts : s.store.compact = none) (room : s.store.recs < 1024) :
    Gives (.configRecordCommit good media) s fun t => CommitLeaves s media t ∧ t.store.gens = s.store.gens ∧ t.store.compact = none ∧
      (good = true → t.store.recs = s.store.recs + 1 ∧ t.store.queue = (flashEvents s media).store.queue.drop 1) ∧
      (good = false → t.store.recs = s.store.recs ∧ t.store.queue = if (flashEvents s media).store.queue.head? = some .packet
        then (flashEvents s media).store.queue.drop 1 else (flashEvents s media).store.queue) := by
  have kept := mediaKept_flashEvents s media
  have free := packetFree_flashEvents (media := media) idle
  have own : (flashEvents s media).store.queue.head? ≠ some .packet := fun head => by
    have listed := List.mem_of_head? head
    simp [listed] at free
  have stores := storesAs_of_room good (kept.compact.trans compacts) (by rw [kept.recs]; exact room) own
  cases good with
  | false =>
    obtain ⟨t, row, left, store⟩ := commits idle writable powered stores free
    refine ⟨t, row, left, ?_⟩
    rw [store]
    exact ⟨kept.gens, kept.compact.trans compacts, fun h => absurd h Bool.false_ne_true, fun _ => ⟨kept.recs, (if_neg own).symm⟩⟩
  | true =>
    have rest : ((flashEvents s media).store.queue.drop 1).contains .packet = false := by
      simp only [List.contains_eq_mem, decide_eq_false_iff_not] at free ⊢
      exact fun h => free (List.mem_of_mem_drop h)
    obtain ⟨t, row, left, store⟩ := commits idle writable powered stores rest
    refine ⟨t, row, left, ?_⟩
    rw [store]
    exact ⟨kept.gens, kept.compact.trans compacts, fun _ => ⟨congrArg (· + 1) kept.recs, rfl⟩, fun h => absurd h.symm Bool.false_ne_true⟩

/-- The next record of a compaction, which holds an entry or, last, switches to the other half. -/
theorem configRecordCommit_compacts {n : Nat}
    (which : s.store.compact = some n ∨ s.store.compact = none ∧ 1024 ≤ s.store.recs ∧ n = liveEntries (flashEvents s media)) :
    Gives (.configRecordCommit good media) s fun t => CommitLeaves s media t ∧
      t.store = if good = true then compactedStore (flashEvents s media).store n (liveEntries (flashEvents s media)) else (flashEvents s media).store := by
  have kept := mediaKept_flashEvents s media
  have free := packetFree_flashEvents (media := media) idle
  have which' : (flashEvents s media).store.compact = some n ∨
      (flashEvents s media).store.compact = none ∧ 1024 ≤ (flashEvents s media).store.recs ∧ n = liveEntries (flashEvents s media) := by
    rw [kept.compact, kept.recs]
    exact which
  refine commits idle writable powered (storesAs_of_full good which') ?_
  cases good
  · exact free
  · rw [if_pos rfl, compactedStore]
    split <;> exact free

theorem configRecordCommit_copies {n : Nat}
    (which : s.store.compact = some n ∨ s.store.compact = none ∧ 1024 ≤ s.store.recs ∧ n = liveEntries (flashEvents s media)) (some' : n ≠ 0) :
    Gives (.configRecordCommit true media) s fun t => (CommitLeaves s media t ∧ t.store.recs = s.store.recs ∧ t.store.gens = s.store.gens) ∧
      t.store.compact = some (n - 1) ∧ t.store.queue = (flashEvents s media).store.queue := by
  have kept := mediaKept_flashEvents s media
  obtain ⟨t, row, left, store⟩ := configRecordCommit_compacts (good := true) idle writable powered which
  refine ⟨t, row, ?_⟩
  dsimp only
  rw [store, if_pos rfl, compactedStore, if_pos (Nat.pos_of_ne_zero some')]
  exact ⟨⟨left, kept.recs, kept.gens⟩, rfl, rfl⟩

theorem configRecordCommit_switches (held : s.store.compact = some 0) (two : s.store.gens.length = 2) :
    Gives (.configRecordCommit true media) s fun t => CommitLeaves s media t ∧ t.store.compact = none ∧ t.store.recs < 1024 ∧
      storeHalf t.store = 1 - storeHalf s.store ∧ t.store.queue = (flashEvents s media).store.queue := by
  have kept := mediaKept_flashEvents s media
  obtain ⟨t, row, left, store⟩ := configRecordCommit_compacts (good := true) idle writable powered (.inl held)
  rw [if_pos rfl] at store
  refine ⟨t, row, left, ?_, ?_, ?_, ?_⟩
  · rw [store]
    rfl
  · rw [store]
    show min (halfRecords - 1) _ < 1024
    exact lt_of_le_of_lt (min_le_left _ _) (by decide)
  · rw [store, storeHalf_switched (by rw [kept.gens]; exact two), storeHalf, storeHalf, kept.gens]
  · rw [store]
    rfl

theorem configRecordCommit_fails (full : s.store.compact ≠ none ∨ 1024 ≤ s.store.recs) :
    Gives (.configRecordCommit false media) s fun t => (CommitLeaves s media t ∧ t.store.recs = s.store.recs ∧ t.store.gens = s.store.gens) ∧
      t.store.compact = s.store.compact ∧ t.store.queue = (flashEvents s media).store.queue := by
  have kept := mediaKept_flashEvents s media
  have which : ∃ n, s.store.compact = some n ∨ s.store.compact = none ∧ 1024 ≤ s.store.recs ∧ n = liveEntries (flashEvents s media) := by
    cases held : s.store.compact with
    | none => exact ⟨_, .inr ⟨rfl, full.resolve_left (by simp [held]), rfl⟩⟩
    | some n => exact ⟨n, .inl rfl⟩
  obtain ⟨n, which⟩ := which
  obtain ⟨t, row, left, store⟩ := configRecordCommit_compacts (good := false) idle writable powered which
  rw [if_neg Bool.false_ne_true] at store
  refine ⟨t, row, ?_⟩
  dsimp only
  rw [store]
  exact ⟨⟨left, kept.recs, kept.gens⟩, kept.compact, rfl⟩

end

/-- Settles O49, row by row: what a step does in its budget, and that it waits when a budget is out. -/
theorem backgroundWorkKeepsToItsBudget : Obligations.BackgroundWorkKeepsToItsBudget := by
  unfold Obligations.BackgroundWorkKeepsToItsBudget
  refine ⟨fun store unit loc bytes energy n uncorr s first last here three gib => ?_, fun d energy s => ?_, fun bytes energy e s powered covered => ?_,
    fun bytes energy media e s powered covered => ?_, fun bytes energy media s i act which => ?_, fun good media s idle writable powered => ?_⟩
  · exact ⟨exec_patrolScrub_of_none loc bytes energy n uncorr,
      fun some out => patrolScrub_waits loc bytes energy n uncorr first last here some fun covered => Bool.false_ne_true (out.symm.trans covered),
      fun some covered =>
        ⟨patrolScrub_counts loc bytes energy n uncorr first last here some covered three gib,
          fun found memory clean => patrolScrub_finds loc bytes energy n uncorr first last here some covered three found memory rfl clean,
          fun _ found slice free held => patrolScrub_finds_line loc bytes energy n uncorr first last here some covered three found slice free held⟩⟩
  · exact ⟨t2Retrain_retrains energy, t2Retrain_waits energy, exec_t2Retrain_of_not_due energy⟩
  · exact ⟨flashRefresh_reads_none bytes energy powered covered, fun read fine good => flashRefresh_reads powered covered read fine rfl good⟩
  · exact ⟨wearManagement_shows powered media covered, fun writes fails good => wearManagement_retires powered covered writes fails rfl good⟩
  · simp only [List.mem_cons, Prod.mk.injEq, List.not_mem_nil, or_false] at which
    obtain ⟨rfl, rfl⟩ | ⟨rfl, rfl⟩ := which
    · exact ⟨exec_flashRefresh_of_power bytes energy media, flashRefresh_waits bytes energy media⟩
    · exact ⟨exec_wearManagement_of_power bytes energy media, wearManagement_waits bytes energy media⟩
  · exact ⟨configRecordCommit_holds idle writable powered,
      fun none full some good => good ▸ configRecordCommit_copies idle writable powered (.inr ⟨none, full, rfl⟩) some,
      fun j held good => good ▸ configRecordCommit_copies idle writable powered (.inl held) (Nat.succ_ne_zero j),
      fun held good two => good ▸ configRecordCommit_switches idle writable powered held two,
      fun full fails => fails ▸ configRecordCommit_fails idle writable powered full⟩

end Sys2Proof.Machine
end

section
/-!
SUPPORT. The Movers' local accesses (06, R157; 11, R266 to R268, R273, R274, R280, R291): what a read and a write leave alone, where a tile may
land, and a run of bytes stored by its transactions in any memory.
-/

namespace Sys2Proof.Machine

/-! ### What a Mover's access leaves alone -/

/-- The registers in which accesses of the shared cache and errors of memory count. -/
def moveRegs : List Reg := DIST_SC_CNT :: errRegs

/-- The engines' work and the poison of memory are as before, and so is every register but those counts. -/
structure MoveKept (s t : State) : Prop extends WorkKept moveRegs s t where
  poison : t.poison = s.poison

theorem MoveKept.refl (s : State) : MoveKept s s := ⟨.refl _ s, rfl⟩

theorem MoveKept.trans {s t u : State} (h : MoveKept s t) (k : MoveKept t u) : MoveKept s u := ⟨h.toWorkKept.trans k.toWorkKept, k.poison.trans h.poison⟩

theorem MoveKept.transfer {s t : State} (h : MoveKept s t) : TransferKept s t := ⟨h.mem, h.boot, h.poison, h.streams⟩

theorem MetKept.moves {s t : State} (h : MetKept s t) (poison : t.poison = s.poison) : MoveKept s t :=
  ⟨h.toWorkKept.mono (List.subset_cons_self _ _), poison⟩

theorem moveKept_meetErr {s : State} {err : MemErr} {runs : List (Nat × Nat)} (met : (meetErr s err runs).2 = none) :
    MoveKept s (meetErr s err runs).1 := (metKept_meetErr s err runs).moves (transferKept_meetErr met).poison

theorem workKept_countLine (s : State) (d : Nat) (hit : Bool) : WorkKept [DIST_SC_CNT] s (countLine s d hit) := by
  have lined : ∀ lines, WorkKept [DIST_SC_CNT] s { s with lines := lines } := fun _ => .of_work rfl
  exact ((lined _).bump (f := DIST_SC_CNT_HIT) (by decide) d _).bump (f := DIST_SC_CNT_MISS) (by decide) d _

theorem workKept_cacheTouch (s : State) (a : Nat) (alloc dirty : Bool) : WorkKept [DIST_SC_CNT] s (cacheTouch s a alloc dirty) := by
  have placed : ∀ cache, WorkKept [DIST_SC_CNT] s { s with cache := cache } := fun _ => .of_work rfl
  unfold cacheTouch
  dsimp only
  split
  · exact (placed _).trans (workKept_countLine _ _ _)
  · exact (placed _).trans (workKept_countLine _ _ _)

theorem workKept_cacheTouches (s : State) (alloc dirty : Bool) (ts : List (Int × Nat)) :
    WorkKept [DIST_SC_CNT] s (cacheTouches s alloc dirty ts) := by
  refine List.foldlRecOn (motive := WorkKept [DIST_SC_CNT] s) ts _ (.refl _ s) fun t kept x _ => ?_
  split
  · exact kept.trans (workKept_cacheTouch _ _ _ _)
  · exact kept

theorem moveKept_cacheTouches (s : State) (alloc dirty : Bool) (ts : List (Int × Nat)) : MoveKept s (cacheTouches s alloc dirty ts) :=
  ⟨(workKept_cacheTouches s alloc dirty ts).mono (by decide), (transferKept_cacheTouches s alloc dirty ts).poison⟩

theorem metKept_writeErr (s : State) (err : MemErr) (a n : Nat) : MetKept s (writeErr s err a n).1 := by
  unfold writeErr
  split
  · exact metKept_meetErr s _ _
  · exact metKept_meetErr s _ _
  · exact .refl s
  · exact metKept_meetErr s _ _

/-! ### What a Mover's event reads of the registers -/

section
variable {but : List Reg} {s t : State} (kept : WorkKept but s t)
include kept

theorem WorkKept.jobSeed (out : MOD_KERF_SEED_HI.no ∉ but.map Reg.no ∧ MOD_KERF_SEED_LO.no ∉ but.map Reg.no) : jobSeed t = jobSeed s := by
  unfold Machine.jobSeed
  rw [kept.rd _ 0 out.1, kept.rd _ 0 out.2]

/-- The same tile leaves, with the same counts. -/
theorem WorkKept.leaving (out : MOD_KERF_SEED_HI.no ∉ but.map Reg.no ∧ MOD_KERF_SEED_LO.no ∉ but.map Reg.no) (c : Cmd) (h : Hdr) (bs : List Byte) :
    leaving t c h bs = leaving s c h bs := by
  unfold Machine.leaving convertTile
  rw [kept.jobSeed out]

theorem WorkKept.isLocal (out : FAB_CHIP.no ∉ but.map Reg.no) (a : Nat) : isLocal t a = isLocal s a := by
  unfold Machine.isLocal
  rw [kept.fg FAB_CHIP_VALID 0 out, kept.fg FAB_CHIP_CHIP 0 out]

end

theorem WorkKept.ueAt {but : List Reg} {s t : State} (kept : WorkKept but s t) (out : MOD_T1_CFG.no ∉ but.map Reg.no) (kind a : Nat) :
    ueAt t kind a = ueAt s kind a := by
  unfold Machine.ueAt t1Stack
  rw [kept.fg MOD_T1_CFG_LOCAL_GIB 0 out]

/-- A block whose transmissions fail fails the access of it, and leaves another as it is. -/
theorem meetErr_failed_apart {s : State} {x : Nat} {runs : List (Nat × Nat)} (met : (meetErr s (.failed x) runs).2 = none) :
    (meetErr s (.failed x) runs).1 = s := by
  unfold meetErr at met ⊢
  split at met
  · rw [if_pos (by assumption)]
  · rw [if_neg (by assumption)]
    by_cases tiers : x < wardBase
    · simp [tiers] at met
    · simp [tiers]

theorem opcode_of_jobOf {s : State} {w e op m : Nat} {c : Cmd} (job : jobOf s w e op = some (m, c)) : c.opcode = op := by
  unfold jobOf at job
  split at job
  · split at job
    · next runs => cases job; exact runs.1
    · cases job
  · cases job

/-! ### Where a tile may land (11, R266 to R268) -/

theorem regionOf_ward_iff (s : State) (off : Int) (n x : Nat) : regionOf s off n = .ward x ↔
    0 ≤ off ∧ wardBase ≤ off.toNat ∧ off.toNat < wardBase + 0x1000000 * wardCount s ∧ off.toNat % 0x1000000 + n ≤ wardSize ∧
      x = (off.toNat - wardBase) / 0x1000000 := by
  have apart : tier2Base + tier2Size < wardBase ∧ tier1Size < wardBase := by decide
  unfold regionOf
  dsimp only
  split_ifs <;> simp only [Region.ward.injEq, false_iff] <;> omega

theorem regionOf_congr {s t : State} (count : wardCount t = wardCount s) (off : Int) (n : Nat) : regionOf t off n = regionOf s off n := by
  unfold regionOf
  rw [count]

/-- A tile of n bytes may be stored at an offset: in Tier 1, or in a ward store clear of its queues, rings and spill regions. -/
def MayLand (s : State) (off : Int) (n : Nat) : Prop :=
  regionOf s off n = .tier1 ∨ ∃ x, regionOf s off n = .ward x ∧ storeGuarded s x (off.toNat % 0x1000000) n = false

/-- The registers that say where ward stores stand and what guards them. -/
def guardRegs : List Reg := [PWR_SREG, WARD_QCFG, WARD_SCFG, WARD_SRING_HI, WARD_SRING_LO, ME_SPILL]

theorem storeInUse_congr {s t : State} (same : ∀ f : Fld, f.reg ∈ guardRegs → ∀ n, fg t f n = fg s f n) (w q m me : Nat) :
    storeInUse t w q m me = storeInUse s w q m me := by
  have logical : logicalOf t = logicalOf s := funext fun d => same PWR_SREG_LOGICAL (by decide) d
  have span : qSpan t = qSpan s := funext fun n => by
    simp only [qSpan, qBytes, qDepth, qSlotBytes, same WARD_QCFG_BASE (by decide), same WARD_QCFG_DEPTH (by decide), same WARD_QCFG_SLOT (by decide)]
  have ring : ringSpan t = ringSpan s := funext fun n => by
    simp only [ringSpan, ringOffset, ringCommands, same WARD_SRING_HI_BASE_HI (by decide), same WARD_SRING_LO_BASE_LO (by decide),
      same WARD_SCFG_RING_LOG2 (by decide)]
  have spill : spillSpan t = spillSpan s := funext fun n => by simp only [spillSpan, same ME_SPILL_BASE (by decide), same ME_SPILL_SLOTS (by decide)]
  simp only [storeInUse, queuesOf, storeRings, qEnabled, qHome, firstWard, logical, districtOf, span, ring, spill, same WARD_QCFG_EN (by decide),
    same WARD_QCFG_HOME (by decide), same WARD_SCFG_EN (by decide), same WARD_SCFG_RING_HOME (by decide), same ME_SPILL_SLOTS (by decide), if_true]

/-- Part of a run that nothing guards is guarded by nothing. -/
theorem storeGuarded_part {s : State} {w off n a k : Nat} (clear : storeGuarded s w off n = false) (within : off ≤ a ∧ a + k ≤ off + n) :
    storeGuarded s w a k = false := by
  have apart : ∀ r ∈ storeInUse s w none20 none20 none20, overlaps (off, n) r = false := by simpa [storeGuarded] using clear
  have part : ∀ r ∈ storeInUse s w none20 none20 none20, overlaps (a, k) r = false := fun r listed => by
    have := apart r listed
    simp only [overlaps, Bool.and_eq_false_iff, decide_eq_false_iff_not] at this ⊢
    omega
  simpa [storeGuarded] using part

namespace MayLand

variable {s t : State} {off : Int} {j k n : Nat}

theorem congr (h : MayLand s off n) (same : ∀ f : Fld, f.reg ∈ guardRegs → ∀ n, fg t f n = fg s f n) : MayLand t off n := by
  have logical : logicalOf t = logicalOf s := funext fun d => same PWR_SREG_LOGICAL (by decide) d
  have guarded : ∀ x a, storeGuarded t x a n = storeGuarded s x a n := fun x a => by unfold storeGuarded; rw [storeInUse_congr same]
  unfold MayLand at *
  simpa only [regionOf_congr (wardCount_congr logical), guarded] using h

theorem of_kept {but : List Reg} (h : MayLand s off n) (rd : ∀ (r : Reg) (i : Nat), r.no ∉ but.map Reg.no → rd t r i = rd s r i)
    (out : ∀ r ∈ guardRegs, r.no ∉ but.map Reg.no) : MayLand t off n :=
  h.congr fun f named i => by unfold fg; rw [rd _ _ (out _ named)]

/-- Part of where a tile may land is such a place. -/
theorem part (h : MayLand s off n) (within : j + k ≤ n) : MayLand s (off + j) k := by
  rcases h with tier1 | ⟨x, ward, clear⟩
  · obtain ⟨above, inside⟩ := (regionOf_tier1_iff _ _ _).mp tier1
    exact .inl ((regionOf_tier1_iff _ _ _).mpr ⟨by omega, by omega⟩)
  · obtain ⟨above, low, high, inside, rfl⟩ := (regionOf_ward_iff _ _ _ _).mp ward
    have small : wardSize < 0x1000000 := by decide
    have whole : wardBase % 0x1000000 = 0 := by decide
    have here : (off + (j : Int)).toNat = off.toNat + j := by omega
    generalize off.toNat = a at *
    refine .inr ⟨_, (regionOf_ward_iff _ _ _ _).mpr ⟨by omega, by omega, by omega, by omega, rfl⟩, ?_⟩
    have same : (a + j - wardBase) / 0x1000000 = (a - wardBase) / 0x1000000 := by omega
    rw [here, same]
    exact storeGuarded_part clear (by omega)

theorem head (h : MayLand s off n) (within : k ≤ n) : MayLand s off k := by simpa using h.part (j := 0) (k := k) (by omega)

theorem above (h : MayLand s off n) : 0 ≤ off := by
  rcases h with tier1 | ⟨x, ward, -⟩
  · exact ((regionOf_tier1_iff _ _ _).mp tier1).1
  · exact ((regionOf_ward_iff _ _ _ _).mp ward).1

/-- No such place is in the control space. -/
theorem outside (h : MayLand s off n) : inCtrl off = false := by
  have limits : tier1Size < ctrlBase ∧ wardBase + 0x1000000 * 140 ≤ ctrlBase := by decide
  have few := wardCount_le s
  have below : off < ctrlBase := by
    rcases h with tier1 | ⟨x, ward, -⟩
    · obtain ⟨-, inside⟩ := (regionOf_tier1_iff _ _ _).mp tier1
      omega
    · obtain ⟨-, -, high, -⟩ := (regionOf_ward_iff _ _ _ _).mp ward
      omega
  simp [inCtrl, not_le.mpr below]

/-- A write transaction that lands is done. -/
theorem writeTxn {bs : List Byte} (h : MayLand s off bs.length) (clean : s.poison = []) (sum : Int) :
    writeTxn s false sum off bs = .ok (memWrite s off.toNat bs) := by
  have sound : partialPoison s off.toNat bs.length = none := by simp [partialPoison, poisoned, clean]
  rcases h with tier1 | ⟨x, ward, clear⟩
  · simp [Machine.writeTxn, tier1, sound]
  · simp [Machine.writeTxn, ward, clear, sound]

end MayLand

/-! ### A run of bytes stored (11, R267, R286) -/

/-- A run written in two parts is written whole. -/
theorem writeBytes_writeBytes (d : Nat → Byte) (m : SMap Byte) (a : Nat) (xs ys : List Byte) :
    writeBytes d (writeBytes d m a xs) (a + xs.length) ys = writeBytes d m a (xs ++ ys) := by
  have cells := cellsOf_range d a xs
  have keep : (cellsOf d a xs).filter (fun p => p.1 < a + xs.length) = cellsOf d a xs := List.filter_eq_self.mpr fun p hp => by simpa using (cells p hp).2
  have drop : (cellsOf d a xs).filter (fun p => a + xs.length + ys.length ≤ p.1) = [] := List.filter_eq_nil_iff.mpr fun p hp => by
    have := (cells p hp).2
    simp only [decide_eq_true_eq]
    omega
  have low : (m.filter (fun p => p.1 < a)).filter (fun p => p.1 < a + xs.length) = m.filter (fun p => p.1 < a) :=
    List.filter_eq_self.mpr fun p hp => by
      have := (List.mem_filter.mp hp).2
      simp only [decide_eq_true_eq] at this ⊢
      omega
  have lowOut : (m.filter (fun p => p.1 < a)).filter (fun p => a + xs.length + ys.length ≤ p.1) = [] := List.filter_eq_nil_iff.mpr fun p hp => by
    have := (List.mem_filter.mp hp).2
    simp only [decide_eq_true_eq] at this ⊢
    omega
  have highOut : (m.filter (fun p => a + xs.length ≤ p.1)).filter (fun p => p.1 < a + xs.length) = [] := List.filter_eq_nil_iff.mpr fun p hp => by
    have := (List.mem_filter.mp hp).2
    simp only [decide_eq_true_eq] at this ⊢
    omega
  have high : (m.filter (fun p => a + xs.length ≤ p.1)).filter (fun p => a + xs.length + ys.length ≤ p.1) =
      m.filter (fun p => a + xs.length + ys.length ≤ p.1) := by
    rw [List.filter_filter]
    refine List.filter_congr fun p _ => ?_
    simp only [Bool.and_eq_left_iff_imp, decide_eq_true_eq]
    omega
  have size : a + (xs ++ ys).length = a + xs.length + ys.length := by rw [List.length_append, Nat.add_assoc]
  simp only [writeBytes, List.filter_append, keep, drop, low, lowOut, highOut, high, size, cellsOf_append, List.append_nil, List.nil_append,
    List.append_assoc]

/-- The bytes bs are written from a on; the registers but the counts, the streams and the absence of poison are as before. -/
structure Stored (s t : State) (a : Nat) (bs : List Byte) : Prop where
  rd : ∀ (r : Reg) (i : Nat), r.no ∉ moveRegs.map Reg.no → rd t r i = rd s r i
  mem : t.mem = writeBytes (memDefault s.boot) s.mem a bs ∨ bs = [] ∧ t.mem = s.mem
  boot : t.boot = s.boot
  streams : t.streams = s.streams
  clean : s.poison = [] → t.poison = []

namespace Stored

variable {s t u : State} {a : Nat} {bs : List Byte}

theorem refl (s : State) (a : Nat) : Stored s s a [] := ⟨fun _ _ _ => rfl, .inr ⟨rfl, rfl⟩, rfl, rfl, id⟩

theorem of_kept (kept : MoveKept s t) (h : Stored t u a bs) : Stored s u a bs where
  rd r i out := (h.rd r i out).trans (kept.rd r i out)
  mem := by rw [← kept.mem, ← kept.boot]; exact h.mem
  boot := h.boot.trans kept.boot
  streams := h.streams.trans kept.streams
  clean none := h.clean (kept.poison.trans none)

theorem append {xs ys : List Byte} (h : Stored s t a xs) (k : Stored t u (a + xs.length) ys) : Stored s u a (xs ++ ys) where
  rd r i out := (k.rd r i out).trans (h.rd r i out)
  mem := by
    rcases h.mem with first | ⟨rfl, same⟩
    · rcases k.mem with second | ⟨rfl, same⟩
      · rw [second, first, h.boot, writeBytes_writeBytes]
        exact .inl rfl
      · rw [same, first, List.append_nil]
        exact .inl rfl
    · rw [← same, ← h.boot]
      exact k.mem
  boot := k.boot.trans h.boot
  streams := k.streams.trans h.streams
  clean none := k.clean (h.clean none)

/-- A transaction's bytes written in their place (11, R274). -/
theorem moverWrite (s : State) (a : Nat) (bs : List Byte) : Stored s (moverWrite s false a bs) a bs :=
  ⟨fun _ _ _ => rfl, .inl rfl, rfl, rfl, fun none => by simp [Machine.moverWrite, hostDrop, memWrite, none]⟩

theorem memRead (h : Stored s t a bs) : memRead t a bs.length = bs := by
  rcases h.mem with written | ⟨rfl, -⟩
  · rw [Machine.memRead, written, h.boot]
    exact (bytesAt_writeBytes _ _ _ _).readBytes
  · rw [List.length_nil]
    unfold Machine.memRead readBytes
    rfl

theorem memKept (h : Stored s t a bs) : MemKept s t a bs.length := by
  rcases h.mem with written | ⟨rfl, same⟩
  · intro k out
    rw [readByte, written, h.boot]
    exact readByte_memWrite_out s a bs k out
  · exact memKept_of_mem s t a _ same h.boot

theorem lands {off : Int} {n : Nat} (h : Stored s t a bs) (lands : MayLand s off n) : MayLand t off n := lands.of_kept h.rd (by decide)

end Stored

/-- Transactions that cover a run where it may land store it whole. -/
theorem stores_of_covers {err : MemErr} (mild : ∀ a, err ≠ .lost a ∧ err ≠ .failed a) (sum : Int) {off : Int} {n : Nat} {ts : List (Int × Nat)}
    (covers : Covers off n ts) {s : State} (clean : s.poison = []) {bs : List Byte} (size : bs.length = n) (lands : MayLand s off n) :
    ∃ t, writeTxns s false err sum bs ts = (t, .ok ()) ∧ Stored s t off.toNat bs := by
  induction covers generalizing s bs with
  | nil off =>
    obtain rfl : bs = [] := List.length_eq_zero_iff.mp size
    exact ⟨s, rfl, .refl s _⟩
  | @cons off k n ts _ ih =>
    have head : (bs.take k).length = k := by rw [List.length_take, size]; omega
    have first := MayLand.writeTxn (bs := bs.take k) (by rw [head]; exact lands.head (by omega)) clean sum
    obtain ⟨passes, transfer⟩ := writeErr_passes mild s off.toNat (bs.take k).length
    have kept := (metKept_writeErr s err off.toNat (bs.take k).length).moves transfer.poison
    have put := (Stored.moverWrite (writeErr s err off.toNat (bs.take k).length).1 off.toNat (bs.take k)).of_kept kept
    obtain ⟨t, rest, stored⟩ := ih (s := moverWrite (writeErr s err off.toNat (bs.take k).length).1 false off.toNat (bs.take k)) (put.clean clean)
      (bs := bs.drop k) (by rw [List.length_drop, size]; omega) (put.lands (lands.part (by omega)))
    have above := lands.above
    have next : (off + (k : Int)).toNat = off.toNat + (bs.take k).length := by omega
    rw [next] at stored
    refine ⟨t, ?_, List.take_append_drop k bs ▸ put.append stored⟩
    rw [writeTxns]
    simp only [first]
    rw [← rest]
    generalize writeErr s err off.toNat (bs.take k).length = met at passes
    obtain ⟨u, _ | d⟩ := met
    · rfl
    · cases passes

/-- A first transaction that fails in eight transmissions fails the write. -/
theorem stores_failed {s : State} (clean : s.poison = []) (sum : Int) {off : Int} {bs : List Byte} {x : Nat} (lands : MayLand s off bs.length)
    (within : off.toNat ≤ x ∧ x < off.toNat + min bs.length (256 - off.toNat % 256)) (tiers : x < wardBase) :
    writeTxns s false (.failed x) sum bs (txns off bs.length) = (noteResent s x 7, .fault 0x12 (ueAt s 3 x)) := by
  obtain ⟨ts, first⟩ := txns_cons off (n := bs.length) (by omega)
  have above := lands.above
  have block : (off % 256).toNat = off.toNat % 256 := by omega
  rw [block] at first
  generalize size : min bs.length (256 - off.toNat % 256) = k at first within
  have head : (bs.take k).length = k := by rw [List.length_take]; omega
  have done := MayLand.writeTxn (bs := bs.take k) (by rw [head]; exact lands.head (by omega)) clean sum
  have met : writeErr s (.failed x) off.toNat k = (noteResent s x 7, some (ueAt s 3 x)) := by
    simp [writeErr, meetErr, errAddr, inRuns, within, tiers]
  rw [first, writeTxns]
  simp only [done, head, met]

/-- A byte outside memory: the first transaction has no place. -/
theorem stores_unmapped {s : State} {off : Int} {bs : List Byte} (some : bs ≠ []) (unmapped : regionOf s off 1 = .unmapped) (err : MemErr) (sum : Int) :
    writeTxns s false err sum bs (txns off bs.length) = (s, .fault 0x11 (addrDetail sum)) := by
  have outside : ∀ n, 1 ≤ n → regionOf s off n ≠ .tier1 ∧ ∀ x, regionOf s off n ≠ .ward x := by
    refine fun n least => ⟨fun tier1 => ?_, fun x ward => ?_⟩
    · obtain ⟨above, inside⟩ := (regionOf_tier1_iff _ _ _).mp tier1
      exact Region.noConfusion (unmapped.symm.trans ((regionOf_tier1_iff s off 1).mpr ⟨above, by omega⟩))
    · obtain ⟨above, low, high, inside, place⟩ := (regionOf_ward_iff _ _ _ _).mp ward
      exact Region.noConfusion (unmapped.symm.trans ((regionOf_ward_iff s off 1 x).mpr ⟨above, low, high, by omega, place⟩))
  have refused : ∀ part : List Byte, 1 ≤ part.length → writeTxn s false sum off part = .fault 0x11 (addrDetail sum) := by
    intro part least
    obtain ⟨tier1, ward⟩ := outside _ least
    unfold writeTxn
    cases region : regionOf s off part.length with
    | tier1 => exact absurd region tier1
    | ward x => exact absurd region (ward x)
    | tier2 => rfl
    | ctrl => rfl
    | unmapped => rfl
  have length : 0 < bs.length := List.length_pos_iff.mpr some
  obtain ⟨ts, first⟩ := txns_cons off (n := bs.length) (by omega)
  rw [first, writeTxns]
  simp only [refused _ (show 1 ≤ (bs.take (min bs.length (256 - (off % 256).toNat))).length by rw [List.length_take]; omega)]

end Sys2Proof.Machine
end

section
/-!
CLAIM. MOVE_IN, MOVE_OUT and MOVE_COPY (05, R131, R141; 06, R157; 11, R267, R268, R291; 12, R304): a tile read, pushed or stored, a doorbell
written, and the faults. O43.
-/

namespace Sys2Proof.Machine

/-- The vector of a Mover's next tile. -/
def moveVector (c : Cmd) : List Nat := (nth (units c) c.iter []).headD []

/-- Where it reads the tile. -/
def moveFrom (c : Cmd) : Int := walkAddr c.imm (dSrcStride c.desc) (moveVector c)

/-- Where it stores the tile. -/
def moveTo (c : Cmd) : Int := walkAddr (moveDest c) (dDstStride c.desc) (moveVector c)

/-! ### A tile read (11, R267, R291; 12, R304) -/

/-- What the reads of a tile meet. -/
def moveMet (s : State) (c : Cmd) (err : MemErr) : State × Option Nat := meetErr s err [((moveFrom c).toNat, dTileBytes c.desc)]

/-- The state in which a tile has been read. -/
def moveRead (s : State) (c : Cmd) (err : MemErr) : State :=
  cacheTouches (moveMet s c err).1 true false (txns (moveFrom c) (dTileBytes c.desc))

/-- The read of a tile by its command. -/
def moveFetch (s : State) (m : Nat) (c : Cmd) (err : MemErr) : State × Got (List Byte) :=
  fetchTile s m c c.imm (moveFrom c) (dTileBytes c.desc) err c.slot.isSome true true

section
variable {m : Nat} {c : Cmd} {err : MemErr} {s : State}

theorem moveKept_moveRead (met : (moveMet s c err).2 = none) : MoveKept s (moveRead s c err) :=
  (moveKept_meetErr met).trans (moveKept_cacheTouches _ _ _ _)

theorem moveFetch_local (home : isLocal s c.imm = true) {bs : List Byte}
    (read : readTxns s c.slot.isSome true (moveFrom c) (txns (moveFrom c) (dTileBytes c.desc)) = .ok bs) :
    moveFetch s m c err = match (moveMet s c err).2 with
      | some d => ((moveMet s c err).1, .fault 0x12 d)
      | none => (moveRead s c err, .ok bs) := fetchTile_local home read m c err true

theorem moveFetch_tier1 (home : isLocal s c.imm = true) (clean : s.poison = []) (wf : Memory.wf s = true)
    (tier1 : regionOf s (moveFrom c) (dTileBytes c.desc) = .tier1) : moveFetch s m c err = match (moveMet s c err).2 with
    | some d => ((moveMet s c err).1, .fault 0x12 d)
    | none => (moveRead s c err, .ok (memRead s (moveFrom c).toNat (dTileBytes c.desc))) := by
  obtain ⟨bs, read, bytes⟩ := readTxns_of_covers clean c.slot.isSome true (moveFrom c) (covers_txns (moveFrom c) (dTileBytes c.desc)) tier1
  rw [moveFetch_local home read, bytes wf]

end

/-- The reads of a command's tile that are outstanding. -/
def tileReads (s : State) (m : Nat) (c : Cmd) : List Txn := (cmdTxns s m c.num).filter (fun t => t.ty == 2)

/-- The requests that ask for a tile, made in order. -/
def askTile (s : State) (m : Nat) (c : Cmd) : Got State :=
  (txns (moveFrom c) (dTileBytes c.desc)).foldl (fun (t : Got State) x => t.bind (fun k =>
    issueTxn k m c.num 2 (chipOf c.imm) x.1.toNat x.2 [(x.1.toNat, [])])) (.ok s)

theorem issueTxn_keeps {s t : State} {m num ty chip off len : Nat} {bs : List (Nat × List Byte)} (issued : issueTxn s m num ty chip off len bs = .ok t) :
    t.mem = s.mem ∧ t.queues = s.queues := by
  unfold issueTxn at issued
  dsimp only at issued
  split at issued
  · cases issued
  · split at issued
    · cases issued
    · cases issued
      exact ⟨foldl_keeps State.mem (fun t b => portSend t _ _) (fun _ _ => rfl) bs s,
        foldl_keeps State.queues (fun t b => portSend t _ _) (fun _ _ => rfl) bs s⟩

theorem askTile_keeps {s t : State} {m : Nat} {c : Cmd} (asked : askTile s m c = .ok t) : t.mem = s.mem ∧ t.queues = s.queues := by
  refine List.foldlRecOn (motive := fun r : Got State => ∀ t, r = .ok t → t.mem = s.mem ∧ t.queues = s.queues) _ _ ?_ (fun r kept x _ t asked => ?_)
    t asked
  · rintro _ ⟨⟩
    exact ⟨rfl, rfl⟩
  · cases r with
    | wait => cases asked
    | fault => cases asked
    | ok k =>
      obtain ⟨mem, queues⟩ := issueTxn_keeps asked
      obtain ⟨mem', queues'⟩ := kept k rfl
      exact ⟨mem.trans mem', queues.trans queues'⟩

/-! ### The tile that leaves (05, R141) -/

/-- The tile of a copy as it leaves. -/
def copyLeaves (s : State) (c : Cmd) : Hdr × List Byte × NEv :=
  leaving s c (stampHdr c (moveVector c)) (memRead s (moveFrom c).toNat (dTileBytes c.desc))

/-- A tile of MOVE_IN as it leaves. -/
def inLeaves (s : State) (c : Cmd) (bs : List Byte) : Hdr × List Byte × NEv := leaving s c (stampHdr c (moveVector c)) bs

/-- The bytes of the tile that it pushes: converted, or zero outside the extent that is stamped. -/
def inData (s : State) (c : Cmd) (bs : List Byte) : List Byte :=
  if converts c = true then (inLeaves s c bs).2.1 else zeroFill (inLeaves s c bs).1.fmt (inLeaves s c bs).1.rows (inLeaves s c bs).1.cols bs

/-- From s to t the tile of the bytes bs is pushed under its header, and the unit is done. -/
def MovePushes (s t : State) (m w : Nat) (c : Cmd) (bs : List Byte) : Prop :=
  PushedTile s t (outQ w c 0) (nextOut c 0) (inLeaves s c bs).1.fmt c.tag ∧ UnitDone t m c ∧
  ((inData s c bs).length ≤ qSlotBytes s (outQ w c 0) →
    memRead t (slotKey s (outQ w c 0) (nextOut c 0)) (inData s c bs).length = inData s c bs) ∧
  (converts c = false → findPushed (queueRt t (outQ w c 0)).pushed (nextOut c 0) =
    some ⟨{ stampHdr c (moveVector c) with ptag := c.tag, marks := 0x80 }, false⟩)

theorem findPushed_pushOut (s : State) (m w : Nat) (c : Cmd) (e : Nat) (h : Hdr) (bs : List Byte) :
    findPushed (queueRt (pushOut s m w c e h bs).1 (outQ w c e)).pushed (nextOut c e) =
      some ⟨{ h with ptag := c.tag, marks := h.marks % 0x80 + mkValid }, false⟩ := findPushed_qPush s _ _ _ bs

/-! ### A tile stored (11, R267, R268) -/

/-- From s to t the bytes bs are stored at an offset, nothing else in memory is changed, and the command's unit is done. -/
def TileStored (s t : State) (m : Nat) (c : Cmd) (off : Int) (bs : List Byte) : Prop :=
  memRead t off.toNat bs.length = bs ∧ MemKept s t off.toNat bs.length ∧ UnitDone t m c

/-- A transmission of a store's first block fails. -/
def FailsFirst (err : MemErr) (off : Int) (x k : Nat) : Prop :=
  err = .failed x ∧ off.toNat ≤ x ∧ x < off.toNat + min k (256 - off.toNat % 256) ∧ x < wardBase

section
variable {s : State} {base : Nat} {off : Int} (home : isLocal s base = true)
include home

theorem storeTile_of_memory (outside : inCtrl off = false) (m : Nat) (c : Cmd) (bs : List Byte) (err : MemErr) :
    storeTile s m c base off bs err = writeTxns (cacheTouches s false false (txns off bs.length)) false err off bs (txns off bs.length) := by
  simp [storeTile, home, outside]

theorem storeTile_of_doorbell {k : Nat} (inside : inCtrl off = true) (bell : isDoorbell s off = some k) (m : Nat) (c : Cmd) (bs : List Byte)
    (err : MemErr) : storeTile s m c base off bs err = (doorbell s k (ofBytesLE (bs.take 4)) (classClient s m), .ok ()) := by
  simp [storeTile, home, inside, bell]

end

section
variable {s s1 : State} {base m w : Nat} {c : Cmd} {off : Int} {bs : List Byte} {err : MemErr} (s0 : State) (ev : NEv) (kept : MoveKept s s1)
  (home : isLocal s base = true)
include kept home

theorem tileStored_storeTile (stands : Standing s m c) (issued : c.phase = .issued) (clean : s.poison = []) (lands : MayLand s off bs.length)
    (mild : ∀ a, err ≠ .lost a ∧ err ≠ .failed a) : TileStored s (observe (moveAfter s0 m w c ev (storeTile s1 m c base off bs err))) m c off bs := by
  have touched := kept.trans (moveKept_cacheTouches s1 false false (txns off bs.length))
  have lands' : MayLand (cacheTouches s1 false false (txns off bs.length)) off bs.length := lands.of_kept touched.rd (by decide)
  obtain ⟨t, written, stored⟩ := stores_of_covers mild off (covers_txns off bs.length) (touched.poison.trans clean) rfl lands'
  rw [storeTile_of_memory ((kept.isLocal (by decide) base).trans home) lands.outside, written]
  have whole := stored.of_kept touched
  have counted := workKept_countLeft t w c ev
  have done := unitDone_does w (stands.of_streams (counted.streams.trans whole.streams)) issued
  refine ⟨?_, fun k out => ?_, done.congr (stream_observe_cmds _ _)⟩
  · rw [memRead_observe, memRead, moveAfter, unitDone_mem, unitDone_boot, counted.mem, counted.boot]
    exact whole.memRead
  · rw [readByte_observe, readByte, moveAfter, unitDone_mem, unitDone_boot, counted.mem, counted.boot]
    exact whole.memKept k out

theorem faulted_storeTile {x : Nat} (place : ueAt s1 3 x = ueAt s 3 x) (enabled : (stream s m).st = .enabled) (clean : s.poison = [])
    (lands : MayLand s off bs.length) (fails : FailsFirst err off x bs.length) :
    Faulted (observe (moveAfter s0 m w c ev (storeTile s1 m c base off bs err))) m 0x12 (ueAt s 3 x) := by
  obtain ⟨rfl, low, high, tiers⟩ := fails
  have line := workKept_cacheTouches s1 false false (txns off bs.length)
  have touched := kept.trans (moveKept_cacheTouches s1 false false (txns off bs.length))
  have lands' : MayLand (cacheTouches s1 false false (txns off bs.length)) off bs.length := lands.of_kept touched.rd (by decide)
  have failed := stores_failed (touched.poison.trans clean) off lands' ⟨low, high⟩ tiers
  rw [line.ueAt (by decide), place] at failed
  rw [storeTile_of_memory ((kept.isLocal (by decide) base).trans home) lands.outside, failed]
  have running : (stream (noteResent (cacheTouches s1 false false (txns off bs.length)) x 7) m).st = .enabled := by
    rw [(metKept_noteResent _ x 7).stream, touched.stream, enabled]
  exact (faulted_execFault c _ running (by decide)).observe

theorem faulted_storeTile_unmapped (enabled : (stream s m).st = .enabled) (some : bs ≠ []) (unmapped : regionOf s off 1 = .unmapped) :
    Faulted (observe (moveAfter s0 m w c ev (storeTile s1 m c base off bs err))) m 0x11 (addrDetail off) := by
  have touched := kept.trans (moveKept_cacheTouches s1 false false (txns off bs.length))
  have outside : inCtrl off = false := by
    by_contra inside
    simp only [inCtrl, Bool.not_eq_false, Bool.and_eq_true, decide_eq_true_eq] at inside
    have above : 0 ≤ off := le_trans (Int.natCast_nonneg _) inside.1
    unfold regionOf at unmapped
    dsimp only at unmapped
    split_ifs at unmapped <;> omega
  have unmapped' : regionOf (cacheTouches s1 false false (txns off bs.length)) off 1 = .unmapped := by
    rw [regionOf_congr (wardCount_congr (touched.logicalOf (by decide))), unmapped]
  rw [storeTile_of_memory ((kept.isLocal (by decide) base).trans home) outside, stores_unmapped some unmapped']
  exact (faulted_execFault c _ (by rw [touched.stream, enabled]) (by decide)).observe

end

/-! ### A doorbell written (05, R131) -/

theorem inCtrl_of_isDoorbell {s : State} {off : Int} {k : Nat} (bell : isDoorbell s off = some k) : inCtrl off = true := by
  have few := wardCount_le s
  have room : WARD_SDBELL.base + 0x40 * (8 * 140) ≤ ctrlSize := by decide
  unfold isDoorbell at bell
  dsimp only at bell
  split_ifs at bell with below within
  simp only [inCtrl, Bool.and_eq_true, decide_eq_true_eq]
  omega

theorem avail_setCmd (s : State) (m : Nat) (d : Cmd) (k : Nat) : (stream (setCmd s m d) k).avail = (stream s k).avail := by
  unfold setCmd
  by_cases own : k = m
  · rw [own, stream_setStream_same]
  · rw [stream_setStream_other _ _ own]

section
variable {s s1 : State} {base m w k : Nat} {c : Cmd} {off : Int} {bs : List Byte} (s0 : State) (err : MemErr) (ev : NEv) (kept : WorkKept moveRegs s s1)
  (home : isLocal s base = true) (stands : Standing s m c) (issued : c.phase = .issued)
include kept home stands issued

/-- A doorbell that is taken sets AVAIL, and the tile is done. -/
theorem doorbell_storeTile (bell : isDoorbell s off = some k) (taken : DoorbellTaken s k (ofBytesLE (bs.take 4))) (lit : isDark s (k / 8) = false) :
    let t := observe (moveAfter s0 m w c ev (storeTile s1 m c base off bs err))
    (stream t k).avail = ofBytesLE (bs.take 4) % 2 ^ 32 ∧ t.mem = s.mem ∧ UnitDone t m c := by
  intro t
  have word : ofBytesLE (bs.take 4) % 2 ^ 32 = ofBytesLE (bs.take 4) := by
    have four : (bs.take 4).length ≤ 4 := List.length_take_le _ _
    exact Nat.mod_eq_of_lt (lt_of_lt_of_le (ofBytesLE_lt _) (Nat.pow_le_pow_right (by decide) four))
  have bell' : isDoorbell s1 off = some k := by
    unfold isDoorbell at bell ⊢
    rw [wardCount_congr (kept.logicalOf (by decide))]
    exact bell
  have rung := doorbell_eq s1 k (ofBytesLE (bs.take 4)) (classClient s1 m)
  have taken' : DoorbellTaken s1 k (ofBytesLE (bs.take 4)) := by
    unfold DoorbellTaken ringCommands at taken ⊢
    rw [kept.fg WARD_SCFG_EN k (by decide), kept.fg WARD_SFETCH_LOADED k (by decide), kept.fg WARD_SCFG_RING_LOG2 k (by decide), kept.stream]
    exact taken
  have known : ¬DoorbellLost s1 k (ofBytesLE (bs.take 4)) := fun lost => by
    rw [DoorbellLost, kept.isDark _ (by decide), lit] at lost
    exact Bool.false_ne_true lost.1
  rw [word, if_neg (not_not.mpr taken'), if_neg known] at rung
  have stored := storeTile_of_doorbell ((kept.isLocal (by decide) base).trans home) (inCtrl_of_isDoorbell bell) bell' m c bs err
  rw [rung] at stored
  obtain ⟨regs, pwards, woken⟩ := wakeIfWork_frame (availSet s1 k (ofBytesLE (bs.take 4))) (k / 8) (classClient s1 m)
  rw [woken] at stored
  have counted := workKept_countLeft { availSet s1 k (ofBytesLE (bs.take 4)) with regs := regs, pwards := pwards } w c ev
  have step : t = observe (unitDone (countLeft { availSet s1 k (ofBytesLE (bs.take 4)) with regs := regs, pwards := pwards } w c ev) m w c) := by
    show observe (moveAfter s0 m w c ev (storeTile s1 m c base off bs err)) = _
    rw [stored]
    rfl
  rw [step]
  generalize countLeft { availSet s1 k (ofBytesLE (bs.take 4)) with regs := regs, pwards := pwards } w c ev = u at counted
  have streams : u.streams = (availSet s1 k (ofBytesLE (bs.take 4))).streams := counted.streams
  have mem : u.mem = s1.mem := counted.mem
  have avail : (stream u k).avail = ofBytesLE (bs.take 4) := by
    rw [stream, streams]
    exact congrArg Stream.avail (stream_setStream_same _ _ _)
  have cmds : (stream u m).cmds = (stream s1 m).cmds := by
    have same : stream u m = stream (availSet s1 k (ofBytesLE (bs.take 4))) m := by rw [stream, streams, stream]
    rw [same, availSet]
    by_cases own : m = k
    · rw [own, stream_setStream_same]
    · rw [stream_setStream_other _ _ own]
  have stands' : Standing u m c := by
    rw [Standing, cmds, kept.stream]
    exact stands
  refine ⟨?_, ?_, (unitDone_does w stands' issued).congr (stream_observe_cmds _ _)⟩
  · rw [stream_observe_avail, unitDone_keeps (fun t => (stream t k).avail) (fun _ _ _ => rfl) (fun t m d => avail_setCmd t m d k), avail, word]
  · rw [observe_mem, unitDone_mem, mem, kept.mem]

end

/-! ### MOVE_OUT (06, R157) -/

section
variable {w u m : Nat} {c : Cmd} {err : MemErr} {s : State} (unit : u < 2) (going : c.stopping = false)
include unit going

section
variable (job : jobOf s w (6 + u) 0x02 = some (m, c)) {h : Hdr} {bs : List Byte} (read : readIn s w c 0 (endOffset c 0 (moveVector c)) = .ok (h, bs))
include job read

/-- What its reads meet comes first; then the tile leaves for its address. -/
theorem exec_moveOut : exec (.moveOut w u err) s = .next (observe (match (meetErr s err (endRuns s w c)).2 with
    | some d => execFault (meetErr s err (endRuns s w c)).1 m c 0x12 d
    | none => moveAfter s m w c (leaving s c h (bs.take (dTileBytes c.desc))).2.2
        (storeTile (meetErr s err (endRuns s w c)).1 m c c.imm (moveTo c) (leaving s c h (bs.take (dTileBytes c.desc))).2.1 err))) := by
  refine congrArg (fun t => Host.Outcome.next (observe t)) ?_
  have place : moveTo c = walkAddr c.imm (dDstStride c.desc) (moveVector c) := by rw [moveTo, moveDest, if_pos (opcode_of_jobOf job)]
  have seed := (metKept_meetErr s err (endRuns s w c)).toWorkKept.leaving (by decide) c h (bs.take (dTileBytes c.desc))
  have runs : ¬(c.stopping && !midTile s m c) = true := by simp [going]
  unfold moveStep
  rw [Nat.mod_eq_of_lt unit, job, place]
  simp only [moveVector] at read ⊢
  simp only [if_neg runs, if_true, read]
  rw [← seed]
  generalize meetErr s err (endRuns s w c) = met
  rcases met with ⟨s0, _ | d⟩ <;> rfl

theorem moveOut_meets {d : Nat} (lost : (meetErr s err (endRuns s w c)).2 = some d) (enabled : (stream s m).st = .enabled) :
    Gives (.moveOut w u err) s fun t => Faulted t m 0x12 d := by
  have row := exec_moveOut (err := err) unit going job read
  rw [lost] at row
  exact gives_next row (faulted_execFault c d (by rw [(metKept_meetErr s err _).stream, enabled]) (by decide)).observe

variable (home : isLocal s c.imm = true) (met : (meetErr s err (endRuns s w c)).2 = none) {out : List Byte}
  (leaves : (leaving s c h (bs.take (dTileBytes c.desc))).2.1 = out)
include home met leaves

theorem moveOut_stores (clean : s.poison = []) (lands : MayLand s (moveTo c) out.length) (mild : ∀ a, err ≠ .lost a ∧ err ≠ .failed a) :
    Gives (.moveOut w u err) s fun t => TileStored s t m c (moveTo c) out := by
  have row := exec_moveOut (err := err) unit going job read
  rw [met, leaves] at row
  obtain ⟨stands, issued⟩ := standing_of_jobOf job
  exact gives_next row (tileStored_storeTile _ _ (moveKept_meetErr met) home stands issued clean lands mild)

theorem moveOut_fails {x : Nat} (clean : s.poison = []) (lands : MayLand s (moveTo c) out.length) (fails : FailsFirst err (moveTo c) x out.length)
    (enabled : (stream s m).st = .enabled) : Gives (.moveOut w u err) s fun t => Faulted t m 0x12 (ueAt s 3 x) := by
  have row := exec_moveOut (err := err) unit going job read
  have place : ueAt (meetErr s err (endRuns s w c)).1 3 x = ueAt s 3 x := by
    obtain ⟨rfl, -⟩ := fails
    rw [meetErr_failed_apart met]
  rw [met, leaves] at row
  exact gives_next row (faulted_storeTile _ _ (moveKept_meetErr met) home place enabled clean lands fails)

theorem moveOut_unmapped (some : out ≠ []) (unmapped : regionOf s (moveTo c) 1 = .unmapped) (enabled : (stream s m).st = .enabled) :
    Gives (.moveOut w u err) s fun t => Faulted t m 0x11 (addrDetail (moveTo c)) := by
  have row := exec_moveOut (err := err) unit going job read
  rw [met, leaves] at row
  exact gives_next row (faulted_storeTile_unmapped _ _ (moveKept_meetErr met) home enabled some unmapped)

theorem moveOut_rings {k : Nat} (bell : isDoorbell s (moveTo c) = some k) (taken : DoorbellTaken s k (ofBytesLE (out.take 4)))
    (lit : isDark s (k / 8) = false) : Gives (.moveOut w u err) s fun t =>
      (stream t k).avail = ofBytesLE (out.take 4) % 2 ^ 32 ∧ t.mem = s.mem ∧ UnitDone t m c := by
  have row := exec_moveOut (err := err) unit going job read
  rw [met, leaves] at row
  obtain ⟨stands, issued⟩ := standing_of_jobOf job
  exact gives_next row (doorbell_storeTile s err _ (moveKept_meetErr met).toWorkKept home stands issued bell taken lit)

end

/-! ### MOVE_COPY (06, R157) -/

section
variable (job : jobOf s w (6 + u) 0x03 = some (m, c))
include job

theorem moveStep_copies {s1 : State} {bs : List Byte} (fetched : moveFetch s m c err = (s1, .ok bs)) :
    moveStep s w u 0x03 err = moveAfter s1 m w c (leaving s1 c (stampHdr c (moveVector c)) bs).2.2
      (storeTile s1 m c (dBase2 c.desc) (moveTo c) (leaving s1 c (stampHdr c (moveVector c)) bs).2.1 err) := by
  have place : moveTo c = walkAddr (dBase2 c.desc) (dDstStride c.desc) (moveVector c) := by
    rw [moveTo, moveDest, if_neg (by rw [opcode_of_jobOf job]; decide)]
  have runs : ¬(c.stopping && !midTile s m c) = true := by simp [going]
  simp only [moveFetch, moveFrom] at fetched
  unfold moveStep
  rw [Nat.mod_eq_of_lt unit, job, place]
  dsimp only
  rw [← moveVector, if_neg runs, if_neg (by decide), if_neg (by simp), if_neg (by simp), fetched]
  rfl

theorem moveStep_copy_faults {s1 : State} {code d : Nat} (fetched : moveFetch s m c err = (s1, .fault code d)) :
    moveStep s w u 0x03 err = execFault s1 m c code d := by
  have runs : ¬(c.stopping && !midTile s m c) = true := by simp [going]
  simp only [moveFetch, moveFrom] at fetched
  unfold moveStep
  rw [Nat.mod_eq_of_lt unit, job]
  dsimp only
  rw [← moveVector, if_neg runs, if_neg (by decide), if_neg (by simp), if_neg (by simp), fetched]

variable (home : isLocal s c.imm = true) (clean : s.poison = []) (wf : Memory.wf s = true)
  (tier1 : regionOf s (moveFrom c) (dTileBytes c.desc) = .tier1)
include home clean wf tier1

theorem moveCopy_meets {d : Nat} (lost : (moveMet s c err).2 = some d) (enabled : (stream s m).st = .enabled) :
    Gives (.moveCopy w u err) s fun t => Faulted t m 0x12 d := by
  have fetched := moveFetch_tier1 (m := m) (err := err) home clean wf tier1
  rw [lost] at fetched
  have step := moveStep_copy_faults unit going job fetched
  have running : (stream (moveMet s c err).1 m).st = .enabled := by rw [moveMet, (metKept_meetErr s err _).stream, enabled]
  exact gives_next (congrArg (fun t => Host.Outcome.next (observe t)) step) (faulted_execFault c d running (by decide)).observe

variable (met : (moveMet s c err).2 = none) (away : isLocal s (dBase2 c.desc) = true) {out : List Byte} (leaves : (copyLeaves s c).2.1 = out)
include met

theorem exec_moveCopy : exec (.moveCopy w u err) s = .next (observe (moveAfter (moveRead s c err) m w c (copyLeaves s c).2.2
    (storeTile (moveRead s c err) m c (dBase2 c.desc) (moveTo c) (copyLeaves s c).2.1 err))) := by
  have fetched := moveFetch_tier1 (m := m) (err := err) home clean wf tier1
  rw [met] at fetched
  refine congrArg (fun t => Host.Outcome.next (observe t)) ?_
  rw [moveStep_copies unit going job fetched, (moveKept_moveRead met).leaving (by decide)]
  rfl

include away leaves

theorem moveCopy_stores (lands : MayLand s (moveTo c) out.length) (mild : ∀ a, err ≠ .lost a ∧ err ≠ .failed a) :
    Gives (.moveCopy w u err) s fun t => TileStored s t m c (moveTo c) out := by
  have row := exec_moveCopy unit going job home clean wf tier1 met
  rw [leaves] at row
  obtain ⟨stands, issued⟩ := standing_of_jobOf job
  exact gives_next row (tileStored_storeTile _ _ (moveKept_moveRead met) away stands issued clean lands mild)

theorem moveCopy_fails {x : Nat} (lands : MayLand s (moveTo c) out.length) (fails : FailsFirst err (moveTo c) x out.length)
    (enabled : (stream s m).st = .enabled) : Gives (.moveCopy w u err) s fun t => Faulted t m 0x12 (ueAt s 3 x) := by
  have row := exec_moveCopy unit going job home clean wf tier1 met
  have place : ueAt (moveRead s c err) 3 x = ueAt s 3 x := by
    obtain ⟨rfl, -⟩ := fails
    rw [moveRead, (workKept_cacheTouches _ _ _ _).ueAt (by decide), moveMet, meetErr_failed_apart met]
  rw [leaves] at row
  exact gives_next row (faulted_storeTile _ _ (moveKept_moveRead met) away place enabled clean lands fails)

end

/-! ### MOVE_IN (06, R157; 12, R304) -/

section
variable (job : jobOf s w (6 + u) 0x01 = some (m, c)) (lit : isDark s (outWard w (c.out 0)) = false)
include job lit

theorem moveStep_of_full (full : canPush s w c 0 1 = false) : moveStep s w u 0x01 err = s := by
  have runs : ¬(c.stopping && !midTile s m c) = true := by simp [going]
  unfold moveStep
  rw [Nat.mod_eq_of_lt unit, job]
  dsimp only
  rw [if_neg runs, if_neg (by decide), if_neg (by simp [lit]), if_pos (by simp [full])]

variable (room : canPush s w c 0 1 = true)
include room

theorem moveStep_waits {s1 : State} (fetched : moveFetch s m c err = (s1, .wait)) : moveStep s w u 0x01 err = s1 := by
  have runs : ¬(c.stopping && !midTile s m c) = true := by simp [going]
  simp only [moveFetch, moveFrom] at fetched
  unfold moveStep
  rw [Nat.mod_eq_of_lt unit, job]
  dsimp only
  rw [← moveVector, if_neg runs, if_neg (by decide), if_neg (by simp [lit]), if_neg (by simp [room]), fetched]

theorem moveStep_in_faults {s1 : State} {code d : Nat} (fetched : moveFetch s m c err = (s1, .fault code d)) :
    moveStep s w u 0x01 err = execFault s1 m c code d := by
  have runs : ¬(c.stopping && !midTile s m c) = true := by simp [going]
  simp only [moveFetch, moveFrom] at fetched
  unfold moveStep
  rw [Nat.mod_eq_of_lt unit, job]
  dsimp only
  rw [← moveVector, if_neg runs, if_neg (by decide), if_neg (by simp [lit]), if_neg (by simp [room]), fetched]

theorem moveStep_pushes {s1 : State} {bs : List Byte} (fetched : moveFetch s m c err = (s1, .ok bs)) :
    moveStep s w u 0x01 err =
      unitDone (pushOut (countLeft s1 w c (inLeaves s1 c bs).2.2) m w c 0 (inLeaves s1 c bs).1 (inData s1 c bs)).1 m w
        (pushOut (countLeft s1 w c (inLeaves s1 c bs).2.2) m w c 0 (inLeaves s1 c bs).1 (inData s1 c bs)).2 := by
  have runs : ¬(c.stopping && !midTile s m c) = true := by simp [going]
  have data : inData s1 c bs = if converts c = true then (inLeaves s1 c bs).2.1
      else zeroFill (inLeaves s1 c bs).1.fmt (inLeaves s1 c bs).1.rows (inLeaves s1 c bs).1.cols (inLeaves s1 c bs).2.1 := by
    unfold inData inLeaves leaving
    split <;> rfl
  rw [data]
  simp only [moveFetch, moveFrom] at fetched
  unfold moveStep
  rw [Nat.mod_eq_of_lt unit, job]
  dsimp only
  rw [← moveVector, if_neg runs, if_neg (by decide), if_neg (by simp [lit]), if_neg (by simp [room]), fetched]
  rfl

theorem moveIn_of_fetched {s1 : State} {bs : List Byte} (kept : WorkKept moveRegs s s1) (fetched : moveFetch s m c err = (s1, .ok bs)) :
    Gives (.moveIn w u err) s fun t => MovePushes s t m w c bs := by
  have step := moveStep_pushes unit going job lit room fetched
  obtain ⟨stands, issued⟩ := standing_of_jobOf job
  have leaves : inLeaves s1 c bs = inLeaves s c bs := kept.leaving (by decide) c _ bs
  have data : inData s1 c bs = inData s c bs := by rw [inData, inData, leaves]
  rw [leaves, data] at step
  have counted := workKept_countLeft s1 w c (inLeaves s c bs).2.2
  have pushed := ((unitPushed_pushOut (stands.of_streams (counted.streams.trans kept.streams)) issued w (inLeaves s c bs).1 (inData s c bs)).of_workKept
    counted (by decide) (by decide)).of_workKept kept (by decide) (by decide)
  refine gives_next (congrArg (fun t => Host.Outcome.next (observe t)) step) ?_
  obtain ⟨tile, done, bytes⟩ := pushed
  refine ⟨tile, done, bytes, fun copies => ?_⟩
  have stamped : (inLeaves s c bs).1 = stampHdr c (moveVector c) := by
    rw [inLeaves, leaving, if_neg (by simp [copies])]
  rw [queueRt_observe, unitDone_pushed, findPushed_pushOut, stamped]
  rfl

theorem moveIn_faults_of_fetched {s1 : State} {code d : Nat} (streams : s1.streams = s.streams) (fetched : moveFetch s m c err = (s1, .fault code d))
    (enabled : (stream s m).st = .enabled) (small : code < 256) : Gives (.moveIn w u err) s fun t => Faulted t m code d := by
  have step := moveStep_in_faults unit going job lit room fetched
  exact gives_next (congrArg (fun t => Host.Outcome.next (observe t)) step)
    (faulted_execFault c d (by rw [stream, streams]; exact enabled) small).observe

end

end

/-! ### A tile of this module -/

section
variable {w u m : Nat} {c : Cmd} {err : MemErr} {s : State} (unit : u < 2) (going : c.stopping = false) (job : jobOf s w (6 + u) 0x01 = some (m, c))
  (lit : isDark s (outWard w (c.out 0)) = false) (room : canPush s w c 0 1 = true)
include unit going job lit room

section
variable (home : isLocal s c.imm = true)
include home

theorem moveIn_pushes {bs : List Byte} (read : readTxns s c.slot.isSome true (moveFrom c) (txns (moveFrom c) (dTileBytes c.desc)) = .ok bs)
    (met : (moveMet s c err).2 = none) : Gives (.moveIn w u err) s fun t => MovePushes s t m w c bs := by
  have fetched := moveFetch_local (m := m) (err := err) home read
  rw [met] at fetched
  exact moveIn_of_fetched unit going job lit room (moveKept_moveRead met).toWorkKept fetched

theorem moveIn_meets {bs : List Byte} {d : Nat} (read : readTxns s c.slot.isSome true (moveFrom c) (txns (moveFrom c) (dTileBytes c.desc)) = .ok bs)
    (lost : (moveMet s c err).2 = some d) (enabled : (stream s m).st = .enabled) : Gives (.moveIn w u err) s fun t => Faulted t m 0x12 d := by
  have fetched := moveFetch_local (m := m) (err := err) home read
  rw [lost] at fetched
  exact moveIn_faults_of_fetched unit going job lit room (metKept_meetErr s err _).streams fetched enabled (by decide)

theorem moveIn_faults {code d : Nat} (read : readTxns s c.slot.isSome true (moveFrom c) (txns (moveFrom c) (dTileBytes c.desc)) = .fault code d)
    (enabled : (stream s m).st = .enabled) (small : code < 256) : Gives (.moveIn w u err) s fun t => Faulted t m code d := by
  have fetched : moveFetch s m c err = (s, .fault code d) := by
    unfold moveFetch fetchTile
    rw [if_pos home, read]
  exact moveIn_faults_of_fetched unit going job lit room rfl fetched enabled small

end

/-! ### A tile of another chip (12, R304) -/

section
variable (far : isLocal s c.imm = false)
include far

theorem moveIn_takes (some : tileReads s m c ≠ []) (all : (tileReads s m c).all (fun t => t.data.isSome) = true) :
    Gives (.moveIn w u err) s fun t => MovePushes s t m w c ((tileReads s m c).flatMap (fun t => t.data.getD [])) := by
  have fetched : moveFetch s m c err = ({ s with txns := s.txns.filter (fun t => !(tileReads s m c).contains t) },
      .ok ((tileReads s m c).flatMap (fun t => t.data.getD []))) := by
    unfold moveFetch fetchTile
    rw [if_neg (by simp [far])]
    simp only [tileReads] at some all ⊢
    rw [if_neg (by simpa using some), if_pos all]
  have kept : ∀ txns, WorkKept moveRegs s { s with txns := txns } := fun _ => .of_work rfl
  exact moveIn_of_fetched unit going job lit room (kept _) fetched

theorem moveIn_awaits (some : tileReads s m c ≠ []) (part : (tileReads s m c).all (fun t => t.data.isSome) = false) :
    Gives (.moveIn w u err) s fun t => t.mem = s.mem ∧ t.queues = s.queues ∧ t.txns = s.txns := by
  have fetched : moveFetch s m c err = (s, .wait) := by
    unfold moveFetch fetchTile
    rw [if_neg (by simp [far])]
    simp only [tileReads] at some part ⊢
    rw [if_neg (by simpa using some), if_neg (by simp [part])]
  have step := moveStep_waits unit going job lit room fetched
  refine gives_next (congrArg (fun t => Host.Outcome.next (observe t)) step) ⟨?_, ?_, ?_⟩
  · exact observe_mem s
  · exact observe_queues s
  · exact observe_txns s

variable (none : tileReads s m c = [])
include none

theorem moveIn_outside (enabled : (stream s m).st = .enabled) (outside : moveFrom c < 0 ∨ 2 ^ 48 < moveFrom c + dTileBytes c.desc) :
    Gives (.moveIn w u err) s fun t => Faulted t m 0x11 (addrDetail (moveFrom c)) := by
  have fetched : moveFetch s m c err = (s, .fault 0x11 (addrDetail (moveFrom c))) := by
    unfold moveFetch fetchTile
    rw [if_neg (by simp [far])]
    simp only [tileReads] at none ⊢
    rw [if_pos (by simp [none]), if_pos outside]
  exact moveIn_faults_of_fetched unit going job lit room rfl fetched enabled (by decide)

theorem moveIn_asks {s2 : State} (inside : 0 ≤ moveFrom c ∧ moveFrom c + dTileBytes c.desc ≤ 2 ^ 48) (asked : askTile s m c = .ok s2) :
    Gives (.moveIn w u err) s fun t => t.txns = s2.txns ∧ t.ports = s2.ports ∧ t.mem = s.mem ∧ t.queues = s.queues := by
  obtain ⟨mem, queues⟩ := askTile_keeps asked
  have fetched : moveFetch s m c err = (s2, .wait) := by
    unfold moveFetch fetchTile
    rw [if_neg (by simp [far])]
    simp only [tileReads, askTile] at none asked ⊢
    rw [if_pos (by simp [none]), if_neg (by omega), asked]
  have step := moveStep_waits unit going job lit room fetched
  obtain ⟨_, _, _, watched⟩ := observe_eq s2
  refine gives_next (congrArg (fun t => Host.Outcome.next (observe t)) step) ⟨?_, ?_, ?_, ?_⟩
  · exact observe_txns s2
  · rw [watched]
  · exact (observe_mem s2).trans mem
  · exact (observe_queues s2).trans queues

end

end

/-! ### The obligation -/

/-- Settles O43, row by row: what a MOVE's reads meet, then where its tile goes. -/
theorem movesCarryTilesBetweenTiersAndQueues : Obligations.MovesCarryTilesBetweenTiersAndQueues := by
  unfold Obligations.MovesCarryTilesBetweenTiersAndQueues
  intro w u m c err s unit going v n src dst q p met metIn got mine sound room lands failsAt faults stores pushes
  refine ⟨fun job => ⟨fun home ⟨_, lit, free⟩ => ⟨?_, ?_, ?_⟩, fun far ⟨_, lit, free⟩ => ⟨?_, ?_, ?_, ?_⟩, fun lit full => ?_⟩,
    fun job home h bs read => ⟨?_, ?_, ?_, ?_, ?_⟩, fun job home away clean wf tier1 => ⟨?_, ?_, ?_⟩⟩
  · exact fun bs read none => moveIn_pushes unit going job lit free home read none
  · exact fun code d read enabled small => moveIn_faults unit going job lit free home read enabled small
  · exact fun bs d read lost enabled _ => moveIn_meets unit going job lit free home read lost enabled
  · exact fun some all => moveIn_takes unit going job lit free far some all
  · exact fun some part => moveIn_awaits unit going job lit free far some part
  · exact fun none outside enabled _ => moveIn_outside unit going job lit free far none enabled outside
  · exact fun s2 none low high asked => moveIn_asks unit going job lit free far none ⟨low, high⟩ asked
  · exact gives_next (congrArg (fun t => Host.Outcome.next (observe t)) (moveStep_of_full unit going job lit full))
      ⟨observe_mem s, observe_queues s, observe_regs s⟩
  · exact fun d lost enabled _ => moveOut_meets unit going job read lost enabled
  · exact fun none clean land mild => moveOut_stores unit going job read home none rfl clean land mild
  · exact fun x none clean land fails enabled _ => moveOut_fails unit going job read home none rfl clean land fails enabled
  · exact fun none some unmapped enabled _ => moveOut_unmapped unit going job read home none rfl some unmapped enabled
  · exact fun k none bell en ahead lit behind => moveOut_rings unit going job read home none rfl bell ⟨en, ahead, behind⟩ lit
  · exact fun d lost enabled _ => moveCopy_meets unit going job home clean wf tier1 lost enabled
  · exact fun none land mild => moveCopy_stores unit going job home clean wf tier1 none away rfl land mild
  · exact fun x none land fails enabled _ => moveCopy_fails unit going job home clean wf tier1 none away rfl land fails enabled

end Sys2Proof.Machine
end
